-- ==== Sys2Proof/Word.lean ====
section
/-!
DEFINITION. The word types of the GSX-960: a byte, a 64-bit word, and a table of entries by number.
Multi-byte fields of the module's own formats are little-endian (R4) and bit 0 is the least significant bit (R5); the helpers
that read and write them stand in Machine/Bits.lean.
-/
namespace Sys2Proof

/-- A byte. -/
abbrev Byte := BitVec 8

/-- A 64-bit word: a header word, an operand word, a handle, a tile or tier address (R4, R5). -/
abbrev Word := BitVec 64

/-- A table by number: pairs of a key and a value, keys rising; a key that is not listed has the table's default. -/
abbrev Tab (α : Type) := List (Nat × α)

end Sys2Proof
end

