-- ==== Sys2Proof/Machine/Bits.lean ====
section
/-!
DEFINITION. Bit fields, byte order and checks of integrity. Multi-byte fields are little-endian (R4) and bit 0 is the least
significant (R5).
-/
namespace Sys2Proof

/-- Bits `hi` to `lo` of a word, as a number. -/
def bits (w : Word) (hi lo : Nat) : Nat := (w.toNat / 2 ^ lo) % 2 ^ (hi + 1 - lo)

/-- Bit `i` of a word. -/
def bit (w : Word) (i : Nat) : Bool := w.getLsbD i

/-- A field of `width` bits holding `v`, standing at bit `lo`; words are sums of their fields. -/
def at' (v lo width : Nat) : Nat := (v % 2 ^ width) * 2 ^ lo

/-- A flag at bit `lo`. -/
def flagAt (b : Bool) (lo : Nat) : Nat := if b then 2 ^ lo else 0

/-- The word with bits `hi` to `lo` replaced by `v`. -/
def setBits (w : Word) (hi lo v : Nat) : Word :=
  BitVec.ofNat 64 (w.toNat - bits w hi lo * 2 ^ lo + at' v lo (hi + 1 - lo))

/-- The word of a number. -/
def word (n : Nat) : Word := BitVec.ofNat 64 n

/-- The word of all ones: an absent operand (R429). -/
def allOnes : Word := BitVec.allOnes 64

/-- A byte of a number. -/
def byte (n : Nat) : Byte := BitVec.ofNat 8 n

/-- `n` bytes of `v`, least significant first (R4). -/
def leBytes : Nat → Nat → List Byte
  | 0, _ => []
  | n + 1, v => byte v :: leBytes n (v / 256)

/-- The number that bytes spell, least significant first (R4). -/
def leNat : List Byte → Nat
  | [] => 0
  | b :: t => b.toNat + 256 * leNat t

/-- The eight bytes of a word. -/
def wordBytes (w : Word) : List Byte := leBytes 8 w.toNat

/-- The bytes of a list of words. -/
def wordsBytes (l : List Word) : List Byte := (l.map wordBytes).flatten

/-- `n` bytes of the list from offset `o`; bytes past its end read zero. -/
def slice (l : List Byte) (o n : Nat) : List Byte :=
  let t := (l.drop o).take n
  t ++ List.replicate (n - t.length) 0

/-- The number in `n` bytes from offset `o`. -/
def numAt (l : List Byte) (o n : Nat) : Nat := leNat (slice l o n)

/-- The word at byte offset `o`. -/
def wordAt (l : List Byte) (o : Nat) : Word := word (numAt l o 8)

/-- `n` words from byte offset `o`. -/
def wordsAt (l : List Byte) (o n : Nat) : List Word := (List.range n).map (fun k => wordAt l (o + 8 * k))

/-- The value of `n` bits as a signed number. -/
def signed (n v : Nat) : Int := if v < 2 ^ (n - 1) then (v : Int) else (v : Int) - (2 ^ n : Nat)

/-- The `n` bits of a signed number. -/
def unsigned (n : Nat) (v : Int) : Nat := (v % ((2 ^ n : Nat) : Int)).toNat

/-- Round up a quotient. -/
def ceilDiv (a b : Nat) : Nat := (a + b - 1) / b

/-- One bit's turn of the reflected CRC-32C register (polynomial 0x1EDC6F41, reflected 0x82F63B78). -/
def crcBit (c : Nat) : Nat := if c % 2 = 1 then (c / 2) ^^^ 0x82F63B78 else c / 2

/-- One byte's turn of the CRC register. -/
def crcByte (c : Nat) (b : Byte) : Nat :=
  crcBit (crcBit (crcBit (crcBit (crcBit (crcBit (crcBit (crcBit (c ^^^ b.toNat))))))))

/-- CRC-32C of bytes (R410, R411), as published: register of ones, reflected, complemented at the end. -/
def crc32c (l : List Byte) : Nat := (l.foldl crcByte 0xFFFFFFFF) ^^^ 0xFFFFFFFF

/-- The set bits of a number below `n`, rising. -/
def bitsSet (v n : Nat) : List Nat := (List.range n).filter (fun i => v.testBit i)

/-- The largest power of two that is no greater than `x` (chapter 04's P2), 1 for 0. -/
def p2 (x : Nat) : Nat := 2 ^ x.log2

end Sys2Proof
end

