-- ==== Sys2Proof/Machine/Status.lean ====
section
/-!
DEFINITION. The status codes of R432, from the status tables of the chapters in reading order.
-/
namespace Sys2Proof

/-- A status as the module reports it. The names are the manual's; the code is R432's: the chapter whose status table first
lists the name, then the name's ordinal in that table. -/
inductive Status where
  | ok
  | layerOrder
  | handleInvalid
  | handleStale
  | partitionMismatch
  | contextDenied
  | atlasFull
  | atlasQuota
  | admitRefused
  | stepInFlight
  | sessionParked
  | sessionMoving
  | sessionFrozen
  | sessionFaulted
  | sessionNotFrozen
  | sessionCancelled
  | sessionExpired
  | sessionMigrated
  | stepRestart
  | prefixTooLong
  | tierUnreachable
  | migrateFailed
  | parkAbandoned
  | lengthLimit
  | frameShortage
  | refLimit
  | tileRange
  | frameUnreadable
  | modelInvalid
  | modelInUse
  | modelEmpty
  | ropeInvalid
  | ropeBusy
  | queryRange
  | ringConfig
  | partitionEmpty
  | jobLimit
  | jobMember
  | classMismatch
  | jobUnknown
  | jobClosed
  | notInJob
  | contextTornDown
  | contextBusy
  | vocabInvalid
  | grammarInvalid
  | listInvalid
  | vocabInUse
  | grammarInUse
  | listInUse
  | tokenStoreFull
  | bindMismatch
  | grammarStackFull
  | tokensUnbound
  | escapeInUse
  | tokenRejected
  | deadEnd
  | indexUnknown
  | indexInUse
  | indexShape
  | indexNotEmpty
  | indexNoFrame
  | recordRange
  | recordExists
  | recordDeleted
  | indexSealed
  | indexNotSealed
  | indexInPool
  | searchRange
  | searchBusy
  | searchTimeout
  | indexFetchFailed
  | indexFault
  | rangeInvalid
  | rangeBusy
  | poolDenied
  | regionLimit
  | regionOwnerBusy
  | regionUnknown
  | regionLeased
  | versionStale
  | leaseVoid
  | leaseDenied
  | publishLimit
  | publishUnknown
  | rowRange
  | moduleFatal
  | opcodeUnknown
  | opcodeDenied
  | messageTooLong
  | messageMalformed
  | qpLimit
  | qpState
  | timeNotValid
  | retryExceeded
  | qpFlushed
  | responseTimeout
  | wrLimit
  | wrInvalid
  | wrUnknown
  | loadBusy
  | sessionWaiting
  | qpErrorSet
  | sessionShadow
  | nodeInvalid
  | pairNotConfigured
  | pairStateInvalid
  | migrateUnresolved
  | surveyBusy
  | nvAbsent
  | nvUnformatted
  | surveyNoBase
  | surveyDrainQp
  | surveyNoFrame
  | surveyFreezeTimeout
  | surveyNvError
  | surveyNoSpace
  | surveyAborted
  | surveyCommitted
  | restoreState
  | surveyNone
  | shardsIncomplete
  | securityNotReady
  | identityUnavailable
  | firmwareAbsent
  | fwInvalid
  | fwSlotRunning
  | contextInvalid
  | contextExists
  | contextUnknown
  | contextNoKey
  | contextNotConf
  | keyPresent
  | keyNonce
  | keyInvalid
  | confEncRequired
  | confNoKey
  | qpKeyMissing
  | keyExhausted
  | confDenied
  | contextKeyAbsent
  | debugActive
  | scanActive
  | dictReadOnly
  | dictSetupOnly
  | dictType
  | dictMalformed
  | dictTooLarge
  | moduleBusy
  | moduleSetup
  | mgmtEpochStale
  | csrAlign
  | csrRange
  deriving DecidableEq, Repr

/-- The 16-bit code of a status (R432); OK is 0x0000. -/
def Status.code : Status → BitVec 16
  | .ok => 0x0000
  | .layerOrder => 0x0101
  | .handleInvalid => 0x0301
  | .handleStale => 0x0302
  | .partitionMismatch => 0x0303
  | .contextDenied => 0x0304
  | .atlasFull => 0x0305
  | .atlasQuota => 0x0306
  | .admitRefused => 0x0307
  | .stepInFlight => 0x0308
  | .sessionParked => 0x0309
  | .sessionMoving => 0x030A
  | .sessionFrozen => 0x030B
  | .sessionFaulted => 0x030C
  | .sessionNotFrozen => 0x030D
  | .sessionCancelled => 0x030E
  | .sessionExpired => 0x030F
  | .sessionMigrated => 0x0310
  | .stepRestart => 0x0311
  | .prefixTooLong => 0x0312
  | .tierUnreachable => 0x0313
  | .migrateFailed => 0x0314
  | .parkAbandoned => 0x0315
  | .lengthLimit => 0x0401
  | .frameShortage => 0x0402
  | .refLimit => 0x0403
  | .tileRange => 0x0404
  | .frameUnreadable => 0x0405
  | .modelInvalid => 0x0501
  | .modelInUse => 0x0502
  | .modelEmpty => 0x0503
  | .ropeInvalid => 0x0504
  | .ropeBusy => 0x0505
  | .queryRange => 0x0506
  | .ringConfig => 0x0507
  | .partitionEmpty => 0x0701
  | .jobLimit => 0x0702
  | .jobMember => 0x0703
  | .classMismatch => 0x0704
  | .jobUnknown => 0x0705
  | .jobClosed => 0x0706
  | .notInJob => 0x0707
  | .contextTornDown => 0x0708
  | .contextBusy => 0x0709
  | .vocabInvalid => 0x0801
  | .grammarInvalid => 0x0802
  | .listInvalid => 0x0803
  | .vocabInUse => 0x0804
  | .grammarInUse => 0x0805
  | .listInUse => 0x0806
  | .tokenStoreFull => 0x0807
  | .bindMismatch => 0x0808
  | .grammarStackFull => 0x0809
  | .tokensUnbound => 0x080A
  | .escapeInUse => 0x080B
  | .tokenRejected => 0x080C
  | .deadEnd => 0x080D
  | .indexUnknown => 0x0901
  | .indexInUse => 0x0902
  | .indexShape => 0x0903
  | .indexNotEmpty => 0x0904
  | .indexNoFrame => 0x0905
  | .recordRange => 0x0906
  | .recordExists => 0x0907
  | .recordDeleted => 0x0908
  | .indexSealed => 0x0909
  | .indexNotSealed => 0x090A
  | .indexInPool => 0x090B
  | .searchRange => 0x090C
  | .searchBusy => 0x090D
  | .searchTimeout => 0x090E
  | .indexFetchFailed => 0x090F
  | .indexFault => 0x0910
  | .rangeInvalid => 0x0A01
  | .rangeBusy => 0x0A02
  | .poolDenied => 0x0A03
  | .regionLimit => 0x0A04
  | .regionOwnerBusy => 0x0A05
  | .regionUnknown => 0x0A06
  | .regionLeased => 0x0A07
  | .versionStale => 0x0A08
  | .leaseVoid => 0x0A09
  | .leaseDenied => 0x0A0A
  | .publishLimit => 0x0A0B
  | .publishUnknown => 0x0A0C
  | .rowRange => 0x0A0D
  | .moduleFatal => 0x0A0E
  | .opcodeUnknown => 0x0B01
  | .opcodeDenied => 0x0B02
  | .messageTooLong => 0x0B03
  | .messageMalformed => 0x0B04
  | .qpLimit => 0x0B05
  | .qpState => 0x0B06
  | .timeNotValid => 0x0B07
  | .retryExceeded => 0x0B08
  | .qpFlushed => 0x0B09
  | .responseTimeout => 0x0B0A
  | .wrLimit => 0x0B0B
  | .wrInvalid => 0x0B0C
  | .wrUnknown => 0x0B0D
  | .loadBusy => 0x0B0E
  | .sessionWaiting => 0x0B0F
  | .qpErrorSet => 0x0B10
  | .sessionShadow => 0x0C01
  | .nodeInvalid => 0x0C02
  | .pairNotConfigured => 0x0C03
  | .pairStateInvalid => 0x0C04
  | .migrateUnresolved => 0x0C05
  | .surveyBusy => 0x0E01
  | .nvAbsent => 0x0E02
  | .nvUnformatted => 0x0E03
  | .surveyNoBase => 0x0E04
  | .surveyDrainQp => 0x0E05
  | .surveyNoFrame => 0x0E06
  | .surveyFreezeTimeout => 0x0E07
  | .surveyNvError => 0x0E08
  | .surveyNoSpace => 0x0E09
  | .surveyAborted => 0x0E0A
  | .surveyCommitted => 0x0E0B
  | .restoreState => 0x0E0C
  | .surveyNone => 0x0E0D
  | .shardsIncomplete => 0x0E0E
  | .securityNotReady => 0x0F01
  | .identityUnavailable => 0x0F02
  | .firmwareAbsent => 0x0F03
  | .fwInvalid => 0x0F04
  | .fwSlotRunning => 0x0F05
  | .contextInvalid => 0x0F06
  | .contextExists => 0x0F07
  | .contextUnknown => 0x0F08
  | .contextNoKey => 0x0F09
  | .contextNotConf => 0x0F0A
  | .keyPresent => 0x0F0B
  | .keyNonce => 0x0F0C
  | .keyInvalid => 0x0F0D
  | .confEncRequired => 0x0F0E
  | .confNoKey => 0x0F0F
  | .qpKeyMissing => 0x0F10
  | .keyExhausted => 0x0F11
  | .confDenied => 0x0F12
  | .contextKeyAbsent => 0x0F13
  | .debugActive => 0x0F14
  | .scanActive => 0x0F15
  | .dictReadOnly => 0x1001
  | .dictSetupOnly => 0x1002
  | .dictType => 0x1003
  | .dictMalformed => 0x1004
  | .dictTooLarge => 0x1005
  | .moduleBusy => 0x1006
  | .moduleSetup => 0x1007
  | .mgmtEpochStale => 0x1008
  | .csrAlign => 0x1101
  | .csrRange => 0x1102

end Sys2Proof
end

