-- ==== Sys2Proof/Machine/Tables.lean ====
section
/-!
DEFINITION. Sparse tables by number, kept with keys rising. A table of the machine (Atlas entries, frames, queue pairs, memory
bytes) lists only what differs from its default.
-/
namespace Sys2Proof
namespace Tab

/-- What the table lists at key `k`. -/
def find {α : Type} : Tab α → Nat → Option α
  | [], _ => none
  | (i, a) :: t, k => if i = k then some a else find t k

/-- What the table holds at key `k`, `d` where it lists nothing. -/
def get {α : Type} (t : Tab α) (k : Nat) (d : α) : α := (find t k).getD d

/-- The table with `a` at key `k`. -/
def put {α : Type} : Tab α → Nat → α → Tab α
  | [], k, a => [(k, a)]
  | (i, b) :: t, k, a =>
    if i = k then (k, a) :: t
    else if k < i then (k, a) :: (i, b) :: t
    else (i, b) :: put t k a

/-- The table without key `k`. -/
def drop {α : Type} (t : Tab α) (k : Nat) : Tab α := t.filter (fun e => !(e.1 == k))

/-- The table with `f` applied at key `k`, if `k` is listed. -/
def edit {α : Type} (t : Tab α) (k : Nat) (f : α → α) : Tab α :=
  match find t k with
  | some a => put t k (f a)
  | none => t

/-- The keys listed. -/
def keys {α : Type} (t : Tab α) : List Nat := t.map Prod.fst

/-- The values listed. -/
def vals {α : Type} (t : Tab α) : List α := t.map Prod.snd

/-- The table with `f` applied to every listed value. -/
def mapVals {α : Type} (t : Tab α) (f : α → α) : Tab α := t.map (fun e => (e.1, f e.2))

/-- The keys whose value meets `p`, rising. -/
def keysWhere {α : Type} (t : Tab α) (p : α → Bool) : List Nat := (t.filter (fun e => p e.2)).map Prod.fst

/-- Whether the keys rise strictly. -/
def rising {α : Type} : Tab α → Bool
  | [] => true
  | [_] => true
  | (i, _) :: (j, b) :: t => decide (i < j) && rising ((j, b) :: t)

end Tab

/-- The least number from `lo`, at most `n` of them tried, that `p` accepts. -/
def leastFrom (p : Nat → Bool) (lo : Nat) : Nat → Option Nat
  | 0 => none
  | n + 1 => if p lo then some lo else leastFrom p (lo + 1) n

/-- The least number from `lo` up to `hi` that does not stand in `used`. The search tries one more number than `used` holds,
which always suffices. -/
def leastUnused (used : List Nat) (lo hi : Nat) : Option Nat :=
  (leastFrom (fun k => !(used.contains k)) lo (used.length + 1)).filter (· ≤ hi)

/-- Insert `x` before the first element that `before x` puts after it. -/
def insertBy {α : Type} (before : α → α → Bool) (x : α) : List α → List α
  | [] => [x]
  | y :: t => if before x y then x :: y :: t else y :: insertBy before x t

/-- Sort by repeated insertion; equal elements keep their order. -/
def sortBy {α : Type} (before : α → α → Bool) (l : List α) : List α :=
  l.foldl (fun acc x => insertBy before x acc) []

/-- The list without the repeats of an element. -/
def distinct (l : List Nat) : List Nat := l.foldl (fun acc x => if acc.contains x then acc else acc ++ [x]) []

/-- Fold `f` over the numbers `0` to `n - 1`. -/
def foldRange {β : Type} (n : Nat) (f : β → Nat → β) (b : β) : β := (List.range n).foldl f b

/-- The list in pieces of `n` elements, at most `fuel` of them. -/
def chunks {α : Type} (n : Nat) : Nat → List α → List (List α)
  | 0, _ => []
  | fuel + 1, l => if l.isEmpty then [] else l.take n :: chunks n fuel (l.drop n)

end Sys2Proof
end

