-- ==== Sys2Proof/Machine/Wire.lean ====
section
/-!
DEFINITION. What travels on Derter Link: messages, packets, and the state of ports and queue pairs (chapters 11 and 13).
-/
namespace Sys2Proof

/-- A message (R428, R429): the header's fields, its operand words, and the rest of the body. `cut` marks a body that ends before
the operand words its header counts, `cameBy` the port and class its last packet arrived by (R24). -/
structure Msg where
  qp : Nat := 0
  opcode : BitVec 16
  status : BitVec 16 := 0
  tag : BitVec 32 := 0
  handle : Word := 0
  job : BitVec 16 := 0
  args : Word := 0
  ops : List Word := []
  body : List Byte := []
  cut : Bool := false
  cameBy : Option (Nat × Nat) := none
  deriving DecidableEq, Repr

/-- A packet (R410, R411): its four header words, and the bytes of its data blocks, padding included. -/
structure Packet where
  h0 : Word
  h1 : Word
  h2 : Word
  h3 : Word
  data : List Byte
  deriving DecidableEq, Repr

/-- Queue pair states (R416, Q0 `STATE`). -/
inductive QpState where
  | reset | ready | error
  deriving DecidableEq, Repr

/-- A packet's content before it takes a PSN: its type, segment marks and message header block, payload, address, trigger counter,
the context whose confidential data it carries on a peer service queue pair (R571), the work request and transfer it serves,
and of a tile of the pool its channel and the host identity it presents (R348, R357);
of a packet that has arrived its port and class; of a mask's last packet when the mask was granted (R307). -/
structure Outgoing where
  ptype : Nat
  first : Bool := false
  last : Bool := false
  header : List Byte := []
  payload : List Byte := []
  addr : Word := 0
  counter : Nat := 0
  ringPass : Bool := false
  conf : Option Nat := none
  wr : Option Nat := none
  transfer : Option Nat := none
  pool : Option (Nat × Nat) := none
  cameBy : Option (Nat × Nat) := none
  grant : Option Nat := none
  deriving DecidableEq, Repr

/-- A packet that the sender has sent and that no acknowledgement has retired (R423 to R425). `ext` is its extended PSN, `fastAt` when it was
last repeated under R424. -/
structure Unacked where
  psn : Nat
  ext : Nat
  what : Outgoing
  fastAt : Option Nat := none
  deriving DecidableEq, Repr

/-- The message being assembled from its segments (R428, R430). -/
structure OpenMsg where
  header : List Byte
  payload : List Byte
  tooLong : Bool := false
  deriving DecidableEq, Repr

/-- A queue pair's context Q0 to Q3 (R416) and what it keeps beside it: whether `QP_CREATE` made it, packets in flight, waiting
and held out of order (by extended PSN), the open message, the acknowledgement state of R422, the repeat timer, and the salts and PSN counts of R567 and
R569. -/
structure Qp where
  state : QpState := .reset
  kind : Nat := 1
  bound : Bool := false
  context : Nat := 0
  tclass : Nat := 0
  port : Nat := 0
  enc : Bool := false
  peerNode : Nat := 0
  peerQp : Nat := 0
  sndNxt : Nat := 0
  sndUna : Nat := 0
  windowM1 : Nat := 0
  rcvNxt : Nat := 0
  rtoUs : Nat := 0
  retries : Nat := 0
  errorStatus : BitVec 16 := 0
  created : Bool := false
  unacked : List Unacked := []
  backlog : List Outgoing := []
  stored : Tab Outgoing := []
  assembling : Option OpenMsg := none
  arrivals : Nat := 0
  oldest : Option Nat := none
  timer : Option Nat := none
  sndSalt : Word := 0
  rcvSalt : Word := 0
  salted : Bool := false
  sndWraps : Nat := 0
  rcvWraps : Nat := 0
  deriving DecidableEq, Repr

/-- Port states (the port states table before R400), in the order of `LINK_STATE`'s codes. -/
inductive LinkState where
  | down | train | lock | deskew | credit | up
  deriving DecidableEq, Repr

/-- A packet in a class queue: when it joined, whether it is a repeat (R483), whether it enters a dimension
(R453), the port a forwarded packet arrived on, whether it has been counted as waiting for credit, its shaper or its gate,
and of a mask's last packet when the mask was granted (R307). -/
structure Queued where
  packet : Packet
  joined : Nat
  repeated : Bool := false
  entering : Bool := false
  cameBy : Option Nat := none
  stalled : Bool := false
  held : Bool := false
  guarded : Bool := false
  grant : Option Nat := none
  deriving DecidableEq, Repr

/-- A token bucket (R490, R499): tokens, remainder, time stamp. -/
structure Bucket where
  t : Int
  r : Nat := 0
  last : Nat := 0
  deriving DecidableEq, Repr

/-- A gate control list with its times (R492). -/
structure GateList where
  entries : List (Nat × Nat)
  base : Nat
  cycle : Nat
  change : Nat
  deriving DecidableEq, Repr

/-- An egress class of a port: its queue, deficit, shaper and counts for sampling (R486 to R491, R504). -/
structure EgressClass where
  queue : List Queued := []
  deficit : Nat := 0
  wasStrict : Bool := true
  shaper : Bucket := { t := 0 }
  refill : Bool := true
  sent : Nat := 0
  maxAge : Nat := 0
  deriving DecidableEq, Repr

/-- An ingress meter's two buckets (R499, R500). -/
structure Meter where
  tc : Bucket := { t := 0 }
  tp : Bucket := { t := 0 }
  refill : Bool := true
  deriving DecidableEq, Repr

/-- One class's credit counts (R402, R403): packets sent, the last count received, buffers freed, packets in the receive buffers. -/
structure Credit where
  sent : Nat := 0
  limit : Nat := 0
  freed : Nat := 0
  inUse : Nat := 0
  deriving DecidableEq, Repr

/-- A port: its link state and bring-up, credit counts, egress and meters; the times of uncorrectable codewords of the last millisecond by
lane (R400); the scheduler's turn. `classes`, `credits` and `meters` are by class 0 to 7; gate lists stand with their T (R493). -/
structure Port where
  state : LinkState := .down
  since : Nat := 0
  creditSent : Bool := false
  creditGot : Bool := false
  badCodewords : Tab (List Nat) := []
  turn : Nat := 7
  classes : Tab EgressClass := []
  credits : Tab Credit := []
  meters : Tab Meter := []
  running : Option (GateList × Nat) := none
  coming : Option (GateList × Nat) := none
  interval : Nat := 0
  deriving DecidableEq, Repr

/-- Queue sampling (R503 to R507): the host range while it runs, record positions written, records gathered with the time of the first, the
sample time taken last, whether records were lost. -/
structure Sampler where
  range : Option Nat := none
  wr : Nat := 0
  tile : List (List Byte) := []
  firstAt : Nat := 0
  lastAt : Nat := 0
  lost : Bool := false
  deriving DecidableEq, Repr

end Sys2Proof
end

