-- ==== Sys2Proof/Machine/Dictionary.lean ====
section
/-!
DEFINITION. What a dictionary command brings (chapter 16): the path it came by, one item, or a whole PDU or frame.
-/
namespace Sys2Proof

/-- The path of a dictionary item: the mailbox request's tag, or a station's frame with its source address and `SEQ`. -/
inductive DictPath where
  | mailbox (tag : BitVec 32)
  | station (source : List Byte) (station seq : Nat)
  deriving DecidableEq, Repr

/-- A dictionary item (R600). `op` is 1 READ, 2 WRITE, 3 DESCRIBE. -/
structure DictItem where
  index : Nat
  sub : Nat
  op : Nat
  offset : Nat := 0
  length : Nat := 0
  value : List Byte := []
  deriving DecidableEq, Repr

/-- A request taken whole (R603): a mailbox message or a management frame. -/
inductive DictRequest where
  | mailbox (m : Msg)
  | frame (f : List Byte)
  deriving DecidableEq, Repr

end Sys2Proof
end

