-- ==== Sys2Proof/Machine/Sessions.lean ====
section
/-!
DEFINITION. Sessions: Atlas entries, session records, page maps, frame table entries, steps and query blocks in flight
(chapters 03, 04, 05, 08), step jobs and contexts (chapters 07 and 15).
-/
namespace Sys2Proof

/-- Session state codes 0 to 8 (the session state codes table, R64). -/
inductive SessState where
  | free | ready | active | waiting | parked | moving | frozen | faulted | tombstone
  deriving DecidableEq, Repr

/-- Reason codes 0 to 7 (the reason codes table). -/
inductive Reason where
  | none | hostPark | demoted | preempted | deadEnd | cancelled | expired | migrated
  deriving DecidableEq, Repr

/-- An Atlas entry (R65). Its `INNINGS` field is the low 16 bits of the record's. -/
structure Entry where
  state : SessState := .free
  partition : Nat := 0
  generation : Nat := 0
  mirrored : Bool := false
  conf : Bool := false
  cancelPending : Bool := false
  waitPending : Bool := false
  reviving : Bool := false
  deriving DecidableEq, Repr

/-- A session record, W0 to W16 (the session record table). Service class 0 is latency-critical and 1 best-effort. -/
structure Record where
  handle : Word := 0
  context : Nat := 0
  cls : Nat := 0
  returnState : SessState := .free
  modelSlot : Nat := 0
  reason : Reason := .none
  innings : Nat := 0
  stepSeq : Nat := 0
  length : Nat := 0
  mapTier : Nat := 0
  mapAddr : Nat := 0
  parent : Word := 0
  childCount : Nat := 0
  prefixLen : Nat := 0
  createdNs : Nat := 0
  lastStepNs : Nat := 0
  timerNs : Nat := 0
  demoteMs : Nat := 0
  ttlS : Nat := 0
  flags : Word := 0
  faultCode : Nat := 0
  faultFrame : Nat := 0
  grammar : Word := 0
  tokenCarry : Word := 0
  residentPages : Nat := 0
  totalPages : Nat := 0
  lease : Word := 0
  seqLists : Word := 0
  deriving DecidableEq, Repr

/-- A page map entry (the page map entry table). -/
structure PageEntry where
  tier : Nat := 3
  dirty : Bool := false
  homeValid : Bool := false
  homeTier : Nat := 0
  homeSlot : Nat := 0
  frame : Nat := 0
  deriving DecidableEq, Repr

/-- Frame states (the frame table entry's `STATE`). -/
inductive FrameState where
  | absent | free | kv | filling | record | map | index | retired
  deriving DecidableEq, Repr

/-- A frame table entry. -/
structure Frame where
  state : FrameState
  context : Nat := 0
  refCount : Nat := 0
  owner : Nat := 0
  deriving DecidableEq, Repr

/-- Where a layer of a step, or a query block, stands in the pipeline (R23): it waits for a rotary load (R166), for a frame
(R130), for the append's acknowledgement (R26), for its merge (R205), for its partials, for its release (R203), or the step
waits for its next layer; a restored step waits for its queue pair (R537). -/
inductive LayerPhase where
  | waitRope | waitFrame | appended | ready | merging | formed | idle | held
  deriving DecidableEq, Repr

/-- A step in flight: the `STEP` that opened it, its layer under way, what discarding it needs (R131), its token-side values until
it ends (R299), the mirror sequences its releases wait for (R470), how many rotary loads were granted before it opened (R166). -/
structure Step where
  qp : Nat
  tag : BitVec 32
  outQp : Nat
  outTag : BitVec 32
  job : Nat
  seq0 : Nat
  len0 : Nat
  layer : Nat := 0
  phase : LayerPhase := .appended
  query : List Byte := []
  kv : List Byte := []
  waitUntil : Option Nat := none
  layersAppended : Nat := 0
  freshPages : List Nat := []
  grammar : Word := 0
  tokenCarry : Word := 0
  seqLists : Word := 0
  reserved : Option Nat := none
  taken : List Nat := []
  emptied : List Nat := []
  deadEnd : Bool := false
  mergeWaited : Bool := false
  mirrorAt : Nat := 0
  mirrorWaited : Bool := false
  output : List Byte := []
  ending : Bool := false
  masked : Bool := false
  waitMs : Option Nat := none
  heldPhase : LayerPhase := .idle
  resumeBy : Nat := 0
  ropeSeq : Nat := 0
  flushes : List (Nat × BitVec 32) := []
  deriving DecidableEq, Repr

/-- A query block outstanding (R154). `rows` are output rows that ring members returned (R461). -/
structure QBlock where
  qp : Nat
  tag : BitVec 32
  job : Nat
  layer : Nat
  first : Nat
  count : Nat
  phase : LayerPhase := .ready
  query : List Byte := []
  mergeWaited : Bool := false
  output : List Byte := []
  rows : Tab (List Byte) := []
  deriving DecidableEq, Repr

/-- What a move beneath copies (R362): a page by key, or the map image; its new slots; tiles not yet written. -/
structure BeneathCopy where
  key : Option Nat
  slots : List Nat
  left : Nat
  deriving DecidableEq, Repr

/-- A park to `tier` that ends with `reason` (R353): the `PARK`'s queue pair and tag (R694); pages still to be issued, in order; tiles
in flight; slots taken whose pages are not yet home, by key; whether the map image is issued; its slots; tiles issued so far. -/
structure ParkMove where
  tier : Nat
  reason : Reason
  cmd : Option (Nat × BitVec 32) := none
  todo : List Nat := []
  flying : List Nat := []
  slots : Tab Nat := []
  mapIssued : Bool := false
  mapSlots : List Nat := []
  mapFlying : Nat := 0
  issued : Nat := 0
  failed : Bool := false
  deriving DecidableEq, Repr

/-- The source's side of a migration (R463): destination node and partition, the `MIGRATE`'s queue pair and tag, the remaining time
of the timer it stopped, whether the destination answered and the handle it gave, the pages still to be sent. -/
structure SourceMove where
  node : Nat
  part : Nat
  qp : Nat
  tag : BitVec 32
  remaining : Option Nat := none
  opened : Bool := false
  newHandle : Word := 0
  todo : List Nat := []
  failed : Bool := false
  deriving DecidableEq, Repr

/-- The destination's side (R463, R465): source node, the state to enter, the source's innings and remaining time, whether the entry is
held after the queue pair's error, the tiles that have come of each page, by its key, as bits. -/
structure DestMove where
  node : Nat
  back : SessState
  innings : Nat
  remaining : Option Nat
  held : Bool := false
  got : Tab Nat := []
  deriving DecidableEq, Repr

/-- Work of a ring member for a home (R460, R461): the home's member number, merge tag and innings, the layer, whether it is prefill, query
positions and their rows. -/
structure RingWork where
  home : Nat
  mergeTag : Nat
  innings : Nat
  layer : Nat
  prefill : Bool
  first : Nat := 0
  positions : List Nat
  query : List Byte
  waited : Bool := false
  deriving DecidableEq, Repr

/-- Why a session is MOVING (R72). -/
inductive Move where
  | park (p : ParkMove)
  | source (m : SourceMove)
  | dest (m : DestMove)
  deriving DecidableEq, Repr

/-- A revival's fetches (R260): the order of its `RESUME` and turns taken (R263), the tier and slots of its map image, the tier and slot of
each page not yet arrived, tiles of the root and of each leaf not yet arrived, what is still to be issued in order (0 the root, 1 a leaf by
root index, 2 a page by key), tiles issued so far, and the length at the `RESUME`. -/
structure Revive where
  length : Nat
  order : Nat
  turn : Nat
  tier : Nat
  mapSlots : List Nat
  slots : Tab (Nat × Nat) := []
  rootLeft : Nat := 16
  leafLeft : Tab Nat
  todo : List (Nat × Nat)
  issued : Nat := 0
  deriving DecidableEq, Repr

/-- A shadow's side of mirroring (R467, R472). -/
structure Shadow where
  copied : Bool := false
  deriving DecidableEq, Repr

/-- A session: its Atlas entry, record, page map and what is under way. Of ring prefill (R189, R190): frames of circulating blocks, the layer
that goes round, tiles of it still to come, tiles that came before it was known, own tiles still to be sent as layer, head and group, the
session's index at the next member, and at a home its index at each member. `inherited` lists the keys of pages shared with a parent that the
session has not written yet. -/
structure Session where
  entry : Entry := {}
  record : Record := {}
  withheld : Bool := false
  tombAt : Nat := 0
  parkedAt : Nat := 0
  inningsAt : Option Nat := none
  inningsDue : Nat := 0
  holdoffUntil : Nat := 0
  move : Option Move := none
  revive : Option Revive := none
  step : Option Step := none
  qblock : Option QBlock := none
  qwait : List QBlock := []
  ringWork : List RingWork := []
  passPages : Tab Nat := []
  passLayer : Option Nat := none
  passLeft : Nat := 0
  passEarly : Nat := 0
  passTodo : List (Nat × Nat × Nat) := []
  passNext : Option Nat := none
  ringPeers : Tab Nat := []
  ended : Option Status := none
  timerOn : Bool := false
  shadow : Option Shadow := none
  mirrorRefused : Bool := false
  root : Option Nat := none
  leaves : Tab Nat := []
  pages : Tab PageEntry := []
  inherited : List Nat := []
  mapHome : List (Nat × Nat) := []
  reservedSeg : Option Nat := none
  beneath : List Nat := []
  beneathMap : Bool := false
  copy : Option BeneathCopy := none
  ringHome : Option (Nat × Nat × Nat) := none
  deriving DecidableEq, Repr

/-- Job kinds (R236). -/
inductive JobKind where
  | decode | prefill
  deriving DecidableEq, Repr

/-- A step job. `members` are Atlas indices; times are network times. -/
structure Job where
  partition : Nat
  context : Nat
  cls : Nat
  kind : JobKind
  members : List Nat
  closed : Bool := false
  eligibleAt : Option Nat := none
  heldAt : Option Nat := none
  idleAt : Option Nat := none
  cutting : Bool := false
  deriving DecidableEq, Repr

/-- A partition's dispatch state: the holding job, the context of the last grant, the role governor's share and times, the pseudo-channels for
which it pre-empts (R256). -/
structure Part where
  holder : Option Nat := none
  lastContext : Nat := 4095
  rho : Nat := 0
  wp : Nat := 0
  prefillHeld : Nat := 0
  wd : Nat := 0
  short : List Nat := []
  deriving DecidableEq, Repr

/-- Context modes (R551). -/
inductive CtxMode where
  | none | open_ | pending | confidential
  deriving DecidableEq, Repr

/-- A context: its mode, partition, mark of teardown, nonce, key slot (R556, R561) and escape set (R293). -/
structure Context where
  mode : CtxMode := .none
  partition : Nat := 0
  tornDown : Bool := false
  nonce : Option (List Byte) := none
  kx : List Byte := []
  kl : List Byte := []
  ks : List Byte := []
  keyCheck : Word := 0
  escapes : List Nat := []
  deriving DecidableEq, Repr

end Sys2Proof
end

