-- ==== Sys2Proof/Machine/Attention.lean ====
section
/-!
DEFINITION. Fielders and catchers: model slots, rotary tables, units, partials and merges (chapters 05 and 06).
-/
namespace Sys2Proof

/-- A layer entry of a model slot (R147). -/
structure LayerEntry where
  scale : BitVec 32 := 0
  softcap : BitVec 32 := 0
  window : Nat := 0
  sinks : Nat := 0
  ropeTable : Nat := 0
  ropeOn : Bool := false
  deriving DecidableEq, Repr

/-- A model slot (R147); `layers` 0 marks it empty. Formats: 0 BF16, 1 FP16, 2 FP32. -/
structure Model where
  layers : Nat := 0
  kvHeads : Nat := 0
  group : Nat := 0
  headCode : Nat := 0
  kvFormat : Nat := 0
  qFormat : Nat := 0
  outFormat : Nat := 0
  tag : Word := 0
  entries : List LayerEntry := []
  deriving DecidableEq, Repr

/-- A rotary table (R157). -/
structure Rope where
  pairs : Nat := 0
  split : Bool := false
  freq : List Word := []
  deriving DecidableEq, Repr

/-- A rotary load that waits (R166): its table and image, the command's queue pair and tag, its deadline, its place
in the order of the loads. -/
structure RopeLoad where
  table : Nat
  image : Rope
  qp : Nat
  tag : BitVec 32
  deadline : Nat
  order : Nat := 0
  deriving DecidableEq, Repr

/-- One query head's part of a partial: running maximum, running sum, accumulator, all FP32 (R171). -/
structure HeadPart where
  m : BitVec 32
  l : BitVec 32
  acc : List (BitVec 32)
  deriving DecidableEq, Repr

/-- A partial's payload and its flags (R172, R173). -/
structure Partial where
  heads : List HeadPart
  nan : Bool := false
  empty : Bool := false
  deriving DecidableEq, Repr

/-- A unit of work: one KV head, one key block, one query position (as its offset). -/
structure WorkUnit where
  fielder : Nat
  head : Nat
  block : Nat
  qoff : Nat
  deriving DecidableEq, Repr

/-- A partial on its way: its tag (R176), and what it names. -/
structure Emitted where
  tag : BitVec 96
  catcher : Nat
  index : Nat
  innings : Nat
  layer : Nat
  unit : WorkUnit
  value : Partial
  deriving DecidableEq, Repr

/-- A merge (R204 to R212): whose it is, its blocks and window, the units not yet started, the leaves and segment nodes it has
accepted, the fielders that hold an assignment, whose withdrawal it awaits. `home` is the home's member number and merge tag when this module works as a ring member, `sent` the
segment partials it has sent, `homeFrontier` the home's segment frontier (R211, R212). -/
structure Merge where
  catcher : Nat
  index : Nat
  innings : Nat
  layer : Nat
  job : Nat
  prefill : Bool
  first : Nat
  count : Nat
  blocks : List Nat
  hg : Nat
  wb : Nat
  ws : Nat
  passSize : Nat
  pass : Nat := 0
  eta : Nat := 0
  reserve : Nat
  todo : List WorkUnit
  fielders : List Nat := []
  leaves : List (WorkUnit × Partial) := []
  segments : List Nat := []
  segNodes : List ((Nat × Nat × Nat) × Partial) := []
  closing : Bool := false
  awaiting : List Nat := []
  frontier : Nat := 0
  home : Option (Nat × Nat) := none
  homeFrontier : Nat := 0
  sent : List (Nat × Nat × Nat) := []
  query : List Byte := []
  positions : List Nat := []
  deriving DecidableEq, Repr

/-- A Compass slice (R331): one centroid frame, or one frame of a list, with the frame it reads, the entries in it, and whether the frame is a
staging frame (R336). -/
structure Slice where
  coarse : Bool
  list : Nat
  ord : Nat
  frame : Nat
  entries : Nat
  staged : Bool := false
  deriving DecidableEq, Repr

/-- A fielder: up to four partials in its emitter (R215), the tile it waits for as frame and tile number (R180), the Compass search and
slice it runs (R184). -/
structure Fielder where
  emitter : List Emitted := []
  waiting : Option (Nat × Nat) := none
  slice : Option (Nat × Slice) := none
  deriving DecidableEq, Repr

/-- A catcher's input buffer, at most 64 partials in arrival order (R213, R214). -/
structure Catcher where
  input : List Emitted := []
  deriving DecidableEq, Repr

end Sys2Proof
end

