-- ==== Sys2Proof/Machine/Peers.lean ====
section
/-!
DEFINITION. Peer messages, tile writes and the doubles pair (chapters 11 and 12). The manual lays out `SEG_PARTIAL` and
`SEG_FRONTIER` alone; the other peer messages stand here by their content (log entry 20).
-/
namespace Sys2Proof

/-- Kinds of table loaded in pieces (R439). -/
inductive LoadKind where
  | vocab | grammar | list
  deriving DecidableEq, Repr

/-- A TILE_WRITE as delivered (R436): the queue pair it arrived on, its address, `COUNTER`, `RING_PASS` and 4,096 bytes,
and the port and class it came by (R24). -/
structure TileWrite where
  qp : Nat
  addr : Word
  counter : Nat := 0
  ringPass : Bool := false
  data : List Byte
  cameBy : Option (Nat × Nat) := none
  deriving DecidableEq, Repr

/-- How a tile's way to or from a tier ended (R358, R359): done, with the bytes read; the tier reported the data uncorrectable; the pool
switch refused the access. -/
inductive TileResult where
  | done (data : List Byte)
  | uncorrectable
  | refused
  deriving DecidableEq, Repr

/-- `RING_JOIN` (R457): the home's handle, and the context, model slot and class of the session, the key check of a confidential context
(R575). -/
structure RingJoin where
  home : Word
  context : Nat
  modelSlot : Nat
  cls : Nat
  key : Option Word := none
  parent : Word := 0
  prefixLen : Nat := 0
  deriving DecidableEq, Repr

/-- The command that a `RING_CMD` applies to a member's part (R458): its opcode and operands, the session's `LENGTH` (log entry 41). -/
structure RingCmd where
  home : Word
  opcode : BitVec 16
  ops : List Word := []
  length : Nat := 0
  deriving DecidableEq, Repr

/-- `RING_APPEND` (R460): one layer's new K and V for a global position. -/
structure RingAppend where
  home : Word
  layer : Nat
  position : Nat
  kv : List Byte
  deriving DecidableEq, Repr

/-- `RING_QUERY` and `RING_QBLOCK` (R460, R461): the unrotated queries of one layer at global positions, the home's merge tag and
innings; of a `RING_QBLOCK` the session's `LENGTH` and its index at the member that follows in the ring (log entry 41). -/
structure RingQuery where
  home : Word
  layer : Nat
  mergeTag : Nat
  innings : Nat
  first : Nat
  positions : List Nat
  query : List Byte
  length : Nat := 0
  next : Nat := 0
  deriving DecidableEq, Repr

/-- `SEG_PARTIAL` (R461): its operand words, and the segment partial. -/
structure SegPartial where
  mergeTag : Nat
  innings : Nat
  sentNs : Nat
  layer : Nat
  head : Nat
  segment : Nat
  level : Nat
  qoff : Nat
  value : Partial
  deriving DecidableEq, Repr

/-- `RING_OUTPUT` (R461): output rows by global position. -/
structure RingOutput where
  home : Word
  layer : Nat
  rows : List (Nat × List Byte)
  deriving DecidableEq, Repr

/-- `MIGRATE_OPEN` (R463): the record, the entry's partition at the destination, the tags the destination must hold, and
the key check of a confidential context (R575). -/
structure MigrateOpen where
  record : Record
  partition : Nat
  modelTag : Word
  imageTags : List (LoadKind × Nat × Word)
  pages : Tab PageEntry := []
  key : Option Word := none
  deriving DecidableEq, Repr

/-- What a mirror item carries (R469, R472, R476). A `MIRROR_APPEND` brings one position of a layer, or rows of one page by position, T slices of
256 bytes each (R138): those that a tile write wrote, or all of a page that a revival has brought back (log entry 38). -/
inductive MirrorBody where
  | update (entry : Entry) (record : Record) (modelTag : Word) (imageTags : List (LoadKind × Nat × Word)) (key : Option Word)
  | map (changes : List (Nat × PageEntry))
  | append (layer position : Nat) (kv : List Byte)
  | rows (key : Nat) (entry : PageEntry) (rows : List (Nat × List Byte)) (whole : Bool)
  | stepEnd (stepSeq length : Nat) (grammar carry lists : Word)
  | page (key : Nat) (entry : PageEntry) (data : List Byte)
  deriving DecidableEq, Repr

/-- A mirror item: its mirror sequence and the Atlas index it concerns. -/
structure MirrorItem where
  seq : Nat
  index : Nat
  body : MirrorBody
  deriving DecidableEq, Repr

/-- A peer request or message as the module sends it. -/
inductive PeerMsg where
  | ringJoin (r : RingJoin)
  | ringCmd (r : RingCmd)
  | migrateOpen (o : MigrateOpen)
  | migrateCommit (handle : Word)
  | migrateAbort (handle : Word)
  | ringAppend (r : RingAppend)
  | ringQuery (r : RingQuery)
  | ringQblock (r : RingQuery)
  | ringOutput (r : RingOutput)
  | segPartial (p : SegPartial)
  | segFrontier (mergeTag innings frontier : Nat)
  | mirror (i : MirrorItem)
  | mirrorAck (seq : Nat) (refused : Option Nat)
  | pairBeat
  | salt (w : Word)
  deriving DecidableEq, Repr

/-- What the module has sent, as a party outside sees it (log entry 12): a message, a peer message to a node, a tile request or tile
write on a queue pair, for the pool with its channel (R357) and the host identity it presents (R348), or a management frame; on the lanes a packet that leaves a port, a CREDIT block's counts and a DELAY_REQ; an NVMe
command as its submission queue entry, with the data it writes. -/
inductive Sent where
  | msg (m : Msg)
  | peer (node : Nat) (qp : Nat) (tag : BitVec 32) (p : PeerMsg)
  | tile (qp : Nat) (ptype : Nat) (addr : Word) (counter : Nat) (data : List Byte) (pool : Option (Nat × Nat))
  | frame (f : List Byte)
  | packet (port : Nat) (p : Packet)
  | credit (port : Nat) (counts : List Nat)
  | delayReq
  | nvme (entry : List Byte) (data : List Byte)
  deriving DecidableEq, Repr

/-- States of the doubles pair, 0 to 5 (`PAIR_STATE`). -/
inductive PairState where
  | none | syncing | paired | stalled | takenOver | detached
  deriving DecidableEq, Repr

/-- The doubles pair: its state, adopted node, mirror sequences sent, acknowledged and applied, the bytes of items not yet acknowledged, last
beat heard and sent, when the partner's port lost signal, the initial copies under way: session, mirror sequence, whether it is a page. -/
structure Pair where
  state : PairState := .none
  adopted : Option Nat := none
  sent : Nat := 0
  acked : Nat := 0
  applied : Nat := 0
  items : List (Nat × Nat) := []
  heardAt : Nat := 0
  sentAt : Nat := 0
  lostAt : Option Nat := none
  sync : List (Nat × Nat × Bool) := []
  deriving DecidableEq, Repr

/-- An answer that a command of a ring home still awaits (R458): member node, the command's queue pair, tag, opcode, the handle
to answer with, statuses that came back by member, members still to answer, what a `FORK` is refused with once they have (R79). -/
structure RingWait where
  index : Nat
  qp : Nat
  tag : BitVec 32
  opcode : BitVec 16
  answer : Word
  got : List (Nat × BitVec 16)
  left : List Nat
  refusal : Option (BitVec 16) := none
  deriving DecidableEq, Repr

end Sys2Proof
end

