-- ==== Sys2Proof/Machine/Readings.lean ====
section
/-!
DEFINITION. What sensors and pace monitors report (chapters 02 and 18).
-/
namespace Sys2Proof

/-- What the pace governor reads at the end of an update interval: input power averaged over the interval (R44), VIN and its current, the
17 temperatures in °C (domains 0 to 8, then stacks 0 to 7), and for each domain the rate in kHz at which its monitor handshakes at each of the
33 voltages from 680 mV in steps of 5 mV (log entry 17). -/
structure PaceReadings where
  inputW : Nat
  vinMv : Nat := 42000
  vinMa : Nat := 0
  celsius : List Int := []
  rates : List (List Nat) := []
  deriving DecidableEq, Repr

end Sys2Proof
end

