-- ==== Sys2Proof/Machine/TokenTables.lean ====
section
/-!
DEFINITION. The token side's tables: vocabularies, grammars, sequence lists, staged pieces, stack segments, mask requests (chapter 08).
-/
namespace Sys2Proof

/-- A vocabulary image (R276): nodes are trie node words; token t's string runs from offset t to offset t + 1. -/
structure Vocab where
  size : Nat
  fallback : Nat
  nodes : List Word
  offsets : List Nat
  strings : List Byte
  tag : Word
  bytes : Nat
  image : List Byte := []
  deriving DecidableEq, Repr

/-- A grammar state: mask classes at depth 0, in the middle, and full; its transitions. -/
structure GState where
  empty : Nat
  mid : Nat
  full : Nat
  base : Nat
  count : Nat
  deriving DecidableEq, Repr

/-- A transition. `action` is 0 SHIFT, 1 PUSH, 2 POP. -/
structure Trans where
  first : Nat
  last : Nat
  action : Nat
  next : Nat
  ret : Nat
  deriving DecidableEq, Repr

/-- A grammar image (R286): classes are range runs as base and count, ranges are lowest and highest token. -/
structure Grammar where
  start : Nat
  vocabSize : Nat
  states : List GState
  trans : List Trans
  classes : List (Nat × Nat)
  ranges : List (Nat × Nat)
  tag : Word
  bytes : Nat
  image : List Byte := []
  deriving DecidableEq, Repr

/-- A sequence list image (R289): sequences as trigger length and tokens. -/
structure SeqList where
  forced : Bool
  seqs : List (Nat × List Nat)
  maxToken : Nat
  total : Nat
  tag : Word
  image : List Byte := []
  deriving DecidableEq, Repr

/-- A table being loaded in pieces (R439): the queue pair of its first piece, the pieces by byte, when the last piece came. -/
structure Stage where
  kind : LoadKind
  slot : Nat
  qp : Nat
  data : List Byte
  at_ : Nat
  deriving DecidableEq, Repr

/-- A grammar stack segment (R287): 30 entries, the segment below, the session that holds it. -/
structure Segment where
  owner : Nat
  entries : List Nat := []
  below : Nat := 0
  deriving DecidableEq, Repr

/-- A mask request (R305): the session, the step's queue pair and tag, its `STEP_SEQ`, when it was granted. -/
structure MaskReq where
  index : Nat
  qp : Nat
  tag : BitVec 32
  seq : Nat
  at_ : Nat
  deriving DecidableEq, Repr

end Sys2Proof
end

