-- ==== Sys2Proof/Machine/Tiers.lean ====
section
/-!
DEFINITION. Tiers 1 and 2: host ranges, pool ranges, tiles on their way, regions, publishes and leases (chapter 10); triggered work requests
and what the module's own requests wait for (chapter 11).
-/
namespace Sys2Proof

/-- A registered host range (R342): base address and slots. -/
structure HostRange where
  base : Nat
  slots : Nat
  deriving DecidableEq, Repr

/-- A pool range entry (R346). -/
structure PoolRange where
  valid : Bool := false
  access : Nat := 0
  alloc : Bool := false
  allContexts : Bool := false
  context : Nat := 0
  hostId : Nat := 0
  base : Nat := 0
  limit : Nat := 0
  deriving DecidableEq, Repr

/-- Who a tile on its way serves: a park's page or map image, a revival's root, leaf or page, a Compass slice that reads a pool list
(R336), an index that `COMPASS_PLACE` moves, a region read, a page in tier 1 of a migrating session, a page in a tier that a survey writes, a move
beneath's read and its write (R362), a region's slot written to the pool. -/
inductive Consumer where
  | park (index key : Nat)
  | parkMap (index : Nat)
  | root (index : Nat)
  | leaf (index root : Nat)
  | page (index key : Nat)
  | slice (search list ord : Nat)
  | place (index : Nat)
  | region (job : Nat)
  | migrate (index key : Nat)
  | survey (seq : Nat)
  | beneath (index : Nat)
  | beneathWrite (index : Nat)
  | store
  deriving DecidableEq, Repr

/-- A tile fetch or park write in flight (R356 to R359): what it serves, its place in its transfer, the slot and tile in its tier, the fetch
queue pair it was issued on, its repeats, its deadline, the HBM address its data comes from or goes to, the data it writes, and whether it waits
for room among the tiles in flight. -/
structure Transfer where
  consumer : Consumer
  k : Nat
  tier : Nat
  slot : Nat
  tile : Nat
  qp : Nat
  repeats : Nat := 0
  deadline : Nat
  write : Bool := false
  addr : Nat := 0
  context : Nat := 0
  data : List Byte := []
  waits : Bool := false
  deriving DecidableEq, Repr

/-- A lease (R375). -/
structure Lease where
  id : Nat
  qp : Nat
  timeoutNs : Nat
  deadline : Nat
  deriving DecidableEq, Repr

/-- A region's descriptor (R364), its lease, and the slots its line list names: leaves by number, lines by number. -/
structure Region where
  table : Bool
  context : Nat
  range : Nat
  lines : Nat
  rowBytesM1 : Nat
  version : Nat := 0
  root : Nat
  owner : Word := 0
  leaves : Tab Nat := []
  lineSlots : Tab Nat := []
  lease : Option Lease := none
  deriving DecidableEq, Repr

/-- An open publish (R371): staged lines by number with their slots, the time of its last command. -/
structure Publish where
  region : Nat
  context : Nat
  expected : Nat
  lease : Nat
  qp : Nat
  staged : Tab Nat := []
  at_ : Nat
  deriving DecidableEq, Repr

/-- Slots that a commit or drop replaced, kept until their time (R370). -/
structure Retained where
  region : Nat
  version : Nat
  at_ : Nat
  slots : List Nat
  deriving DecidableEq, Repr

/-- An attachment (R372). `lineSlots` names the slots where the home is this module; of another home only the root is known, when it was attached, and whether
its version has been found replaced (R373). -/
structure Attachment where
  home : Nat
  region : Nat
  context : Nat
  root : Nat
  version : Nat
  lines : Nat
  rowBytesM1 : Nat
  lineSlots : Tab Nat := []
  table : Bool := true
  at_ : Nat := 0
  stale : Bool := false
  deriving DecidableEq, Repr

/-- A region read under way: the request to answer, the pieces wanted as line, byte and length, the tiles that have come by 16 × slot + tile,
tiles to fetch and tiles in flight, the pool slots of lines and leaves known so far. `remote` is the root of another home's region. -/
structure RegionJob where
  msg : Msg
  context : Nat
  version : Nat
  remote : Option Nat
  want : List (Nat × Nat × Nat)
  got : Tab (List Byte) := []
  todo : List (Nat × Nat) := []
  left : List (Nat × Nat) := []
  lineSlots : Tab Nat := []
  leafSlots : Tab Nat := []
  deriving DecidableEq, Repr

/-- A posted work request (R440): its words, its poster's context, how many of its packets are unacknowledged once it has fired, and
whether it has fired. -/
structure WorkReq where
  words : List Word
  context : Nat
  fired : Bool := false
  left : Nat := 0
  deriving DecidableEq, Repr

/-- A trigger counter (R440, R441): the context that `COUNTER_SET` assigned it to, and its value. -/
structure Trigger where
  context : Option Nat := none
  value : BitVec 32 := 0
  deriving DecidableEq, Repr

/-- What an answer to the module's own request serves (R427): a ring home's command at a member, a migration source's request. -/
inductive WaitFor where
  | ring (index member : Nat)
  | migrateOpen (index : Nat)
  | migrateCommit (index qp : Nat) (tag : BitVec 32) (new : Word)
  | none
  deriving DecidableEq, Repr

/-- A response wait (R427). -/
structure Wait where
  consumer : WaitFor
  qp : Nat
  tag : BitVec 32
  deriving DecidableEq, Repr

end Sys2Proof
end

