-- ==== Sys2Proof/Machine/Vectors.lean ====
section
/-!
DEFINITION. Compass indexes and searches (chapter 09).
-/
namespace Sys2Proof

/-- A list of an index: its entries and frames in order (the directory entry), or its first pool slot with the frames it takes there. -/
structure VList where
  entries : Nat := 0
  frames : List Nat := []
  pool : Option (Nat × Nat) := none
  deriving DecidableEq, Repr

/-- A `COMPASS_PLACE` under way (R322): the command, the tier, tiles still to issue as list, frame and tile, tiles in flight, the new place of
each list. -/
structure Placing where
  msg : Msg
  tier : Nat
  todo : List (Nat × Nat × Nat)
  flying : Nat := 0
  issued : Nat := 0
  placed : Tab VList
  deriving DecidableEq, Repr

/-- An index: its descriptor (R311), the frames of its three fixed kinds, its lists by centroid. `units` is B / 128. -/
structure VIndex where
  context : Nat
  partition : Nat
  units : Nat
  centroids : Nat
  maps : Nat
  sealed : Bool := false
  faulted : Bool := false
  pool : Bool := false
  live : Nat := 0
  centroidFrames : List Nat
  dirFrames : List Nat
  mapFrames : List Nat
  lists : Tab VList := []
  placing : Option Placing := none
  deriving DecidableEq, Repr

/-- What a scan has found in one list: LIVE entries, skipped entries, entries compared, the best candidates as distance and id. -/
structure ListFound where
  live : Nat := 0
  skipped : Nat := 0
  best : List (Nat × Nat) := []
  deriving DecidableEq, Repr

/-- A staging frame (R336): the list frame it holds, its frame, tiles not yet arrived. -/
structure Staging where
  list : Nat
  ord : Nat
  frame : Nat
  entries : Nat
  left : Nat
  deriving DecidableEq, Repr

/-- A search in progress: its command, when it was granted, the centroids found so far, its probe sequence, how many lists its rounds have
taken, slices that wait for a fielder, list frames that wait for staging, staging frames, slices running. -/
structure Search where
  msg : Msg
  index : Nat
  at_ : Nat
  query : List Byte
  probe : Nat
  count : Nat
  extend : Bool
  coarse : List (Nat × Nat) := []
  sequence : Option (List Nat) := none
  taken : Nat := 0
  todo : List Slice := []
  fetch : List (Nat × Nat) := []
  staging : List Staging := []
  running : Nat := 0
  found : Tab ListFound := []
  deriving DecidableEq, Repr

/-- A Compass command that waits (R323, R333). -/
structure SearchWait where
  msg : Msg
  index : Nat
  at_ : Nat
  search : Bool
  deriving DecidableEq, Repr

end Sys2Proof
end

