-- ==== Sys2Proof/Machine/Surveys.lean ====
section
/-!
DEFINITION. Surveys: shards, manifests, commit records, the survey engine's state, a restore under way (chapter 14). The manual lays out
the payloads of SESSION, PAGE and INDEX shards; those of CONTROL, TABLES and STEP shards stand here by their content (log entry 46).
-/
namespace Sys2Proof

/-- What a CONTROL shard records (R510, R573): contexts without keys, RETIRED frames, queue pairs, jobs, trigger counters, pool ranges,
regions, indexes, effective dictionary values, Atlas entries with the sessions MOVING as a migration's destination. -/
structure ControlImage where
  contexts : Tab Context := []
  entries : Tab Entry := []
  arriving : List Nat := []
  frames : Tab Frame := []
  qps : Tab Qp := []
  jobs : Tab Job := []
  parts : Tab Part := []
  triggers : Tab Trigger := []
  poolRanges : Tab PoolRange := []
  regions : Tab Region := []
  indexes : Tab VIndex := []
  vals : Tab Nat := []
  run : Tab Nat := []
  deriving DecidableEq, Repr

/-- What a TABLES shard records (R510). -/
structure TablesImage where
  models : Tab Model := []
  ropes : Tab Rope := []
  vocabs : Tab Vocab := []
  grammars : Tab Grammar := []
  lists : Tab SeqList := []
  escapes : Tab (List Nat) := []
  deriving DecidableEq, Repr

/-- A page locator: the page's G1, `WHERE`, `LOCATION`. -/
structure Locator where
  g1 : Word
  place : Nat
  at_ : Nat
  deriving DecidableEq, Repr

/-- A shard's payload (R526). A STEP shard holds the step, its open merge, and the entries of the stack that its pending W12 names. -/
inductive ShardBody where
  | control (c : ControlImage)
  | tables (t : TablesImage)
  | session (r : Record) (locators : List Locator) (stack : List (List Nat))
  | page (data : List Byte)
  | step (st : Step) (merge : Option Merge) (stack : List (List Nat))
  | index (data : List Byte)
  deriving DecidableEq, Repr

/-- A shard: its header (the shard header table) and payload. `ring` is M, μ and log₂ G of a partition in ring mode; the context whose
survey key seals a shard with `ENC` 1 is that of its session or index. -/
structure Shard where
  kind : Nat
  enc : Option Nat := none
  mid : Bool := false
  seq : Nat := 0
  stepSeq : Nat := 0
  length : Nat := 0
  g0 : Word := 0
  g1 : Word := 0
  crc : Nat := 0
  node : Nat := 0
  ring : Option (Nat × Nat × Nat) := none
  body : ShardBody
  deriving DecidableEq, Repr

/-- A commit record (slot LBA 0). Kinds: 1 BASE, 2 DELTA. -/
structure CommitRec where
  slot : Nat := 0
  kind : Nat := 1
  seq : Nat := 0
  id : Word := 0
  base : Nat := 0
  instant : Nat := 0
  serial : Word := 0
  bytes : Nat := 0
  heldFrom : Nat := 0
  manifest : Nat := 0
  manifestBytes : Nat := 0
  sha : List Byte := []
  deriving DecidableEq, Repr

/-- An NVMe completion (R523): the command's number, success, the bytes that a read returned; of a read of the stream, its shards by stream
offset. -/
structure NvDone where
  id : Nat
  ok : Bool
  data : List Byte := []
  shards : Tab Shard := []
  deriving DecidableEq, Repr

/-- An item of a survey's stream that is still to be written: the shard, its offset, the page data's place in a tier with the rows to take
from there (R510), the layout and the rows held at the instant (R519), the page map entries that name it, the frame it was taken from, its locators with `WHERE` 1 or 2. -/
structure StreamItem where
  shard : Shard
  offset : Nat
  fetch : Option (Nat × Nat) := none
  rows : Nat := 0
  run : Nat := 0
  slices : Nat := 1
  keep : List Nat := []
  tiles : Tab (List Byte) := []
  asked : Bool := false
  names : List (Nat × Nat) := []
  frame : Option Nat := none
  refs : Nat := 0
  deriving DecidableEq, Repr

/-- Where a survey stands: frozen; its commit record being zeroed; shards, manifest, flush and commit record being written; draining. -/
inductive SurveyStage where
  | freezing | zeroing | shards | manifest | flush | commit | draining
  deriving DecidableEq, Repr

/-- A survey in progress. `record` grows into its commit record; `written` are the manifest entries, as bytes; `tail` is the stream not yet
drained, from `drained` on; `rest` what is left of a write into the log that needs more than one command, with its stream offset. -/
structure SurveyRun where
  stage : SurveyStage := .freezing
  record : CommitRec
  qp : Nat
  tag : BitVec 32 := 0
  since : Nat
  items : List StreamItem := []
  offset : Nat := 0
  written : List Byte := []
  tail : List Byte := []
  drained : Nat := 0
  refs : List Nat := []
  sealed : List Nat := []
  rest : Option (Nat × List Byte) := none
  deriving DecidableEq, Repr

/-- What the survey engine has asked the NV module for: the label or a commit record at bring-up, format writes, a survey's write, a
restore's read, something that no one waits for any more. -/
inductive NvOp where
  | label | record (slot : Nat) | format (left : Nat) | survey | restore | stale
  deriving DecidableEq, Repr

/-- A piece of a survey that a restore needs (R534): a commit record from the host, a manifest, the shards between two stream offsets.
`member` names another ring member whose survey it is. -/
inductive Piece where
  | record (seq : Nat) (member : Option Nat)
  | manifest (c : CommitRec) (member : Option Nat)
  | stream (c : CommitRec) (member : Option Nat) (lo hi : Nat)
  deriving DecidableEq, Repr

/-- A survey whose manifest a restore holds: commit record, ring member, manifest entries as kind, offset, G0 and G1, shards read. -/
structure Capture where
  record : CommitRec
  member : Option Nat := none
  entries : List (Nat × Nat × Word × Word) := []
  shards : Tab Shard := []
  deriving DecidableEq, Repr

/-- A restore in progress (R534, R535): the command, source and partition map, slots not yet tried, pieces still wanted, the
first one's bytes so far and what has been asked of the host as offset and length, what has come. -/
structure RestoreRun where
  msg : Msg
  source : Nat
  map : List Nat
  slots : List Nat := []
  want : List Piece := []
  part : List Byte := []
  asked : Option (Nat × Nat) := none
  chosen : Option Nat := none
  captures : List Capture := []
  deriving DecidableEq, Repr

/-- The survey engine and the NV module as it knows it (chapter 14). `quiet` are fielders that
have finished their unit in the freeze, `held` frames of the hold bitmap, `freeLater` those that become FREE
once read, `poolRefs` pool slots that surveys record, by slot A, B or 2 the survey in progress, `poolLater` slots retained under R520.
`baseSeq` is the BASE that DELTAs may name with the indexes sealed since.
`restored` lists a restore's sessions as captured handle, new handle and status, `merges` the open merges of steps that wait to be resumed. -/
structure Survey where
  frozen : Bool := false
  quiet : List Nat := []
  run : Option SurveyRun := none
  held : List Nat := []
  freeLater : List Nat := []
  slotRefs : Tab (List Nat) := []
  poolRefs : List Nat := []
  poolLater : List Nat := []
  broken : Bool := false
  baseSeq : Nat := 0
  baseSealed : List Nat := []
  confirmed : Nat := 0
  up : Bool := false
  lbas : Nat := 0
  labelled : Bool := false
  records : Tab CommitRec := []
  doing : Option (NvOp × Nat × Nat) := none
  nextId : Nat := 0
  format : Option Msg := none
  restore : Option RestoreRun := none
  restored : List (Word × Word × BitVec 16) := []
  merges : Tab Merge := []
  deriving DecidableEq, Repr

end Sys2Proof
end

