-- ==== Sys2Proof/Syntax.lean ====
section
/-!
DEFINITION. The commands of the GSX-960, one constructor per row of the opcode table. A message command carries the message as
received; an event command carries what the event brings from outside; a dictionary command carries one item.
-/
namespace Sys2Proof

/-- A command. -/
inductive Instr where
  /-- ADMIT (R79): Host command that checks the context, partition, model slot, quota and admission, then allocates an Atlas entry and returns its handle. -/
  | admitSession (m : Msg)
  /-- STEP (R72): Host command that opens a decode step with the layer 0 query and new K and V, and moves the session to ACTIVE. -/
  | step (m : Msg)
  /-- WAIT (R88): Host command that moves the session to WAITING, or sets WAIT_PENDING during a step, and starts the demotion timer. -/
  | wait (m : Msg)
  /-- RESUME (R76): Host command that returns a session to READY, reviving it under admission control when it is parked. -/
  | resume (m : Msg)
  /-- PARK (R694): Host command that starts a park of the session's pages to tier 1 or 2. -/
  | park (m : Msg)
  /-- FORK (R95): Host command that allocates a child session sharing the parent's prefix pages. -/
  | fork (m : Msg)
  /-- CANCEL (R84): Host command that ends a session, or sets CANCEL_PENDING during a step. -/
  | cancel (m : Msg)
  /-- FREEZE (R92): Host command that holds a session in FROZEN and stores the remaining time of its timer. -/
  | freeze (m : Msg)
  /-- THAW (R92): Host command that returns a FROZEN session to RETURN_STATE and restarts its timer. -/
  | thaw (m : Msg)
  /-- MIGRATE (R696): Host command that moves a session to another module and partition. -/
  | migrate (m : Msg)
  /-- SESSION_SET (R693): Host command that changes the selected RW fields of a session record and clears flags. -/
  | sessionSet (m : Msg)
  /-- RECORD_READ (R70): Host command that returns the 256-byte session record. -/
  | recordRead (m : Msg)
  /-- LINEAGE (R98): Host command that walks PARENT links and returns up to 64 ancestors. -/
  | lineage (m : Msg)
  /-- LAYER_IN (R27): Message that carries the query and new K and V of a later layer of the open step. -/
  | layerIn (m : Msg)
  /-- QUERY_BLOCK (R154): Message that carries a block of 1 to 512 queries for prefill or ring mode. -/
  | queryBlock (m : Msg)
  /-- KV_EXTEND (R438): Host command that raises LENGTH of a READY session by a count. -/
  | kvExtend (m : Msg)
  /-- JOB_OPEN (R236): Host command that creates a step job for a list of sessions. -/
  | jobOpen (m : Msg)
  /-- JOB_ADD (R237): Host command that adds sessions to an open step job. -/
  | jobAdd (m : Msg)
  /-- JOB_CLOSE (R239): Host command that closes a step job to further steps. -/
  | jobClose (m : Msg)
  /-- MODEL_LOAD (R148): Mailbox command that loads a model slot image after checking it. -/
  | modelLoad (m : Msg)
  /-- MODEL_READ (R148): Mailbox command that returns a model slot image. -/
  | modelRead (m : Msg)
  /-- ROPE_LOAD (R165): Mailbox command that checks a rotary table image and waits to apply it. -/
  | ropeLoad (m : Msg)
  /-- ROPE_LOAD_APPLY (R166): A waiting rotary table load is applied once no step in flight uses the table. -/
  | ropeLoadApply (table : Nat)
  /-- ROPE_LOAD_TIMEOUT (R166): A rotary table load not applied within ROPE_LOAD_WAIT_MS returns ROPE_BUSY. -/
  | ropeLoadTimeout (table : Nat)
  /-- CONTEXT_REARM (R268): Mailbox command that clears a context's torn-down mark when its sessions are all FREE or TOMBSTONE. -/
  | contextRearm (m : Msg)
  /-- VOCAB_LOAD (R276): Mailbox command that stages a piece of a vocabulary image and checks and installs it at commit. -/
  | vocabLoad (m : Msg)
  /-- GRAMMAR_LOAD (R286): Mailbox command that stages a piece of a grammar image and checks and installs it at commit. -/
  | grammarLoad (m : Msg)
  /-- LIST_LOAD (R289): Mailbox command that stages a piece of a sequence list image and builds its automaton at commit. -/
  | listLoad (m : Msg)
  /-- LOAD_PIECE_TIMEOUT (R439): A table load with no piece for 10 s is discarded. -/
  | loadPieceTimeout (kind : LoadKind) (slot : Nat)
  /-- TOKEN_BIND (R273): Host command that binds a session to vocabulary, grammar and list slots and resets its token state. -/
  | tokenBind (m : Msg)
  /-- TEXT_IN (R282): Host command that tokenizes a text buffer by longest match and returns the tokens. -/
  | textIn (m : Msg)
  /-- DETOK_FLUSH (R285): Host command that returns the detokenizer's held bytes as U+FFFD. -/
  | detokFlush (m : Msg)
  /-- ESCAPE_SET (R293): Host command that sets the escape set of a context. -/
  | escapeSet (m : Msg)
  /-- MASK_FORM (R305): A mask engine takes the next mask request, forms the session's mask and ships it. -/
  | maskForm
  /-- COMPASS_CREATE (R317): Host command that defines a Compass index and allocates its frames. -/
  | compassCreate (m : Msg)
  /-- COMPASS_CENTROIDS (R318): Host command that writes centroid codes of an empty index. -/
  | compassCentroids (m : Msg)
  /-- COMPASS_INSERT (R319): Host command that appends records to lists and marks them LIVE. -/
  | compassInsert (m : Msg)
  /-- COMPASS_DELETE (R320): Host command that marks LIVE record ids DELETED. -/
  | compassDelete (m : Msg)
  /-- COMPASS_COMPACT (R321): Host command that rewrites lists without DELETED entries. -/
  | compassCompact (m : Msg)
  /-- COMPASS_SEAL (R323): Host command that makes an index's lists read-only. -/
  | compassSeal (m : Msg)
  /-- COMPASS_UNSEAL (R322): Host command that makes a sealed index writable again. -/
  | compassUnseal (m : Msg)
  /-- COMPASS_PLACE (R322): Host command that moves an index's list frames to HBM or the pool. -/
  | compassPlace (m : Msg)
  /-- COMPASS_SEARCH (R325): Host command that starts a Hamming search of an index. -/
  | compassSearch (m : Msg)
  /-- COMPASS_INFO (R311): Host command that returns an index descriptor. -/
  | compassInfo (m : Msg)
  /-- COMPASS_DROP (R324): Host command that frees every frame of an index. -/
  | compassDrop (m : Msg)
  /-- COMPASS_SLICE_ISSUE (R333): A queued Compass slice issues on a fielder that no step job holds. -/
  | compassSliceIssue (fielder : Nat)
  /-- COMPASS_SLICE_DONE (R332): A Compass slice ends and its candidates are merged in F3, advancing or ending the search. -/
  | compassSliceDone (fielder : Nat)
  /-- SEARCH_TIMEOUT (R335): A search not ended within SEARCH_TIMEOUT_MS ends with SEARCH_TIMEOUT. -/
  | searchTimeout (search : Nat)
  /-- HOST_RANGE_ADD (R342): Mailbox command that registers a host memory range. -/
  | hostRangeAdd (m : Msg)
  /-- HOST_RANGE_REMOVE (R345): Mailbox command that ends the registration of a host range. -/
  | hostRangeRemove (m : Msg)
  /-- FM_RANGE_SET (R347): Fabric manager message that writes one pool range entry. -/
  | fmRangeSet (m : Msg)
  /-- FM_IDENTITY (R347): Fabric manager message that sets the module's host identity and pool channel count. -/
  | fmIdentity (m : Msg)
  /-- REGION_CREATE (R365): Host command that defines a region at version 0. -/
  | regionCreate (m : Msg)
  /-- REGION_DROP (R366): Host command that frees a region's slots and ends it. -/
  | regionDrop (m : Msg)
  /-- PUBLISH_OPEN (R371): Host command that opens a publish on a region and returns its id. -/
  | publishOpen (m : Msg)
  /-- PUBLISH_PUT (R371): Host command that stages one line of a publish in a new slot. -/
  | publishPut (m : Msg)
  /-- PUBLISH_COMMIT (R367): Host command that checks lease and version and makes the staged lines the region's next version. -/
  | publishCommit (m : Msg)
  /-- PUBLISH_ABORT (R371): Host command that frees a publish's staged slots. -/
  | publishAbort (m : Msg)
  /-- PUBLISH_IDLE_TIMEOUT (R371): A publish with no command for PUBLISH_IDLE_MS is aborted. -/
  | publishIdleTimeout (publish : Nat)
  /-- REGION_RETAIN_EXPIRY (R370): Slots replaced by a commit are freed once REGION_RETAIN_MS has passed. -/
  | regionRetainExpiry
  /-- REGION_ATTACH (R372): Host command that records a home region's current version as an attachment. -/
  | regionAttach (m : Msg)
  /-- REGION_GATHER (R374): Host command that returns table rows of a region or attachment. -/
  | regionGather (m : Msg)
  /-- REGION_READ (R373): Host command that returns one line of a region or attachment. -/
  | regionRead (m : Msg)
  /-- LEASE_TAKE (R375): Host command that grants a lease on a region. -/
  | leaseTake (m : Msg)
  /-- LEASE_BEAT (R376): Host command that moves a lease's deadline. -/
  | leaseBeat (m : Msg)
  /-- LEASE_RELEASE (R379): Host command that ends a lease without flag or alert. -/
  | leaseRelease (m : Msg)
  /-- LEASE_QUERY (R377): Host command that returns a lease's state and deadline. -/
  | leaseQuery (m : Msg)
  /-- LEASE_DEADLINE (R378): A lease's deadline passes and the module voids it, aborting its publishes. -/
  | leaseDeadline (region : Nat)
  /-- QP_CREATE (R417): Mailbox command that takes the lowest free general queue pair in RESET. -/
  | qpCreate (m : Msg)
  /-- QP_MODIFY (R417): Mailbox command that moves a queue pair between RESET, READY and ERROR. -/
  | qpModify (m : Msg)
  /-- QP_DESTROY (R417): Mailbox command that frees a general queue pair in RESET. -/
  | qpDestroy (m : Msg)
  /-- QP_QUERY (R417): Mailbox command that returns a queue pair context. -/
  | qpQuery (m : Msg)
  /-- COUNTER_SET (R441): Mailbox command that assigns a trigger counter to a context with a value. -/
  | counterSet (m : Msg)
  /-- WR_POST (R441): Host command that posts 1 to 64 triggered work requests. -/
  | wrPost (m : Msg)
  /-- WR_CANCEL (R445): Host command that frees a posted work request before it fires. -/
  | wrCancel (m : Msg)
  /-- COUNTER_ADD (R441): Host command that adds to a trigger counter of the sender's context. -/
  | counterAdd (m : Msg)
  /-- WR_SIGNAL (R440): Message that fires work requests whose SIGNAL_TAG matches its TAG. -/
  | wrSignal (m : Msg)
  /-- TILE_WRITE (R436): Packet that writes one tile into a session's pages, a migration entry or a ring-prefill frame. -/
  | tileWrite (t : TileWrite)
  /-- PAIR_TAKEOVER (R476): Fabric manager request that makes the module take over its partner's sessions. -/
  | pairTakeover (m : Msg)
  /-- PAIR_DETACH (R475): Fabric manager request that stops mirroring and discards every shadow. -/
  | pairDetach (m : Msg)
  /-- MIGRATE_RESOLVE (R465): Mailbox request that commits or aborts a held migration destination. -/
  | migrateResolve (m : Msg)
  /-- RING_JOIN (R457): Peer request that makes a ring member allocate an entry for a home's session. -/
  | ringJoin (m : Msg) (r : RingJoin)
  /-- RING_CMD (R458): Peer request that applies a session command to a ring member's part. -/
  | ringCmd (m : Msg) (r : RingCmd)
  /-- MIGRATE_OPEN (R463): Peer request that makes a destination check tags and admission and allocate a MOVING entry. -/
  | migrateOpen (m : Msg) (o : MigrateOpen)
  /-- MIGRATE_COMMIT (R463): Peer request that makes the destination raise the innings and enter the captured state. -/
  | migrateCommit (m : Msg)
  /-- MIGRATE_ABORT (R464): Peer request that makes the destination free the migration entry and its frames. -/
  | migrateAbort (m : Msg)
  /-- RING_APPEND (R460): Peer message that appends a layer's K and V at a ring member. -/
  | ringAppend (m : Msg) (r : RingAppend)
  /-- RING_QUERY (R460): Peer message that makes a ring member attend its segments and return segment partials. -/
  | ringQuery (m : Msg) (r : RingQuery)
  /-- SEG_PARTIAL (R200): Peer message whose segment partial the home inserts into its merge tree, or discards as stale or aged. -/
  | segPartial (m : Msg) (p : SegPartial)
  /-- SEG_FRONTIER (R212): Peer message that gives a ring member the home's segment frontier. -/
  | segFrontier (m : Msg)
  /-- RING_QBLOCK (R461): Peer message that gives a ring member query positions of a prefill query block. -/
  | ringQblock (m : Msg) (r : RingQuery)
  /-- RING_OUTPUT (R461): Peer message that returns a member's output rows to the home. -/
  | ringOutput (m : Msg) (r : RingOutput)
  /-- MIRROR_UPDATE (R469): Peer message that updates a shadow's Atlas entry and record. -/
  | mirrorUpdate (m : Msg) (i : MirrorItem)
  /-- MIRROR_MAP (R469): Peer message that updates a shadow's page map entries. -/
  | mirrorMap (m : Msg) (i : MirrorItem)
  /-- MIRROR_APPEND (R469): Peer message that appends one row to a shadow. -/
  | mirrorAppend (m : Msg) (i : MirrorItem)
  /-- MIRROR_STEP_END (R469): Peer message that applies a step end to a shadow. -/
  | mirrorStepEnd (m : Msg) (i : MirrorItem)
  /-- MIRROR_PAGE (R472): Peer message that copies one page during initial synchronisation. -/
  | mirrorPage (m : Msg) (i : MirrorItem)
  /-- MIRROR_ACK (R470): Peer message that releases held outputs and step ends up to the acknowledged mirror sequence. -/
  | mirrorAck (m : Msg)
  /-- PAIR_BEAT (R473): Peer message that shows the partner is alive. -/
  | pairBeat (m : Msg)
  /-- PAIR_BEAT_SEND (R473): Every PAIR_BEAT_US the module sends PAIR_BEAT to its partner. -/
  | pairBeatSend
  /-- PAIR_DEADLINE (R473): No beat or MIRROR_ACK within PAIR_DEADLINE_MS with signal present makes the pair STALLED. -/
  | pairDeadline
  /-- PARTNER_SIGNAL_LOSS (R474): The partner's port shows no signal for PAIR_DEADLINE_MS and the module takes over or stalls. -/
  | partnerSignalLoss
  /-- PEER_SALT (R571): Peer message that gives the far end's salt for encrypted confidential traffic. -/
  | peerSalt (m : Msg)
  /-- SURVEY_START (R512): Mailbox command that starts a BASE or DELTA survey and freezes the module. -/
  | surveyStart (m : Msg)
  /-- SURVEY_INSTANT (R516): Every fielder reaches its quiet point, control state is copied to staging and the freeze ends. -/
  | surveyInstant
  /-- SURVEY_FREEZE_TIMEOUT (R517): A survey instant not reached within SURVEY_FREEZE_MAX_US fails the survey. -/
  | surveyFreezeTimeout
  /-- SURVEY_ABORT (R514): Mailbox command that ends the survey in progress unless its commit write was issued. -/
  | surveyAbort (m : Msg)
  /-- SURVEY_DRAINED (R532): Mailbox command that confirms the host holds the stream below an offset. -/
  | surveyDrained (m : Msg)
  /-- NV_COMMAND_DONE (R528): An NVMe command completes and the survey or restore takes its next write or read. -/
  | nvCommandDone (d : NvDone)
  /-- NV_TIMEOUT (R523): An NVMe command not complete within NV_TIMEOUT_MS fails its survey or restore. -/
  | nvTimeout
  /-- NV_FORMAT (R525): Mailbox command that writes the NV label and invalidates both slots. -/
  | nvFormat (m : Msg)
  /-- RESTORE (R535): Mailbox command that restores a survey into a module in Setup. -/
  | restore (m : Msg)
  /-- SHARD_SUPPLY (R534): Mailbox command that supplies stream bytes in answer to SHARD_REQUEST. -/
  | shardSupply (m : Msg) (shards : Tab Shard)
  /-- RESTORE_STATUS (R535): Mailbox command that returns restored and refused sessions. -/
  | restoreStatus (m : Msg)
  /-- STEP_RESUMED (R537): A restored step's queue pair becomes READY and the step continues. -/
  | stepResumed (index : Nat)
  /-- RESUME_HOLD_TIMEOUT (R537): A resumed step whose queue pair is not READY within RESUME_HOLD_MS ends STEP_RESTART. -/
  | resumeHoldTimeout (index : Nat)
  /-- CONTEXT_CREATE (R552): Mailbox command that creates an open or pending confidential context. -/
  | contextCreate (m : Msg)
  /-- CONTEXT_DESTROY (R555): Mailbox command that zeroizes a context's keys and frees its number. -/
  | contextDestroy (m : Msg)
  /-- CONTEXT_TEARDOWN (R265): Mailbox command that tears a context down. -/
  | contextTeardown (m : Msg)
  /-- ATTEST (R558): Command that returns a signed attestation report and records the nonce. -/
  | attest (m : Msg)
  /-- KEY_DELIVER (R560): Mailbox command that unwraps and loads a context's keys. -/
  | keyDeliver (m : Msg)
  /-- QP_KEY_SET (R567): Mailbox command that sets the salts of an encrypting queue pair. -/
  | qpKeySet (m : Msg)
  /-- FW_UPDATE (R549): Mailbox command that writes a firmware slot and checks it at commit. -/
  | fwUpdate (m : Msg)
  /-- FW_COMMIT_VERSION (R550): Mailbox command that raises the anti-rollback counter. -/
  | fwCommitVersion (m : Msg)
  /-- FRAME_READ (R140): Management request that returns one frame's 65,536 bytes. -/
  | frameRead (m : Msg)
  /-- DICT_READ_ITEM (R601): Dictionary READ item that returns an entry's value. -/
  | dictReadItem (p : DictPath) (i : DictItem)
  /-- DICT_WRITE_ITEM (R591): Dictionary WRITE item that sets an entry without behaviour of its own to its effective value. -/
  | dictWriteItem (p : DictPath) (i : DictItem)
  /-- DICT_DESCRIBE_ITEM (R602): Dictionary DESCRIBE item that returns an entry's type, access, default and range. -/
  | dictDescribeItem (p : DictPath) (i : DictItem)
  /-- MGMT_HELLO (R617): 10BASE-T1S request with no items that returns the epoch and the station's last SEQ. -/
  | mgmtHello (f : List Byte)
  /-- MODE_RUN (R595): MODE_REQUEST write of RUN that enters Run and applies RWS values. -/
  | modeRun (p : DictPath)
  /-- MODE_SETUP (R596): MODE_REQUEST write of SETUP that enters Setup when the module is empty. -/
  | modeSetup (p : DictPath)
  /-- WARM_START (R598): MODE_REQUEST write of WARM_START that reruns start-up keeping written settings. -/
  | warmStart (p : DictPath)
  /-- CLEAR_COUNTERS (R625): Dictionary write that zeroes every counter of the 0x5000 area. -/
  | clearCounters (p : DictPath) (value : Nat)
  /-- GATE_COMMIT (R492): Dictionary write that copies the administrative gate list into a pending list. -/
  | gateCommit (p : DictPath) (port value : Nat)
  /-- GATE_ENABLE (R495): Dictionary write that starts or stops a port's time gates. -/
  | gateEnable (p : DictPath) (port value : Nat)
  /-- MGMT_KEY (R620): Dictionary write of the operator key that draws a new management epoch. -/
  | mgmtKey (p : DictPath) (key : List Byte)
  /-- SAMPLE_ENABLE (R503): Dictionary write that starts or stops queue sampling. -/
  | sampleEnable (p : DictPath) (value : Nat)
  /-- SAMPLE_RD (R505): Dictionary write that advances the host's read position in the sample ring. -/
  | sampleRd (p : DictPath) (value : Nat)
  /-- DEBUG_ENABLE (R580): Dictionary write that allows TAP private instructions unless a confidential context is live. -/
  | debugEnable (p : DictPath) (value : Nat)
  /-- SHAPE_RATE_MBPS (R491): Dictionary write of a shaper setting that refills its bucket. -/
  | shapeRateMbps (p : DictPath) (port cls : Nat) (burst : Bool) (value : Nat)
  /-- METER_CIR_MBPS (R499): Dictionary write of a meter setting that fills both buckets. -/
  | meterCirMbps (p : DictPath) (port cls which value : Nat)
  /-- TC_WEIGHT (R488): Dictionary write of a class weight that applies at the next packet boundary. -/
  | tcWeight (p : DictPath) (port cls value : Nat)
  /-- CSR_WRITE (R632): CSR_ACCESS write to window registers without behaviour of their own, masked where marked. -/
  | csrWrite (m : Msg)
  /-- PMU_CLEAR (R636): Write of CLEAR in PMU_CTRL that zeroes all 1,024 counters. -/
  | pmuClear (m : Msg)
  /-- COUNTER_VALUE_WRITE (R640): Write that sets a performance counter's value without carry. -/
  | counterValueWrite (m : Msg)
  /-- ALERT_STATUS_READ (R634): Read of ALERT_STATUS that returns and clears the alert causes and may release ALERT_L. -/
  | alertStatusRead (m : Msg)
  /-- OVF_STATUS_READ (R634): Read of OVF_STATUS that returns and clears counter wrap bits. -/
  | ovfStatusRead (m : Msg)
  /-- TAP_UPDATE_IR (R579): A TAP instruction takes effect at update-IR, or BYPASS when its condition fails. -/
  | tapUpdateIr (code : Byte)
  /-- VIN_GOOD (R645): VIN rises above 36.0 V and, with VIO good and RESET_L high, starts start-up. -/
  | vinGood (mv : Nat)
  /-- VIN_LOSS (R648): VIN falls below 34.0 V and the whole module loses power. -/
  | vinLoss (mv : Nat)
  /-- VIN_OVERVOLTAGE (R678): VIN above 48.0 V for 10 µs stops the regulators as VIN not good. -/
  | vinOvervoltage (mv : Nat)
  /-- VIO_LOSS (R647): VIO falls below 1.55 V with VIN good and the module is held in reset. -/
  | vioLoss (mv : Nat)
  /-- VIO_GOOD (R645): VIO rises above 1.62 V and may start start-up. -/
  | vioGood (mv : Nat)
  /-- RESET_ASSERT (R658): RESET_L held low for the filter time runs the reset sequence. -/
  | resetAssert
  /-- RESET_RELEASE (R657): RESET_L seen high with both supplies good starts start-up. -/
  | resetRelease
  /-- STARTUP_COMPLETE (R651): Start-up ends with tables zeroed, defaults loaded and MODULE_STATE SETUP. -/
  | startupComplete
  /-- SECURITY_READY (R542): The security engine derives its keys, signs the boot certificate and becomes READY. -/
  | securityReady
  /-- THERM_WARN (R669): A junction or stack reaches its warning threshold and THERM_L asserts. -/
  | thermWarn (sensor : Nat) (celsius : Int)
  /-- THERM_WARN_END (R670): Every sensor lies 3 °C below its threshold and the warning ends. -/
  | thermWarnEnd (celsius : List Int)
  /-- THERMAL_SHUTDOWN (R671): A junction reaches 115 °C or a stack 105 °C and the module shuts down. -/
  | thermalShutdown (sensor : Nat) (celsius : Int)
  /-- PORT_SIGNAL_DETECT (R400): Signal on every lane of a DOWN port moves it to TRAIN. -/
  | portSignalDetect (port : Nat)
  /-- PORT_TRAIN_DONE (R400): Every receiver of the port has adapted its equalizer and the port enters LOCK. -/
  | portTrainDone (port : Nat)
  /-- PORT_LOCK (R397): Alignment codewords are found on every lane and the port enters DESKEW or CREDIT. -/
  | portLock (port : Nat)
  /-- PORT_UP (R402): The first CREDIT exchange brings the port UP. -/
  | portUp (port : Nat)
  /-- PORT_DOWN (R400): Bring-up timeout, missed alignment codewords or too many uncorrectable codewords return a port to DOWN. -/
  | portDown (port : Nat)
  /-- CODEWORD_UNCORRECTABLE (R398): An uncorrectable codeword is received and its blocks and packets are discarded. -/
  | codewordUncorrectable (port lane : Nat)
  /-- PACKET_RX (R419): A packet is received, checked, metered, forwarded or stored and delivered in PSN order. -/
  | packetRx (port : Nat) (p : Packet)
  /-- ACK_RX (R423): An ACK retires acknowledged PSNs at the sender. -/
  | ackRx (port : Nat) (p : Packet)
  /-- ACK_DELAY_EXPIRY (R422): ACK_DELAY_NS after the oldest unacknowledged arrival the receiver sends an ACK. -/
  | ackDelayExpiry (qp : Nat)
  /-- CREDIT_RX (R403): A CREDIT block updates the cumulative credit counts of each class. -/
  | creditRx (port : Nat) (counts : List Nat)
  /-- CREDIT_SEND (R402): The receiver sends a CREDIT block after freeing a buffer or every 256 blocks. -/
  | creditSend (port : Nat)
  /-- REPEAT_TIMEOUT (R425): A queue pair's repeat timer expires and unretired PSNs are repeated. -/
  | repeatTimeout (qp : Nat)
  /-- RESPONSE_TIMEOUT (R427): A response wait's timeout is granted and the wait ends with RESPONSE_TIMEOUT. -/
  | responseTimeout (wait : Nat)
  /-- TIME_BLOCK_RX (R405): A TIME block gives the adapter's network time for offset correction. -/
  | timeBlockRx (sentNs : Nat)
  /-- DELAY_REQ_SEND (R405): Every 16 alignment intervals the module sends DELAY_REQ. -/
  | delayReqSend
  /-- DELAY_RSP_RX (R405): A DELAY_RSP gives the mean path delay. -/
  | delayRspRx (gotNs : Nat)
  /-- TIME_HOLDOVER (R408): No TIME block for TIME_HOLDOVER_MS puts network time in HOLDOVER. -/
  | timeHoldover
  /-- TIMEPULSE (R661): TIMEPULSE rises at each whole second of network time and falls 100 ms later. -/
  | timepulse
  /-- EGRESS_PICK (R486): At a packet boundary the scheduler picks the class whose head packet is sent. -/
  | egressPick (port : Nat)
  /-- GATE_SWITCH (R493): A pending gate list becomes operational at its switch time. -/
  | gateSwitch (port : Nat)
  /-- GATE_INTERVAL (R494): An operational gate list moves to its next interval or cycle. -/
  | gateInterval (port : Nat)
  /-- QUEUE_SAMPLE (R504): At each sample interval the module records the selected egress queues. -/
  | queueSample
  /-- SAMPLE_FLUSH (R506): A full sample tile, or one held SAMPLE_FLUSH_US, is written to the host ring. -/
  | sampleFlush
  /-- APPEND_ACK (R26): The base-die write buffer acknowledges a layer's append and dispatch issues the layer's tile reads. -/
  | appendAck (index : Nat)
  /-- APPEND_WAIT_TIMEOUT (R130): An append that found no FREE frame within APPEND_WAIT_MS ends its step with FRAME_SHORTAGE. -/
  | appendWaitTimeout (index : Nat)
  /-- MERGE_OPEN (R205): Dispatch opens a merge on a catcher that can reserve its node store. -/
  | mergeOpen (index : Nat)
  /-- UNIT_COMPLETE (R171): A fielder finishes a unit and emits its partial. -/
  | unitComplete (fielder : Nat)
  /-- PARTIAL_ACCEPT (R213): A catcher accepts or discards a partial and merges along the canonical tree. -/
  | partialAccept (catcher : Nat)
  /-- WITHDRAW_ACK_RX (R221): A fielder's withdrawal acknowledgement arrives and a closing merge may release its reservation. -/
  | withdrawAckRx (mergeTag fielder : Nat)
  /-- OUTPUT_RELEASE (R203): A layer's output is released to egress once formed and every hold is cleared. -/
  | outputRelease (index : Nat)
  /-- JOB_GRANT (R244): A free fielder set passes to the eligible job chosen by the selection order. -/
  | jobGrant (partition : Nat)
  /-- JOB_CUT (R246): A best-effort or PREFILL job that reached its holding limit is cut. -/
  | jobCut (partition : Nat)
  /-- JOB_IDLE_RELEASE (R242): A holding job idle for JOB_IDLE_US releases the fielder set. -/
  | jobIdleRelease (partition : Nat)
  /-- ROLE_PERIOD (R250): Every 10 ms the role governor sets each partition's prefill share. -/
  | rolePeriod
  /-- PACE_UPDATE (R42): Each update interval the governor sets domain voltages and applies the power cap. -/
  | paceUpdate (r : PaceReadings)
  /-- PACE_MONITOR_WINDOW (R47): At the end of each 10 µs window a pace monitor reports its handshake rate. -/
  | paceMonitorWindow (domain count : Nat)
  /-- DEMOTE_TIMER (R87): A WAITING session's demotion timer fires and starts a park. -/
  | demoteTimer (index : Nat)
  /-- TTL_EXPIRY (R89): A PARKED session's time-to-live fires and it becomes a TOMBSTONE. -/
  | ttlExpiry (index : Nat)
  /-- LAST_REF (R97): A TOMBSTONE with no children whose hold has passed becomes FREE. -/
  | lastRef (index : Nat)
  /-- PREEMPTION_START (R258): A partition short of frames starts a park of the chosen victim. -/
  | preemptionStart (partition : Nat)
  /-- PARK_TILE_WRITTEN (R353): A park's tile write to its tier completes and the park proceeds. -/
  | parkTileWritten (transfer : Nat) (r : TileResult)
  /-- MOVE_DONE (R74): A park or migration completes and the session becomes PARKED or TOMBSTONE. -/
  | moveDone (index : Nat)
  /-- MOVE_FAIL (R80): A park or migration fails and the session returns to RETURN_STATE. -/
  | moveFail (index : Nat)
  /-- REVIVAL_FETCH_ISSUE (R260): The module issues a reviving session's fetches in layer order. -/
  | revivalFetchIssue
  /-- TILE_FETCH_DONE (R358): A fetched tile arrives in its frame and waiting readers or slices proceed. -/
  | tileFetchDone (transfer : Nat) (r : TileResult)
  /-- FETCH_TIMEOUT (R359): A tile fetch or park write with no completion in FETCH_TIMEOUT_US is repeated or fails. -/
  | fetchTimeout (transfer : Nat)
  /-- FLAT_IDLE_PARK (R361): An idle READY session in a flat-window partition is parked. -/
  | flatIdlePark (index : Nat)
  /-- FLAT_DEMOTE (R361): A session parked in tier 1 for FLAT_DEMOTE_S starts a move beneath to tier 2. -/
  | flatDemote (index : Nat)
  /-- FLAT_MIGRATION (R362): One page of a move beneath is copied and its home switched. -/
  | flatMigration (index : Nat)
  /-- HBM_UNCORRECTABLE (R382): A read of a KV, FILLING or MAP frame returns an uncorrectable error and the frame is retired. -/
  | hbmUncorrectable (frame offset : Nat) (index : Nat)
  /-- RECORD_UNCORRECTABLE (R384): A record read returns an uncorrectable error and the session's context is torn down. -/
  | recordUncorrectable (index : Nat)
  /-- SCRUB_PASS (R381): A base die scrubs its frames once per SCRUB_PERIOD_S. -/
  | scrubPass (stack : Nat) (bad corrected : List Nat)
  /-- SRAM_FATAL (R387): An uncorrectable error in Atlas or frame table SRAM halts the module. -/
  | sramFatal (which : Nat)
  /-- KEY_SLOT_ERROR (R556): An uncorrectable error in a context key slot tears the context down. -/
  | keySlotError (context : Nat)
  /-- LANES_ALIGNED (R397): The host port's receiver aligns its four lanes by their alignment codeword sequences and leaves DESKEW for CREDIT. -/
  | lanesAligned (skewNs : Nat)
  /-- VIN_OVERVOLTAGE_END (R678): VIN falls below 47.0 V after an overvoltage stop, becomes good again and starts a start-up with RESET_CAUSE 0. -/
  | vinOvervoltageEnd (mv : Nat)
  /-- NV_LINK_UP (R522): The PCIe link to the NV module trains to its rate and width, and the module brings up its NVMe queues and sizes namespace 1. -/
  | nvLinkUp (lbas : Nat)
  /-- NV_LINK_DOWN (R512): The PCIe link to the NV module goes down, so surveys are refused with NV_ABSENT. -/
  | nvLinkDown
  /-- TEST_LOGIC_RESET (R578): The test access port enters Test-Logic-Reset under TMS and TCK and selects BYPASS, ending any boundary-scan instruction. -/
  | testLogicReset
  /-- PLCA_BEACON_LOSS (R624): No PLCA beacon is seen for 4 ms, so PLCA_STATUS becomes 2 and the port falls back to CSMA/CD. -/
  | plcaBeaconLoss
  /-- PLCA_BEACON (R624): PLCA beacons are seen on the segment, so PLCA_STATUS becomes 1 and the port returns to PLCA. -/
  | plcaBeacon
  /-- INNINGS_INCREMENT (R101): An innings increment that was deferred is applied once 100 µs have passed since the session's last increment. -/
  | inningsIncrement (index : Nat)
  /-- DICT_ACCESS (R603): A dictionary PDU on the mailbox or a management frame on 10BASE-T1S is taken whole, checked, authenticated and sequenced, then has its items applied in order or is refused as a whole. -/
  | dictAccess (r : DictRequest)
  deriving DecidableEq, Repr

end Sys2Proof
end

