-- ==== Sys2Proof/Machine/Entries.lean ====
section
/-!
DEFINITION. The object dictionary's entries, as the chapters' entry tables list them (R49, R102, R144, R192, R227, R269, R308,
R340, R389, R446, R478, R508, R538, R582, R624, R675). One row stands for a run of subindices; a per-partition row stands at the index
of partition 0, a per-port row at the index of the host port (R623).
-/
namespace Sys2Proof

/-- Types of entries with their codes and sizes (R584). -/
inductive EntryType where
  | bool | u8 | u16 | u32 | u64 | i32 | f32
  | octets (n : Nat) | string (n : Nat)
  deriving DecidableEq, Repr

/-- Access classes (R585). -/
inductive Access where
  | ro | rw | wo | rws | const
  deriving DecidableEq, Repr

/-- A row of an entry table: index, first and last subindex, type, access, default, whether it is an enumeration (R589), bounds. -/
structure EntryRow where
  index : Nat
  first : Nat
  last : Nat
  type : EntryType
  access : Access
  dflt : Nat
  enum : Bool
  lo : Nat
  hi : Nat
  deriving DecidableEq, Repr

/-- Entries of chapter 02. -/
def entries02 : List EntryRow := [
  ⟨0x2100, 0x01, 0x01, .u8, .rw, 0, true, 0, 1⟩, -- PACE_MODE
  ⟨0x2100, 0x02, 0x02, .u16, .rw, 750, false, 680, 840⟩, -- PACE_FIXED_MV
  ⟨0x2100, 0x03, 0x03, .u8, .rw, 5, false, 0, 20⟩, -- PACE_MARGIN_PCT
  ⟨0x2100, 0x04, 0x04, .u16, .rw, 950, false, 300, 950⟩, -- PACE_POWER_CAP_W
  ⟨0x2100, 0x05, 0x05, .u16, .rw, 100, false, 20, 1000⟩, -- PACE_UPDATE_US
  ⟨0xA100, 0x01, 0x09, .u32, .ro, 0, false, 0, 4294967295⟩, -- PACE_RATE
  ⟨0xA100, 0x11, 0x19, .u16, .ro, 0, false, 0, 65535⟩, -- VCORE_MV
  ⟨0xA100, 0x20, 0x20, .u32, .ro, 0, false, 0, 4294967295⟩, -- PACE_LIMITED
  ⟨0xA100, 0x21, 0x21, .bool, .ro, 0, true, 0, 255⟩, -- CAP_UNMET
  ⟨0x5020, 0x01, 0x01, .u64, .ro, 0, false, 0, 18446744073709551615⟩, -- LATE_DISCARDS
  ⟨0x5020, 0x02, 0x02, .u64, .ro, 0, false, 0, 18446744073709551615⟩, -- DUPLICATE_ACKS
  ⟨0x5020, 0x03, 0x03, .u64, .ro, 0, false, 0, 18446744073709551615⟩] -- CAP_UNMET_INTERVALS

/-- Entries of chapter 03. -/
def entries03 : List EntryRow := [
  ⟨0x2010, 0x01, 0x01, .u32, .rws, 33554432, false, 65536, 33554432⟩, -- ATLAS_ENTRIES
  ⟨0x3008, 0x01, 0x01, .u32, .rw, 5000, false, 0, 3600000⟩, -- DEMOTE_MS
  ⟨0x3008, 0x02, 0x02, .u32, .rw, 86400, false, 0, 31536000⟩, -- TTL_S
  ⟨0x3008, 0x03, 0x03, .u32, .rw, 1000, false, 0, 3600000⟩, -- TOMB_HOLD_MS
  ⟨0x3008, 0x04, 0x04, .u32, .rw, 33554432, false, 0, 33554432⟩, -- MAX_SESSIONS
  ⟨0xA010, 0x01, 0x09, .u32, .ro, 0, false, 0, 4294967295⟩, -- SESSIONS_IN_STATE
  ⟨0x5010, 0x01, 0x01, .u64, .ro, 0, false, 0, 18446744073709551615⟩, -- ADMITS
  ⟨0x5010, 0x02, 0x02, .u64, .ro, 0, false, 0, 18446744073709551615⟩, -- STALE_HANDLES
  ⟨0x5010, 0x03, 0x03, .u64, .ro, 0, false, 0, 18446744073709551615⟩, -- DEMOTIONS
  ⟨0x5010, 0x04, 0x04, .u64, .ro, 0, false, 0, 18446744073709551615⟩, -- EXPIRIES
  ⟨0x5010, 0x05, 0x05, .u64, .ro, 0, false, 0, 18446744073709551615⟩, -- CANCELS
  ⟨0x5010, 0x06, 0x06, .u64, .ro, 0, false, 0, 18446744073709551615⟩, -- STEP_RESTARTS
  ⟨0x5010, 0x07, 0x07, .u64, .ro, 0, false, 0, 18446744073709551615⟩, -- SESSION_FAULTS
  ⟨0x5010, 0x08, 0x08, .u64, .ro, 0, false, 0, 18446744073709551615⟩] -- LINEAGE_BREAKS

/-- Entries of chapter 04. -/
def entries04 : List EntryRow := [
  ⟨0x2020, 0x01, 0x01, .u16, .rw, 20, false, 0, 1000⟩, -- APPEND_WAIT_MS
  ⟨0xA020, 0x01, 0x08, .u32, .ro, 0, false, 0, 4294967295⟩, -- FRAMES_FREE
  ⟨0xA020, 0x09, 0x09, .u32, .ro, 0, false, 0, 4294967295⟩, -- FRAMES_RETIRED
  ⟨0xA020, 0x0A, 0x0A, .u32, .ro, 0, false, 0, 4294967295⟩, -- FRAMES_SHARED
  ⟨0x5030, 0x01, 0x01, .u64, .ro, 0, false, 0, 18446744073709551615⟩, -- COW_COPIES
  ⟨0x5030, 0x02, 0x02, .u64, .ro, 0, false, 0, 18446744073709551615⟩, -- FRAME_SHORTAGES
  ⟨0x5030, 0x03, 0x03, .u64, .ro, 0, false, 0, 18446744073709551615⟩, -- LENGTH_LIMITS
  ⟨0x5030, 0x04, 0x04, .u64, .ro, 0, false, 0, 18446744073709551615⟩, -- MAP_CACHE_MISSES
  ⟨0x5030, 0x05, 0x05, .u64, .ro, 0, false, 0, 18446744073709551615⟩] -- TILE_RANGE_REJECTS

/-- Entries of chapter 05. -/
def entries05 : List EntryRow := [
  ⟨0x2030, 0x01, 0x01, .u16, .rw, 100, false, 1, 10000⟩, -- ROPE_LOAD_WAIT_MS
  ⟨0x3010, 0x01, 0x01, .bool, .rws, 0, true, 0, 1⟩, -- RING_MODE
  ⟨0x3010, 0x02, 0x02, .u8, .rws, 2, false, 2, 32⟩, -- RING_SIZE
  ⟨0x3010, 0x03, 0x03, .u8, .rws, 0, false, 0, 31⟩, -- RING_MEMBER
  ⟨0x3010, 0x04, 0x04, .u8, .rws, 16, false, 9, 21⟩, -- RING_SEGMENT_LOG2
  ⟨0xA030, 0x01, 0x04, .u64, .ro, 0, false, 0, 18446744073709551615⟩, -- MODEL_SLOTS_LOADED
  ⟨0xA030, 0x05, 0x05, .u32, .ro, 0, false, 0, 4294967295⟩, -- ROPE_TABLES_LOADED
  ⟨0x5040, 0x01, 0x01, .u64, .ro, 0, false, 0, 18446744073709551615⟩, -- TILES_READ
  ⟨0x5040, 0x02, 0x02, .u64, .ro, 0, false, 0, 18446744073709551615⟩, -- PARTIALS_EMITTED
  ⟨0x5040, 0x03, 0x03, .u64, .ro, 0, false, 0, 18446744073709551615⟩, -- FILL_WAITS
  ⟨0x5040, 0x04, 0x04, .u64, .ro, 0, false, 0, 18446744073709551615⟩, -- NAN_PARTIALS
  ⟨0x5040, 0x05, 0x05, .u64, .ro, 0, false, 0, 18446744073709551615⟩, -- ASSIGNMENTS_WITHDRAWN
  ⟨0x5040, 0x06, 0x06, .u64, .ro, 0, false, 0, 18446744073709551615⟩, -- RING_TILES_SENT
  ⟨0x5040, 0x07, 0x07, .u64, .ro, 0, false, 0, 18446744073709551615⟩] -- RING_TILES_RECEIVED

/-- Entries of chapter 06. -/
def entries06 : List EntryRow := [
  ⟨0x2040, 0x01, 0x01, .u8, .rw, 64, false, 1, 64⟩, -- MERGE_WINDOW_MAX
  ⟨0x2040, 0x02, 0x02, .u16, .rw, 1000, false, 1, 5000⟩, -- SEGMENT_MAX_AGE_MS
  ⟨0xA040, 0x01, 0x20, .u32, .ro, 0, false, 0, 4294967295⟩, -- CATCHER_STORE_FREE
  ⟨0xA040, 0x21, 0x21, .u32, .ro, 0, false, 0, 4294967295⟩, -- MERGES_OPEN
  ⟨0x5050, 0x01, 0x01, .u64, .ro, 0, false, 0, 18446744073709551615⟩, -- PARTIALS_MERGED
  ⟨0x5050, 0x02, 0x02, .u64, .ro, 0, false, 0, 18446744073709551615⟩, -- STALE_PARTIALS
  ⟨0x5050, 0x03, 0x03, .u64, .ro, 0, false, 0, 18446744073709551615⟩, -- WITHDRAWN_PARTIALS
  ⟨0x5050, 0x04, 0x04, .u64, .ro, 0, false, 0, 18446744073709551615⟩, -- NAN_MERGES
  ⟨0x5050, 0x05, 0x05, .u64, .ro, 0, false, 0, 18446744073709551615⟩, -- ORPHAN_PARTIALS
  ⟨0x5050, 0x06, 0x06, .u64, .ro, 0, false, 0, 18446744073709551615⟩, -- AGED_SEGMENTS
  ⟨0x5050, 0x07, 0x07, .u64, .ro, 0, false, 0, 18446744073709551615⟩] -- MERGE_OPEN_WAITS

/-- Entries of chapter 07. -/
def entries07 : List EntryRow := [
  ⟨0x3000, 0x01, 0x01, .u64, .rws, 0, false, 0, 18446744073709551615⟩, -- GRANULES
  ⟨0x3000, 0x02, 0x02, .u64, .rws, 0, false, 0, 18446744073709551615⟩, -- CACHE_SHARES
  ⟨0x3018, 0x01, 0x01, .u32, .rw, 20000, false, 100, 1000000⟩, -- LC_STEP_GOAL_US
  ⟨0x3018, 0x02, 0x02, .u32, .rw, 2000, false, 100, 100000⟩, -- BE_CUT_US
  ⟨0x3018, 0x03, 0x03, .u32, .rw, 2000, false, 100, 100000⟩, -- PREFILL_CUT_US
  ⟨0x3018, 0x04, 0x04, .u32, .rw, 5000, false, 100, 1000000⟩, -- JOB_IDLE_US
  ⟨0x3018, 0x05, 0x05, .u8, .rw, 0, false, 0, 100⟩, -- ROLE_PREFILL_MIN_PCT
  ⟨0x3018, 0x06, 0x06, .u8, .rw, 50, false, 0, 100⟩, -- ROLE_PREFILL_MAX_PCT
  ⟨0x3018, 0x07, 0x07, .u16, .rw, 256, false, 0, 61035⟩, -- FRAME_LOW_WATER
  ⟨0x3018, 0x08, 0x08, .u16, .rw, 1024, false, 0, 61035⟩, -- FRAME_HIGH_WATER
  ⟨0x3018, 0x09, 0x09, .u32, .rw, 10000, false, 0, 3600000⟩, -- PREEMPT_HOLDOFF_MS
  ⟨0xA060, 0x01, 0x40, .u8, .ro, 0, false, 0, 255⟩, -- PREFILL_SHARE
  ⟨0xA061, 0x01, 0x40, .u32, .ro, 0, false, 0, 4294967295⟩, -- TPRED_US
  ⟨0xA062, 0x01, 0x01, .u16, .ro, 0, false, 0, 65535⟩, -- LAST_TEARDOWN
  ⟨0xA062, 0x02, 0x02, .u16, .ro, 0, false, 0, 65535⟩, -- JOBS_OPEN
  ⟨0x5060, 0x01, 0x01, .u64, .ro, 0, false, 0, 18446744073709551615⟩, -- JOBS_OPENED
  ⟨0x5060, 0x02, 0x02, .u64, .ro, 0, false, 0, 18446744073709551615⟩, -- BE_CUTS
  ⟨0x5060, 0x03, 0x03, .u64, .ro, 0, false, 0, 18446744073709551615⟩, -- PREFILL_CUTS
  ⟨0x5060, 0x04, 0x04, .u64, .ro, 0, false, 0, 18446744073709551615⟩, -- IDLE_RELEASES
  ⟨0x5060, 0x05, 0x05, .u64, .ro, 0, false, 0, 18446744073709551615⟩, -- GOAL_REFUSALS
  ⟨0x5060, 0x06, 0x06, .u64, .ro, 0, false, 0, 18446744073709551615⟩, -- FIT_REFUSALS
  ⟨0x5060, 0x07, 0x07, .u64, .ro, 0, false, 0, 18446744073709551615⟩, -- PREEMPTIONS
  ⟨0x5060, 0x08, 0x08, .u64, .ro, 0, false, 0, 18446744073709551615⟩, -- PREEMPT_ABANDONS
  ⟨0x5060, 0x09, 0x09, .u64, .ro, 0, false, 0, 18446744073709551615⟩] -- CONTEXT_TEARDOWNS

/-- Entries of chapter 08. -/
def entries08 : List EntryRow := [
  ⟨0xA070, 0x01, 0x01, .u8, .ro, 0, false, 0, 255⟩, -- VOCABS_LOADED
  ⟨0xA070, 0x02, 0x02, .u64, .ro, 0, false, 0, 18446744073709551615⟩, -- GRAMMARS_LOADED
  ⟨0xA070, 0x03, 0x03, .u64, .ro, 0, false, 0, 18446744073709551615⟩, -- LISTS_LOADED
  ⟨0xA070, 0x04, 0x04, .u32, .ro, 0, false, 0, 4294967295⟩, -- STACK_SEGMENTS_FREE
  ⟨0xA070, 0x05, 0x05, .u16, .ro, 0, false, 0, 65535⟩, -- MASK_QUEUE_DEPTH
  ⟨0xA070, 0x06, 0x06, .u32, .ro, 0, false, 0, 4294967295⟩, -- VOCAB_STORE_FREE
  ⟨0xA070, 0x07, 0x07, .u32, .ro, 0, false, 0, 4294967295⟩, -- GRAMMAR_STORE_FREE
  ⟨0xA070, 0x08, 0x08, .u32, .ro, 0, false, 0, 4294967295⟩, -- LIST_STORE_FREE
  ⟨0x5070, 0x01, 0x01, .u64, .ro, 0, false, 0, 18446744073709551615⟩, -- TOKENS_CUT
  ⟨0x5070, 0x02, 0x02, .u64, .ro, 0, false, 0, 18446744073709551615⟩, -- INVALID_BYTES
  ⟨0x5070, 0x03, 0x03, .u64, .ro, 0, false, 0, 18446744073709551615⟩, -- UNMATCHED_BYTES
  ⟨0x5070, 0x04, 0x04, .u64, .ro, 0, false, 0, 18446744073709551615⟩, -- DETOK_REPLACEMENTS
  ⟨0x5070, 0x05, 0x05, .u64, .ro, 0, false, 0, 18446744073709551615⟩, -- MASKS_SENT
  ⟨0x5070, 0x06, 0x06, .u64, .ro, 0, false, 0, 18446744073709551615⟩, -- MASKS_LATE
  ⟨0x5070, 0x07, 0x07, .u64, .ro, 0, false, 0, 18446744073709551615⟩, -- TOKENS_REJECTED
  ⟨0x5070, 0x08, 0x08, .u64, .ro, 0, false, 0, 18446744073709551615⟩, -- ESCAPES
  ⟨0x5070, 0x09, 0x09, .u64, .ro, 0, false, 0, 18446744073709551615⟩, -- DEAD_ENDS
  ⟨0x5070, 0x0A, 0x0A, .u64, .ro, 0, false, 0, 18446744073709551615⟩, -- FORCED_STARTS
  ⟨0x5070, 0x0B, 0x0B, .u64, .ro, 0, false, 0, 18446744073709551615⟩, -- FORCED_ABANDONED
  ⟨0x5070, 0x0C, 0x0C, .u64, .ro, 0, false, 0, 18446744073709551615⟩] -- STACK_FULL_MASKS

/-- Entries of chapter 09. -/
def entries09 : List EntryRow := [
  ⟨0x2050, 0x01, 0x01, .u32, .rw, 100, false, 1, 60000⟩, -- SEARCH_TIMEOUT_MS
  ⟨0x2050, 0x02, 0x02, .u16, .rw, 1024, false, 0, 4096⟩, -- SEARCH_QUEUE_MAX
  ⟨0x3020, 0x02, 0x02, .u16, .rw, 1024, false, 0, 16384⟩, -- COMPASS_STAGE_FRAMES
  ⟨0xA080, 0x01, 0x01, .u16, .ro, 0, false, 0, 65535⟩, -- INDEXES_DEFINED
  ⟨0xA080, 0x02, 0x11, .u32, .ro, 0, false, 0, 4294967295⟩, -- INDEX_LIVE
  ⟨0xA080, 0x12, 0x12, .u16, .ro, 0, false, 0, 65535⟩, -- SEARCHES_QUEUED
  ⟨0x5080, 0x01, 0x01, .u64, .ro, 0, false, 0, 18446744073709551615⟩, -- SEARCHES
  ⟨0x5080, 0x02, 0x02, .u64, .ro, 0, false, 0, 18446744073709551615⟩, -- SLICES_SCANNED
  ⟨0x5080, 0x03, 0x03, .u64, .ro, 0, false, 0, 18446744073709551615⟩, -- ENTRIES_COMPARED
  ⟨0x5080, 0x04, 0x04, .u64, .ro, 0, false, 0, 18446744073709551615⟩, -- TOMBSTONE_SKIPS
  ⟨0x5080, 0x05, 0x05, .u64, .ro, 0, false, 0, 18446744073709551615⟩, -- SEARCH_TIMEOUTS
  ⟨0x5080, 0x06, 0x06, .u64, .ro, 0, false, 0, 18446744073709551615⟩, -- SHORT_RESULTS
  ⟨0x5080, 0x07, 0x07, .u64, .ro, 0, false, 0, 18446744073709551615⟩, -- MUTATION_WAITS
  ⟨0x5080, 0x08, 0x08, .u64, .ro, 0, false, 0, 18446744073709551615⟩] -- STAGE_FETCHES

/-- Entries of chapter 10. -/
def entries10 : List EntryRow := [
  ⟨0x2060, 0x01, 0x01, .u16, .rws, 0, false, 0, 65535⟩, -- FM_QP
  ⟨0x2060, 0x02, 0x02, .u16, .rw, 32, false, 1, 256⟩, -- FETCH_QPS
  ⟨0x2060, 0x03, 0x03, .u32, .rw, 500, false, 10, 100000⟩, -- FETCH_TIMEOUT_US
  ⟨0x2060, 0x04, 0x04, .u8, .rw, 3, false, 0, 15⟩, -- FETCH_RETRIES
  ⟨0x2060, 0x05, 0x05, .u32, .rw, 1000, false, 10, 60000⟩, -- LEASE_TIMEOUT_MS
  ⟨0x2060, 0x06, 0x06, .u32, .rw, 60000, false, 1000, 3600000⟩, -- REGION_RETAIN_MS
  ⟨0x2060, 0x07, 0x07, .u32, .rw, 5000, false, 100, 600000⟩, -- PUBLISH_IDLE_MS
  ⟨0x2060, 0x08, 0x08, .u32, .rw, 86400, false, 3600, 2592000⟩, -- SCRUB_PERIOD_S
  ⟨0x3028, 0x01, 0x01, .u8, .rw, 0, false, 0, 255⟩, -- PARK_POOL_RANGE
  ⟨0x3028, 0x02, 0x02, .bool, .rws, 0, true, 0, 1⟩, -- FLAT_WINDOW
  ⟨0x3028, 0x03, 0x03, .u32, .rw, 0, false, 0, 4294967295⟩, -- FLAT_HOST_SLOTS
  ⟨0x3028, 0x04, 0x04, .u32, .rw, 600, false, 0, 31536000⟩, -- FLAT_DEMOTE_S
  ⟨0x3028, 0x05, 0x05, .u32, .rw, 60, false, 0, 31536000⟩, -- FLAT_IDLE_PARK_S
  ⟨0xA090, 0x01, 0x01, .u64, .ro, 0, false, 0, 18446744073709551615⟩, -- HOST_SLOTS_FREE
  ⟨0xA090, 0x02, 0x02, .u64, .ro, 0, false, 0, 18446744073709551615⟩, -- POOL_SLOTS_FREE
  ⟨0xA090, 0x03, 0x03, .u16, .ro, 0, false, 0, 65535⟩, -- REGIONS_DEFINED
  ⟨0xA090, 0x04, 0x04, .u16, .ro, 0, false, 0, 65535⟩, -- LEASES_HELD
  ⟨0xA090, 0x05, 0x05, .u8, .ro, 0, false, 0, 255⟩, -- FATAL
  ⟨0xA090, 0x06, 0x06, .u16, .ro, 0, false, 0, 65535⟩, -- HOST_ID
  ⟨0xA090, 0x07, 0x07, .u8, .ro, 0, false, 0, 255⟩, -- POOL_CHANNELS
  ⟨0x5090, 0x01, 0x01, .u64, .ro, 0, false, 0, 18446744073709551615⟩, -- TILES_PARKED
  ⟨0x5090, 0x02, 0x02, .u64, .ro, 0, false, 0, 18446744073709551615⟩, -- TILES_FETCHED
  ⟨0x5090, 0x03, 0x03, .u64, .ro, 0, false, 0, 18446744073709551615⟩, -- FETCH_REPEATS
  ⟨0x5090, 0x04, 0x04, .u64, .ro, 0, false, 0, 18446744073709551615⟩, -- FETCH_FAILURES
  ⟨0x5090, 0x05, 0x05, .u64, .ro, 0, false, 0, 18446744073709551615⟩, -- PARK_FAILURES
  ⟨0x5090, 0x06, 0x06, .u64, .ro, 0, false, 0, 18446744073709551615⟩, -- POOL_DENIALS
  ⟨0x5090, 0x07, 0x07, .u64, .ro, 0, false, 0, 18446744073709551615⟩, -- PUBLISHES_COMMITTED
  ⟨0x5090, 0x08, 0x08, .u64, .ro, 0, false, 0, 18446744073709551615⟩, -- VERSION_STALES
  ⟨0x5090, 0x09, 0x09, .u64, .ro, 0, false, 0, 18446744073709551615⟩, -- LEASES_VOIDED
  ⟨0x5090, 0x0A, 0x0A, .u64, .ro, 0, false, 0, 18446744073709551615⟩, -- FLAT_MIGRATIONS
  ⟨0x5090, 0x0B, 0x0B, .u64, .ro, 0, false, 0, 18446744073709551615⟩, -- HBM_CORRECTED
  ⟨0x5090, 0x0C, 0x0C, .u64, .ro, 0, false, 0, 18446744073709551615⟩, -- HBM_UNCORRECTED
  ⟨0x5090, 0x0D, 0x0D, .u64, .ro, 0, false, 0, 18446744073709551615⟩] -- RECORD_SLOTS_WITHHELD

/-- Entries of chapter 11. -/
def entries11 : List EntryRow := [
  ⟨0x2070, 0x01, 0x01, .u16, .rw, 50, false, 1, 65535⟩, -- RTO_US
  ⟨0x2070, 0x02, 0x02, .u8, .rw, 7, false, 1, 15⟩, -- RETRY_LIMIT
  ⟨0x2070, 0x03, 0x03, .u8, .rw, 8, false, 1, 64⟩, -- ACK_COALESCE
  ⟨0x2070, 0x04, 0x04, .u16, .rw, 2000, false, 100, 65535⟩, -- ACK_DELAY_NS
  ⟨0x2070, 0x05, 0x05, .u8, .rw, 3, false, 1, 16⟩, -- FAST_REPEAT_COUNT
  ⟨0x2070, 0x06, 0x06, .u32, .rw, 1000, false, 100, 1000000⟩, -- TIME_STEP_NS
  ⟨0x2070, 0x07, 0x07, .u16, .rw, 10, false, 1, 1000⟩, -- TIME_HOLDOVER_MS
  ⟨0x4000, 0x01, 0x01, .bool, .rws, 1, true, 0, 1⟩, -- PORT_ENABLE
  ⟨0x4000, 0x02, 0x02, .u8, .rw, 6, false, 0, 15⟩, -- TX_PRESET
  ⟨0x4000, 0x03, 0x03, .u16, .rw, 64, false, 1, 65535⟩, -- FEC_DOWN_COUNT
  ⟨0xA0B0, 0x01, 0x05, .u8, .ro, 0, false, 0, 255⟩, -- LINK_STATE
  ⟨0xA0B0, 0x06, 0x06, .u8, .ro, 0, false, 0, 255⟩, -- TIME_STATE
  ⟨0xA0B0, 0x07, 0x07, .i32, .ro, 0, false, 0, 4294967295⟩, -- TIME_OFFSET_NS
  ⟨0xA0B0, 0x08, 0x08, .u32, .ro, 0, false, 0, 4294967295⟩, -- PATH_DELAY_NS
  ⟨0xA0B0, 0x09, 0x09, .u32, .ro, 0, false, 0, 4294967295⟩, -- QPS_IN_USE
  ⟨0xA0B0, 0x0A, 0x0A, .u32, .ro, 0, false, 0, 4294967295⟩, -- WRS_POSTED
  ⟨0x50B0, 0x01, 0x01, .u64, .ro, 0, false, 0, 18446744073709551615⟩, -- FEC_CW_CORRECTED
  ⟨0x50B0, 0x02, 0x02, .u64, .ro, 0, false, 0, 18446744073709551615⟩, -- FEC_SYMBOLS_CORRECTED
  ⟨0x50B0, 0x03, 0x03, .u64, .ro, 0, false, 0, 18446744073709551615⟩, -- FEC_CW_UNCORRECTABLE
  ⟨0x50B0, 0x04, 0x04, .u64, .ro, 0, false, 0, 18446744073709551615⟩, -- LINK_DOWNS
  ⟨0x50B0, 0x05, 0x05, .u64, .ro, 0, false, 0, 18446744073709551615⟩, -- PACKETS_RX
  ⟨0x50B0, 0x06, 0x06, .u64, .ro, 0, false, 0, 18446744073709551615⟩, -- PACKETS_TX
  ⟨0x50B0, 0x07, 0x07, .u64, .ro, 0, false, 0, 18446744073709551615⟩, -- INTEGRITY_DROPS
  ⟨0x50B0, 0x08, 0x08, .u64, .ro, 0, false, 0, 18446744073709551615⟩, -- LENGTH_DROPS
  ⟨0x50B0, 0x09, 0x09, .u64, .ro, 0, false, 0, 18446744073709551615⟩, -- WINDOW_DROPS
  ⟨0x50B0, 0x0A, 0x0A, .u64, .ro, 0, false, 0, 18446744073709551615⟩, -- CREDIT_STALLS
  ⟨0x50B8, 0x01, 0x01, .u64, .ro, 0, false, 0, 18446744073709551615⟩, -- REPEATS
  ⟨0x50B8, 0x02, 0x02, .u64, .ro, 0, false, 0, 18446744073709551615⟩, -- REPEAT_TIMEOUTS
  ⟨0x50B8, 0x03, 0x03, .u64, .ro, 0, false, 0, 18446744073709551615⟩, -- FAST_REPEATS
  ⟨0x50B8, 0x04, 0x04, .u64, .ro, 0, false, 0, 18446744073709551615⟩, -- QP_ERRORS
  ⟨0x50B8, 0x05, 0x05, .u64, .ro, 0, false, 0, 18446744073709551615⟩, -- DESCRIPTOR_CLAMPS
  ⟨0x50B8, 0x06, 0x06, .u64, .ro, 0, false, 0, 18446744073709551615⟩, -- WRS_FIRED
  ⟨0x50B8, 0x07, 0x07, .u64, .ro, 0, false, 0, 18446744073709551615⟩, -- TIME_STEPS
  ⟨0x50B8, 0x08, 0x08, .u64, .ro, 0, false, 0, 18446744073709551615⟩, -- RESPONSE_TIMEOUTS
  ⟨0x50B8, 0x09, 0x09, .u64, .ro, 0, false, 0, 18446744073709551615⟩, -- TILE_NAKS
  ⟨0x50B8, 0x0A, 0x0A, .u64, .ro, 0, false, 0, 18446744073709551615⟩] -- COUNTER_BUMPS_IGNORED

/-- Entries of chapter 12. -/
def entries12 : List EntryRow := [
  ⟨0x2080, 0x01, 0x01, .u8, .rws, 0, false, 0, 63⟩, -- NODE_ID
  ⟨0x2080, 0x02, 0x02, .u8, .rws, 0, true, 0, 2⟩, -- PEER_TOPOLOGY
  ⟨0x2080, 0x03, 0x03, .u8, .rws, 8, false, 2, 8⟩, -- TORUS_DX
  ⟨0x2080, 0x04, 0x04, .u8, .rws, 8, false, 2, 8⟩, -- TORUS_DY
  ⟨0x2080, 0x05, 0x05, .u8, .rws, 2, false, 2, 32⟩, -- RING_NODES
  ⟨0x2080, 0x06, 0x06, .bool, .rws, 0, true, 0, 1⟩, -- DOUBLES_ENABLE
  ⟨0x2080, 0x07, 0x07, .u8, .rws, 0, false, 0, 63⟩, -- PARTNER_NODE
  ⟨0x2080, 0x08, 0x08, .u8, .rw, 0, true, 0, 1⟩, -- FAILOVER_MODE
  ⟨0x2080, 0x09, 0x09, .u16, .rw, 100, false, 10, 10000⟩, -- PAIR_BEAT_US
  ⟨0x2080, 0x0A, 0x0A, .u16, .rw, 5, false, 1, 1000⟩, -- PAIR_DEADLINE_MS
  ⟨0x2081, 0x01, 0x40, .u8, .rw, 0, false, 0, 4⟩, -- ROUTE_OVERRIDE
  ⟨0x3010, 0x05, 0x05, .u8, .rws, 0, false, 0, 63⟩, -- RING_NODE_BASE
  ⟨0x3010, 0x06, 0x06, .bool, .rws, 0, true, 0, 1⟩, -- MIRROR_PART
  ⟨0xA0C0, 0x01, 0x01, .u8, .ro, 0, false, 0, 255⟩, -- PAIR_STATE
  ⟨0xA0C0, 0x02, 0x02, .u32, .ro, 0, false, 0, 4294967295⟩, -- MIRROR_BACKLOG
  ⟨0xA0C0, 0x03, 0x03, .u8, .ro, 255, false, 0, 255⟩, -- ADOPTED_NODE
  ⟨0xA0C0, 0x04, 0x04, .u32, .ro, 0, false, 0, 4294967295⟩, -- SYNC_PAGES_LEFT
  ⟨0x50C0, 0x01, 0x01, .u64, .ro, 0, false, 0, 18446744073709551615⟩, -- FORWARDED_PACKETS
  ⟨0x50C0, 0x02, 0x02, .u64, .ro, 0, false, 0, 18446744073709551615⟩, -- ROUTE_DROPS
  ⟨0x50C0, 0x03, 0x03, .u64, .ro, 0, false, 0, 18446744073709551615⟩, -- MIRROR_ITEMS
  ⟨0x50C0, 0x04, 0x04, .u64, .ro, 0, false, 0, 18446744073709551615⟩, -- MIRROR_WAITS
  ⟨0x50C0, 0x05, 0x05, .u64, .ro, 0, false, 0, 18446744073709551615⟩, -- FAILOVERS
  ⟨0x50C0, 0x06, 0x06, .u64, .ro, 0, false, 0, 18446744073709551615⟩, -- MIGRATIONS_OUT
  ⟨0x50C0, 0x07, 0x07, .u64, .ro, 0, false, 0, 18446744073709551615⟩, -- MIGRATIONS_IN
  ⟨0x50C0, 0x08, 0x08, .u64, .ro, 0, false, 0, 18446744073709551615⟩, -- MIGRATIONS_FAILED
  ⟨0x50C0, 0x09, 0x09, .u64, .ro, 0, false, 0, 18446744073709551615⟩, -- RING_STEP_RESTARTS
  ⟨0x50C0, 0x0A, 0x0A, .u64, .ro, 0, false, 0, 18446744073709551615⟩, -- MIRROR_REFUSALS
  ⟨0x50C0, 0x0B, 0x0B, .u64, .ro, 0, false, 0, 18446744073709551615⟩, -- MIGRATE_TAG_MISMATCHES
  ⟨0x50C0, 0x0C, 0x0C, .u64, .ro, 0, false, 0, 18446744073709551615⟩, -- SHADOWS_DISCARDED
  ⟨0x50C0, 0x0D, 0x0D, .u64, .ro, 0, false, 0, 18446744073709551615⟩] -- MIRROR_LATE_ITEMS

/-- Entries of chapter 13. -/
def entries13 : List EntryRow := [
  ⟨0x2090, 0x01, 0x04, .u8, .rws, 0, false, 0, 7⟩, -- KIND_CLASS_*
  ⟨0x2091, 0x01, 0x01, .bool, .rw, 0, true, 0, 1⟩, -- SAMPLE_ENABLE
  ⟨0x2091, 0x02, 0x02, .u8, .rw, 0, false, 0, 63⟩, -- SAMPLE_RANGE
  ⟨0x2091, 0x03, 0x03, .u32, .rw, 1000, false, 10, 1000000⟩, -- SAMPLE_INTERVAL_US
  ⟨0x2091, 0x04, 0x04, .u64, .rw, 0, false, 0, 18446744073709551615⟩, -- SAMPLE_QUEUES
  ⟨0x2091, 0x05, 0x05, .u32, .rw, 10000, false, 100, 10000000⟩, -- SAMPLE_FLUSH_US
  ⟨0x2091, 0x06, 0x06, .u64, .rw, 0, false, 0, 0⟩, -- SAMPLE_RD
  ⟨0x4001, 0x01, 0x08, .u8, .rw, 0, false, 0, 255⟩, -- TC_WEIGHT
  ⟨0x4002, 0x01, 0x08, .u32, .rw, 0, false, 0, 400000⟩, -- SHAPE_RATE_MBPS
  ⟨0x4003, 0x01, 0x08, .u32, .rw, 65536, false, 4192, 16777216⟩, -- SHAPE_BURST_BYTES
  ⟨0x4004, 0x01, 0x01, .u16, .rw, 0, false, 0, 1023⟩, -- SHAPER_OVERHEAD
  ⟨0x4004, 0x02, 0x02, .bool, .rw, 0, true, 0, 1⟩, -- GATE_ENABLE
  ⟨0x4004, 0x03, 0x03, .u64, .rw, 0, false, 0, 18446744073709551615⟩, -- GATE_BASE_NS
  ⟨0x4004, 0x04, 0x04, .u32, .rw, 1000000, false, 1000, 1000000000⟩, -- GATE_CYCLE_NS
  ⟨0x4004, 0x05, 0x05, .u64, .rw, 0, false, 0, 18446744073709551615⟩, -- GATE_CHANGE_NS
  ⟨0x4004, 0x06, 0x06, .u8, .rw, 1, false, 1, 64⟩, -- GATE_COUNT
  ⟨0x4004, 0x07, 0x07, .bool, .wo, 0, true, 0, 1⟩, -- GATE_COMMIT
  ⟨0x4004, 0x08, 0x08, .bool, .rw, 1, true, 0, 1⟩, -- GATE_GUARD
  ⟨0x4005, 0x01, 0x08, .u32, .rw, 0, false, 0, 400000⟩, -- METER_CIR_MBPS
  ⟨0x4006, 0x01, 0x08, .u32, .rw, 65536, false, 4192, 16777216⟩, -- METER_CBS_BYTES
  ⟨0x4007, 0x01, 0x08, .u32, .rw, 0, false, 0, 400000⟩, -- METER_PIR_MBPS
  ⟨0x4008, 0x01, 0x08, .u32, .rw, 65536, false, 4192, 16777216⟩, -- METER_PBS_BYTES
  ⟨0x4009, 0x01, 0x08, .u8, .rw, 0, true, 0, 1⟩, -- YELLOW_ACTION
  ⟨0x4009, 0x09, 0x09, .u8, .rw, 8, false, 0, 128⟩, -- YELLOW_FLOOR
  ⟨0x400A, 0x01, 0x40, .u64, .rw, 71776119062217280, false, 0, 18446744073709551615⟩, -- GATE_ENTRY
  ⟨0xA0D0, 0x01, 0x05, .u8, .ro, 0, false, 0, 255⟩, -- GATE_STATE
  ⟨0xA0D0, 0x06, 0x0A, .u8, .ro, 0, false, 0, 255⟩, -- GATE_OPEN
  ⟨0xA0D0, 0x0B, 0x0B, .u64, .ro, 0, false, 0, 18446744073709551615⟩, -- SAMPLE_WR
  ⟨0xA0D0, 0x0C, 0x0C, .u64, .ro, 0, false, 0, 18446744073709551615⟩, -- SAMPLE_CAPACITY
  ⟨0x50D0, 0x01, 0x08, .u64, .ro, 0, false, 0, 18446744073709551615⟩, -- GREEN_PKTS
  ⟨0x50D0, 0x09, 0x10, .u64, .ro, 0, false, 0, 18446744073709551615⟩, -- YELLOW_PKTS
  ⟨0x50D0, 0x11, 0x18, .u64, .ro, 0, false, 0, 18446744073709551615⟩, -- RED_PKTS
  ⟨0x50D0, 0x19, 0x19, .u64, .ro, 0, false, 0, 18446744073709551615⟩, -- YELLOW_DROPS
  ⟨0x50D0, 0x1A, 0x1A, .u64, .ro, 0, false, 0, 18446744073709551615⟩, -- SHAPER_HOLDS
  ⟨0x50D0, 0x1B, 0x1B, .u64, .ro, 0, false, 0, 18446744073709551615⟩, -- GUARD_HOLDS
  ⟨0x50D8, 0x01, 0x01, .u64, .ro, 0, false, 0, 18446744073709551615⟩, -- SAMPLES_WRITTEN
  ⟨0x50D8, 0x02, 0x02, .u64, .ro, 0, false, 0, 18446744073709551615⟩, -- SAMPLES_LOST
  ⟨0x50D8, 0x03, 0x03, .u64, .ro, 0, false, 0, 18446744073709551615⟩] -- GATE_SWITCHES

/-- Entries of chapter 14. -/
def entries14 : List EntryRow := [
  ⟨0x7000, 0x01, 0x01, .u32, .rw, 1000, false, 400, 10000⟩, -- SURVEY_FREEZE_MAX_US
  ⟨0x7000, 0x02, 0x02, .u32, .rw, 10000, false, 100, 600000⟩, -- RESUME_HOLD_MS
  ⟨0x7000, 0x03, 0x03, .u16, .rws, 256, false, 16, 1024⟩, -- NV_QUEUE_DEPTH
  ⟨0x7000, 0x04, 0x04, .u32, .rw, 5000, false, 100, 60000⟩, -- NV_TIMEOUT_MS
  ⟨0xA0E0, 0x01, 0x01, .u8, .ro, 0, false, 0, 255⟩, -- SURVEY_STATE
  ⟨0xA0E0, 0x02, 0x02, .u64, .ro, 0, false, 0, 18446744073709551615⟩, -- SLOT_A_SEQ
  ⟨0xA0E0, 0x03, 0x03, .u64, .ro, 0, false, 0, 18446744073709551615⟩, -- SLOT_B_SEQ
  ⟨0xA0E0, 0x04, 0x04, .u64, .ro, 0, false, 0, 18446744073709551615⟩, -- BASE_SEQ
  ⟨0xA0E0, 0x05, 0x05, .u64, .ro, 0, false, 0, 18446744073709551615⟩, -- NV_LBAS
  ⟨0xA0E0, 0x06, 0x06, .u64, .ro, 0, false, 0, 18446744073709551615⟩, -- DRAIN_CONFIRMED
  ⟨0x50E0, 0x01, 0x01, .u64, .ro, 0, false, 0, 18446744073709551615⟩, -- SURVEYS_COMMITTED
  ⟨0x50E0, 0x02, 0x02, .u64, .ro, 0, false, 0, 18446744073709551615⟩, -- SURVEYS_FAILED
  ⟨0x50E0, 0x03, 0x03, .u64, .ro, 0, false, 0, 18446744073709551615⟩, -- PAGES_WRITTEN
  ⟨0x50E0, 0x04, 0x04, .u64, .ro, 0, false, 0, 18446744073709551615⟩, -- PAGES_REFERENCED
  ⟨0x50E0, 0x05, 0x05, .u64, .ro, 0, false, 0, 18446744073709551615⟩, -- NV_ERRORS
  ⟨0x50E0, 0x06, 0x06, .u64, .ro, 0, false, 0, 18446744073709551615⟩, -- SHARDS_REJECTED
  ⟨0x50E0, 0x07, 0x07, .u64, .ro, 0, false, 0, 18446744073709551615⟩, -- STEPS_RESUMED
  ⟨0x50E0, 0x08, 0x08, .u64, .ro, 0, false, 0, 18446744073709551615⟩, -- RESTORE_SESSIONS_FAILED
  ⟨0x50E0, 0x09, 0x09, .u64, .ro, 0, false, 0, 18446744073709551615⟩] -- POOL_SLOTS_RETAINED

/-- Entries of chapter 15. -/
def entries15 : List EntryRow := [
  ⟨0x6000, 0x01, 0x01, .bool, .rws, 0, true, 0, 1⟩, -- DEBUG_ENABLE
  ⟨0xA0F0, 0x01, 0x01, .u8, .ro, 0, false, 0, 255⟩, -- SECURITY_STATE
  ⟨0xA0F0, 0x02, 0x02, .u16, .ro, 0, false, 0, 65535⟩, -- CONF_LIVE
  ⟨0xA0F0, 0x03, 0x03, .u32, .ro, 0, false, 0, 4294967295⟩, -- FW_SEC_VERSION
  ⟨0xA0F0, 0x04, 0x04, .u32, .ro, 0, false, 0, 4294967295⟩, -- ROLLBACK_COUNTER
  ⟨0xA0F0, 0x05, 0x05, .u8, .ro, 0, false, 0, 255⟩, -- FW_SLOT
  ⟨0xA0F0, 0x06, 0x06, .u64, .ro, 0, false, 0, 18446744073709551615⟩, -- MODULE_SERIAL
  ⟨0xA0F0, 0x07, 0x07, .u8, .ro, 0, false, 0, 255⟩, -- SCAN_STATE
  ⟨0x50F0, 0x01, 0x01, .u64, .ro, 0, false, 0, 18446744073709551615⟩, -- ATTEST_REPORTS
  ⟨0x50F0, 0x02, 0x02, .u64, .ro, 0, false, 0, 18446744073709551615⟩, -- KEYS_DELIVERED
  ⟨0x50F0, 0x03, 0x03, .u64, .ro, 0, false, 0, 18446744073709551615⟩, -- KEY_FAILURES
  ⟨0x50F0, 0x04, 0x04, .u64, .ro, 0, false, 0, 18446744073709551615⟩, -- CONF_REFUSALS
  ⟨0x50F0, 0x05, 0x05, .u64, .ro, 0, false, 0, 18446744073709551615⟩] -- SCAN_REFUSALS

/-- Entries of chapter 16. -/
def entries16 : List EntryRow := [
  ⟨0x1000, 0x01, 0x01, .string 32, .const, 0, false, 0, 0⟩, -- VENDOR_NAME
  ⟨0x1000, 0x02, 0x02, .string 32, .const, 0, false, 0, 0⟩, -- FAMILY_NAME
  ⟨0x1000, 0x03, 0x03, .string 32, .const, 0, false, 0, 0⟩, -- PART_NAME
  ⟨0x1000, 0x04, 0x04, .u16, .const, 1, false, 0, 65535⟩, -- DICT_FORMAT
  ⟨0x1000, 0x05, 0x05, .u8, .const, 1, false, 0, 255⟩, -- STEPPING
  ⟨0x1001, 0x01, 0x01, .octets 896, .const, 0, false, 0, 0⟩, -- IDENTITY_RECORD
  ⟨0x1010, 0x01, 0x01, .octets 6, .const, 0, false, 0, 0⟩, -- MAC_ADDRESS
  ⟨0x1010, 0x02, 0x02, .u8, .const, 0, false, 1, 64⟩, -- PLCA_NODE_ID
  ⟨0x1010, 0x03, 0x03, .bool, .rws, 1, true, 0, 1⟩, -- PLCA_ENABLE
  ⟨0x1010, 0x04, 0x04, .u8, .rws, 8, false, 2, 255⟩, -- PLCA_NODE_COUNT
  ⟨0x1010, 0x05, 0x05, .u8, .rws, 32, false, 1, 255⟩, -- PLCA_TO_TIMER
  ⟨0x2000, 0x01, 0x01, .u8, .wo, 0, true, 0, 3⟩, -- MODE_REQUEST
  ⟨0x2000, 0x02, 0x02, .bool, .wo, 0, true, 0, 1⟩, -- CLEAR_COUNTERS
  ⟨0x6010, 0x01, 0x01, .octets 32, .wo, 0, false, 0, 0⟩, -- MGMT_KEY
  ⟨0xA000, 0x01, 0x01, .u8, .ro, 1, false, 0, 255⟩, -- MODULE_STATE
  ⟨0xA000, 0x02, 0x02, .bool, .ro, 0, true, 0, 255⟩, -- MGMT_KEY_SET
  ⟨0xA000, 0x03, 0x03, .u64, .ro, 0, false, 0, 18446744073709551615⟩, -- MGMT_EPOCH
  ⟨0xA000, 0x04, 0x04, .u32, .ro, 0, false, 0, 4294967295⟩, -- WARM_STARTS
  ⟨0xA000, 0x05, 0x05, .u8, .ro, 0, false, 0, 255⟩, -- PLCA_STATUS
  ⟨0x5000, 0x01, 0x01, .u64, .ro, 0, false, 0, 18446744073709551615⟩, -- DICT_READS
  ⟨0x5000, 0x02, 0x02, .u64, .ro, 0, false, 0, 18446744073709551615⟩, -- DICT_WRITES
  ⟨0x5000, 0x03, 0x03, .u64, .ro, 0, false, 0, 18446744073709551615⟩, -- DICT_CLAMPS
  ⟨0x5000, 0x04, 0x04, .u64, .ro, 0, false, 0, 18446744073709551615⟩, -- DICT_REFUSALS
  ⟨0x5000, 0x05, 0x05, .u64, .ro, 0, false, 0, 18446744073709551615⟩, -- MGMT_AUTH_DROPS
  ⟨0x5000, 0x06, 0x06, .u64, .ro, 0, false, 0, 18446744073709551615⟩, -- MGMT_REPLAY_DROPS
  ⟨0x5000, 0x07, 0x07, .u64, .ro, 0, false, 0, 18446744073709551615⟩] -- MGMT_FORMAT_DROPS

/-- Entries of chapter 18. -/
def entries18 : List EntryRow := [
  ⟨0x2110, 0x01, 0x01, .u8, .rw, 100, false, 85, 110⟩, -- THERM_WARN_MAIN_C
  ⟨0x2110, 0x02, 0x02, .u8, .rw, 95, false, 85, 100⟩, -- THERM_WARN_STACK_C
  ⟨0xA110, 0x01, 0x09, .i32, .ro, 0, false, 0, 4294967295⟩, -- TJ_C
  ⟨0xA110, 0x11, 0x18, .i32, .ro, 0, false, 0, 4294967295⟩, -- STACK_TEMP_C
  ⟨0xA110, 0x20, 0x20, .u8, .ro, 0, false, 0, 255⟩, -- THERM_STATE
  ⟨0xA110, 0x21, 0x21, .u8, .ro, 0, false, 0, 255⟩, -- RESET_CAUSE
  ⟨0xA110, 0x22, 0x22, .u32, .ro, 0, false, 0, 4294967295⟩, -- VIN_MV
  ⟨0xA110, 0x23, 0x23, .u32, .ro, 0, false, 0, 4294967295⟩, -- VIN_MA
  ⟨0xA110, 0x24, 0x24, .u16, .ro, 0, false, 0, 65535⟩, -- INPUT_POWER_W
  ⟨0x5110, 0x01, 0x01, .u64, .ro, 0, false, 0, 18446744073709551615⟩] -- THERM_WARNS

/-- Every entry of the dictionary. -/
def dictEntries : List EntryRow :=
  entries02 ++ entries03 ++ entries04 ++ entries05 ++ entries06 ++ entries07 ++ entries08 ++ entries09 ++ entries10 ++ entries11 ++ entries12 ++ entries13 ++ entries14 ++ entries15 ++ entries16 ++ entries18

end Sys2Proof
end

