-- ==== Sys2Proof/Config.lean ====
section
/-!
DEFINITION. What one module fixes and what the manual leaves open: constants without a body, so that nothing proved depends on
their values.
-/
namespace Sys2Proof.Config

/-- Free values: the `n`-th value the machine draws where the manual leaves a value open or takes it from entropy (R542, R567,
R616). Free value; log entry 15. -/
opaque freeWord : Nat → Word

/-- Free values: the `n`-th byte string that the machine draws where the manual leaves the content of data open. Free value; log entry
15. -/
opaque freeBytes : Nat → List Byte

/-- The identity record's fields as the package identity flash holds them (R10, R546). Flash content; log entry 14. -/
opaque identityFlash : List Byte

/-- The data pointer (PRP entries 1 and 2) of an NVMe command by its identifier: where its buffer lies is no concern of the manual. Free
value; log entry 58. -/
opaque nvPointer : Nat → List Byte

/-- The package identity flash's VPK modulus and the firmware slots 0 (A) and 1 (B) as they are at shipment, and the anti-rollback
counter there (the package identity flash table). Flash content; log entry 14. -/
opaque vpkModulus : List Byte
opaque firmwareSlot (slot : Nat) : List Byte
opaque rollbackCounter : Nat

/-- The SHA-256 of VPK that the mask ROM holds (R539, R547). Log entry 14. -/
opaque vpkDigest : List Byte

/-- Whether the security engine reconstructs KPUF and unwraps DIK at a start-up (R542, R543), by the number of values drawn before it.
Free value; log entry 14. -/
opaque dikUnwraps : Nat → Bool

/-- RSASSA-PSS of RFC 8017 (R541): whether a signature of a message verifies under a modulus. Log entry 21. -/
opaque pssVerify (modulus message signature : List Byte) : Bool

/-- RSASSA-PSS signatures (R541) under DIK (key 0) or under AK-sign (key 1), with the salt that draw `n` gives. Log entry 21. -/
opaque pssSign (key n : Nat) (message : List Byte) : List Byte

/-- RSA-OAEP of RFC 8017 (R541): the block that a ciphertext opens to under the private half of the AK-wrap of a modulus, with a label; none
where it fails. Log entry 21. -/
opaque oaepOpen (modulus label cipher : List Byte) : Option (List Byte)

/-- The bytes of a peer message whose layout the manual does not give (R455). Free value; log entry 20. -/
opaque peerBody : PeerMsg → List Byte

/-- The payload bytes of a shard whose layout the manual does not give (R526). Free value; log entry 46. -/
opaque shardPayload : ShardBody → List Byte

/-- AES-256-GCM of a published standard (R562): key, nonce, additional data and plaintext to ciphertext followed by its 16-byte
tag. Named, not described, by the manual; log entry 21. -/
opaque gcmSeal (key nonce aad plain : List Byte) : List Byte

/-- The opening of `gcmSeal`: the plaintext, or none where the tag fails. Log entry 21. -/
opaque gcmOpen (key nonce aad cipher : List Byte) : Option (List Byte)

/-- AES-256-XTS of a published standard (R562, R563): key, data unit sequence number and one data unit. Log entry 21. -/
opaque xtsSeal (key : List Byte) (unit : Nat) (data : List Byte) : List Byte

/-- The opening of `xtsSeal`. Log entry 21. -/
opaque xtsOpen (key : List Byte) (unit : Nat) (data : List Byte) : List Byte

end Sys2Proof.Config
end

