-- ==== Sys2Proof/Machine/State.lean ====
section
/-!
DEFINITION. The state of the module, the reasons a step can stop, and the state after reset.
-/
namespace Sys2Proof.Machine

/-- Phases of supply and start-up (R655, R660). -/
inductive Phase where
  | off | held | starting | running | shutDown
  deriving DecidableEq, Repr

/-- Supplies, reset and pads (chapters 18 and 19). -/
structure Power where
  vinGood : Bool := true
  overvolt : Bool := false
  vioGood : Bool := true
  resetHigh : Bool := true
  phase : Phase := .running
  strapPins : Nat := 0
  strap : Nat := 0
  resetCause : Nat := 0
  nextCause : Nat := 0
  startedAt : Nat := 0
  warm : Bool := false
  tapIr : Byte := 0xFF
  scanCells : Nat := 0
  vinMv : Nat := 0
  vinMa : Nat := 0
  inputW : Nat := 0
  deriving DecidableEq, Repr

/-- The pace governor, its monitors, and the sensors (chapters 02 and 18). By domain 0 to 8: set voltage in mV, reported rate in kHz, target
rate as the least numerator over 25,600 that meets the target, missed targets; `updatedAt` is when the governor last updated; `celsius` by sensor: domains 0 to 8, stacks 9 to 16. -/
structure Pace where
  mv : Tab Nat := []
  updatedAt : Option Nat := none
  rate : Tab Nat := []
  target : Tab Nat := []
  limited : List Nat := []
  capUnmet : Bool := false
  celsius : Tab Int := []
  warning : Bool := false
  deriving DecidableEq, Repr

/-- Network time (R404 to R409, R661). -/
structure Time where
  now : Nat := 0
  state : Nat := 0
  offset : Int := 0
  pathDelay : Nat := 0
  everValid : Bool := false
  haveDelay : Bool := false
  blocks : Nat := 0
  lastBlock : Option (Nat × Nat) := none
  delayReqAt : Option Nat := none
  slew : Int := 0
  slewAt : Option Nat := none
  pulse : Bool := false
  pulseAt : Nat := 0
  deriving DecidableEq, Repr

/-- Values of dictionary entries, keyed 256 × index + subindex: effective values of RW, RWS and WO entries, RWS values in force
(R592), the counters of the 0x5000 area. -/
structure Dict where
  vals : Tab Nat := []
  run : Tab Nat := []
  counters : Tab Nat := []
  warmStarts : Nat := 0
  atlasEntries : Nat := 33554432
  nvDepth : Nat := 256
  deriving DecidableEq, Repr

/-- Management over 10BASE-T1S (R612 to R622). -/
structure Mgmt where
  key : List Byte := List.replicate 32 0
  epoch : Word := 0
  lastSeq : Tab Nat := []
  plca : Nat := 0
  deriving DecidableEq, Repr

/-- Module states (R594). -/
inductive Mode where
  | setup | run | fatal
  deriving DecidableEq, Repr

/-- The register window (chapter 17): counter values, configuration words `4n + k` and filter words `4f + k` are sparse. -/
structure Csr where
  scratch : BitVec 32 := 0
  freeze : Bool := false
  alert : BitVec 9 := 0
  ovf : Tab (BitVec 32) := []
  ovfAlert : Tab (BitVec 32) := []
  counters : Tab (BitVec 32) := []
  cfg : Tab (BitVec 32) := []
  filters : Tab (BitVec 32) := []
  deriving DecidableEq, Repr

/-- Security states (`SECURITY_STATE`, 0 to 3). -/
inductive SecState where
  | notReady | ready | identityUnavailable | recovery
  deriving DecidableEq, Repr

/-- The security engine and what it keeps in the package identity flash (chapter 15). `slots` lists the firmware slots that `FW_UPDATE` has
written, `running` is the slot whose image runs, `rollback` the anti-rollback counter once a command has raised it, `atStart` its value at the last
start-up, `rpWrites` the writes of the
replay-protected region; the moduli of AK-sign and AK-wrap, KR and the boot certificate are those of the last start-up. -/
structure Sec where
  state : SecState := .notReady
  slots : Tab (List Byte) := []
  running : Option Nat := some 0
  rollback : Option Nat := none
  atStart : Option Nat := none
  rpWrites : Nat := 0
  akSign : List Byte := []
  akWrap : List Byte := []
  kr : List Byte := []
  cert : List Byte := []
  deriving DecidableEq, Repr

/-- Who raises a fault: nothing. Every command of this module answers a next state; the type stands for the interface. -/
inductive Fault where
  /-- Raised by no command. Safe: it never occurs. -/
  | none
  deriving DecidableEq, Repr

/-- Why a command has no meaning. -/
inductive Refusal where
  /-- Raised by `exec` alone, for a command the model does not treat. Safe: the machine stops. -/
  | notModelled (mnemonic : String)
  deriving DecidableEq, Repr

/-- The state of the module. -/
structure State where
  pending : List Instr := []
  power : Power := {}
  pace : Pace := {}
  time : Time := {}
  dict : Dict := {}
  mgmt : Mgmt := {}
  mode : Mode := .setup
  fatal : Nat := 0
  scrubbedAt : Tab Nat := []
  csr : Csr := {}
  sessions : Tab Session := []
  freed : List Nat := []
  frames : Tab Frame := []
  hbm : List Host.Cell := []
  fills : Tab Nat := []
  mapCache : Tab (Nat × Nat) := []
  models : Tab Model := []
  ropes : Tab Rope := []
  ropeLoads : List RopeLoad := []
  ropeCount : Nat := 0
  fielders : Tab Fielder := []
  catchers : Tab Catcher := []
  merges : Tab Merge := []
  mergeTag : Nat := 0
  jobs : Tab Job := []
  parts : Tab Part := []
  roleAt : Nat := 0
  contexts : Tab Context := []
  lastTeardown : Nat := 0
  vocabs : Tab Vocab := []
  grammars : Tab Grammar := []
  lists : Tab SeqList := []
  stages : List Stage := []
  segments : Tab Segment := []
  masks : List MaskReq := []
  indexes : Tab VIndex := []
  searches : Tab Search := []
  searchWaits : Tab SearchWait := []
  searchCount : Nat := 0
  hostSlots : List Nat := []
  poolSlots : List Nat := []
  hostRanges : Tab HostRange := []
  poolRanges : Tab PoolRange := []
  hostId : Nat := 0
  poolChannels : Nat := 0
  transfers : Tab Transfer := []
  nextTile : Nat := 0
  reviveTurn : Nat := 0
  regions : Tab Region := []
  leaseCount : Nat := 0
  publishes : Tab Publish := []
  publishCount : Nat := 0
  retained : List Retained := []
  attachments : Tab Attachment := []
  regionJobs : Tab RegionJob := []
  wrs : Tab WorkReq := []
  wrCount : Nat := 0
  triggers : Tab Trigger := []
  waits : Tab Wait := []
  tagCount : Nat := 0
  held : List (Nat × Msg) := []
  tileIngress : List TileWrite := []
  ports : Tab Port := []
  sampler : Sampler := {}
  qps : Tab Qp := []
  ingress : List Msg := []
  out : List Sent := []
  pair : Pair := {}
  ringMap : List (Word × Nat) := []
  ringWaits : List RingWait := []
  survey : Survey := {}
  sec : Sec := {}
  draws : Nat := 0
  deriving DecidableEq, Repr

/-- The state after reset. -/
def State.reset : State := {}

end Sys2Proof.Machine
end

