-- ==== Sys2Proof/Machine/Settings.lean ====
section
/-!
DEFINITION. The dictionary's settings as the rest of the machine reads them, and the numbers of its counters. An entry is keyed
256 × index + subindex. RW and WO entries are read at their effective value, RWS entries at the value in force since the last
entry to Run (R592). Each default is that of the entry's table.
-/
namespace Sys2Proof.Machine

/-- The key of entry `index`.`sub`. -/
def entryKey (index sub : Nat) : Nat := 256 * index + sub

/-- The effective value at a key, with the entry's default. -/
def rwVal (s : State) (index sub dflt : Nat) : Nat := Tab.get s.dict.vals (entryKey index sub) dflt

/-- The value of an RWS entry in force, with the entry's default. -/
def rwsVal (s : State) (index sub dflt : Nat) : Nat := Tab.get s.dict.run (entryKey index sub) dflt

/-- `PACE_MODE` (0x2100.01). -/
def paceModeVal (s : State) : Nat := rwVal s 0x2100 1 0

/-- `PACE_FIXED_MV` (0x2100.02). -/
def paceFixedMvVal (s : State) : Nat := rwVal s 0x2100 2 750

/-- `PACE_MARGIN_PCT` (0x2100.03). -/
def paceMarginPctVal (s : State) : Nat := rwVal s 0x2100 3 5

/-- `PACE_POWER_CAP_W` (0x2100.04). -/
def pacePowerCapWVal (s : State) : Nat := rwVal s 0x2100 4 950

/-- `PACE_UPDATE_US` (0x2100.05). -/
def paceUpdateUsVal (s : State) : Nat := rwVal s 0x2100 5 100

/-- `ATLAS_ENTRIES` (0x2010.01). -/
def atlasEntriesVal (s : State) : Nat := rwsVal s 0x2010 1 33554432

/-- `DEMOTE_MS` (0x3008.01). -/
def demoteMsVal (s : State) (p : Nat) : Nat := rwVal s (0x3008 + 0x40 * p) 1 5000

/-- `TTL_S` (0x3008.02). -/
def ttlSVal (s : State) (p : Nat) : Nat := rwVal s (0x3008 + 0x40 * p) 2 86400

/-- `TOMB_HOLD_MS` (0x3008.03). -/
def tombHoldMsVal (s : State) (p : Nat) : Nat := rwVal s (0x3008 + 0x40 * p) 3 1000

/-- `MAX_SESSIONS` (0x3008.04). -/
def maxSessionsVal (s : State) (p : Nat) : Nat := rwVal s (0x3008 + 0x40 * p) 4 33554432

/-- `APPEND_WAIT_MS` (0x2020.01). -/
def appendWaitMsVal (s : State) : Nat := rwVal s 0x2020 1 20

/-- `ROPE_LOAD_WAIT_MS` (0x2030.01). -/
def ropeLoadWaitMsVal (s : State) : Nat := rwVal s 0x2030 1 100

/-- `RING_MODE` (0x3010.01). -/
def ringModeVal (s : State) (p : Nat) : Nat := rwsVal s (0x3010 + 0x40 * p) 1 0

/-- `RING_SIZE` (0x3010.02). -/
def ringSizeVal (s : State) (p : Nat) : Nat := rwsVal s (0x3010 + 0x40 * p) 2 2

/-- `RING_MEMBER` (0x3010.03). -/
def ringMemberVal (s : State) (p : Nat) : Nat := rwsVal s (0x3010 + 0x40 * p) 3 0

/-- `RING_SEGMENT_LOG2` (0x3010.04). -/
def ringSegmentLog2Val (s : State) (p : Nat) : Nat := rwsVal s (0x3010 + 0x40 * p) 4 16

/-- `MERGE_WINDOW_MAX` (0x2040.01). -/
def mergeWindowMaxVal (s : State) : Nat := rwVal s 0x2040 1 64

/-- `SEGMENT_MAX_AGE_MS` (0x2040.02). -/
def segmentMaxAgeMsVal (s : State) : Nat := rwVal s 0x2040 2 1000

/-- `GRANULES` (0x3000.01). -/
def granulesVal (s : State) (p : Nat) : Nat := rwsVal s (0x3000 + 0x40 * p) 1 (if p = 0 then 2 ^ 64 - 1 else 0)

/-- `CACHE_SHARES` (0x3000.02). -/
def cacheSharesVal (s : State) (p : Nat) : Nat := rwsVal s (0x3000 + 0x40 * p) 2 (if p = 0 then 2 ^ 64 - 1 else 0)

/-- `LC_STEP_GOAL_US` (0x3018.01). -/
def lcStepGoalUsVal (s : State) (p : Nat) : Nat := rwVal s (0x3018 + 0x40 * p) 1 20000

/-- `BE_CUT_US` (0x3018.02). -/
def beCutUsVal (s : State) (p : Nat) : Nat := rwVal s (0x3018 + 0x40 * p) 2 2000

/-- `PREFILL_CUT_US` (0x3018.03). -/
def prefillCutUsVal (s : State) (p : Nat) : Nat := rwVal s (0x3018 + 0x40 * p) 3 2000

/-- `JOB_IDLE_US` (0x3018.04). -/
def jobIdleUsVal (s : State) (p : Nat) : Nat := rwVal s (0x3018 + 0x40 * p) 4 5000

/-- `ROLE_PREFILL_MIN_PCT` (0x3018.05). -/
def rolePrefillMinPctVal (s : State) (p : Nat) : Nat := rwVal s (0x3018 + 0x40 * p) 5 0

/-- `ROLE_PREFILL_MAX_PCT` (0x3018.06). -/
def rolePrefillMaxPctVal (s : State) (p : Nat) : Nat := rwVal s (0x3018 + 0x40 * p) 6 50

/-- `FRAME_LOW_WATER` (0x3018.07). -/
def frameLowWaterVal (s : State) (p : Nat) : Nat := rwVal s (0x3018 + 0x40 * p) 7 256

/-- `FRAME_HIGH_WATER` (0x3018.08). -/
def frameHighWaterVal (s : State) (p : Nat) : Nat := rwVal s (0x3018 + 0x40 * p) 8 1024

/-- `PREEMPT_HOLDOFF_MS` (0x3018.09). -/
def preemptHoldoffMsVal (s : State) (p : Nat) : Nat := rwVal s (0x3018 + 0x40 * p) 9 10000

/-- `SEARCH_TIMEOUT_MS` (0x2050.01). -/
def searchTimeoutMsVal (s : State) : Nat := rwVal s 0x2050 1 100

/-- `SEARCH_QUEUE_MAX` (0x2050.02). -/
def searchQueueMaxVal (s : State) : Nat := rwVal s 0x2050 2 1024

/-- `COMPASS_STAGE_FRAMES` (0x3020.02). -/
def compassStageFramesVal (s : State) (p : Nat) : Nat := rwVal s (0x3020 + 0x40 * p) 2 1024

/-- `FM_QP` (0x2060.01). -/
def fmQpVal (s : State) : Nat := rwsVal s 0x2060 1 0

/-- `FETCH_QPS` (0x2060.02). -/
def fetchQpsVal (s : State) : Nat := rwVal s 0x2060 2 32

/-- `FETCH_TIMEOUT_US` (0x2060.03). -/
def fetchTimeoutUsVal (s : State) : Nat := rwVal s 0x2060 3 500

/-- `FETCH_RETRIES` (0x2060.04). -/
def fetchRetriesVal (s : State) : Nat := rwVal s 0x2060 4 3

/-- `LEASE_TIMEOUT_MS` (0x2060.05). -/
def leaseTimeoutMsVal (s : State) : Nat := rwVal s 0x2060 5 1000

/-- `REGION_RETAIN_MS` (0x2060.06). -/
def regionRetainMsVal (s : State) : Nat := rwVal s 0x2060 6 60000

/-- `PUBLISH_IDLE_MS` (0x2060.07). -/
def publishIdleMsVal (s : State) : Nat := rwVal s 0x2060 7 5000

/-- `SCRUB_PERIOD_S` (0x2060.08). -/
def scrubPeriodSVal (s : State) : Nat := rwVal s 0x2060 8 86400

/-- `PARK_POOL_RANGE` (0x3028.01). -/
def parkPoolRangeVal (s : State) (p : Nat) : Nat := rwVal s (0x3028 + 0x40 * p) 1 0

/-- `FLAT_WINDOW` (0x3028.02). -/
def flatWindowVal (s : State) (p : Nat) : Nat := rwsVal s (0x3028 + 0x40 * p) 2 0

/-- `FLAT_HOST_SLOTS` (0x3028.03). -/
def flatHostSlotsVal (s : State) (p : Nat) : Nat := rwVal s (0x3028 + 0x40 * p) 3 0

/-- `FLAT_DEMOTE_S` (0x3028.04). -/
def flatDemoteSVal (s : State) (p : Nat) : Nat := rwVal s (0x3028 + 0x40 * p) 4 600

/-- `FLAT_IDLE_PARK_S` (0x3028.05). -/
def flatIdleParkSVal (s : State) (p : Nat) : Nat := rwVal s (0x3028 + 0x40 * p) 5 60

/-- `RTO_US` (0x2070.01). -/
def rtoUsVal (s : State) : Nat := rwVal s 0x2070 1 50

/-- `RETRY_LIMIT` (0x2070.02). -/
def retryLimitVal (s : State) : Nat := rwVal s 0x2070 2 7

/-- `ACK_COALESCE` (0x2070.03). -/
def ackCoalesceVal (s : State) : Nat := rwVal s 0x2070 3 8

/-- `ACK_DELAY_NS` (0x2070.04). -/
def ackDelayNsVal (s : State) : Nat := rwVal s 0x2070 4 2000

/-- `FAST_REPEAT_COUNT` (0x2070.05). -/
def fastRepeatCountVal (s : State) : Nat := rwVal s 0x2070 5 3

/-- `TIME_STEP_NS` (0x2070.06). -/
def timeStepNsVal (s : State) : Nat := rwVal s 0x2070 6 1000

/-- `TIME_HOLDOVER_MS` (0x2070.07). -/
def timeHoldoverMsVal (s : State) : Nat := rwVal s 0x2070 7 10

/-- `PORT_ENABLE` (0x4000.01). -/
def portEnableVal (s : State) (k : Nat) : Nat := rwsVal s (0x4000 + 0x10 * k) 1 1

/-- `TX_PRESET` (0x4000.02). -/
def txPresetVal (s : State) (k : Nat) : Nat := rwVal s (0x4000 + 0x10 * k) 2 6

/-- `FEC_DOWN_COUNT` (0x4000.03). -/
def fecDownCountVal (s : State) (k : Nat) : Nat := rwVal s (0x4000 + 0x10 * k) 3 64

/-- `NODE_ID` (0x2080.01). -/
def nodeIdVal (s : State) : Nat := rwsVal s 0x2080 1 0

/-- `PEER_TOPOLOGY` (0x2080.02). -/
def peerTopologyVal (s : State) : Nat := rwsVal s 0x2080 2 0

/-- `TORUS_DX` (0x2080.03). -/
def torusDxVal (s : State) : Nat := rwsVal s 0x2080 3 8

/-- `TORUS_DY` (0x2080.04). -/
def torusDyVal (s : State) : Nat := rwsVal s 0x2080 4 8

/-- `RING_NODES` (0x2080.05). -/
def ringNodesVal (s : State) : Nat := rwsVal s 0x2080 5 2

/-- `DOUBLES_ENABLE` (0x2080.06). -/
def doublesEnableVal (s : State) : Nat := rwsVal s 0x2080 6 0

/-- `PARTNER_NODE` (0x2080.07). -/
def partnerNodeVal (s : State) : Nat := rwsVal s 0x2080 7 0

/-- `FAILOVER_MODE` (0x2080.08). -/
def failoverModeVal (s : State) : Nat := rwVal s 0x2080 8 0

/-- `PAIR_BEAT_US` (0x2080.09). -/
def pairBeatUsVal (s : State) : Nat := rwVal s 0x2080 9 100

/-- `PAIR_DEADLINE_MS` (0x2080.0A). -/
def pairDeadlineMsVal (s : State) : Nat := rwVal s 0x2080 10 5

/-- `ROUTE_OVERRIDE` (0x2081.01). -/
def routeOverrideVal (s : State) (c : Nat) : Nat := rwVal s 0x2081 (1 + c) 0

/-- `RING_NODE_BASE` (0x3010.05). -/
def ringNodeBaseVal (s : State) (p : Nat) : Nat := rwsVal s (0x3010 + 0x40 * p) 5 0

/-- `MIRROR_PART` (0x3010.06). -/
def mirrorPartVal (s : State) (p : Nat) : Nat := rwsVal s (0x3010 + 0x40 * p) 6 0

/-- `KIND_CLASS_*` (0x2090.01). -/
def kindClassVal (s : State) (c : Nat) : Nat := rwsVal s 0x2090 (1 + c) (match c with | 0 => 7 | 1 => 2 | 2 => 6 | _ => 1)

/-- `SAMPLE_ENABLE` (0x2091.01). -/
def sampleEnableVal (s : State) : Nat := rwVal s 0x2091 1 0

/-- `SAMPLE_RANGE` (0x2091.02). -/
def sampleRangeVal (s : State) : Nat := rwVal s 0x2091 2 0

/-- `SAMPLE_INTERVAL_US` (0x2091.03). -/
def sampleIntervalUsVal (s : State) : Nat := rwVal s 0x2091 3 1000

/-- `SAMPLE_QUEUES` (0x2091.04). -/
def sampleQueuesVal (s : State) : Nat := rwVal s 0x2091 4 0

/-- `SAMPLE_FLUSH_US` (0x2091.05). -/
def sampleFlushUsVal (s : State) : Nat := rwVal s 0x2091 5 10000

/-- `SAMPLE_RD` (0x2091.06). -/
def sampleRdVal (s : State) : Nat := rwVal s 0x2091 6 0

/-- `TC_WEIGHT` (0x4001.01). -/
def tcWeightVal (s : State) (k c : Nat) : Nat := rwVal s (0x4001 + 0x10 * k) (1 + c) (if c < 6 then 16 else 0)

/-- `SHAPE_RATE_MBPS` (0x4002.01). -/
def shapeRateMbpsVal (s : State) (k c : Nat) : Nat := rwVal s (0x4002 + 0x10 * k) (1 + c) 0

/-- `SHAPE_BURST_BYTES` (0x4003.01). -/
def shapeBurstBytesVal (s : State) (k c : Nat) : Nat := rwVal s (0x4003 + 0x10 * k) (1 + c) 65536

/-- `SHAPER_OVERHEAD` (0x4004.01). -/
def shaperOverheadVal (s : State) (k : Nat) : Nat := rwVal s (0x4004 + 0x10 * k) 1 0

/-- `GATE_ENABLE` (0x4004.02). -/
def gateEnableVal (s : State) (k : Nat) : Nat := rwVal s (0x4004 + 0x10 * k) 2 0

/-- `GATE_BASE_NS` (0x4004.03). -/
def gateBaseNsVal (s : State) (k : Nat) : Nat := rwVal s (0x4004 + 0x10 * k) 3 0

/-- `GATE_CYCLE_NS` (0x4004.04). -/
def gateCycleNsVal (s : State) (k : Nat) : Nat := rwVal s (0x4004 + 0x10 * k) 4 1000000

/-- `GATE_CHANGE_NS` (0x4004.05). -/
def gateChangeNsVal (s : State) (k : Nat) : Nat := rwVal s (0x4004 + 0x10 * k) 5 0

/-- `GATE_COUNT` (0x4004.06). -/
def gateCountVal (s : State) (k : Nat) : Nat := rwVal s (0x4004 + 0x10 * k) 6 1

/-- `GATE_COMMIT` (0x4004.07). -/
def gateCommitVal (s : State) (k : Nat) : Nat := rwVal s (0x4004 + 0x10 * k) 7 0

/-- `GATE_GUARD` (0x4004.08). -/
def gateGuardVal (s : State) (k : Nat) : Nat := rwVal s (0x4004 + 0x10 * k) 8 1

/-- `METER_CIR_MBPS` (0x4005.01). -/
def meterCirMbpsVal (s : State) (k c : Nat) : Nat := rwVal s (0x4005 + 0x10 * k) (1 + c) 0

/-- `METER_CBS_BYTES` (0x4006.01). -/
def meterCbsBytesVal (s : State) (k c : Nat) : Nat := rwVal s (0x4006 + 0x10 * k) (1 + c) 65536

/-- `METER_PIR_MBPS` (0x4007.01). -/
def meterPirMbpsVal (s : State) (k c : Nat) : Nat := rwVal s (0x4007 + 0x10 * k) (1 + c) 0

/-- `METER_PBS_BYTES` (0x4008.01). -/
def meterPbsBytesVal (s : State) (k c : Nat) : Nat := rwVal s (0x4008 + 0x10 * k) (1 + c) 65536

/-- `YELLOW_ACTION` (0x4009.01). -/
def yellowActionVal (s : State) (k c : Nat) : Nat := rwVal s (0x4009 + 0x10 * k) (1 + c) 0

/-- `YELLOW_FLOOR` (0x4009.09). -/
def yellowFloorVal (s : State) (k : Nat) : Nat := rwVal s (0x4009 + 0x10 * k) 9 8

/-- `GATE_ENTRY` (0x400A.01). -/
def gateEntryVal (s : State) (k c : Nat) : Nat := rwVal s (0x400A + 0x10 * k) (1 + c) 71776119062217280

/-- `SURVEY_FREEZE_MAX_US` (0x7000.01). -/
def surveyFreezeMaxUsVal (s : State) : Nat := rwVal s 0x7000 1 1000

/-- `RESUME_HOLD_MS` (0x7000.02). -/
def resumeHoldMsVal (s : State) : Nat := rwVal s 0x7000 2 10000

/-- `NV_QUEUE_DEPTH` (0x7000.03). -/
def nvQueueDepthVal (s : State) : Nat := rwsVal s 0x7000 3 256

/-- `NV_TIMEOUT_MS` (0x7000.04). -/
def nvTimeoutMsVal (s : State) : Nat := rwVal s 0x7000 4 5000

/-- `DEBUG_ENABLE` (0x6000.01). -/
def debugEnableVal (s : State) : Nat := rwsVal s 0x6000 1 0

/-- `PLCA_ENABLE` (0x1010.03). -/
def plcaEnableVal (s : State) : Nat := rwsVal s 0x1010 3 1

/-- `PLCA_NODE_COUNT` (0x1010.04). -/
def plcaNodeCountVal (s : State) : Nat := rwsVal s 0x1010 4 8

/-- `PLCA_TO_TIMER` (0x1010.05). -/
def plcaToTimerVal (s : State) : Nat := rwsVal s 0x1010 5 32

/-- `MODE_REQUEST` (0x2000.01). -/
def modeRequestVal (s : State) : Nat := rwVal s 0x2000 1 0

/-- `CLEAR_COUNTERS` (0x2000.02). -/
def clearCountersVal (s : State) : Nat := rwVal s 0x2000 2 0

/-- `THERM_WARN_MAIN_C` (0x2110.01). -/
def thermWarnMainCVal (s : State) : Nat := rwVal s 0x2110 1 100

/-- `THERM_WARN_STACK_C` (0x2110.02). -/
def thermWarnStackCVal (s : State) : Nat := rwVal s 0x2110 2 95

/-- `LATE_DISCARDS` (0x5020.01). -/
def ctrLateDiscards : Nat := entryKey 0x5020 1

/-- `DUPLICATE_ACKS` (0x5020.02). -/
def ctrDuplicateAcks : Nat := entryKey 0x5020 2

/-- `CAP_UNMET_INTERVALS` (0x5020.03). -/
def ctrCapUnmetIntervals : Nat := entryKey 0x5020 3

/-- `ADMITS` (0x5010.01). -/
def ctrAdmits : Nat := entryKey 0x5010 1

/-- `STALE_HANDLES` (0x5010.02). -/
def ctrStaleHandles : Nat := entryKey 0x5010 2

/-- `DEMOTIONS` (0x5010.03). -/
def ctrDemotions : Nat := entryKey 0x5010 3

/-- `EXPIRIES` (0x5010.04). -/
def ctrExpiries : Nat := entryKey 0x5010 4

/-- `CANCELS` (0x5010.05). -/
def ctrCancels : Nat := entryKey 0x5010 5

/-- `STEP_RESTARTS` (0x5010.06). -/
def ctrStepRestarts : Nat := entryKey 0x5010 6

/-- `SESSION_FAULTS` (0x5010.07). -/
def ctrSessionFaults : Nat := entryKey 0x5010 7

/-- `LINEAGE_BREAKS` (0x5010.08). -/
def ctrLineageBreaks : Nat := entryKey 0x5010 8

/-- `COW_COPIES` (0x5030.01). -/
def ctrCowCopies : Nat := entryKey 0x5030 1

/-- `FRAME_SHORTAGES` (0x5030.02). -/
def ctrFrameShortages : Nat := entryKey 0x5030 2

/-- `LENGTH_LIMITS` (0x5030.03). -/
def ctrLengthLimits : Nat := entryKey 0x5030 3

/-- `MAP_CACHE_MISSES` (0x5030.04). -/
def ctrMapCacheMisses : Nat := entryKey 0x5030 4

/-- `TILE_RANGE_REJECTS` (0x5030.05). -/
def ctrTileRangeRejects : Nat := entryKey 0x5030 5

/-- `TILES_READ` (0x5040.01). -/
def ctrTilesRead : Nat := entryKey 0x5040 1

/-- `PARTIALS_EMITTED` (0x5040.02). -/
def ctrPartialsEmitted : Nat := entryKey 0x5040 2

/-- `FILL_WAITS` (0x5040.03). -/
def ctrFillWaits : Nat := entryKey 0x5040 3

/-- `NAN_PARTIALS` (0x5040.04). -/
def ctrNanPartials : Nat := entryKey 0x5040 4

/-- `ASSIGNMENTS_WITHDRAWN` (0x5040.05). -/
def ctrAssignmentsWithdrawn : Nat := entryKey 0x5040 5

/-- `RING_TILES_SENT` (0x5040.06). -/
def ctrRingTilesSent : Nat := entryKey 0x5040 6

/-- `RING_TILES_RECEIVED` (0x5040.07). -/
def ctrRingTilesReceived : Nat := entryKey 0x5040 7

/-- `PARTIALS_MERGED` (0x5050.01). -/
def ctrPartialsMerged : Nat := entryKey 0x5050 1

/-- `STALE_PARTIALS` (0x5050.02). -/
def ctrStalePartials : Nat := entryKey 0x5050 2

/-- `WITHDRAWN_PARTIALS` (0x5050.03). -/
def ctrWithdrawnPartials : Nat := entryKey 0x5050 3

/-- `NAN_MERGES` (0x5050.04). -/
def ctrNanMerges : Nat := entryKey 0x5050 4

/-- `ORPHAN_PARTIALS` (0x5050.05). -/
def ctrOrphanPartials : Nat := entryKey 0x5050 5

/-- `AGED_SEGMENTS` (0x5050.06). -/
def ctrAgedSegments : Nat := entryKey 0x5050 6

/-- `MERGE_OPEN_WAITS` (0x5050.07). -/
def ctrMergeOpenWaits : Nat := entryKey 0x5050 7

/-- `JOBS_OPENED` (0x5060.01). -/
def ctrJobsOpened : Nat := entryKey 0x5060 1

/-- `BE_CUTS` (0x5060.02). -/
def ctrBeCuts : Nat := entryKey 0x5060 2

/-- `PREFILL_CUTS` (0x5060.03). -/
def ctrPrefillCuts : Nat := entryKey 0x5060 3

/-- `IDLE_RELEASES` (0x5060.04). -/
def ctrIdleReleases : Nat := entryKey 0x5060 4

/-- `GOAL_REFUSALS` (0x5060.05). -/
def ctrGoalRefusals : Nat := entryKey 0x5060 5

/-- `FIT_REFUSALS` (0x5060.06). -/
def ctrFitRefusals : Nat := entryKey 0x5060 6

/-- `PREEMPTIONS` (0x5060.07). -/
def ctrPreemptions : Nat := entryKey 0x5060 7

/-- `PREEMPT_ABANDONS` (0x5060.08). -/
def ctrPreemptAbandons : Nat := entryKey 0x5060 8

/-- `CONTEXT_TEARDOWNS` (0x5060.09). -/
def ctrContextTeardowns : Nat := entryKey 0x5060 9

/-- `TOKENS_CUT` (0x5070.01). -/
def ctrTokensCut : Nat := entryKey 0x5070 1

/-- `INVALID_BYTES` (0x5070.02). -/
def ctrInvalidBytes : Nat := entryKey 0x5070 2

/-- `UNMATCHED_BYTES` (0x5070.03). -/
def ctrUnmatchedBytes : Nat := entryKey 0x5070 3

/-- `DETOK_REPLACEMENTS` (0x5070.04). -/
def ctrDetokReplacements : Nat := entryKey 0x5070 4

/-- `MASKS_SENT` (0x5070.05). -/
def ctrMasksSent : Nat := entryKey 0x5070 5

/-- `MASKS_LATE` (0x5070.06). -/
def ctrMasksLate : Nat := entryKey 0x5070 6

/-- `TOKENS_REJECTED` (0x5070.07). -/
def ctrTokensRejected : Nat := entryKey 0x5070 7

/-- `ESCAPES` (0x5070.08). -/
def ctrEscapes : Nat := entryKey 0x5070 8

/-- `DEAD_ENDS` (0x5070.09). -/
def ctrDeadEnds : Nat := entryKey 0x5070 9

/-- `FORCED_STARTS` (0x5070.0A). -/
def ctrForcedStarts : Nat := entryKey 0x5070 10

/-- `FORCED_ABANDONED` (0x5070.0B). -/
def ctrForcedAbandoned : Nat := entryKey 0x5070 11

/-- `STACK_FULL_MASKS` (0x5070.0C). -/
def ctrStackFullMasks : Nat := entryKey 0x5070 12

/-- `SEARCHES` (0x5080.01). -/
def ctrSearches : Nat := entryKey 0x5080 1

/-- `SLICES_SCANNED` (0x5080.02). -/
def ctrSlicesScanned : Nat := entryKey 0x5080 2

/-- `ENTRIES_COMPARED` (0x5080.03). -/
def ctrEntriesCompared : Nat := entryKey 0x5080 3

/-- `TOMBSTONE_SKIPS` (0x5080.04). -/
def ctrTombstoneSkips : Nat := entryKey 0x5080 4

/-- `SEARCH_TIMEOUTS` (0x5080.05). -/
def ctrSearchTimeouts : Nat := entryKey 0x5080 5

/-- `SHORT_RESULTS` (0x5080.06). -/
def ctrShortResults : Nat := entryKey 0x5080 6

/-- `MUTATION_WAITS` (0x5080.07). -/
def ctrMutationWaits : Nat := entryKey 0x5080 7

/-- `STAGE_FETCHES` (0x5080.08). -/
def ctrStageFetches : Nat := entryKey 0x5080 8

/-- `TILES_PARKED` (0x5090.01). -/
def ctrTilesParked : Nat := entryKey 0x5090 1

/-- `TILES_FETCHED` (0x5090.02). -/
def ctrTilesFetched : Nat := entryKey 0x5090 2

/-- `FETCH_REPEATS` (0x5090.03). -/
def ctrFetchRepeats : Nat := entryKey 0x5090 3

/-- `FETCH_FAILURES` (0x5090.04). -/
def ctrFetchFailures : Nat := entryKey 0x5090 4

/-- `PARK_FAILURES` (0x5090.05). -/
def ctrParkFailures : Nat := entryKey 0x5090 5

/-- `POOL_DENIALS` (0x5090.06). -/
def ctrPoolDenials : Nat := entryKey 0x5090 6

/-- `PUBLISHES_COMMITTED` (0x5090.07). -/
def ctrPublishesCommitted : Nat := entryKey 0x5090 7

/-- `VERSION_STALES` (0x5090.08). -/
def ctrVersionStales : Nat := entryKey 0x5090 8

/-- `LEASES_VOIDED` (0x5090.09). -/
def ctrLeasesVoided : Nat := entryKey 0x5090 9

/-- `FLAT_MIGRATIONS` (0x5090.0A). -/
def ctrFlatMigrations : Nat := entryKey 0x5090 10

/-- `HBM_CORRECTED` (0x5090.0B). -/
def ctrHbmCorrected : Nat := entryKey 0x5090 11

/-- `HBM_UNCORRECTED` (0x5090.0C). -/
def ctrHbmUncorrected : Nat := entryKey 0x5090 12

/-- `RECORD_SLOTS_WITHHELD` (0x5090.0D). -/
def ctrRecordSlotsWithheld : Nat := entryKey 0x5090 13

/-- `FEC_CW_CORRECTED` of port `k`. -/
def ctrFecCwCorrected (k : Nat) : Nat := entryKey (0x50B0 + k) 1

/-- `FEC_SYMBOLS_CORRECTED` of port `k`. -/
def ctrFecSymbolsCorrected (k : Nat) : Nat := entryKey (0x50B0 + k) 2

/-- `FEC_CW_UNCORRECTABLE` of port `k`. -/
def ctrFecCwUncorrectable (k : Nat) : Nat := entryKey (0x50B0 + k) 3

/-- `LINK_DOWNS` of port `k`. -/
def ctrLinkDowns (k : Nat) : Nat := entryKey (0x50B0 + k) 4

/-- `PACKETS_RX` of port `k`. -/
def ctrPacketsRx (k : Nat) : Nat := entryKey (0x50B0 + k) 5

/-- `PACKETS_TX` of port `k`. -/
def ctrPacketsTx (k : Nat) : Nat := entryKey (0x50B0 + k) 6

/-- `INTEGRITY_DROPS` of port `k`. -/
def ctrIntegrityDrops (k : Nat) : Nat := entryKey (0x50B0 + k) 7

/-- `LENGTH_DROPS` of port `k`. -/
def ctrLengthDrops (k : Nat) : Nat := entryKey (0x50B0 + k) 8

/-- `WINDOW_DROPS` of port `k`. -/
def ctrWindowDrops (k : Nat) : Nat := entryKey (0x50B0 + k) 9

/-- `CREDIT_STALLS` of port `k`. -/
def ctrCreditStalls (k : Nat) : Nat := entryKey (0x50B0 + k) 10

/-- `REPEATS` (0x50B8.01). -/
def ctrRepeats : Nat := entryKey 0x50B8 1

/-- `REPEAT_TIMEOUTS` (0x50B8.02). -/
def ctrRepeatTimeouts : Nat := entryKey 0x50B8 2

/-- `FAST_REPEATS` (0x50B8.03). -/
def ctrFastRepeats : Nat := entryKey 0x50B8 3

/-- `QP_ERRORS` (0x50B8.04). -/
def ctrQpErrors : Nat := entryKey 0x50B8 4

/-- `DESCRIPTOR_CLAMPS` (0x50B8.05). -/
def ctrDescriptorClamps : Nat := entryKey 0x50B8 5

/-- `WRS_FIRED` (0x50B8.06). -/
def ctrWrsFired : Nat := entryKey 0x50B8 6

/-- `TIME_STEPS` (0x50B8.07). -/
def ctrTimeSteps : Nat := entryKey 0x50B8 7

/-- `RESPONSE_TIMEOUTS` (0x50B8.08). -/
def ctrResponseTimeouts : Nat := entryKey 0x50B8 8

/-- `TILE_NAKS` (0x50B8.09). -/
def ctrTileNaks : Nat := entryKey 0x50B8 9

/-- `COUNTER_BUMPS_IGNORED` (0x50B8.0A). -/
def ctrCounterBumpsIgnored : Nat := entryKey 0x50B8 10

/-- `FORWARDED_PACKETS` (0x50C0.01). -/
def ctrForwardedPackets : Nat := entryKey 0x50C0 1

/-- `ROUTE_DROPS` (0x50C0.02). -/
def ctrRouteDrops : Nat := entryKey 0x50C0 2

/-- `MIRROR_ITEMS` (0x50C0.03). -/
def ctrMirrorItems : Nat := entryKey 0x50C0 3

/-- `MIRROR_WAITS` (0x50C0.04). -/
def ctrMirrorWaits : Nat := entryKey 0x50C0 4

/-- `FAILOVERS` (0x50C0.05). -/
def ctrFailovers : Nat := entryKey 0x50C0 5

/-- `MIGRATIONS_OUT` (0x50C0.06). -/
def ctrMigrationsOut : Nat := entryKey 0x50C0 6

/-- `MIGRATIONS_IN` (0x50C0.07). -/
def ctrMigrationsIn : Nat := entryKey 0x50C0 7

/-- `MIGRATIONS_FAILED` (0x50C0.08). -/
def ctrMigrationsFailed : Nat := entryKey 0x50C0 8

/-- `RING_STEP_RESTARTS` (0x50C0.09). -/
def ctrRingStepRestarts : Nat := entryKey 0x50C0 9

/-- `MIRROR_REFUSALS` (0x50C0.0A). -/
def ctrMirrorRefusals : Nat := entryKey 0x50C0 10

/-- `MIGRATE_TAG_MISMATCHES` (0x50C0.0B). -/
def ctrMigrateTagMismatches : Nat := entryKey 0x50C0 11

/-- `SHADOWS_DISCARDED` (0x50C0.0C). -/
def ctrShadowsDiscarded : Nat := entryKey 0x50C0 12

/-- `MIRROR_LATE_ITEMS` (0x50C0.0D). -/
def ctrMirrorLateItems : Nat := entryKey 0x50C0 13

/-- `GREEN_PKTS` of port `k`, class `c`. -/
def ctrGreenPkts (k c : Nat) : Nat := entryKey (0x50D0 + k) (1 + c)

/-- `YELLOW_PKTS` of port `k`, class `c`. -/
def ctrYellowPkts (k c : Nat) : Nat := entryKey (0x50D0 + k) (9 + c)

/-- `RED_PKTS` of port `k`, class `c`. -/
def ctrRedPkts (k c : Nat) : Nat := entryKey (0x50D0 + k) (17 + c)

/-- `YELLOW_DROPS` of port `k`. -/
def ctrYellowDrops (k : Nat) : Nat := entryKey (0x50D0 + k) 25

/-- `SHAPER_HOLDS` of port `k`. -/
def ctrShaperHolds (k : Nat) : Nat := entryKey (0x50D0 + k) 26

/-- `GUARD_HOLDS` of port `k`. -/
def ctrGuardHolds (k : Nat) : Nat := entryKey (0x50D0 + k) 27

/-- `SAMPLES_WRITTEN` (0x50D8.01). -/
def ctrSamplesWritten : Nat := entryKey 0x50D8 1

/-- `SAMPLES_LOST` (0x50D8.02). -/
def ctrSamplesLost : Nat := entryKey 0x50D8 2

/-- `GATE_SWITCHES` (0x50D8.03). -/
def ctrGateSwitches : Nat := entryKey 0x50D8 3

/-- `SURVEYS_COMMITTED` (0x50E0.01). -/
def ctrSurveysCommitted : Nat := entryKey 0x50E0 1

/-- `SURVEYS_FAILED` (0x50E0.02). -/
def ctrSurveysFailed : Nat := entryKey 0x50E0 2

/-- `PAGES_WRITTEN` (0x50E0.03). -/
def ctrPagesWritten : Nat := entryKey 0x50E0 3

/-- `PAGES_REFERENCED` (0x50E0.04). -/
def ctrPagesReferenced : Nat := entryKey 0x50E0 4

/-- `NV_ERRORS` (0x50E0.05). -/
def ctrNvErrors : Nat := entryKey 0x50E0 5

/-- `SHARDS_REJECTED` (0x50E0.06). -/
def ctrShardsRejected : Nat := entryKey 0x50E0 6

/-- `STEPS_RESUMED` (0x50E0.07). -/
def ctrStepsResumed : Nat := entryKey 0x50E0 7

/-- `RESTORE_SESSIONS_FAILED` (0x50E0.08). -/
def ctrRestoreSessionsFailed : Nat := entryKey 0x50E0 8

/-- `POOL_SLOTS_RETAINED` (0x50E0.09). -/
def ctrPoolSlotsRetained : Nat := entryKey 0x50E0 9

/-- `ATTEST_REPORTS` (0x50F0.01). -/
def ctrAttestReports : Nat := entryKey 0x50F0 1

/-- `KEYS_DELIVERED` (0x50F0.02). -/
def ctrKeysDelivered : Nat := entryKey 0x50F0 2

/-- `KEY_FAILURES` (0x50F0.03). -/
def ctrKeyFailures : Nat := entryKey 0x50F0 3

/-- `CONF_REFUSALS` (0x50F0.04). -/
def ctrConfRefusals : Nat := entryKey 0x50F0 4

/-- `SCAN_REFUSALS` (0x50F0.05). -/
def ctrScanRefusals : Nat := entryKey 0x50F0 5

/-- `DICT_READS` (0x5000.01). -/
def ctrDictReads : Nat := entryKey 0x5000 1

/-- `DICT_WRITES` (0x5000.02). -/
def ctrDictWrites : Nat := entryKey 0x5000 2

/-- `DICT_CLAMPS` (0x5000.03). -/
def ctrDictClamps : Nat := entryKey 0x5000 3

/-- `DICT_REFUSALS` (0x5000.04). -/
def ctrDictRefusals : Nat := entryKey 0x5000 4

/-- `MGMT_AUTH_DROPS` (0x5000.05). -/
def ctrMgmtAuthDrops : Nat := entryKey 0x5000 5

/-- `MGMT_REPLAY_DROPS` (0x5000.06). -/
def ctrMgmtReplayDrops : Nat := entryKey 0x5000 6

/-- `MGMT_FORMAT_DROPS` (0x5000.07). -/
def ctrMgmtFormatDrops : Nat := entryKey 0x5000 7

/-- `THERM_WARNS` (0x5110.01). -/
def ctrThermWarns : Nat := entryKey 0x5110 1

end Sys2Proof.Machine
end

