-- ==== Sys2Proof/Machine/Flags.lean ====
section
/-!
DEFINITION. Counters, performance events and alert causes: the flags and counts that operations raise (R607 and the counter
tables; R634 to R643).
-/
namespace Sys2Proof.Machine

/-- Add `n` to a dictionary counter, 64 bits. -/
def bumpBy (key n : Nat) (s : State) : State :=
  { s with dict.counters := Tab.put s.dict.counters key ((Tab.get s.dict.counters key 0 + n) % 2 ^ 64) }

/-- Add one to a dictionary counter. -/
def bump (key : Nat) (s : State) : State := bumpBy key 1 s

/-- Causes of `ALERT_STATUS`, by bit. -/
inductive Alert where
  | teardown | leaseVoided | fatal | nvError | migrateHeld | pairStalled | takeover | security | counterWrap
  deriving DecidableEq, Repr

/-- The bit of a cause. -/
def alertBit : Alert → Nat
  | .teardown => 0 | .leaseVoided => 1 | .fatal => 2 | .nvError => 3 | .migrateHeld => 4
  | .pairStalled => 5 | .takeover => 6 | .security => 7 | .counterWrap => 8

/-- Set a cause in `ALERT_STATUS`, which drives ALERT_L low (R635). -/
def alert (a : Alert) (s : State) : State :=
  { s with csr.alert := s.csr.alert ||| (1 <<< alertBit a) }

/-- Whose work an event is (the event privilege table). -/
inductive Priv where
  | module | host | context (c : Nat)
  deriving DecidableEq, Repr

/-- A performance event with the attributes it carries (R641). `ctx` is the context of one whose privilege is not CONTEXT. -/
structure PmuEvent where
  code : Nat
  weight : Nat := 1
  priv : Priv := .module
  requester : Option Nat := none
  addr : Option Nat := none
  tclass : Option Nat := none
  svc : Option Nat := none
  ctx : Option Nat := none

/-- A configuration word of a counter. -/
def cfgWord (s : State) (n k : Nat) : BitVec 32 := Tab.get s.csr.cfg (4 * n + k) 0

/-- A 64-bit bound of address filter `f`: `k` 0 the base, 2 the limit. -/
def filterBound (s : State) (f k : Nat) : Nat :=
  (Tab.get s.csr.filters (4 * f + k) 0).toNat + 2 ^ 32 * (Tab.get s.csr.filters (4 * f + k + 1) 0).toNat

/-- Whether a context is a live confidential context: PENDING or CONFIDENTIAL (before R577). -/
def liveConf (s : State) (c : Nat) : Bool :=
  (Tab.get s.contexts c {}).mode == .pending || (Tab.get s.contexts c {}).mode == .confidential

/-- Whether an event passes the filters of counter `n` (R637, R638). -/
def pmuPasses (s : State) (e : PmuEvent) (n : Nat) : Bool :=
  let c0 := cfgWord s n 0
  let c1 := cfgWord s n 1
  let c2 := cfgWord s n 2
  let f := (c0 >>> 8).toNat % 16
  let mask := (c1 >>> 14).toNat % 512
  let tcm := (c1 >>> 6).toNat % 256
  let svm := (c1 >>> 4).toNat % 4
  let ctx := match e.priv with | .context c => some c | _ => e.ctx
  c0.getLsbD 15 && (c0.toNat % 256 == e.code) && e.code != 0 &&
  (match e.priv with
    | .module => c0.getLsbD 12
    | .host => c0.getLsbD 13
    | .context _ => c0.getLsbD 14) &&
  (match ctx with | some c => !liveConf s c | none => true) &&
  (mask == 0 || match e.requester with
    | some r => (r &&& mask) == ((c1 >>> 23).toNat &&& mask)
    | none => false) &&
  (f == 0 || match e.addr with
    | some a => filterBound s f 0 ≤ a && a ≤ filterBound s f 2
    | none => false) &&
  (tcm == 0xFF || match e.tclass with
    | some t => tcm.testBit t
    | none => false) &&
  (svm == 3 || match e.svc with
    | some v => svm.testBit v
    | none => false) &&
  (!c2.getLsbD 31 || ctx == some ((c2 >>> 16).toNat % 4096))

/-- Add `w` to counter `n`; a wrap sets its overflow bit, may alert, and carries into a chained counter (R642, R643). -/
def pmuAdd : Nat → Nat → Nat → State → State
  | 0, _, _, s => s
  | fuel + 1, n, w, s =>
    let v := (Tab.get s.csr.counters n 0).toNat + w
    let s := { s with csr.counters := Tab.put s.csr.counters n (BitVec.ofNat 32 v) }
    if v < 2 ^ 32 then s
    else
      let s := { s with csr.ovf := Tab.put s.csr.ovf (n / 32) (Tab.get s.csr.ovf (n / 32) 0 ||| (1 <<< (n % 32))) }
      let s := if (Tab.get s.csr.ovfAlert (n / 32) 0).getLsbD (n % 32) then alert .counterWrap s else s
      let c := cfgWord s (n + 1) 0
      if n < 1023 && c.getLsbD 15 && c.toNat % 256 == 0 then pmuAdd fuel (n + 1) 1 s else s

/-- Count a performance event in every counter that selects it (R637). -/
def pmu (e : PmuEvent) (s : State) : State :=
  if s.csr.freeze || e.weight == 0 then s
  else
    ((s.csr.cfg.filter (fun w => w.1 % 4 == 0)).map (fun w => w.1 / 4)).foldl
      (fun t n => if pmuPasses s e n then pmuAdd 1024 n e.weight t else t) s

/-- Count the handshakes in which lanes of a fielder hold a job (R641 event 0x04), at most 4,096 in one increment (R643). -/
def laneBusy (f hs : Nat) (priv : Priv) (svc : Option Nat) (s : State) : State :=
  foldRange (ceilDiv hs 4096) (fun t k => pmu { code := 0x04, weight := min 4096 (hs - 4096 * k), priv, requester := some f, svc } t) s

/-- Draw the next free value (log entry 15). -/
def draw (s : State) : Word × State := (Config.freeWord s.draws, { s with draws := s.draws + 1 })

/-- Draw `n` free bytes (log entry 15). -/
def drawBytes (n : Nat) (s : State) : List Byte × State := (slice (Config.freeBytes s.draws) 0 n, { s with draws := s.draws + 1 })

/-- What an engine or timer does: a module that is not running, or that an SRAM error has halted, does nothing (R387). -/
def engine (s t : State) : State := if s.power.phase == .running && s.mode != .fatal then t else s

/-- What an engine or timer does that needs a grant: nothing while a survey's freeze lasts (R515). -/
def engineHeld (s t : State) : State := engine s (if s.survey.frozen then s else t)

/-- Record what a party outside sees the module send (log entry 12). -/
def emit (x : Sent) (s : State) : State := { s with out := s.out ++ [x] }

end Sys2Proof.Machine
end

