-- ==== Sys2Proof/Machine/Link.lean ====
section
/-!
DEFINITION. Shared operations of the link: queue pairs, routes, forming packets, joining class queues, sending and answering
messages (R410, R411, R416, R423, R428 to R431, R450 to R454, R480 to R483, R568 to R571).
-/
namespace Sys2Proof.Machine

/-- The 896-byte identity record (R546): its constants, its fields as the flash holds them (R10), its reserved fields zero (R11). -/
def identityRecord : List Byte :=
  [0, 0] ++ leBytes 2 1 ++ leBytes 4 0x49445231 ++ slice Config.identityFlash 8 104 ++ List.replicate 16 0 ++ slice Config.identityFlash 128 768

/-- `MODULE_SERIAL`, word I1 of the identity record (R546). -/
def moduleSerial : Word := wordAt Config.identityFlash 8

/-- Network time as it stands. -/
def now (s : State) : Nat := s.time.now

/-- A queue pair as start-up makes it (the queue pair numbers table, R455): 0 and the fetch pairs are READY toward the adapter's pair
of the same number, peer service pairs name the node and pair they face, others are in RESET. Log entry 11. -/
def qpDefault (s : State) (n : Nat) : Qp :=
  if n = 0 then { state := .ready, kind := 0, windowM1 := 4095, rtoUs := 50 }
  else if n ≤ 256 then { state := .ready, kind := 2, peerQp := n, windowM1 := 4095, rtoUs := 50 }
  else if n ≤ 320 then { kind := 3, peerNode := n - 257, peerQp := 257 + nodeIdVal s }
  else if n ≤ 384 then { kind := 3, peerNode := n - 321, peerQp := 321 + nodeIdVal s }
  else {}

/-- Queue pair `n`. -/
def qpAt (s : State) (n : Nat) : Qp := (Tab.find s.qps n).getD (qpDefault s n)

/-- The state with queue pair `n` replaced. -/
def setQp (n : Nat) (q : Qp) (s : State) : State := { s with qps := Tab.put s.qps n q }

/-- Whether a queue pair is READY. -/
def qpReady (s : State) (n : Nat) : Bool := (qpAt s n).state == .ready

/-- Port `k`. -/
def portAt (s : State) (k : Nat) : Port := Tab.get s.ports k {}

/-- The state with port `k` replaced. -/
def setPort (k : Nat) (p : Port) (s : State) : State := { s with ports := Tab.put s.ports k p }

/-- Egress class `c` of a port. -/
def classAt (p : Port) (c : Nat) : EgressClass := Tab.get p.classes c {}

/-- The port with egress class `c` replaced. -/
def setClass (c : Nat) (e : EgressClass) (p : Port) : Port := { p with classes := Tab.put p.classes c e }

/-- Credit counts of class `c` of a port. -/
def creditAt (p : Port) (c : Nat) : Credit := Tab.get p.credits c {}

/-- The port with the credit counts of class `c` replaced. -/
def setCredit (c : Nat) (x : Credit) (p : Port) : Port := { p with credits := Tab.put p.credits c x }

/-- Which entry of the kind map a queue pair that is not general has (R480). -/
def kindIndex (n : Nat) : Nat := if n = 0 then 0 else if n ≤ 256 then 1 else if n ≤ 320 then 2 else 3

/-- The traffic class of packets that originate on queue pair `n` (R480). -/
def qpClass (s : State) (n : Nat) : Nat :=
  if n ≥ 512 then (qpAt s n).tclass else kindClassVal s (kindIndex n)

/-- Whether the topology includes a node (R448). -/
def nodeInTopology (s : State) (n : Nat) : Bool :=
  match peerTopologyVal s with
  | 1 => n < ringNodesVal s
  | 2 => n < torusDxVal s * torusDyVal s
  | _ => false

/-- The direction with fewer hops from `a` to `b` among `d` places, positive when equal: none, backward or forward (R450). -/
def shorter (a b d : Nat) : Option Bool :=
  let f := (b + d - a % d) % d
  if f = 0 then none else some (f ≤ d - f)

/-- The peer port, 1 to 4, by which a packet for a node leaves (R450, R451). -/
def firstHop (s : State) (node : Nat) : Option Nat :=
  let o := routeOverrideVal s node
  if o ≠ 0 then some o
  else
    let me := nodeIdVal s
    match peerTopologyVal s with
    | 1 => (shorter me node (ringNodesVal s)).map (fun f => if f then 2 else 1)
    | 2 =>
      let dx := torusDxVal s
      match shorter (me % dx) (node % dx) dx with
      | some f => some (if f then 2 else 1)
      | none => (shorter (me / dx) (node / dx) (torusDyVal s)).map (fun f => if f then 4 else 3)
    | _ => none

/-- Whether a packet that arrived on one port and leaves by another continues in its dimension (R453). -/
def sameDimension (arrived leaves : Nat) : Bool := arrived ≥ 1 && leaves ≥ 1 && (arrived - 1) / 2 == (leaves - 1) / 2

/-- The port of queue pair `n`: the first hop for a peer service pair (R455), else its `PORT`. -/
def qpPort (s : State) (n : Nat) : Option Nat :=
  if 257 ≤ n && n ≤ 384 then firstHop s (qpAt s n).peerNode else some (qpAt s n).port

/-- A sender's direction key (R568). -/
def directionKey (kl : List Byte) (salt : Word) (node qp : Nat) : List Byte :=
  hmac kl (wordBytes salt ++ leBytes 1 node ++ leBytes 2 qp)

/-- The GCM nonce of an extended PSN (R568). -/
def psnNonce (ext : Nat) : List Byte := leBytes 6 ext ++ List.replicate 6 0

/-- Header words with `HCRC` put into H3 (R410): CRC-32C of header bytes 0 to 23 followed by bytes 28 to 31. -/
def withHcrc (h0 h1 h2 h3 : Word) (data : List Byte) : Packet :=
  let b := wordsBytes [h0, h1, h2, h3]
  { h0, h1, h2, h3 := setBits h3 31 0 (crc32c (b.take 24 ++ b.drop 28)), data }

/-- Bytes padded with zero to a multiple of 32. -/
def pad32 (l : List Byte) : List Byte := l ++ List.replicate ((32 - l.length % 32) % 32) 0

/-- The context whose KL seals a packet of queue pair `n`, if it travels with `ENC` 1 (R416, R571). -/
def encContext (q : Qp) (n : Nat) (o : Outgoing) : Option Nat :=
  if 257 ≤ n && n ≤ 384 then o.conf else if q.enc then some q.context else none

/-- A packet's header fields (R410). -/
def pktPsn (p : Packet) : Nat := bits p.h0 31 8
def pktDestQp (p : Packet) : Nat := bits p.h0 63 48
def pktSrcQp (p : Packet) : Nat := bits p.h0 47 32
def pktType (p : Packet) : Nat := bits p.h1 63 60
def pktClass (p : Packet) : Nat := bits p.h1 59 57
def pktEnc (p : Packet) : Bool := bit p.h1 56
def pktFirst (p : Packet) : Bool := bit p.h1 55
def pktLast (p : Packet) : Bool := bit p.h1 54
def pktAckReq (p : Packet) : Bool := bit p.h1 53
def pktLen (p : Packet) : Nat := bits p.h1 52 40
def pktDest (p : Packet) : Nat := bits p.h1 39 32
def pktSrc (p : Packet) : Nat := bits p.h1 31 24
def pktAckPsn (p : Packet) : Nat := bits p.h3 63 40
def pktAckValid (p : Packet) : Bool := bit p.h3 39

/-- The packet that carries `o` with a PSN on queue pair `n` (R410, R411, R568). -/
def formPacket (s : State) (n psn ext : Nat) (o : Outgoing) : Packet :=
  let q := qpAt s n
  let enc := encContext q n o
  let h0 := word (at' q.peerQp 48 16 + at' n 32 16 + at' psn 8 24 + 0x50)
  let h1 := word (at' o.ptype 60 4 + at' (qpClass s n) 57 3 + flagAt enc.isSome 56 + flagAt o.first 55 + flagAt o.last 54 +
    at' o.payload.length 40 13 + at' q.peerNode 32 8 + at' (nodeIdVal s) 24 8 + flagAt o.ringPass 23 + at' o.counter 0 14)
  let hdr := if o.first then o.header else []
  let body := match enc with
    | none => o.payload ++ leBytes 4 (crc32c o.payload) ++ List.replicate 12 0
    | some c =>
      let key := directionKey (Tab.get s.contexts c {}).kl q.sndSalt (nodeIdVal s) n
      slice (Config.gcmSeal key (psnNonce ext) (wordsBytes [h0, h1, o.addr] ++ hdr) o.payload) 0 (o.payload.length + 16)
  withHcrc h0 h1 o.addr 0 (hdr ++ pad32 body)

/-- Insert a repeat behind the repeats already queued and ahead of first transmissions (R483). -/
def joinRepeat (x : Queued) : List Queued → List Queued
  | [] => [x]
  | y :: t => if y.repeated then y :: joinRepeat x t else x :: y :: t

/-- A packet joins its class queue at a port (R482, R483). On a peer port that is not UP it is discarded (R454). -/
def joinQueue (k : Nat) (x : Queued) (s : State) : State :=
  let p := portAt s k
  if k ≥ 1 && p.state != .up then bump ctrRouteDrops s
  else
    let c := bits x.packet.h1 59 57
    let e := classAt p c
    let q := if x.repeated then joinRepeat x e.queue else e.queue ++ [x]
    setPort k (setClass c { e with queue := q } p) s

/-- Queue an originated packet of queue pair `n` at its port. -/
def queuePacket (n : Nat) (p : Packet) (repeated : Bool) (grant : Option Nat) (s : State) : State :=
  match qpPort s n with
  | none => bump ctrRouteDrops s
  | some k => joinQueue k { packet := p, joined := now s, repeated, entering := k ≥ 1, grant } s

/-- Whether the head of a queue pair's backlog may take the next PSN: the window has room (R423), a confidential packet of a peer pair
has the far end's salt (R571), and the extended PSN is not spent (R569). -/
def mayNumber (q : Qp) (n : Nat) (o : Outgoing) : Bool :=
  (q.sndNxt + 2 ^ 24 - q.sndUna) % 2 ^ 24 < q.windowM1 + 1 &&
  (!(257 ≤ n && n ≤ 384) || o.conf.isNone || q.salted) &&
  ((encContext q n o).isNone || q.sndNxt + 2 ^ 24 * q.sndWraps < 2 ^ 48)

/-- Give PSNs to packets of the backlog while they may have one, queue them, and start the repeat timer (R423, R425). -/
def flushQp (n : Nat) : Nat → State → State
  | 0, s => s
  | fuel + 1, s =>
    let q := qpAt s n
    match q.backlog with
    | [] => s
    | o :: rest =>
      if q.state == .ready && mayNumber q n o then
        let ext := q.sndNxt + 2 ^ 24 * q.sndWraps
        let p := formPacket s n q.sndNxt ext o
        let nxt := (q.sndNxt + 1) % 2 ^ 24
        let q := { q with
          backlog := rest
          unacked := q.unacked ++ [{ psn := q.sndNxt, ext, what := o }]
          sndNxt := nxt
          sndWraps := if nxt = 0 then q.sndWraps + 1 else q.sndWraps
          timer := some (q.timer.getD (now s + q.rtoUs * 1000)) }
        flushQp n fuel (queuePacket n p false o.grant (setQp n q s))
      else s

/-- Hand packets to a queue pair for sending. On a queue pair that is not READY nothing is sent. -/
def sendPackets (n : Nat) (l : List Outgoing) (s : State) : State :=
  let q := qpAt s n
  if q.state != .ready then s
  else
    let q := { q with backlog := q.backlog ++ l }
    flushQp n q.backlog.length (setQp n q s)

/-- The 32 bytes of a message header (R428). -/
def headerBytes (m : Msg) : List Byte :=
  wordsBytes [
    word (at' m.opcode.toNat 48 16 + at' m.status.toNat 32 16 + m.tag.toNat),
    m.handle,
    word (at' m.job.toNat 48 16 + at' m.ops.length 40 8),
    m.args]

/-- The segments of a message: its header block in the first, its payload in pieces of at most 4,096 bytes (R413, R428). -/
def segments (header payload : List Byte) (conf : Option Nat) : List Outgoing :=
  let cs := match chunks 4096 (payload.length / 4096 + 1) payload with
    | [] => [[]]
    | l => l
  cs.mapIdx (fun i c =>
    { ptype := 0, first := i == 0, last := i + 1 == cs.length, header := if i == 0 then header else [], payload := c, conf })

/-- Send a message on its queue pair, if that is READY. -/
def sendMsg (m : Msg) (s : State) : State :=
  if qpReady s m.qp then
    sendPackets m.qp (segments (headerBytes m) (wordsBytes m.ops ++ m.body) none) (emit (.msg m) s)
  else s

/-- What an answer carries beside its status (R431; where results stand is log entry 22). `code` is a status that is a free value. -/
structure Answer where
  status : Status := .ok
  code : Option (BitVec 16) := none
  handle : Option Word := none
  job : Nat := 0
  args : Word := 0
  ops : List Word := []
  body : List Byte := []

/-- The response to a request (R431): its opcode plus 0x8000, its tag, on its queue pair. -/
def response (m : Msg) (a : Answer) : Msg :=
  { qp := m.qp, opcode := m.opcode + 0x8000, status := a.code.getD a.status.code, tag := m.tag, handle := a.handle.getD m.handle,
    job := BitVec.ofNat 16 a.job, args := a.args, ops := a.ops, body := a.body }

/-- Answer a request. -/
def respond (m : Msg) (a : Answer) (s : State) : State := sendMsg (response m a) s

/-- Answer a request with a status alone. -/
def refuse (m : Msg) (st : Status) (s : State) : State := respond m { status := st } s

/-- A module message (the module messages table). -/
def notify (qp : Nat) (opcode : BitVec 16) (tag : BitVec 32) (handle : Word) (st : Status) (args : Word) (ops : List Word)
    (body : List Byte) (s : State) : State :=
  sendMsg { qp, opcode, status := st.code, tag, handle, args, ops, body } s

/-- Send a mask granted at `t` (R300, R307): its last packet is judged as it leaves. -/
def sendMask (t : Nat) (m : Msg) (s : State) : State :=
  if qpReady s m.qp then
    sendPackets m.qp ((segments (headerBytes m) (wordsBytes m.ops ++ m.body) none).map (fun o => if o.last then { o with grant := some t } else o))
      (emit (.msg m) s)
  else s

/-- A tile packet on a queue pair: type, address, trigger counter, payload. -/
def sendTile (n : Nat) (o : Outgoing) (s : State) : State :=
  if qpReady s n then sendPackets n [o] (emit (.tile n o.ptype o.addr o.counter o.payload o.pool) s) else s

/-- The opcode of a peer request or message (R455, R571). -/
def peerOpcode : PeerMsg → BitVec 16
  | .ringJoin _ => 0x0720 | .ringCmd _ => 0x0721
  | .migrateOpen _ => 0x0730 | .migrateCommit _ => 0x0731 | .migrateAbort _ => 0x0732
  | .ringAppend _ => 0xF101 | .ringQuery _ => 0xF102 | .segPartial _ => 0xF103 | .segFrontier .. => 0xF104
  | .ringQblock _ => 0xF105 | .ringOutput _ => 0xF106
  | .mirror i => match i.body with
    | .update .. => 0xF110 | .map .. => 0xF111 | .append .. => 0xF112 | .rows .. => 0xF112 | .stepEnd .. => 0xF113 | .page .. => 0xF114
  | .mirrorAck .. => 0xF115 | .pairBeat => 0xF116 | .salt _ => 0xF117

/-- The bytes of a partial's payload (before R176): for each head m, l and the accumulator. -/
def partialBytes (p : Partial) : List Byte :=
  (p.heads.map (fun h => leBytes 4 h.m.toNat ++ leBytes 4 h.l.toNat ++ (h.acc.map (fun a => leBytes 4 a.toNat)).flatten)).flatten

/-- The operand words and body of a peer message: as R461 lays out `SEG_PARTIAL` and `SEG_FRONTIER`; for the others a free value. -/
def peerContent : PeerMsg → List Word × List Byte
  | .segPartial p =>
    ([word (at' p.mergeTag 32 32 + at' p.innings 16 16), word p.sentNs,
      word (at' p.layer 56 8 + at' p.head 48 8 + at' p.segment 33 15 + at' p.level 29 4 + at' p.qoff 20 9 +
        at' p.value.heads.length 15 5 + flagAt p.value.nan 14 + flagAt p.value.empty 13)], partialBytes p.value)
  | .segFrontier tag inn f => ([word (at' tag 32 32 + at' inn 16 16), word (at' f 0 15)], [])
  | .salt w => ([w], [])
  | .mirrorAck n r => ([word n, match r with | some i => word i | none => allOnes], [])
  | .pairBeat => ([], [])
  | p => ([], Config.peerBody p)

/-- Send a peer request or message to a node on a peer service queue pair, if that is READY. `conf` names the confidential context whose
data it carries (R571). -/
def sendPeer (node qp : Nat) (tag : BitVec 32) (handle : Word) (conf : Option Nat) (p : PeerMsg) (s : State) : State :=
  if qpReady s qp then
    let c := peerContent p
    let m : Msg := { qp, opcode := peerOpcode p, tag, handle, ops := c.1, body := c.2 }
    sendPackets qp (segments (headerBytes m) (wordsBytes c.1 ++ c.2) conf) (emit (.peer node qp tag p) s)
  else s

/-- The ring and mirror queue pair to a node, and the migration queue pair (R455). -/
def ringQp (node : Nat) : Nat := 257 + node
def migrateQp (node : Nat) : Nat := 321 + node

end Sys2Proof.Machine
end

