-- ==== Sys2Proof/Machine/Operands.lean ====
section
/-!
DEFINITION. Messages as commands: their operand forms, and what is judged before a command's own rules (R418, R387, R548, R433, R430,
R691, R692, R597, R515 in this order).
-/
namespace Sys2Proof.Machine

/-- Where a request is accepted (R433, R455). -/
inductive On where
  | bound | mailbox | fm | peer | mailboxOrBound
  deriving DecidableEq, Repr

/-- A command's form: opcode, where it is accepted, how many scalar operands it needs and how many it may carry (R691), whether
Setup refuses it (R597), whether a survey's freeze holds it (R515). -/
structure Form where
  opcode : BitVec 16
  on : On
  need : Nat := 0
  most : Nat := 0
  setup : Bool := false
  freeze : Bool := true

/-- Scalar operand `i`; one that is left out is all ones (R429, R691). -/
def opWord (m : Msg) (i : Nat) : Word := m.ops.getD i allOnes

/-- Scalar operand `i` as a number. -/
def opNat (m : Msg) (i : Nat) : Nat := (opWord m i).toNat

/-- Whether the message's queue pair is of a kind that may carry the command (R433). -/
def onAllowed (s : State) (n : Nat) : On → Bool
  | .mailbox => n == 0
  | .fm => n == fmQpVal s
  | .peer => 257 ≤ n && n ≤ 384
  | .bound => 512 ≤ n && (qpAt s n).bound
  | .mailboxOrBound => n == 0 || (512 ≤ n && (qpAt s n).bound)

/-- What is judged of a message before its own rules. -/
inductive Gate where
  | drop | hold | deny (st : Status) | pass
  deriving DecidableEq, Repr

/-- Whether the links and network time work: from start-up on (R651). -/
def linkAlive (s : State) : Bool := s.power.phase == .running || s.power.phase == .starting

/-- The checks before a command's own rules. `bad` is whether the body or an operand is malformed for the command (R430, R692). Until
start-up completes requests wait in ingress (R652). -/
def gate (f : Form) (m : Msg) (bad : Bool) (s : State) : Gate :=
  if !linkAlive s || !qpReady s m.qp then .drop
  else if s.power.phase != .running then .hold
  else if s.mode == .fatal then .deny .moduleFatal
  else if s.sec.state == .recovery && !(f.opcode == 0x0907 && m.qp == 0) then .deny .firmwareAbsent
  else if !onAllowed s m.qp f.on then .deny .opcodeDenied
  else if m.cut || m.ops.length < f.need || f.most < m.ops.length || bad then .deny .messageMalformed
  else if f.setup && s.mode == .setup then .deny .moduleSetup
  else if f.freeze && s.survey.frozen then .hold
  else .pass

/-- A message leaves ingress as its command is applied. -/
def takeMsg (m : Msg) (s : State) : State := { s with ingress := s.ingress.erase m }

/-- Apply a request: its gate, then its own meaning `h`. A held message stays in ingress (R24, R515). -/
def request (f : Form) (m : Msg) (bad : Bool) (h : State → State) (s : State) : State :=
  match gate f m bad s with
  | .drop => takeMsg m s
  | .hold => if s.ingress.contains m then s else { s with ingress := s.ingress ++ [m] }
  | .deny st => refuse m st (takeMsg m s)
  | .pass => h (takeMsg m s)

/-- A message that has no answer (R377, R431, R455): what the gate refuses is dropped, but a halted module answers it (R387). -/
def peerMessage (f : Form) (m : Msg) (h : State → State) (s : State) : State :=
  match gate f m false s with
  | .hold => if s.ingress.contains m then s else { s with ingress := s.ingress ++ [m] }
  | .deny st => if st == .moduleFatal then refuse m st (takeMsg m s) else takeMsg m s
  | .drop => takeMsg m s
  | .pass => h (takeMsg m s)

/-- The items of a list operand of `size` bytes each after its count word (R429), if the body holds them all. -/
def listItems (size : Nat) (body : List Byte) : Option (List (List Byte)) :=
  let n := numAt body 0 8
  if body.length < 8 + n * size then none
  else some (chunks size n (body.drop 8))

/-- A list operand of words. -/
def listWords (body : List Byte) : Option (List Word) :=
  (listItems 8 body).map (fun l => l.map (fun b => word (leNat b)))

/-- The status of a context number that names no context (R552, R553, the security statuses): out of range, or not created. -/
def noContext (c : Nat) : Status := if 4095 < c then .contextInvalid else .contextUnknown

/-- Shorthand: every command answers a next state. -/
abbrev Out := Host.Outcome State Fault Refusal

end Sys2Proof.Machine
end

