-- ==== Sys2Proof/Machine/Ops.lean ====
section
/-!
DEFINITION. Named operations over HBM bytes, the frame table and a partition's pseudo-channels (R20 to R22, R113 to R121, R228, R230
to R232).
-/
namespace Sys2Proof.Machine

/-- Whether a listing of bytes is in canonical form: addresses rise strictly and no listed byte is zero. -/
def Memory.wf (m : List Host.Cell) : Bool := Tab.rising m && m.all (fun c => c.2 != 0)

/-- The byte at an HBM address; a byte that nothing has written reads zero (log entry 7). -/
def readByte (s : State) (a : Nat) : Byte := Tab.get s.hbm a 0

/-- A memory with byte `b` at address `a`, in canonical form. -/
def memPut (m : List Host.Cell) (a : Nat) (b : Byte) : List Host.Cell := if b = 0 then Tab.drop m a else Tab.put m a b

/-- A memory with bytes stored from address `a` on. -/
def memPutAll : List Byte → Nat → List Host.Cell → List Host.Cell
  | [], _, m => m
  | b :: t, a, m => memPutAll t (a + 1) (memPut m a b)

/-- `n` bytes of HBM from address `a`. -/
def readBytes (s : State) (a n : Nat) : List Byte := (List.range n).map (fun i => readByte s (a + i))

/-- Store bytes from address `a` on. -/
def writeBytes (a : Nat) (l : List Byte) (s : State) : State := { s with hbm := memPutAll l a s.hbm }

/-- A memory with `n` bytes from address `a` zero. -/
def memZero (m : List Host.Cell) (a n : Nat) : List Host.Cell := m.filter (fun c => c.1 < a || a + n ≤ c.1)

/-- Zero `n` bytes from address `a`. -/
def zeroBytes (a n : Nat) (s : State) : State := { s with hbm := memZero s.hbm a n }

/-- The HBM address of byte 0 of a frame. -/
def frameBase (f : Nat) : Nat := f * 65536

/-- The fielder that reads a frame (R21), and the frame's slot. -/
def frameFielder (f : Nat) : Nat := f / 65536
def frameSlot (f : Nat) : Nat := f % 65536

/-- The ordinal of the record frame that a frame number is, were the record region large enough (R118). -/
def recordOrdinal (f : Nat) : Nat :=
  (61034 - frameSlot f) * 64 + (frameFielder f % 32) * 2 + (frameFielder f / 32) % 2

/-- Whether a frame belongs to the record region of `e` enabled entries (R118). -/
def inRecordRegion (e f : Nat) : Bool := frameSlot f ≤ 61034 && recordOrdinal f < e / 1024

/-- Record frame `k` of the region of `e` entries (R118). -/
def recordFrame (e k : Nat) : Nat :=
  let q := k / (e / 1024)
  let j := k % (e / 1024)
  (((2 * q + j % 2) * 32 + (j / 2) % 32) * 65536) + (61034 - j / 64)

/-- A frame as start-up leaves it (R117). -/
def frameDefault (e f : Nat) : Frame :=
  if frameSlot f ≥ 61035 then { state := .absent }
  else if inRecordRegion e f then { state := .record }
  else { state := .free }

/-- Frame `f`'s table entry. -/
def frameAt (s : State) (f : Nat) : Frame := (Tab.find s.frames f).getD (frameDefault s.dict.atlasEntries f)

/-- The state with frame `f`'s entry replaced. -/
def setFrame (f : Nat) (x : Frame) (s : State) : State := { s with frames := Tab.put s.frames f x }

/-- How many of a pseudo-channel's frames lie in the record region. -/
def recordSlots (e fielder : Nat) : Nat :=
  let o := (fielder % 32) * 2 + (fielder / 32) % 2
  (e / 1024 + 63 - o) / 64

/-- FREE frames in the pseudo-channel of a fielder. -/
def freeFrames (s : State) (fielder : Nat) : Nat :=
  let listed := s.frames.filter (fun e => frameFielder e.1 == fielder && e.2.state != .free && e.2.state != .record &&
    e.2.state != .absent)
  61035 - recordSlots s.dict.atlasEntries fielder - listed.length

/-- The FREE frame with the lowest slot in the pseudo-channel of a fielder (R116). -/
def lowestFree (s : State) (fielder : Nat) : Option Nat :=
  (leastFrom (fun f => (frameAt s f).state == .free) (frameBase fielder) (s.frames.length + 1)).filter
    (fun f => frameFielder f == fielder)

/-- The HBM tier address of a byte of a frame: tier code 0 (R341). -/
def hbmAddr (f o : Nat) : Nat := frameBase f + o

/-- Take the lowest FREE frame of a pseudo-channel, zeroed (R113, R116). -/
def allocFrame (fielder : Nat) (x : Frame) (s : State) : Option (Nat × State) :=
  (lowestFree s fielder).map (fun f => (f, zeroBytes (frameBase f) 65536 (setFrame f x s)))

/-- The frame's 65,536 bytes as they lie in HBM under a context's KX (R562): what a read finds once the frame is no longer that
context's. -/
def sealFrame (f : Nat) (kx : List Byte) (s : State) : State :=
  foldRange 16 (fun t i =>
    let a := frameBase f + 4096 * i
    writeBytes a (slice (Config.xtsSeal kx (a / 4096) (readBytes t a 4096)) 0 4096) t) s

/-- A frame takes a state, unless it is RETIRED (R121). -/
def turnFrame (f : Nat) (st : FrameState) (s : State) : State :=
  if (frameAt s f).state == .retired then s else setFrame f { frameAt s f with state := st } s

/-- A frame becomes FREE (R120), unless it is RETIRED (R121) or a survey holds it (R518). -/
def freeFrame (f : Nat) (s : State) : State :=
  if (frameAt s f).state == .retired then s
  else if s.survey.held.contains f then { s with survey.freeLater := s.survey.freeLater ++ [f] }
  else
    let c := Tab.get s.contexts (frameAt s f).context {}
    let s := if c.mode == .confidential then sealFrame f c.kx s else s
    setFrame f { state := .free } s

/-- Drop one reference of a KV or FILLING frame; at 0 it becomes FREE (R120). A RETIRED frame stays RETIRED (R121, R383). -/
def dropRef (f : Nat) (s : State) : State :=
  let x := frameAt s f
  if x.state == .retired then setFrame f { x with refCount := x.refCount - 1 } s
  else if x.refCount ≤ 1 then freeFrame f { s with fills := Tab.drop s.fills f }
  else setFrame f { x with refCount := x.refCount - 1 } s

/-- Add one reference. -/
def addRef (f : Nat) (s : State) : State :=
  let x := frameAt s f
  setFrame f { x with refCount := x.refCount + 1 } s

/-- Retire a frame (R121); it keeps its `REFCOUNT` (R383). -/
def retireFrame (f : Nat) (s : State) : State :=
  setFrame f { state := .retired, refCount := (frameAt s f).refCount } { s with fills := Tab.drop s.fills f }

/-- The granules a partition owns (R228). -/
def partGranules (s : State) (p : Nat) : Nat := granulesVal s p

/-- The fielders of a partition's pseudo-channels, ascending: P[0] to P[N - 1]. -/
def partFielders (s : State) (p : Nat) : List Nat :=
  ((bitsSet (partGranules s p) 64).map (fun k => [4 * k, 4 * k + 1, 4 * k + 2, 4 * k + 3])).flatten

/-- The partition that owns a fielder's granule. -/
def partOfFielder (s : State) (f : Nat) : Option Nat :=
  (List.range 64).find? (fun p => (partGranules s p).testBit (f / 4))

/-- The quarters of the map cache in which a partition owns shares (R231). -/
def cacheQuarters (s : State) (p : Nat) : List Nat :=
  (List.range 4).filter (fun q => (cacheSharesVal s p >>> (16 * q)) % 65536 != 0)

/-- The map cache keeps only lines in ways that their partition owns (R143). -/
def keepOwnWays (s : State) : State :=
  { s with mapCache := s.mapCache.filter (fun e => (cacheSharesVal s e.2.1).testBit (16 * (e.1 / 32768) + e.1 % 16)) }

/-- Consult the map cache for a 256-byte line of a partition (R142, R143, R231, R232): a line found is a hit, another is filled,
in a way the partition owns; where all are taken the line that leaves is a free value. -/
def touchLine (p line : Nat) (priv : Priv) (s : State) : State :=
  let qs := cacheQuarters s p
  let miss (t : State) : State := pmu { code := 0x0C, priv, requester := some 0x122, addr := some line } (bump ctrMapCacheMisses t)
  if qs.isEmpty then miss s
  else
    let h := (line / 256) % 8192
    let q := qs.getD ((h / 2048) % qs.length) 0
    let slots := (bitsSet (cacheSharesVal s p >>> (16 * q)) 16).map (fun w => 16 * (2048 * q + h % 2048) + w)
    if slots.any (fun k => Tab.find s.mapCache k == some (p, line)) then
      pmu { code := 0x0B, priv, requester := some 0x122, addr := some line } s
    else match slots.find? (fun k => (Tab.find s.mapCache k).isNone) with
      | some k => miss { s with mapCache := Tab.put s.mapCache k (p, line) }
      | none =>
        let (w, s) := draw s
        miss { s with mapCache := Tab.put s.mapCache (slots.getD (w.toNat % slots.length) 0) (p, line) }

/-- The Atlas entry and record of index `i`. -/
def sessAt (s : State) (i : Nat) : Session := Tab.get s.sessions i {}

/-- The state with session `i` replaced. -/
def setSess (i : Nat) (x : Session) (s : State) : State := { s with sessions := Tab.put s.sessions i x }

/-- The state with `f` applied to session `i`. -/
def modSess (i : Nat) (f : Session → Session) (s : State) : State := setSess i (f (sessAt s i)) s

/-- Context `c`. -/
def ctxAt (s : State) (c : Nat) : Context := Tab.get s.contexts c {}

/-- Partition `p`'s dispatch state. -/
def partAt (s : State) (p : Nat) : Part := Tab.get s.parts p {}

/-- The state with `f` applied to partition `p`'s dispatch state. -/
def modPart (p : Nat) (f : Part → Part) (s : State) : State := { s with parts := Tab.put s.parts p (f (partAt s p)) }

/-- The HBM address of the record of Atlas index `i`. -/
def recordAddr (s : State) (i : Nat) : Nat :=
  let e := s.dict.atlasEntries
  frameBase (recordFrame e ((i / 8388608) * (e / 1024) + (i % 8388608) / 256)) + (i % 256) * 256

/-- The context that a session's confidential data belongs to, if it is confidential. -/
def confOf (s : State) (i : Nat) : Option Nat :=
  let c := (sessAt s i).record.context
  if (ctxAt s c).mode == .confidential then some c else none

/-- The key check of a session's context, if it is confidential (R575). -/
def keyOf (s : State) (i : Nat) : Option Word := (confOf s i).map (fun c => (ctxAt s c).keyCheck)

end Sys2Proof.Machine
end

