-- ==== Sys2Proof/Machine/TokenWords.lean ====
section
/-!
DEFINITION. The token words of a session record (W12, W13 and W16) and the images they name (chapter 08).
-/
namespace Sys2Proof.Machine

/-! Fields of W12, W13 and W16. -/
def gOn (w : Word) : Bool := bit w 63
def gEscaped (w : Word) : Bool := bit w 62
def gId (w : Word) : Nat := bits w 61 56
def gState (w : Word) : Nat := bits w 55 40
def gDepth (w : Word) : Nat := bits w 39 29
def gTop (w : Word) : Nat := bits w 28 9
def gReserved (w : Word) : Bool := bit w 8
def gNoSeg (w : Word) : Bool := bit w 7
def gEscMask (w : Word) : Bool := bit w 6
def tokVocab (w : Word) : Nat := bits w 63 61
def tokOn (w : Word) : Bool := bit w 60
def tkHeld (w : Word) : List Byte := leBytes (bits w 59 58) (bits w 57 34)
def dtHeld (w : Word) : List Byte := leBytes (bits w 33 32) (bits w 31 8)
def dtRaw (w : Word) : Bool := bit w 7
def maskMode (w : Word) : Nat := bits w 6 5
def bOn (w : Word) : Bool := bit w 63
def bList (w : Word) : Nat := bits w 62 57
def bNode (w : Word) : Nat := bits w 56 34
def fOn (w : Word) : Bool := bit w 33
def fList (w : Word) : Nat := bits w 32 27
def fNode (w : Word) : Nat := bits w 26 4
def forcing (w : Word) : Bool := bit w 3
def fSeq (w : Word) : Nat := bits w 26 11
def fOffset (w : Word) : Nat := bits w 10 5


/-- The vocabulary, grammar and lists a session's words name. -/
def vocabOf (s : State) (w13 : Word) : Option Vocab := Tab.find s.vocabs (tokVocab w13)
def grammarOf (s : State) (w12 : Word) : Option Grammar := if gOn w12 then Tab.find s.grammars (gId w12) else none
def bannedOf (s : State) (w16 : Word) : Option SeqList := if bOn w16 then Tab.find s.lists (bList w16) else none
def forcedOf (s : State) (w16 : Word) : Option SeqList := if fOn w16 then Tab.find s.lists (fList w16) else none

/-- The image tags that a migration's destination must hold (R463). -/
def boundTags (s : State) (x : Session) : List (LoadKind × Nat × Word) :=
  let c := x.record.tokenCarry
  let l := x.record.seqLists
  if !tokOn c then []
  else
    (match vocabOf s c with | some v => [(LoadKind.vocab, tokVocab c, v.tag)] | none => []) ++
    (match grammarOf s x.record.grammar with | some g => [(LoadKind.grammar, gId x.record.grammar, g.tag)] | none => []) ++
    (match bannedOf s l with | some b => [(LoadKind.list, bList l, b.tag)] | none => []) ++
    (match forcedOf s l with | some f => [(LoadKind.list, fList l, f.tag)] | none => [])

end Sys2Proof.Machine
end

