-- ==== Sys2Proof/Machine/Pages.lean ====
section
/-!
DEFINITION. Page layout, page maps, appends, copy-on-write and home slots (R105 to R136, R352, R469, R520).
-/
namespace Sys2Proof.Machine

/-- The layout quantities of a model slot (the layout quantities section): layers L, KV heads H, group g, head dimension d, element
bytes e, slice width c, slices T, run r, used tiles U, leaves per layer and head, position limit. -/
structure Shape where
  layers : Nat
  heads : Nat
  group : Nat
  d : Nat
  e : Nat
  c : Nat
  slices : Nat
  run : Nat
  used : Nat
  lambda : Nat
  nMax : Nat
  deriving DecidableEq, Repr

/-- Bytes of an element of a format code: 0 BF16, 1 FP16, 2 FP32. -/
def formatBytes (f : Nat) : Nat := if f = 2 then 4 else 2

/-- The head dimension of a model slot (R147). -/
def headDim (m : Model) : Nat := 64 + 32 * m.headCode

/-- The layout of a model slot (R105 to R107, before R123). -/
def shapeOf (m : Model) : Shape :=
  let d := headDim m
  let e := formatBytes m.kvFormat
  let c := 128 / e
  let t := ceilDiv d c
  let r := 16 * p2 (16 / t)
  let lam0 := p2 (8192 / (m.layers * m.kvHeads))
  let nMax := min 2097152 (r * 8192 * lam0)
  { layers := m.layers, heads := m.kvHeads, group := m.group, d, e, c, slices := t, run := r, used := (r / 16) * t,
    lambda := nMax / (r * 8192), nMax }

/-- The model slot of a session. -/
def modelOf (s : State) (x : Session) : Model := Tab.get s.models x.record.modelSlot {}

/-- The layout of session `i`. -/
def sessShape (s : State) (i : Nat) : Shape := shapeOf (modelOf s (sessAt s i))

/-- The root index of a leaf (R123). -/
def rootIndex (h : Shape) (layer head leaf : Nat) : Nat := (layer * h.heads + head) * h.lambda + leaf

/-- The key of page `n` of a layer and head: its leaf's root index and its place in the leaf (R123). -/
def pageKey (h : Shape) (layer head n : Nat) : Nat := rootIndex h layer head (n / 8192) * 8192 + n % 8192

/-- Layer, head and page of a key (R123). -/
def keyLayer (h : Shape) (k : Nat) : Nat := (k / 8192) / h.lambda / h.heads
def keyHead (h : Shape) (k : Nat) : Nat := (k / 8192) / h.lambda % h.heads
def keyPage (h : Shape) (k : Nat) : Nat := ((k / 8192) % h.lambda) * 8192 + k % 8192

/-- Page map entry at a key. -/
def pageAt (x : Session) (k : Nat) : PageEntry := Tab.get x.pages k {}

/-- The pseudo-channel of stripe `k` of a layer and head (R114), as a fielder number; none in a partition without granules. -/
def stripeFielder (s : State) (p i : Nat) (h : Shape) (layer head k : Nat) : Option Nat :=
  let ps := partFielders s p
  if ps.isEmpty then none else ps[((k + layer) * h.heads + head + i % ps.length) % ps.length]?

/-- The pseudo-channel of page `n` (R114). -/
def pageFielder (s : State) (p i : Nat) (h : Shape) (layer head n : Nat) : Option Nat :=
  stripeFielder s p i h layer head (n * h.run / 512)

/-- The first pseudo-channel with a FREE frame, from the one at place `start` of the partition's list on, wrapping (R125). -/
def mapFielder (s : State) (p start : Nat) : Option Nat :=
  let ps := partFielders s p
  let o := start % (max ps.length 1)
  (ps.drop o ++ ps.take o).find? (fun f => (lowestFree s f).isSome)

/-- Take a MAP frame for a session's root or leaf, searched from place `start` of the partition's list (R125). -/
def allocMapFrame (i start : Nat) (s : State) : Option (Nat × State) :=
  let x := sessAt s i
  (mapFielder s x.entry.partition start).bind (fun f =>
    allocFrame f { state := .map, context := x.record.context, owner := i } s)

/-- The place in the partition's list where the search for leaf `k` of a layer and head starts (R125). -/
def leafStart (s : State) (p i : Nat) (h : Shape) (layer head k : Nat) : Nat :=
  let n := (partFielders s p).length
  ((16 * k * h.run + layer) * h.heads + head + i % (max n 1)) % (max n 1)

/-- Whether a session sends a mirror stream (R469): a session of a mirrored partition of a pair that is not itself a shadow. -/
def mirrors (s : State) (i : Nat) : Bool :=
  let x := sessAt s i
  doublesEnableVal s == 1 && mirrorPartVal s x.entry.partition == 1 && x.shadow.isNone && !x.mirrorRefused && x.entry.state != .free &&
  (s.pair.state == .syncing || s.pair.state == .paired || s.pair.state == .stalled)

/-- Send the next item of the mirror stream (R469). -/
def mirrorItem (i : Nat) (b : MirrorBody) (s : State) : State :=
  if !mirrors s i then s
  else
    let n := s.pair.sent + 1
    let item : PeerMsg := .mirror { seq := n, index := i, body := b }
    let c := peerContent item
    let size := 32 + 8 * c.1.length + c.2.length
    let s := { s with pair.sent := n, pair.items := s.pair.items ++ [(n, size)] }
    let s := pmu { code := 0x1B, requester := some 0x151, ctx := some (sessAt s i).record.context } (bump ctrMirrorItems s)
    let node := partnerNodeVal s
    sendPeer node (ringQp node) 0 (sessAt s i).record.handle (confOf s i) item s

/-- Mirror rows of a page as appends (R138, R469). -/
def mirrorRows (i k : Nat) (h : Shape) (whole : Bool) (want : Nat → Bool) (s : State) : State :=
  let e := pageAt (sessAt s i) k
  let row (p : Nat) : List Byte :=
    ((List.range h.slices).map (fun sl => readBytes s (frameBase e.frame + (((p % h.run) / 16) * h.slices + sl) * 4096 + (p % 16) * 256) 256)).flatten
  let ps := ((List.range h.run).map (fun j => keyPage h k * h.run + j)).filter want
  mirrorItem i (.rows k e (ps.map (fun p => (p, row p))) whole) s

/-- Note an item that a session's initial copy waits for (R472). -/
def syncOn (i : Nat) (page : Bool) (s : State) : State :=
  if mirrors s i then { s with pair.sync := s.pair.sync ++ [(i, s.pair.sent, page)] } else s

/-- Mirror the Atlas entry and record after an event changed them (R469), with the tags that R472 compares. -/
def mirrorUpdate (i : Nat) (s : State) : State :=
  let x := sessAt s i
  let t := mirrorItem i (.update x.entry x.record (modelOf s x).tag (boundTags s x) (keyOf s i)) s
  if x.entry.mirrored || s.pair.sync.any (fun e => e.1 == i) then t else syncOn i false t

/-- The bytes of a page as its session reads them: of a page that it shares with a parent, rows from local position `len` on are zero (R109). -/
def ownRows (h : Shape) (first len : Nat) (l : List Byte) : List Byte :=
  l.zipIdx.map (fun b => if first + (b.2 / 4096 / h.slices) * 16 + (b.2 % 4096) / 256 < len then b.1 else 0)

/-- A session's initial copy: its entry and record, its page map, every resident page (R472). -/
def syncSession (i : Nat) (s : State) : State :=
  let s := mirrorUpdate i s
  let x := sessAt s i
  let s := mirrorItem i (.map x.pages) s
  x.pages.foldl (fun t e =>
    if e.2.tier = 0 && (frameAt t e.2.frame).state != .filling then
      let l := readBytes t (frameBase e.2.frame) 65536
      let h := sessShape s i
      let l := if x.inherited.contains e.1 then ownRows h (keyPage h e.1 * h.run) x.record.length l else l
      syncOn i true (mirrorItem i (.page e.1 e.2 l) t)
    else t) s

/-- A home slot is freed (R352); a pool slot that a survey refers to is retained until a later survey commits (R520). -/
def freeHome (tier slot : Nat) (s : State) : State :=
  if tier = 1 then { s with hostSlots := s.hostSlots.erase slot }
  else if s.survey.poolRefs.contains slot then
    bump ctrPoolSlotsRetained { s with survey.poolLater := s.survey.poolLater ++ [slot] }
  else { s with poolSlots := s.poolSlots.erase slot }

/-- Put a page map entry, and mirror the change where its tier, home or presence changed (R469). Resident and total pages follow
(W14). -/
def putPage (i k : Nat) (e : PageEntry) (s : State) : State :=
  let x := sessAt s i
  let o := pageAt x k
  let here (p : PageEntry) : Nat := if p.tier = 0 && (frameAt s p.frame).state != .filling then 1 else 0
  let any (p : PageEntry) : Nat := if p.tier = 3 then 0 else 1
  let x := { x with
    pages := if e == {} then Tab.drop x.pages k else Tab.put x.pages k e
    inherited := if e.tier = 0 && e.frame = o.frame then x.inherited else x.inherited.erase k
    record.residentPages := x.record.residentPages + here e - here o
    record.totalPages := x.record.totalPages + any e - any o }
  let s := setSess i x s
  if o.tier == e.tier && o.homeValid == e.homeValid && o.homeSlot == e.homeSlot && o.homeTier == e.homeTier then s
  else mirrorItem i (.map [(k, e)]) s

/-- Whether a page is present in a FILLING frame. -/
def filling (s : State) (e : PageEntry) : Bool := e.tier == 0 && (frameAt s e.frame).state == .filling

/-- A page's home copy stops being valid: its slot is freed (R126, R352), or kept until the page has arrived from it (log entry 30). -/
def dropHome (i k : Nat) (s : State) : State :=
  let e := pageAt (sessAt s i) k
  if !e.homeValid then s
  else
    let t := putPage i k { e with homeValid := false, homeTier := 0, homeSlot := 0 } s
    if filling s e then t else freeHome (e.homeTier + 1) e.homeSlot t

/-- Create the leaf at a root index if it is missing (R125). -/
def ensureLeaf (i : Nat) (h : Shape) (layer head k : Nat) (s : State) : Option State :=
  let x := sessAt s i
  let r := rootIndex h layer head k
  if (Tab.find x.leaves r).isSome then some s
  else
    (allocMapFrame i (leafStart s x.entry.partition i h layer head k) s).map (fun fs =>
      modSess i (fun y => { y with leaves := Tab.put y.leaves r fs.1 }) fs.2)

/-- Give page `n` of a layer and head a frame (R128), and its leaf where that is new (R125): the page's frame is taken first (log entry 58). -/
def allocPage (i : Nat) (h : Shape) (layer head n : Nat) (st : FrameState) (s : State) : Option State :=
  let x := sessAt s i
  (pageFielder s x.entry.partition i h layer head n).bind (fun fl =>
    (allocFrame fl { state := st, context := x.record.context, refCount := 1, owner := i } s).bind (fun fs =>
      (ensureLeaf i h layer head (n / 8192) fs.2).map (fun t =>
        let k := pageKey h layer head n
        putPage i k { pageAt (sessAt t i) k with tier := 0, frame := fs.1 } t)))

/-- The byte offset in a page of the row of position `p` in slice `sl` (R111, R112). -/
def rowOffset (h : Shape) (p sl : Nat) : Nat := (((p % h.run) / 16) * h.slices + sl) * 4096 + (p % 16) * 256

/-- The 256 bytes of a tile row: slice `sl` of K and of V, zero where the head dimension ends (R109, the tile layout). -/
def rowBytes (k v : List Byte) (sl : Nat) : List Byte :=
  slice k (sl * 128) 128 ++ slice v (sl * 128) 128

/-- Write one head's row of position `p` into a frame. -/
def writeRow (h : Shape) (f p : Nat) (k v : List Byte) (s : State) : State :=
  foldRange h.slices (fun t sl => writeBytes (frameBase f + rowOffset h p sl) (rowBytes k v sl) t) s

/-- Zero the row of position `p` in a frame. -/
def zeroRow (h : Shape) (f p : Nat) (s : State) : State :=
  foldRange h.slices (fun t sl => zeroBytes (frameBase f + rowOffset h p sl) 256 t) s

/-- Zero the rows of a page, which starts at position `first`, from position `len` on. -/
def zeroRows (h : Shape) (f first len : Nat) (s : State) : State :=
  foldRange h.run (fun t j => if first + j < len then t else zeroRow h f (first + j) t) s

/-- Copy a frame's bytes to a new frame, with rows of the page at positions from `len` on zero (R134). -/
def copyFrame (h : Shape) (src dst first len : Nat) (s : State) : State :=
  zeroRows h dst first len (writeBytes (frameBase dst) (readBytes s (frameBase src) 65536) s)

/-- A session writes a page that it had from its parent and that no other session shares any more: rows from `len` on are zero first (R109). -/
def ownPage (i k : Nat) (h : Shape) (first len : Nat) (s : State) : State :=
  let x := sessAt s i
  if !x.inherited.contains k then s
  else zeroRows h (pageAt x k).frame first len (setSess i { x with inherited := x.inherited.erase k } s)

/-- Make page `n` of a layer and head writable by its session (R128, R134): allocate it, copy a shared frame, or write in place. A shared
page that is still arriving is not copied yet (log entry 30). -/
def writablePage (i : Nat) (h : Shape) (layer head n len : Nat) (s : State) : Option State :=
  let x := sessAt s i
  let k := pageKey h layer head n
  let e := pageAt x k
  if e.tier = 3 then allocPage i h layer head n .kv s
  else if (frameAt s e.frame).refCount ≤ 1 then some (ownPage i k h (n * h.run) len s)
  else if filling s e then none
  else
    (allocFrame (frameFielder e.frame) { state := .kv, context := x.record.context, refCount := 1, owner := i } s).map (fun fs =>
      let t := copyFrame h e.frame fs.1 (n * h.run) len fs.2
      let t := putPage i k { e with frame := fs.1 } (dropRef e.frame t)
      pmu { code := 0x0A, priv := .context x.record.context, requester := some 0x121, addr := some (hbmAddr fs.1 0) } (bump ctrCowCopies t))

/-- Note a write into a page: DIRTY set, its home released (R126, R352). -/
def dirtyPage (i k : Nat) (s : State) : State :=
  let s := dropHome i k s
  putPage i k { pageAt (sessAt s i) k with dirty := true } s

/-- One head's part of a row of new K and V (the append writer: head by head, K before V). -/
def headK (h : Shape) (kv : List Byte) (head : Nat) : List Byte := slice kv (head * 2 * h.d * h.e) (h.d * h.e)
def headV (h : Shape) (kv : List Byte) (head : Nat) : List Byte := slice kv ((head * 2 + 1) * h.d * h.e) (h.d * h.e)

/-- The root and leaf lines that hold a page map entry are read through the map cache (R124, R143, R232). -/
def touchMap (i k : Nat) (s : State) : State :=
  let x := sessAt s i
  let line (f : Option Nat) (o : Nat) (t : State) : State := match f with
    | some f => touchLine x.entry.partition (hbmAddr f (o / 32 * 256)) (.context x.record.context) t
    | none => t
  line (Tab.find x.leaves (k / 8192)) (k % 8192) (line x.root (k / 8192) s)

/-- Append position `p` of one layer for heads 0 to `n - 1`; none when a frame is wanting (R128, R130). -/
def appendHeads (i : Nat) (h : Shape) (layer p len : Nat) (kv : List Byte) : Nat → State → Option State
  | 0, s => some s
  | head + 1, s =>
    (appendHeads i h layer p len kv head s).bind (fun t =>
      (writablePage i h layer head (p / h.run) len t).map (fun t =>
        let k := pageKey h layer head (p / h.run)
        let f := (pageAt (sessAt t i) k).frame
        let x := sessAt t i
        let t := writeRow h f p (headK h kv head) (headV h kv head) (touchMap i k t)
        pmu { code := 0x09, priv := .context x.record.context, requester := some 0x121,
              addr := some (hbmAddr f (rowOffset h p 0)), svc := some x.record.cls } (dirtyPage i k t)))

/-- Append one position's new K and V to a layer (R128, R134). -/
def appendRow (i layer p len : Nat) (kv : List Byte) (s : State) : Option State :=
  let h := sessShape s i
  (appendHeads i h layer p len kv h.heads s).map (mirrorItem i (.append layer p kv))

/-- The bytes of one head's row in a page, K then V, slice by slice. -/
def readRow (h : Shape) (s : State) (f p : Nat) : List Byte × List Byte :=
  let sl := (List.range h.slices).map (fun t =>
    (readBytes s (frameBase f + rowOffset h p t) 128, readBytes s (frameBase f + rowOffset h p t + 128) 128))
  (((sl.map Prod.fst).flatten).take (h.d * h.e), ((sl.map Prod.snd).flatten).take (h.d * h.e))

/-- Release every page of a session: private frames become FREE, shared ones lose a reference (R86, R120). -/
def releasePages (i : Nat) (s : State) : State :=
  let x := sessAt s i
  let s := x.pages.foldl (fun t e => if e.2.tier = 0 then dropRef e.2.frame t else t) s
  modSess i (fun y => { y with pages := [], inherited := [], record.residentPages := 0, record.totalPages := 0 }) s

/-- Free the home slots of a session's pages and map image (R352). -/
def releaseHomes (i : Nat) (s : State) : State :=
  let x := sessAt s i
  let s := x.pages.foldl (fun t e => if e.2.homeValid then freeHome (e.2.homeTier + 1) e.2.homeSlot t else t) s
  let s := x.mapHome.foldl (fun t e => freeHome e.1 e.2 t) s
  modSess i (fun y => { y with
    pages := Tab.mapVals y.pages (fun e => { e with homeValid := false, homeTier := 0, homeSlot := 0 }), mapHome := [] }) s

/-- Free a session's map frames (R120). -/
def releaseMap (i : Nat) (s : State) : State :=
  let x := sessAt s i
  let s := (match x.root with | some f => f :: Tab.vals x.leaves | none => []).foldl (fun t f => freeFrame f t) s
  modSess i (fun y => { y with root := none, leaves := [], record.mapAddr := 0, record.mapTier := 0 }) s

/-- The page map key set of pages a session holds in HBM. -/
def residentKeys (x : Session) : List Nat := Tab.keysWhere x.pages (fun e => e.tier == 0)

end Sys2Proof.Machine
end

