-- ==== Sys2Proof/Machine/Tokens.lean ====
section
/-!
DEFINITION. The token side: UTF-8, tokenizer and detokenizer, Contour and its stack, sequence lists, masks and their encodings (R276 to
R304).
-/
namespace Sys2Proof.Machine

/-- What a byte list starts with under RFC 3629 (R277): a complete sequence of `n` bytes, the beginning of one that the list ends in, or a
byte that belongs to none. -/
inductive Utf8 where
  | whole (n : Nat) | beginning | bad
  deriving DecidableEq, Repr

/-- How many continuation bytes a lead byte wants and the bounds of the first of them (RFC 3629, section 4). -/
def utf8Lead (b : Nat) : Option (Nat × Nat × Nat) :=
  if b < 0x80 then some (0, 0, 0)
  else if 0xC2 ≤ b && b ≤ 0xDF then some (1, 0x80, 0xBF)
  else if b = 0xE0 then some (2, 0xA0, 0xBF)
  else if b = 0xED then some (2, 0x80, 0x9F)
  else if 0xE1 ≤ b && b ≤ 0xEF then some (2, 0x80, 0xBF)
  else if b = 0xF0 then some (3, 0x90, 0xBF)
  else if 0xF1 ≤ b && b ≤ 0xF3 then some (3, 0x80, 0xBF)
  else if b = 0xF4 then some (3, 0x80, 0x8F)
  else none

/-- Judge `n` continuation bytes, the first between `lo` and `hi`. -/
def utf8Rest (size : Nat) : Nat → Nat → Nat → List Byte → Utf8
  | 0, _, _, _ => .whole size
  | _ + 1, _, _, [] => .beginning
  | n + 1, lo, hi, b :: t => if lo ≤ b.toNat && b.toNat ≤ hi then utf8Rest size n 0x80 0xBF t else .bad

/-- What a byte list starts with. -/
def utf8Head : List Byte → Utf8
  | [] => .beginning
  | b :: t => match utf8Lead b.toNat with
    | none => .bad
    | some (n, lo, hi) => utf8Rest (n + 1) n lo hi t

/-- A piece of judged text: a complete sequence or an invalid byte. -/
abbrev Piece := Bool × List Byte

/-- Judge text byte by byte: its pieces, and the bytes held at the end when `final` is false (R277, R280, R281). -/
def judge (final : Bool) : Nat → List Byte → List Piece × List Byte
  | 0, _ => ([], [])
  | _ + 1, [] => ([], [])
  | fuel + 1, b :: t =>
    match utf8Head (b :: t) with
    | .whole n =>
      let (ps, h) := judge final fuel ((b :: t).drop n)
      ((true, (b :: t).take n) :: ps, h)
    | .beginning =>
      if final then
        let (ps, h) := judge final fuel t
        ((false, [b]) :: ps, h)
      else ([], b :: t)
    | .bad =>
      let (ps, h) := judge final fuel t
      ((false, [b]) :: ps, h)

/-- Fields of a trie node. -/
def nodeHas (w : Word) : Bool := bit w 63
def nodeToken (w : Word) : Nat := bits w 62 42
def nodeFirst (w : Word) : Nat := bits w 41 34
def nodeSpan (w : Word) : Nat := bits w 33 25
def nodeBase (w : Word) : Nat := bits w 24 0

/-- The child of a node for a byte. -/
def nodeChild (v : Vocab) (n : Nat) (b : Byte) : Option Nat :=
  let w := v.nodes.getD n 0
  if nodeFirst w ≤ b.toNat && b.toNat < nodeFirst w + nodeSpan w then some (nodeBase w + b.toNat - nodeFirst w) else none

/-- Longest match from a node: the deepest token met, with its length (R278). -/
def longest (v : Vocab) (n depth : Nat) (best : Option (Nat × Nat)) : List Byte → Option (Nat × Nat)
  | [] => best
  | b :: t => match nodeChild v n b with
    | none => best
    | some c =>
      let w := v.nodes.getD c 0
      longest v c (depth + 1) (if nodeHas w then some (nodeToken w, depth + 1) else best) t

/-- Cut a run of valid bytes: tokens, and how many bytes matched none (R278). -/
def cutRun (v : Vocab) : Nat → List Byte → List Nat × Nat
  | 0, _ => ([], 0)
  | _ + 1, [] => ([], 0)
  | fuel + 1, b :: t =>
    match longest v 0 0 none (b :: t) with
    | some (tok, n) =>
      let (r, u) := cutRun v fuel ((b :: t).drop n)
      (tok :: r, u)
    | none =>
      let (r, u) := cutRun v fuel t
      ((v.fallback + b.toNat) :: r, u + 1)

/-- Cut judged text: tokens, invalid bytes, unmatched bytes (R278, R279). `run` holds the valid bytes gathered so far. -/
def cutPieces (v : Vocab) (run : List Byte) : List Piece → List Nat × Nat × Nat
  | [] =>
    let (r, u) := cutRun v run.length run
    (r, 0, u)
  | (true, p) :: t => cutPieces v (run ++ p) t
  | (false, p) :: t =>
    let (r, u) := cutRun v run.length run
    let (r2, inv, u2) := cutPieces v [] t
    (r ++ p.map (fun b => v.fallback + b.toNat) ++ r2, inv + p.length, u + u2)

/-- A token's string. -/
def tokenString (v : Vocab) (t : Nat) : List Byte :=
  let a := v.offsets.getD t 0
  slice v.strings a (v.offsets.getD (t + 1) 0 - a)

/-- U+FFFD. -/
def replacement : List Byte := [0xEF, 0xBF, 0xBD]

/-- Detokenize: text, bytes held, replacements written (R283). -/
def detok (held str : List Byte) : List Byte × List Byte × Nat :=
  let l := held ++ str
  let (ps, h) := judge false l.length l
  ((ps.map (fun p => if p.1 then p.2 else replacement)).flatten, h, (ps.filter (fun p => !p.1)).length)

/-- Up to three held bytes as a 24-bit field, the first in the low byte. -/
def heldField (l : List Byte) : Nat := leNat l

/-- W13 with the tokenizer's held bytes. -/
def setTk (w : Word) (h : List Byte) : Word := setBits (setBits w 59 58 h.length) 57 34 (heldField h)
/-- W13 with the detokenizer's held bytes. -/
def setDt (w : Word) (h : List Byte) : Word := setBits (setBits w 33 32 h.length) 31 8 (heldField h)
/-- A word with one bit set or cleared. -/
def setFlag (w : Word) (i : Nat) (b : Bool) : Word := setBits w i i (if b then 1 else 0)

/-- The token side's view of a session in a step: W12, W13, W16, its reserved segment, segments the step reserved or took, segments
the advance emptied (R299). -/
structure Tok where
  g : Word
  c : Word
  l : Word
  reserved : Option Nat
  taken : List Nat := []
  emptied : List Nat := []

/-- The lowest free stack segment (log entry 24). -/
def freeSegment (s : State) : Option Nat := leastUnused (Tab.keys s.segments) 0 1048575

/-- Reserve a segment for session `i` at a depth that may need one (R288); without a free one, NO_SEG is set and the mask is FULL's. -/
def reserveSegment (i : Nat) (t : Tok) (s : State) : Tok × State :=
  let d := gDepth t.g
  if !gOn t.g || d ≥ 1024 || d % 30 != 0 || gReserved t.g then ({ t with g := setFlag t.g 7 false }, s)
  else match freeSegment s with
    | some k =>
      ({ t with g := setFlag (setFlag t.g 8 true) 7 false, reserved := some k, taken := t.taken ++ [k] },
       { s with segments := Tab.put s.segments k { owner := i } })
    | none => ({ t with g := setFlag t.g 7 true }, bump ctrStackFullMasks s)

/-- A mask as ranges of tokens, ascending, disjoint and apart. -/
abbrev Ranges := List (Nat × Nat)

/-- Put a range into a list of ranges kept ascending and apart. -/
def addRange (r : Nat × Nat) : Ranges → Ranges
  | [] => [r]
  | x :: t =>
    if r.2 + 1 < x.1 then r :: x :: t
    else if x.2 + 1 < r.1 then x :: addRange r t
    else addRange (min r.1 x.1, max r.2 x.2) t

/-- The union of ranges. -/
def unionRanges (l : List (Nat × Nat)) : Ranges := l.foldl (fun acc r => addRange r acc) []

/-- Whether a token lies in a mask. -/
def inRanges (m : Ranges) (t : Nat) : Bool := m.any (fun r => r.1 ≤ t && t ≤ r.2)

/-- A mask without one token. -/
def removeToken (m : Ranges) (t : Nat) : Ranges :=
  (m.map (fun r =>
    if t < r.1 || r.2 < t then [r]
    else (if r.1 < t then [(r.1, t - 1)] else []) ++ (if t < r.2 then [(t + 1, r.2)] else []))).flatten

/-- How many tokens a mask holds. -/
def rangeCount (m : Ranges) : Nat := (m.map (fun r => r.2 + 1 - r.1)).sum

/-- The tokens of a mask. -/
def rangeTokens (m : Ranges) : List Nat := (m.map (fun r => List.range' r.1 (r.2 + 1 - r.1))).flatten

/-- The ranges of a mask class. -/
def classRanges (g : Grammar) (c : Nat) : Ranges :=
  let x := g.classes.getD c (0, 0)
  unionRanges ((g.ranges.drop x.1).take x.2)

/-- grammar_mask(): the class of the state for the stack's condition (R288, R294). -/
def grammarMask (g : Grammar) (w : Word) : Ranges :=
  let st := g.states.getD (gState w) { empty := 0, mid := 0, full := 0, base := 0, count := 0 }
  classRanges g (if gNoSeg w || gDepth w ≥ 1024 then st.full else if gDepth w = 0 then st.empty else st.mid)

/-- The transition of a state for a token (R287). -/
def findTrans (g : Grammar) (st t : Nat) : Option Trans :=
  let x := g.states.getD st { empty := 0, mid := 0, full := 0, base := 0, count := 0 }
  ((g.trans.drop x.base).take x.count).find? (fun r => r.first ≤ t && t ≤ r.last)

/-- Advance Contour on a token (R287, R288): the reserved segment is used by a push that starts one, and released otherwise. -/
def advanceGrammar (g : Grammar) (i tok : Nat) (t : Tok) (s : State) : Tok × State :=
  match findTrans g (gState t.g) tok with
  | none => (t, s)
  | some r =>
    let d := gDepth t.g
    let release (t : Tok) (s : State) : Tok × State :=
      match t.reserved with
      | none => (t, s)
      | some k =>
        if t.taken.contains k then
          ({ t with g := setFlag t.g 8 false, reserved := none, taken := t.taken.erase k }, { s with segments := Tab.drop s.segments k })
        else ({ t with g := setFlag t.g 8 false, reserved := none, emptied := t.emptied ++ [k] }, s)
    if r.action = 0 then
      let (t, s) := release t s
      ({ t with g := setBits t.g 55 40 r.next }, s)
    else if r.action = 1 then
      let newSeg := d % 30 = 0
      let seg := if newSeg then t.reserved.getD 0 else gTop t.g
      let x := Tab.get s.segments seg { owner := i }
      let x := if newSeg then { owner := i, entries := [r.ret], below := gTop t.g }
        else { x with entries := x.entries.take (d % 30) ++ [r.ret] }
      let s := { s with segments := Tab.put s.segments seg x }
      let w := setBits (setBits (setBits t.g 55 40 r.next) 39 29 (d + 1)) 28 9 seg
      let t := if newSeg then { t with reserved := none, g := setFlag w 8 false } else { t with g := w }
      (t, s)
    else
      let (t, s) := release t s
      let x := Tab.get s.segments (gTop t.g) { owner := i }
      let back := x.entries.getD ((d - 1) % 30) 0
      let w := setBits (setBits t.g 55 40 back) 39 29 (d - 1)
      if (d - 1) % 30 = 0 then ({ t with g := setBits w 28 9 x.below, emptied := t.emptied ++ [gTop t.g] }, s)
      else ({ t with g := w }, s)

/-- The nodes of a list's automaton: the prefixes of its sequences, the root first (before R289; numbering is log entry 25). -/
def seqNodes (l : SeqList) : List (List Nat) :=
  (l.seqs.map (fun q => (List.range (q.2.length + 1)).map (fun n => q.2.take n))).flatten.foldl
    (fun acc p => if acc.contains p then acc else acc ++ [p]) [[]]

/-- The path of a node. -/
def nodePath (l : SeqList) (n : Nat) : List Nat := (seqNodes l).getD n []

/-- The longest suffix of a token path that is a node, by dropping from the front. -/
def longestSuffix (nodes : List (List Nat)) : List Nat → List Nat
  | [] => []
  | t :: r => if nodes.contains (t :: r) then t :: r else longestSuffix nodes r

/-- Advance an automaton by a token: the next node. -/
def advanceNode (l : SeqList) (n tok : Nat) : Nat :=
  let nodes := seqNodes l
  (nodes.idxOf? (longestSuffix nodes (nodes.getD n [] ++ [tok]))).getD 0

/-- Tokens that complete a banned sequence at a node (R290). -/
def bannedAt (l : SeqList) (n : Nat) : List Nat :=
  let p := nodePath l n
  distinct (l.seqs.filterMap (fun q =>
    let pre := q.2.dropLast
    if pre.isSuffixOf p then q.2.getLast? else none))

/-- The trigger that ends at a node: the longest, then the lowest sequence index (R291). -/
def triggerAt (l : SeqList) (n : Nat) : Option Nat :=
  let p := nodePath l n
  let hits := (l.seqs.zipIdx).filter (fun q => (q.1.2.take q.1.1).isSuffixOf p)
  (hits.foldl (fun (b : Option (Nat × Nat)) q =>
    match b with
    | none => some (q.1.1, q.2)
    | some x => if x.1 < q.1.1 then some (q.1.1, q.2) else b) none).map Prod.snd

/-- The continuation of a forced sequence. -/
def continuation (l : SeqList) (k : Nat) : List Nat :=
  let q := l.seqs.getD k (0, [])
  q.2.drop q.1

/-- Advance both lists on a fed token (R290, R291). -/
def advanceLists (tok : Nat) (t : Tok) (s : State) : Tok × State :=
  let l := match bannedOf s t.l with
    | some b => setBits t.l 56 34 (advanceNode b (bNode t.l) tok)
    | none => t.l
  match forcedOf s l with
  | none => ({ t with l }, s)
  | some f =>
    if forcing l then
      let o := fOffset l + 1
      if o ≥ (continuation f (fSeq l)).length then ({ t with l := setFlag (setBits l 26 4 0) 3 false }, s)
      else ({ t with l := setBits l 10 5 o }, s)
    else
      let n := advanceNode f (fNode l) tok
      match triggerAt f n with
      | some k => ({ t with l := setFlag (setBits (setBits (setBits l 26 11 k) 10 5 0) 4 4 0) 3 true }, bump ctrForcedStarts s)
      | none => ({ t with l := setBits l 26 4 n }, s)

/-- The escape set of a session's context within its vocabulary (R293). -/
def escapesOf (s : State) (i size : Nat) : List Nat :=
  sortBy (· < ·) (distinct ((ctxAt s (sessAt s i).record.context).escapes.filter (· < size)))

/-- What forming a mask gives (R294). -/
inductive MaskForm where
  | tokens (m : Ranges) | escape (l : List Nat) | forced (t : Nat) | deadEnd
  deriving DecidableEq, Repr

/-- The escape set or a dead end. -/
def escapeOrDead (e : List Nat) : MaskForm := if e.isEmpty then .deadEnd else .escape e

/-- The mask that R294 gives for a token state, before its effects on that state: the form, whether forcing was abandoned, whether the
escape set is the mask (R295, and `ESC_MASK` of W12). -/
def formMask (s : State) (i : Nat) (v : Vocab) (t : Tok) : MaskForm × Bool × Bool :=
  let e := escapesOf s i v.size
  if gEscaped t.g then (escapeOrDead e, false, !e.isEmpty)
  else
    let gm : Ranges := match grammarOf s t.g with
      | some g => grammarMask g t.g
      | none => [(0, v.size - 1)]
    let banned := match bannedOf s t.l with
      | some b => bannedAt b (bNode t.l)
      | none => []
    let cont := match forcedOf s t.l with
      | some f => if forcing t.l then (continuation f (fSeq t.l))[fOffset t.l]? else none
      | none => none
    let open_ (ab : Bool) : MaskForm × Bool × Bool :=
      let a := banned.foldl removeToken gm
      if !a.isEmpty then (.tokens a, ab, false)
      else if e.isEmpty then (.deadEnd, ab, false)
      else (.escape e, ab, true)
    match cont with
    | some tk => if inRanges gm tk && !banned.contains tk then (.forced tk, false, false) else open_ true
    | none => open_ false

/-- The token state after a mask was formed: abandoned forcing (R292), `ESC_MASK` (R295). -/
def afterMask (t : Tok) (ab esc : Bool) : Tok :=
  let l := if ab then setFlag (setBits t.l 26 4 0) 3 false else t.l
  { t with l, g := setFlag t.g 6 esc }

/-- Whether a fed token lies in the mask that R294 gives for a session's state (R298). With mask mode OFF only a token at or above V is outside. -/
def tokenAllowed (s : State) (i : Nat) (v : Vocab) (t : Tok) (tok : Nat) : Bool :=
  if tok ≥ v.size then false
  else if maskMode t.c = 0 then true
  else match (formMask s i v t).1 with
    | .tokens m => inRanges m tok
    | .escape e => e.contains tok
    | .forced k => k == tok
    | .deadEnd => false

/-- The words of one run (R302). -/
def runWords (n : Nat) : List Nat := if n < 32768 then [n] else [32768 + n / 32768, n % 32768]

/-- The run lengths of a mask over a vocabulary: disallowed and allowed in turn (R302). -/
def runLengths (size at_ : Nat) : Ranges → List Nat
  | [] => if at_ < size then [size - at_] else []
  | r :: t => (r.1 - at_) :: (r.2 + 1 - r.1) :: runLengths size (r.2 + 1) t

/-- The bitmap body (R303). -/
def bitmapBody (size : Nat) (m : Ranges) : List Byte :=
  (List.range (ceilDiv size 8)).map (fun b =>
    byte ((List.range 8).foldl (fun acc k => if inRanges m (8 * b + k) then acc + 2 ^ k else acc) 0))

/-- The LIST body (R301). -/
def listBody (l : List Nat) : List Byte := (l.map (leBytes 4)).flatten

/-- A mask's `FORM`, `ESCAPE`, `RAW`, `COUNT` and body (R301 to R304). -/
def encodeMask (mode size : Nat) (f : MaskForm) : Nat × Bool × Bool × Nat × List Byte :=
  match f with
  | .deadEnd => (3, false, false, 0, [])
  | .forced t => (2, false, false, 1, leBytes 4 t)
  | .escape e => (0, true, false, e.length, listBody e)
  | .tokens m =>
    let n := rangeCount m
    let runs := (((runLengths size 0 m).map runWords).flatten.map (leBytes 2)).flatten
    if mode = 1 && n ≤ 4096 && 4 * n ≤ runs.length then (0, false, false, n, listBody (rangeTokens m))
    else if runs.length > ceilDiv size 8 then (1, false, true, n, bitmapBody size m)
    else (1, false, false, n, runs)

/-- A mask message's header and body (R300, the mask header table). -/
def maskBytes (i seq size mode : Nat) (f : MaskForm) : List Byte :=
  let (form, esc, raw, n, body) := encodeMask mode size f
  wordsBytes [word (at' i 39 25 + at' seq 7 32 + at' form 4 3 + flagAt esc 3 + flagAt raw 2),
    word (at' n 43 21 + at' size 22 21 + at' body.length 0 22)] ++ body

/-- The token side's values of a step in flight. -/
def stepTok (st : Step) : Tok :=
  { g := st.grammar, c := st.tokenCarry, l := st.seqLists, reserved := st.reserved, taken := st.taken, emptied := st.emptied }

/-- A step with its token-side values. -/
def withTok (t : Tok) (st : Step) : Step :=
  { st with grammar := t.g, tokenCarry := t.c, seqLists := t.l, reserved := t.reserved, taken := t.taken, emptied := t.emptied }

/-- Return segments to the store. -/
def dropSegments (l : List Nat) (s : State) : State := l.foldl (fun t k => { t with segments := Tab.drop t.segments k }) s

/-- The token side writes its changes at the end of a step that ends OK or DEAD_END (R299); tokenizer fields belong to TEXT_IN. -/
def keepTok (i : Nat) (st : Step) (s : State) : State :=
  let s := dropSegments st.emptied s
  modSess i (fun x => { x with
    reservedSeg := st.reserved
    record.grammar := st.grammar
    record.seqLists := st.seqLists
    record.tokenCarry := setDt x.record.tokenCarry (dtHeld st.tokenCarry) }) s

/-- The token side drops a step's changes (R299): segments it reserved or took return to the store. -/
def dropTok (st : Step) (s : State) : State := dropSegments st.taken s

/-- Release every stack segment of a session, a reserved one among them (R275). -/
def releaseSegments (i : Nat) (s : State) : State :=
  let s := { s with segments := s.segments.filter (fun e => e.2.owner != i) }
  modSess i (fun x => { x with reservedSeg := none }) s

end Sys2Proof.Machine
end

