-- ==== Sys2Proof/Machine/Images.lean ====
section
/-!
DEFINITION. Images: vocabularies, grammars, sequence lists, model slots and rotary tables, as their bytes lie and as commits judge them (R106,
R147, R148, R157, R165, R276, R286, R289, R695).
-/
namespace Sys2Proof.Machine

/-- A vocabulary image as its header lays it out, if its length is the one its header gives (R695). -/
def parseVocab (l : List Byte) : Option Vocab :=
  let v0 := wordAt l 0
  let v1 := wordAt l 8
  let size := bits v0 63 43
  let nodes := bits v1 63 39
  let strings := bits v1 31 0
  let offs := 24 + 8 * nodes
  if l.length ≠ offs + 4 * (size + 1) + strings then none
  else some
    { size, fallback := bits v0 42 22, nodes := wordsAt l 24 nodes,
      offsets := (List.range (size + 1)).map (fun k => numAt l (offs + 4 * k) 4),
      strings := slice l (offs + 4 * (size + 1)) strings, tag := wordAt l 16, bytes := l.length, image := l }

/-- The nodes that a node's child slots hold. -/
def nodeSlots (w : Word) : List Nat := List.range' (nodeBase w) (nodeSpan w)

/-- The nodes reached from the root with their byte paths, level by level. -/
def reachNodes (v : Vocab) : Nat → List (Nat × List Byte) → List (Nat × List Byte)
  | 0, _ => []
  | fuel + 1, front =>
    if front.isEmpty then []
    else
      let next := (front.map (fun e =>
        let w := v.nodes.getD e.1 0
        (List.range (nodeSpan w)).map (fun k => (nodeBase w + k, e.2 ++ [byte (nodeFirst w + k)])))).flatten
      front ++ reachNodes v fuel next

/-- Whether a node counts for R276's path rules. -/
def nodeMatters (w : Word) : Bool := nodeHas w || nodeSpan w > 0

/-- The checks of R276. -/
def vocabOk (v : Vocab) : Bool :=
  let n := v.nodes.length
  let str := tokenString v
  let slots := (v.nodes.map nodeSlots).flatten
  let refs (k : Nat) : Nat := slots.count k
  257 ≤ v.size && v.size ≤ 1048576 && 1 ≤ n && n ≤ 16777216 && v.fallback + 255 < v.size &&
  v.offsets.headD 1 == 0 && v.offsets.getD v.size 0 == v.strings.length &&
  (List.range v.size).all (fun t =>
    let a := v.offsets.getD t 0
    let b := v.offsets.getD (t + 1) 0
    a < b && b - a ≤ 255) &&
  (List.range 256).all (fun b => str (v.fallback + b) == [byte b]) &&
  v.nodes.all (fun w => (nodeSpan w == 0 || nodeBase w + nodeSpan w ≤ n) && nodeFirst w + nodeSpan w ≤ 256) &&
  refs 0 == 0 &&
  v.nodes.zipIdx.all (fun e => e.2 == 0 || !nodeMatters e.1 || refs e.2 == 1) &&
  (let r := reachNodes v (n + 1) [(0, [])]
   let seen := r.map Prod.fst
   v.nodes.zipIdx.all (fun e => e.2 == 0 || !nodeMatters e.1 || seen.contains e.2) &&
   r.all (fun e =>
     let w := v.nodes.getD e.1 0
     !nodeHas w || (nodeToken w < v.size && str (nodeToken w) == e.2)) &&
   (let found := (r.filter (fun e => nodeHas (v.nodes.getD e.1 0))).map Prod.snd
    (List.range v.size).all (fun t => (v.fallback ≤ t && t < v.fallback + 256) || found.contains (str t))))

/-- A grammar image as its header lays it out, if its length is the one its header gives (R695). -/
def parseGrammar (l : List Byte) : Option (Grammar × Nat) :=
  let g0 := wordAt l 0
  let g1 := wordAt l 8
  let states := bits g0 63 47
  let trans := bits g1 63 32
  let ranges := bits g1 31 0
  let classes := bits (wordAt l 16) 63 40
  let at16 (o : Nat) : Nat := numAt l o 16
  let fld (w hi lo : Nat) : Nat := (w / 2 ^ lo) % 2 ^ (hi + 1 - lo)
  let t0 := 32 + 16 * states
  let c0 := t0 + 16 * trans
  let r0 := c0 + 8 * classes
  if l.length ≠ 32 + 16 * (states + trans) + 8 * (classes + ranges) then none
  else some (
    { start := bits g0 46 31, vocabSize := bits g0 30 10,
      states := (List.range states).map (fun k =>
        let w := at16 (32 + 16 * k)
        { empty := fld w 127 104, mid := fld w 103 80, full := fld w 79 56, base := fld w 55 24, count := fld w 23 8 : GState }),
      trans := (List.range trans).map (fun k =>
        let w := at16 (t0 + 16 * k)
        { first := fld w 127 107, last := fld w 106 86, action := fld w 85 84, next := fld w 83 68, ret := fld w 67 52 : Trans }),
      classes := (List.range classes).map (fun k =>
        let w := wordAt l (c0 + 8 * k)
        (bits w 63 32, bits w 31 0)),
      ranges := (List.range ranges).map (fun k =>
        let w := wordAt l (r0 + 8 * k)
        (bits w 20 0, bits w 41 21)),
      tag := wordAt l 24, bytes := l.length, image := l }, states)

/-- Whether transitions ascend by `FIRST` without overlap (R286). -/
def transAscend : List Trans → Bool
  | a :: b :: t => a.last < b.first && transAscend (b :: t)
  | _ => true

/-- The transitions of a state. -/
def transOf (g : Grammar) (x : GState) : List Trans := (g.trans.drop x.base).take x.count

/-- The union of the ranges of some transitions. -/
def transRanges (l : List Trans) : Ranges := unionRanges (l.map (fun t => (t.first, t.last)))

/-- The checks of R286. -/
def grammarOk (g : Grammar) : Bool :=
  let n := g.states.length
  let c := g.classes.length
  1 ≤ n && n ≤ 65536 && g.start < n && 257 ≤ g.vocabSize && g.vocabSize ≤ 1048576 &&
  g.ranges.all (fun r => r.1 ≤ r.2 && r.2 < g.vocabSize) &&
  g.classes.all (fun x => x.1 + x.2 ≤ g.ranges.length) &&
  g.trans.all (fun t => t.action < 3 && t.first ≤ t.last && t.last < g.vocabSize && (t.action == 2 || t.next < n) &&
    (t.action != 1 || t.ret < n)) &&
  g.states.all (fun x =>
    let ts := transOf g x
    x.empty < c && x.mid < c && x.full < c && x.base + x.count ≤ g.trans.length && transAscend ts &&
    classRanges g x.empty == transRanges (ts.filter (fun t => t.action != 2)) &&
    classRanges g x.mid == transRanges ts &&
    classRanges g x.full == transRanges (ts.filter (fun t => t.action != 1)))

/-- The sequences of a list image from a byte offset: trigger length and tokens; none where a word breaks its range. -/
def parseSeqs (forced : Bool) (l : List Byte) : Nat → Nat → Option (List (Nat × List Nat))
  | 0, _ => some []
  | n + 1, o =>
    let w := word (numAt l o 4)
    let len := bits w 31 25
    let trig := bits w 24 18
    let toks := (List.range len).map (fun k => numAt l (o + 4 + 4 * k) 4)
    if len < 1 || 64 < len || toks.any (fun t => 2 ^ 21 ≤ t) || (if forced then trig < 1 || len ≤ trig else trig != 0) then none
    else (parseSeqs forced l n (o + 4 + 4 * len)).map (fun r => (trig, toks) :: r)

/-- A list image, judged by R289 and R695. -/
def parseList (l : List Byte) : Option SeqList :=
  let l0 := wordAt l 0
  let kind := bits l0 63 62
  let n := bits l0 61 45
  let total := bits l0 44 21
  if 1 < kind || n < 1 || 65536 < n || l.length ≠ 16 + 4 * (n + total) then none
  else (parseSeqs (kind == 1) l n 16).bind (fun qs =>
    let toks := (qs.map Prod.snd).flatten
    let x : SeqList := { forced := kind == 1, seqs := qs, maxToken := bits l0 20 0, total, tag := wordAt l 8, image := l }
    if toks.length ≠ total || toks.foldl max 0 ≠ x.maxToken then none
    else if kind = 0 && (List.range (seqNodes x).length).any (fun k => (bannedAt x k).length > 4096) then none
    else some x)

/-- A layer entry of a model slot image. -/
def parseLayer (l : List Byte) (k : Nat) : LayerEntry :=
  let w := numAt l (16 + 16 * k) 16
  let fld (hi lo : Nat) : Nat := (w / 2 ^ lo) % 2 ^ (hi + 1 - lo)
  { scale := BitVec.ofNat 32 (fld 127 96), softcap := BitVec.ofNat 32 (fld 95 64), window := fld 63 40, sinks := fld 39 27,
    ropeTable := fld 26 22, ropeOn := fld 21 21 == 1 }

/-- A model slot image (R147). Reserved bits, and layer entries at or above `LAYERS`, are ignored (R13). -/
def parseModel (l : List Byte) : Model :=
  let d0 := wordAt l 0
  { layers := bits d0 63 55, kvHeads := bits d0 54 46, group := bits d0 45 41, headCode := bits d0 40 37, kvFormat := bits d0 36 35,
    qFormat := bits d0 34 33, outFormat := bits d0 32 31, tag := wordAt l 8,
    entries := (List.range 256).map (fun k => if k < bits d0 63 55 then parseLayer l k else {}) }

/-- The image of a model slot, as `MODEL_READ` gives it: reserved fields read zero (R11, R147). -/
def modelImage (m : Model) : List Byte :=
  let entry (e : LayerEntry) : Nat :=
    at' e.scale.toNat 96 32 + at' e.softcap.toNat 64 32 + at' e.window 40 24 + at' e.sinks 27 13 + at' e.ropeTable 22 5 + flagAt e.ropeOn 21
  leBytes 8 (at' m.layers 55 9 + at' m.kvHeads 46 9 + at' m.group 41 5 + at' m.headCode 37 4 + at' m.kvFormat 35 2 + at' m.qFormat 33 2 +
    at' m.outFormat 31 2) ++ wordBytes m.tag ++
    ((List.range 256).map (fun k => leBytes 16 (entry (if k < m.layers then m.entries.getD k {} else {})))).flatten

/-- Whether a scale or soft-cap is positive, or a zero of either sign, and finite (R148). -/
def scaleOk (x : BitVec 32) : Bool := x = 0x80000000 || (x.toNat < 2 ^ 31 && Fp.isFinite x)

/-- The bounds of R148 and R106 on a slot's image; `pairs` are the rotary tables as they stand and as they may stand, by table. -/
def modelOk (m : Model) (pairs : Nat → List Nat) : Bool :=
  (m.layers == 0 || (1 ≤ m.kvHeads && 1 ≤ m.group)) && m.layers ≤ 256 && m.kvHeads ≤ 256 && m.group ≤ 16 && m.headCode ≤ 6 &&
  m.kvFormat < 3 && m.qFormat < 3 && m.outFormat < 3 && m.layers * m.kvHeads ≤ 8192 &&
  (m.entries.take m.layers).all (fun e =>
    scaleOk e.scale && scaleOk e.softcap && e.sinks ≤ 4096 &&
    (!e.ropeOn || (pairs e.ropeTable).all (fun p => 2 * p ≤ headDim m)))

/-- A rotary table image (R157). -/
def parseRope (l : List Byte) : Rope :=
  let w := wordAt l 0
  { pairs := bits w 63 56, split := bit w 55, freq := wordsAt l 8 128 }

end Sys2Proof.Machine
end

