-- ==== Sys2Proof/Machine/Attn.lean ====
section
/-!
DEFINITION. Attention arithmetic: what a query attends to, the partial of a unit, the canonical merge and the output rows (R153 to R173,
R185, R193 to R202).
-/
namespace Sys2Proof.Machine
open Sys2Proof.Fp

/-- The elements of a row of bytes in a format, as FP32 (R168). -/
def elements (fmt : Nat) (l : List Byte) : List F :=
  let e := formatBytes fmt
  (chunks e (l.length / e + 1) l).map (fun b => ofElement fmt (leNat b))

/-- The bytes of FP32 values in an output format (R201). -/
def outBytes (fmt : Nat) (l : List F) : List Byte := (l.map (fun x => leBytes (formatBytes fmt) (toElement fmt x))).flatten

/-- Whether a query at position `q` attends to key position `k` under a window and sinks (R155). -/
def attends (window sinks q k : Nat) : Bool := k ≤ q && (window == 0 || q < k + window || k < sinks)

/-- Whether a query at `q` attends to some position of block `b` (R156). -/
def attendsBlock (window sinks q b : Nat) : Bool :=
  512 * b ≤ q && (window == 0 || q < 512 * b + 511 + window || 512 * b < sinks)

/-- The blocks from 0 on that some of the query positions attends to, ascending (R156). -/
def attendedBlocks (window sinks : Nat) (qs : List Nat) : List Nat :=
  (List.range (qs.foldl max 0 / 512 + 1)).filter (fun b => qs.any (fun q => attendsBlock window sinks q b))

/-- Ring parameters of a partition: size M, this member, segment size G (before R185); none out of ring mode. -/
def ringOf (s : State) (p : Nat) : Option (Nat × Nat × Nat) :=
  if ringModeVal s p == 1 then some (ringSizeVal s p, ringMemberVal s p, 2 ^ ringSegmentLog2Val s p) else none

/-- Which member holds a global position, and its local position there (R185). -/
def ringHolder (m g pos : Nat) : Nat := (pos / g) % m
def ringLocal (m g pos : Nat) : Nat := (pos / (g * m)) * g + pos % g

/-- The local position of a global position in a partition. -/
def localPos (s : State) (p pos : Nat) : Nat :=
  match ringOf s p with
  | some (m, _, g) => ringLocal m g pos
  | none => pos

/-- Whether this module holds a global position of a session of partition `p`. -/
def holdsPos (s : State) (p pos : Nat) : Bool :=
  match ringOf s p with
  | some (m, mu, g) => ringHolder m g pos == mu
  | none => true

/-- The global position of a local one at this module (R185). -/
def globalPos (s : State) (p lp : Nat) : Nat :=
  match ringOf s p with
  | some (m, mu, g) => (lp / g) * (g * m) + mu * g + lp % g
  | none => lp

/-- Discard the appends of a step that ends without effect (R131): pages the step allocated are released, other rows zeroed, at the local
place of the step's position (R185). -/
def discardAppends (i : Nat) (st : Step) (s : State) : State :=
  let h := sessShape s i
  let lp := localPos s (sessAt s i).entry.partition st.len0
  foldRange st.layersAppended (fun t layer =>
    foldRange h.heads (fun t head =>
      let k := pageKey h layer head (lp / h.run)
      let e := pageAt (sessAt t i) k
      if e.tier ≠ 0 then t
      else if st.freshPages.contains k then dropRef e.frame (putPage i k { dirty := e.dirty } t)
      else zeroRow h e.frame lp t) t) s

/-- The 65,536 bytes of a session's page in HBM, as the session reads them (R109). -/
def pageBytes (s : State) (i k : Nat) : List Byte :=
  let x := sessAt s i
  let h := sessShape s i
  let l := readBytes s (frameBase (pageAt x k).frame) 65536
  if x.inherited.contains k then ownRows h (keyPage h k * h.run) (localPos s x.entry.partition x.record.length) l else l

/-- The score scale of a layer (R147). -/
def scaleOf (le : LayerEntry) (code : Nat) : F :=
  if le.scale.toNat % 2 ^ 31 = 0 then invSqrtDim.getD code 0 else le.scale

/-- Rotate a head's elements at a position (R158, R159, R163). -/
def rotateHead (t : Rope) (pos : Nat) (x : List F) : List F :=
  foldRange t.pairs (fun y i =>
    let a := if t.split then i else 2 * i
    let b := if t.split then i + t.pairs else 2 * i + 1
    let (cs, sn) := cosSin ((pos * (t.freq.getD i 0).toNat) % 2 ^ 64)
    let (ya, yb) := rotate cs sn (y.getD a 0) (y.getD b 0)
    (y.set a ya).set b yb) x

/-- The score of a rotated query head against a rotated key (R169, R170). -/
def score (alpha cap : F) (q k : List F) : F :=
  let acc := (q.zip k).foldl (fun a p => fma p.1 p.2 a) zero
  let s := mul acc alpha
  if cap.toNat % 2 ^ 31 = 0 then s
  else
    let y := div s cap
    let t := if isNan y then nan
      else if !lt (abs y) 0x41100000 then one
      else
        let e := exp32 (mul 0xC0000000 (abs y))
        div (sub one e) (add one e)
    mul cap (withSign (sgn y) t)

/-- A query head's running state in a unit, and whether a NaN or an infinity has appeared (R171, R172). -/
structure Running where
  m : F := ninf
  l : F := zero
  acc : List F
  bad : Bool := false

/-- One attended row: its weight joins the sum and the accumulator (R171). -/
def takeRow (r : Running) (sv : F × List F) : Running :=
  let pe := exp32 (sub sv.1 r.m)
  let l := add r.l pe
  let acc := (r.acc.zip sv.2).map (fun p => fma pe p.2 p.1)
  { r with l, acc, bad := r.bad || !isFinite l || acc.any (fun a => !isFinite a) }

/-- One position group's attended rows, scores with values (R171). -/
def takeGroup (r : Running) (rows : List (F × List F)) : Running :=
  if rows.isEmpty then r
  else
    let mg := (rows.map Prod.fst).foldl max' ninf
    let mn := max' r.m mg
    let r := { r with bad := r.bad || rows.any (fun p => !isFinite p.1) || !isFinite mn }
    let r := if lt r.m mn then
        let c := exp32 (sub r.m mn)
        let l := mul r.l c
        let acc := r.acc.map (fun a => mul a c)
        { r with m := mn, l, acc, bad := r.bad || !isFinite l || acc.any (fun a => !isFinite a) }
      else r
    rows.foldl takeRow r

/-- The part of a head that R172 replaces by canonical NaN. -/
def nanPart (d : Nat) : HeadPart := { m := nan, l := nan, acc := List.replicate d nan }

/-- The finished part of a head. -/
def finishHead (d : Nat) (r : Running) : HeadPart := if r.bad then nanPart d else { m := r.m, l := r.l, acc := r.acc }

/-- A row of the block as a unit sees it: its global position, its rotated key, its value. -/
abbrev KeyRow := Nat × List F × List F

/-- The key of a circulating ring-prefill page: layer, head and global page (R190). -/
def passKey (h : Shape) (layer head n : Nat) : Nat := (layer * h.heads + head) * 2 ^ 21 + n

/-- The frame that holds a global position of a session, and the position as its rows are numbered there: its page map's page for a position
that this module holds, a circulating block's frame for another (R185, R190). -/
def frameOf (s : State) (i : Nat) (h : Shape) (layer head pos : Nat) : Option Nat :=
  let x := sessAt s i
  if holdsPos s x.entry.partition pos then
    let e := pageAt x (pageKey h layer head (localPos s x.entry.partition pos / h.run))
    if e.tier = 0 then some e.frame else none
  else Tab.find x.passPages (passKey h layer head (pos / h.run))

/-- Whether a tile of a frame has arrived (R122). -/
def tileThere (s : State) (f tile : Nat) : Bool := (frameAt s f).state != .filling || (Tab.get s.fills f 0).testBit tile

/-- The bytes of one head's row of a global position; a page that does not exist reads zero (R109, R438). -/
def rowOf (s : State) (i : Nat) (h : Shape) (layer head pos : Nat) : List Byte × List Byte :=
  match frameOf s i h layer head pos with
  | some f => readRow h s f pos
  | none => (List.replicate (h.d * h.e) 0, List.replicate (h.d * h.e) 0)

/-- The key rows of position group `j` (16 positions) of a block that the query attends to (R111, R171). -/
def groupRows (s : State) (i layer head block j q : Nat) : List KeyRow :=
  let x := sessAt s i
  let m := modelOf s x
  let h := shapeOf m
  let le := m.entries.getD layer {}
  (((List.range 16).map (fun r => 512 * block + 16 * j + r)).filter (attends le.window le.sinks q)).map (fun pos =>
    let (k, v) := rowOf s i h layer head pos
    let kx := elements m.kvFormat k
    (pos, if le.ropeOn then rotateHead (Tab.get s.ropes le.ropeTable {}) pos kx else kx, elements m.kvFormat v))

/-- The rotated query heads of KV head `head` in one query position's rows (R153, R164). -/
def queryHeads (s : State) (m : Model) (layer head q : Nat) (rows : List Byte) : List (List F) :=
  let d := headDim m
  let w := d * formatBytes m.qFormat
  let le := m.entries.getD layer {}
  (List.range m.group).map (fun g =>
    let x := elements m.qFormat (slice rows ((head * m.group + g) * w) w)
    if le.ropeOn then rotateHead (Tab.get s.ropes le.ropeTable {}) q x else x)

/-- Bytes of one query position's rows (R153). -/
def queryBytes (m : Model) : Nat := m.kvHeads * m.group * headDim m * formatBytes m.qFormat

/-- The partial of a unit (R171 to R173): session `i`, a layer, a KV head, a block, the query at `q` with its rows. -/
def unitPartial (s : State) (i layer head block q : Nat) (rows : List Byte) : Partial :=
  let m := modelOf s (sessAt s i)
  let d := headDim m
  let le := m.entries.getD layer {}
  let alpha := scaleOf le m.headCode
  let qs := queryHeads s m layer head q rows
  if !attendsBlock le.window le.sinks q block then
    { heads := qs.map (fun _ => { m := ninf, l := zero, acc := List.replicate d zero }), empty := true }
  else
    let start : List (List F × Running) := qs.map (fun x => (x, { acc := List.replicate d zero }))
    let fin := foldRange 32 (fun st j =>
      let rows := groupRows s i layer head block j q
      st.map (fun p => (p.1, takeGroup p.2 (rows.map (fun r => (score alpha le.softcap p.1 r.2.1, r.2.2)))))) start
    { heads := fin.map (fun p => finishHead d p.2), nan := fin.any (fun p => p.2.bad) }

/-- Whether a head part is canonical NaN. -/
def partNan (h : HeadPart) : Bool := isNan h.m

/-- Merge one head of two partials, and whether the result became NaN here (R195). -/
def mergeHead (d : Nat) (a b : HeadPart) : HeadPart × Bool :=
  if partNan a || partNan b then (nanPart d, false)
  else
    let mx := max' a.m b.m
    let ca := exp32 (sub a.m mx)
    let cb := exp32 (sub b.m mx)
    let l := fma a.l ca (mul b.l cb)
    let acc := (a.acc.zip b.acc).map (fun p => fma p.1 ca (mul p.2 cb))
    if !isFinite l || acc.any (fun x => !isFinite x) then (nanPart d, true) else ({ m := mx, l, acc }, false)

/-- Merge two partials of one tree, the first of the lower blocks; also whether the call counts in `NAN_MERGES` (R195, R196). -/
def mergePartials (d : Nat) (a b : Partial) : Partial × Bool :=
  if a.empty then (b, false)
  else if b.empty then (a, false)
  else
    let hs := (a.heads.zip b.heads).map (fun p => mergeHead d p.1 p.2)
    let heads := hs.map Prod.fst
    ({ heads, nan := a.nan || b.nan || heads.any partNan }, hs.any Prod.snd)

/-- An entry of a tree's block list: its first block, its level (0 a block, s a remote segment), its partial once accepted. -/
structure TreeItem where
  block : Nat
  level : Nat
  value : Option Partial

/-- A node of the canonical tree over the items in its range: its value, whether it is final, and how many of its merges made NaN from
finite operands (R196 to R198). A range without items is EMPTY. -/
def treeNode (d : Nat) : Nat → Nat → List TreeItem → Option Partial × Bool × Nat
  | 0, _, items =>
    match items with
    | [] => (none, true, 0)
    | t :: _ => (t.value, t.value.isSome, 0)
  | k + 1, lo, items =>
    if items.isEmpty then (none, true, 0)
    else match items.find? (fun t => t.level == k + 1) with
      | some t => (t.value, t.value.isSome, 0)
      | none =>
        let mid := lo + 2 ^ k
        let (a, fa, ca) := treeNode d k lo (items.filter (fun t => t.block < mid))
        let (b, fb, cb) := treeNode d k mid (items.filter (fun t => mid ≤ t.block))
        if fa && fb then
          match a, b with
          | none, x => (x, true, ca + cb)
          | x, none => (x, true, ca + cb)
          | some x, some y =>
            let (z, w) := mergePartials d x y
            (some z, true, ca + cb + if w then 1 else 0)
        else (none, false, ca + cb)

/-- The root of a tree, node(15, 0) (R197). -/
def treeRoot (d : Nat) (items : List TreeItem) : Option Partial × Bool × Nat := treeNode d 15 0 items

/-- The output rows of one tree's query heads (R201, R202). -/
def outRows (m : Model) (p : Partial) : List Byte :=
  (p.heads.map (fun h => outBytes m.outFormat (if partNan h then List.replicate (headDim m) nan else h.acc.map (fun a => div a h.l)))).flatten

end Sys2Proof.Machine
end

