-- ==== Sys2Proof/Machine/Merges.lean ====
section
/-!
DEFINITION. Step jobs, fielders, catchers and merges: eligibility, opening a merge, units, acceptance, withdrawal (R179 to R184, R204 to
R224, R240 to R245).
-/
namespace Sys2Proof.Machine

/-- Whether the leaves of a layer of a reviving session have arrived (R262). -/
def layerThere (s : State) (i layer : Nat) : Bool :=
  match (sessAt s i).revive with
  | none => true
  | some v =>
    let h := sessShape s i
    v.rootLeft == 0 && v.leafLeft.all (fun e => e.1 / h.lambda / h.heads != layer || e.2 == 0)

/-- Whether a query block or step of a session names a job. A step that has released its last layer no longer holds its job (R29; log entry
26). -/
def worksFor (x : Session) (j : Nat) : Bool :=
  (match x.step with | some st => st.job == j && !st.ending | none => false) || (x.qblock.toList ++ x.qwait).any (fun b => b.job == j)

/-- Whether dispatch holds an assignment of job `j` that is ready to issue (R240): a layer that waits for its merge and whose leaves are there
(R262), or a merge with units not yet started. -/
def jobReady (s : State) (n : Nat) (j : Job) : Bool :=
  j.members.any (fun i =>
    let x := sessAt s i
    (match x.step with | some st => st.job == n && st.phase == .ready && layerThere s i st.layer | none => false) ||
    (match x.qblock with | some b => b.job == n && b.phase == .ready && layerThere s i b.layer | none => false)) ||
  s.merges.any (fun e => e.2.job == n && !e.2.closing && !e.2.todo.isEmpty)

/-- Whether a job has an assignment outstanding on a fielder (R242). -/
def jobOutstanding (s : State) (n : Nat) : Bool :=
  s.merges.any (fun e => e.2.job == n && !e.2.closing && !e.2.todo.isEmpty)

/-- Whether job `n` holds its partition's fielder set. -/
def jobHolds (s : State) (n : Nat) (j : Job) : Bool := (partAt s j.partition).holder == some n

/-- Bring the jobs' times up to date: when each one that does not hold the set, or has been cut, became eligible (R240, R244, R245), since when
the holder is idle (R242). -/
def touchJobs (s : State) : State :=
  { s with jobs := s.jobs.map (fun e =>
      let j := e.2
      let el := jobReady s e.1 j
      let idle := jobHolds s e.1 j && !jobOutstanding s e.1
      (e.1, { j with
        eligibleAt := if el && (!jobHolds s e.1 j || j.cutting) then some (j.eligibleAt.getD (now s)) else none
        idleAt := if idle then some (j.idleAt.getD (now s)) else none })) }

/-- The bytes of queries that dispatch keeps for jobs that do not hold their set (R240). -/
def queryStore (s : State) : Nat :=
  let idle (n : Nat) : Bool := match Tab.find s.jobs n with | some j => !jobHolds s n j | none => true
  (s.sessions.map (fun e =>
    (match e.2.step with
     | some st => if idle st.job && st.phase != .merging && st.phase != .formed && st.phase != .idle then st.query.length else 0
     | none => 0) +
    ((e.2.qblock.toList.filter (fun b => b.phase == .ready) ++ e.2.qwait).map (fun b => if idle b.job then b.query.length else 0)).sum)).sum

/-- Whether the query store has no room for `bytes` more of job `n` (R240). -/
def storeFull (s : State) (n bytes : Nat) : Bool :=
  (match Tab.find s.jobs n with | some j => !jobHolds s n j | none => true) && 67108864 < queryStore s + bytes

/-- Release the fielder set that a job holds (R241, R242). -/
def releaseSet (n : Nat) (s : State) : State :=
  match Tab.find s.jobs n with
  | none => s
  | some j =>
    let s := { s with jobs := Tab.put s.jobs n { j with heldAt := none, idleAt := none, cutting := false } }
    if (partAt s j.partition).holder == some n then modPart j.partition (fun p => { p with holder := none }) s else s

/-- A job ends and its number is free (R243). -/
def endJob (n : Nat) (s : State) : State :=
  let s := releaseSet n s
  { s with jobs := Tab.drop s.jobs n }

/-- Whether a job ends (R243): closed with nothing it carried left, or every member TOMBSTONE, FAULTED or FREE. -/
def jobOver (s : State) (n : Nat) (j : Job) : Bool :=
  (j.closed && !j.members.any (fun i => worksFor (sessAt s i) n)) ||
  j.members.all (fun i =>
    let st := (sessAt s i).entry.state
    st == .tombstone || st == .faulted || st == .free)

/-- End the jobs that are over (R243). -/
def reapJobs (s : State) : State :=
  touchJobs ((s.jobs.filter (fun e => jobOver s e.1 e.2)).foldl (fun t e => endJob e.1 t) s)

/-- The open job that lists a session (R237). -/
def jobOf (s : State) (i : Nat) : Option Nat := (s.jobs.find? (fun e => e.2.members.contains i)).map Prod.fst

/-- The merge of a session that is open or closing, with its tag (R206). -/
def mergeOf (s : State) (i : Nat) : Option (Nat × Merge) := s.merges.find? (fun e => e.2.index == i)

/-- The state with merge `t` replaced. -/
def setMerge (t : Nat) (m : Merge) (s : State) : State := { s with merges := Tab.put s.merges t m }

/-- Unreserved node store of a catcher (R205, R207). -/
def storeFree (s : State) (c : Nat) : Nat :=
  33554432 - ((s.merges.filter (fun e => e.2.catcher == c)).map (fun e => e.2.reserve)).sum

/-- Head group and window of a merge (R207's procedure), from `hg` and `wb`. -/
def fitMerge (qp ws z : Nat) : Nat → Nat → Nat → Nat × Nat
  | 0, hg, wb => (hg, wb)
  | fuel + 1, hg, wb =>
    if hg * qp * (16 + wb + ws) * z ≤ 33554432 then (hg, wb)
    else if wb > 8 then fitMerge qp ws z fuel hg (wb / 2)
    else if hg > 1 then fitMerge qp ws z fuel ((hg + 1) / 2) wb
    else fitMerge qp ws z fuel hg (wb / 2)

/-- Query positions per pass (R179). -/
def passSize (h : Shape) : Nat := 65536 / (h.group * h.d * 4)

/-- The catchers in R205's order of search for a session's index. -/
def catcherOrder (i : Nat) : List Nat :=
  let q := (i / 8388608) % 4
  ([q, q ^^^ 1, q ^^^ 2, q ^^^ 3].map (fun f => (List.range 8).map (fun c => 8 * f + c))).flatten

/-- The fielder that reads a block of a head (R115, R145): the one whose pseudo-channel holds the block's first page in HBM, which a fork may
share with a parent of another index; else that of the block's stripe (R114; log entry 59). -/
def blockFielder (s : State) (i layer : Nat) (h : Shape) (head b : Nat) : Nat :=
  let p := (sessAt s i).entry.partition
  match (List.range (512 / h.run)).findSome? (fun j => frameOf s i h layer head (512 * b + j * h.run)) with
  | some f => frameFielder f
  | none => (stripeFielder s p i h layer head (if holdsPos s p (512 * b) then localPos s p (512 * b) / 512 else b)).getD 0

/-- The units of a merge in the order of R209: heads, blocks, query positions; each on the fielder that reads its block. -/
def mergeUnits (s : State) (i layer : Nat) (h : Shape) (blocks : List Nat) (count : Nat) : List WorkUnit :=
  ((List.range h.heads).map (fun hd => (blocks.map (fun b =>
    let f := blockFielder s i layer h hd b
    (List.range count).map (fun q => { fielder := f, head := hd, block := b, qoff := q : WorkUnit }))).flatten)).flatten

/-- The blocks that a merge of this module works on, and the remote segments a ring home awaits (R156, R185, R188, R200). In ring prefill
every attended block comes to the queries (R189). -/
def mergeBlocks (s : State) (i layer : Nat) (prefill : Bool) (qs : List Nat) : List Nat × List Nat :=
  let x := sessAt s i
  let le := (modelOf s x).entries.getD layer {}
  let all := attendedBlocks le.window le.sinks qs
  match ringOf s x.entry.partition with
  | none => (all, [])
  | some (m, mu, g) =>
    if prefill then (all, [])
    else
      (all.filter (fun b => ringHolder m g (512 * b) == mu),
       distinct ((all.filter (fun b => ringHolder m g (512 * b) != mu)).map (fun b => 512 * b / g)))

/-- The level of a segment's node (before R200): s = log₂(G / 512). -/
def segLevel (g : Nat) : Nat := (g / 512).log2

/-- Open a merge for a session's layer at query positions `qs`, of a message that starts at `first`, on the first catcher that can reserve its
demand (R204, R205, R207, R219). None when no catcher can. A ring home has a segment window (R207). -/
def openMerge (i layer job : Nat) (prefill : Bool) (first : Nat) (qs : List Nat) (query : List Byte) (home : Option (Nat × Nat)) (s : State) :
    Option State :=
  let x := sessAt s i
  let h := sessShape s i
  let (blocks, segs) := mergeBlocks s i layer prefill qs
  let segs := if home.isSome then [] else segs
  let ws := if home.isNone && (ringOf s x.entry.partition).isSome then 64 else 0
  let qp := min qs.length (passSize h)
  let z := h.group * (8 + 4 * h.d)
  let (hg, wb) := fitMerge qp ws z 64 h.heads (mergeWindowMaxVal s)
  let demand := hg * qp * (16 + wb + ws) * z
  match (catcherOrder i).find? (fun c => demand ≤ storeFree s c) with
  | none => none
  | some c =>
    let tag := (s.mergeTag + 1) % 2 ^ 32
    let todo := mergeUnits s i layer h blocks qs.length
    some (setMerge tag
      { catcher := c, index := i, innings := x.record.innings, layer, job, prefill, first, count := qs.length,
        blocks, hg, wb, ws, passSize := passSize h, reserve := demand, todo, fielders := distinct (todo.map (fun u => u.fielder)),
        segments := segs, home, query, positions := qs } { s with mergeTag := tag })

/-- The rank in the block list of the lowest block not yet accepted whole for the merge's pass and head group (before R208). A ring
member counts a block once the segment partial that contains it has been sent (R211); `g` is the segment size. -/
def frontierOf (m : Merge) (heads g : Nat) : Nat :=
  let inPair (u : WorkUnit) : Bool := u.qoff / m.passSize == m.pass && u.head / m.hg == m.eta
  let hs := min m.hg (heads - m.eta * m.hg)
  let want := hs * min m.passSize (m.count - m.pass * m.passSize)
  let sent (b : Nat) : Bool := m.home.isNone || m.prefill ||
    (List.range hs).all (fun k => m.sent.contains (m.eta * m.hg + k, 512 * b / g, 0))
  let done (b : Nat) : Bool := (m.leaves.filter (fun l => l.1.block == b && inPair l.1)).length ≥ want && sent b
  (m.blocks.takeWhile done).length

/-- Move a merge on to its next pass and head group while the current one is accepted whole (before R208). -/
def advancePair (heads g : Nat) : Nat → Merge → Merge
  | 0, m => m
  | fuel + 1, m =>
    let f := frontierOf m heads g
    if f < m.blocks.length then { m with frontier := f }
    else if (m.eta + 1) * m.hg < heads then advancePair heads g fuel { m with eta := m.eta + 1, frontier := 0 }
    else if (m.pass + 1) * m.passSize < m.count then advancePair heads g fuel { m with pass := m.pass + 1, eta := 0, frontier := 0 }
    else { m with frontier := f }

/-- Whether a fielder may start a unit of a merge (R208). -/
def unitEligible (m : Merge) (u : WorkUnit) : Bool :=
  !m.closing && u.qoff / m.passSize == m.pass && u.head / m.hg == m.eta &&
  (m.blocks.takeWhile (fun b => b != u.block)).length < m.frontier + m.wb

/-- Whether the pages of a unit's block are known at a member: its own always, those of a circulating block once a tile of each attended
one has come (R189, R190). -/
def unitThere (s : State) (m : Merge) (u : WorkUnit) : Bool :=
  let x := sessAt s m.index
  let h := sessShape s m.index
  let le := (modelOf s x).entries.getD m.layer {}
  let q := m.positions.getD u.qoff 0
  !m.prefill || holdsPos s x.entry.partition (512 * u.block) ||
  (List.range 32).all (fun j =>
    let pos := 512 * u.block + 16 * j
    !(List.range 16).any (fun r => attends le.window le.sinks q (pos + r)) ||
    (Tab.find x.passPages (passKey h m.layer u.head (pos / h.run))).isSome)

/-- The unit that a fielder starts next (R184, R209): of merges whose job holds the fielder's set, the one issued first. A ring member's merge has
no job here: dispatch claims the partition's set for it while no job holds it (log entry 48). -/
def nextUnit (s : State) (f : Nat) : Option (Nat × Merge × WorkUnit) :=
  s.merges.findSome? (fun e =>
    let m := e.2
    let held := match Tab.find s.jobs m.job with
      | some j => jobHolds s m.job j && !j.cutting
      | none => m.home.isSome && (partAt s (sessAt s m.index).entry.partition).holder.isNone
    if held then (m.todo.find? (fun u => u.fielder == f && unitEligible m u && unitThere s m u)).map (fun u => (e.1, m, u)) else none)

/-- The items of a tree's block list in a merge: its own blocks and the remote segments (R197, R200). -/
def treeItems (m : Merge) (g head qoff : Nat) : List TreeItem :=
  let own := m.blocks.map (fun b =>
    { block := b, level := 0,
      value := (m.leaves.find? (fun l => l.1.block == b && l.1.head == head && l.1.qoff == qoff)).map Prod.snd : TreeItem })
  let segs := m.segments.map (fun j =>
    { block := j * (g / 512), level := segLevel g,
      value := (m.segNodes.find? (fun e => e.1 == (head, j, qoff))).map Prod.snd : TreeItem })
  sortBy (fun a b => a.block < b.block) (own ++ segs)

/-- The segment size of a merge's session; 512 out of ring mode. -/
def mergeSegment (s : State) (m : Merge) : Nat :=
  match ringOf s (sessAt s m.index).entry.partition with
  | some (_, _, g) => g
  | none => 512

/-- The node of one segment of a ring member's tree: its value, whether it is final, its NaN merges (R188, R200). -/
def segmentNode (s : State) (m : Merge) (head j : Nat) : Option Partial × Bool × Nat :=
  let g := mergeSegment s m
  treeNode (sessShape s m.index).d (segLevel g) (j * (g / 512))
    ((treeItems m g head 0).filter (fun t => j * (g / 512) ≤ t.block && t.block < (j + 1) * (g / 512)))

/-- The segments of a ring member's own blocks. -/
def ownSegments (s : State) (m : Merge) : List Nat := distinct (m.blocks.map (fun b => 512 * b / mergeSegment s m))

/-- The NaN merges that the accepted partials of one tree have made so far (R196). -/
def nanCount (s : State) (m : Merge) (head qoff : Nat) : Nat :=
  if m.home.isSome && !m.prefill then ((ownSegments s m).map (fun j => (segmentNode s m head j).2.2)).sum
  else (treeRoot (sessShape s m.index).d (treeItems m (mergeSegment s m) head qoff)).2.2

/-- Whether every block and segment of every tree has been accepted. -/
def mergeComplete (s : State) (m : Merge) : Bool :=
  let h := sessShape s m.index
  m.leaves.length ≥ m.blocks.length * h.heads * m.count && m.segNodes.length ≥ m.segments.length * h.heads * m.count

/-- The output of a complete merge, position by position, heads ascending (R153, R203). -/
def mergeOutput (s : State) (m : Merge) : List Byte :=
  let h := sessShape s m.index
  let md := modelOf s (sessAt s m.index)
  let g := mergeSegment s m
  ((List.range m.count).map (fun q => ((List.range h.heads).map (fun hd =>
    match (treeRoot h.d (treeItems m g hd q)).1 with
    | some p => outRows md p
    | none => [])).flatten)).flatten

/-- Fielder `f` and catcher `c`. -/
def fielderAt (s : State) (f : Nat) : Fielder := Tab.get s.fielders f {}
def catcherAt (s : State) (c : Nat) : Catcher := Tab.get s.catchers c {}

/-- The state with fielder `f` replaced; an idle one is not listed. -/
def setFielder (f : Nat) (x : Fielder) (s : State) : State :=
  { s with fielders := if x == {} then Tab.drop s.fielders f else Tab.put s.fielders f x }

/-- The state with catcher `c` replaced; an empty one is not listed. -/
def setCatcher (c : Nat) (x : Catcher) (s : State) : State :=
  { s with catchers := if x == {} then Tab.drop s.catchers c else Tab.put s.catchers c x }

/-- Move the head of each emitter that names catcher `c` into its input buffer while there is room, fielders ascending (R214, log
entry 23). -/
def pumpCatcher (c : Nat) : Nat → State → State
  | 0, s => s
  | fuel + 1, s =>
    let x := catcherAt s c
    if x.input.length ≥ 64 then s
    else match s.fielders.find? (fun e => match e.2.emitter with | p :: _ => p.catcher == c | [] => false) with
      | none => s
      | some (f, y) =>
        match y.emitter with
        | [] => s
        | p :: rest => pumpCatcher c fuel (setCatcher c { x with input := x.input ++ [p] } (setFielder f { y with emitter := rest } s))

/-- A fielder emits a partial (R171, R178); it travels on at once where its catcher has room. -/
def emitPartial (f : Nat) (p : Emitted) (s : State) : State :=
  let y := fielderAt s f
  let s := setFielder f { y with emitter := y.emitter ++ [p], waiting := none } s
  let x := sessAt s p.index
  let s := pmu { code := 0x05, priv := .context x.record.context, requester := some f, svc := some x.record.cls } (bump ctrPartialsEmitted s)
  pumpCatcher p.catcher 1088 s

/-- Withdraw a merge's assignments (R181, R221): it starts closing and awaits the fielders that hold an assignment; without one it closes at
once. An assignment is of one fielder and KV head (R179). -/
def withdraw (t : Nat) (s : State) : State :=
  match Tab.find s.merges t with
  | none => s
  | some m =>
    if m.closing then s
    else
      let left := distinct (m.todo.map (fun u => 256 * u.fielder + u.head))
      let s := bumpBy ctrAssignmentsWithdrawn left.length s
      if m.fielders.isEmpty then { s with merges := Tab.drop s.merges t }
      else setMerge t { m with closing := true, todo := [], awaiting := m.fielders } s

/-- Withdraw the merges of a session that `hit` names. -/
def withdrawSess (i : Nat) (hit : Merge → Bool) (s : State) : State :=
  (s.merges.filter (fun e => e.2.index == i && hit e.2)).foldl (fun t e => withdraw e.1 t) s

/-- Whether a merge is a step's: not a query block's, nor a ring member's. -/
def stepMerge (m : Merge) : Bool := !m.prefill && m.home.isNone

/-- The node that a peer service queue pair faces (R455). -/
def peerNodeOf (n : Nat) : Nat := if n < 321 then n - 257 else n - 321

/-- Whether a member still needs a circulating block of a layer and head: some of its query positions attend to it and have not been scored
against it (R190), or it does not know its query positions yet. -/
def passNeeded (s : State) (i layer head block : Nat) : Bool :=
  let x := sessAt s i
  let le := (modelOf s x).entries.getD layer {}
  let p := x.entry.partition
  match s.merges.find? (fun e => e.2.index == i && e.2.prefill && e.2.layer == layer) with
  | some (_, m) => m.todo.any (fun u => u.block == block && u.head == head)
  | none =>
    let own := match x.qblock with
      | some b => if b.layer == layer && b.phase == .ready then (List.range b.count).filterMap (fun o =>
          if holdsPos s p (b.first + o) then some (b.first + o) else none) else []
      | none => []
    let work := ((x.ringWork.filter (fun w => w.prefill && w.layer == layer)).map (fun w => w.positions)).flatten
    x.passLayer != some layer || x.passLeft == 0 || (own ++ work).any (fun q => attendsBlock le.window le.sinks q block)

/-- The catcher discards a partial for a reason counted at `key` (R220, R223, R224). -/
def discardPartial (p : Emitted) (key : Nat) (s : State) : State :=
  pmu { code := 0x07, priv := .context (sessAt s p.index).record.context, requester := some (0x100 + p.catcher) } (bump key s)

end Sys2Proof.Machine
end

