-- ==== Sys2Proof/Machine/Parks.lean ====
section
/-!
DEFINITION. Tiers 1 and 2: slots, the checks of the pool, tiles on their way, map images, issuing parks and revivals (R341 to R363, R127,
R260 to R264).
-/
namespace Sys2Proof.Machine

/-- The tier address of a byte of a slot (R341). -/
def tierAddr (tier slot o : Nat) : Nat := tier * 2 ^ 62 + slot * 65536 + o

/-- Whether a pool range entry allows a context's access to a slot (R348). -/
def poolEntryAllows (e : PoolRange) (c slot : Nat) (write : Bool) : Bool :=
  e.valid && e.base ≤ slot && slot ≤ e.limit && (if write then 2 ≤ e.access else 1 ≤ e.access) &&
  (e.context == c || (!write && e.allContexts))

/-- Whether the module's pool range table allows a context's access to a slot (R348). -/
def poolAllows (s : State) (c slot : Nat) (write : Bool) : Bool := s.poolRanges.any (fun e => poolEntryAllows e.2 c slot write)

/-- Whether a context may reach a slot of a tier. -/
def tierAllows (s : State) (c tier slot : Nat) (write : Bool) : Bool := tier != 2 || poolAllows s c slot write

/-- The lowest run of `n` free slots between `lo` and `hi`. -/
def lowestRun (used : List Nat) (lo hi n : Nat) : Option Nat :=
  (leastFrom (fun k => (List.range n).all (fun j => !(used.contains (k + j)))) lo (used.length * n + 1)).filter
    (fun k => k + n ≤ hi + 1)

/-- Allocate `n` host slots that follow one another (R343, R350); the range of a running sample ring has none to give (R503). -/
def allocHost (n : Nat) (s : State) : Option (Nat × State) :=
  (s.hostRanges.findSome? (fun e =>
    if e.2.slots = 0 || s.sampler.range == some e.1 then none else lowestRun s.hostSlots (e.1 * 2 ^ 29) (e.1 * 2 ^ 29 + e.2.slots - 1) n)).map (fun k =>
      (k, { s with hostSlots := s.hostSlots ++ List.range' k n }))

/-- Allocate `n` pool slots that follow one another from a pool range entry, for a context (R350, R351). -/
def allocPool (range c n : Nat) (s : State) : Option (Nat × State) :=
  let e := Tab.get s.poolRanges range {}
  if !(e.valid && e.alloc && e.access == 2 && e.context == c) then none
  else (lowestRun s.poolSlots e.base e.limit n).map (fun k => (k, { s with poolSlots := s.poolSlots ++ List.range' k n }))

/-- Allocate `n` slots in a tier for a session of partition `p` (R350, R351). -/
def allocTier (tier p c n : Nat) (s : State) : Option (Nat × State) :=
  if tier = 1 then allocHost n s else allocPool (parkPoolRangeVal s p) c n s

/-- A tile's bytes as they leave for a tier (R562, R564). -/
def tierForm (s : State) (c addr : Nat) (data : List Byte) : List Byte :=
  if (ctxAt s c).mode == .confidential then slice (Config.xtsSeal (ctxAt s c).kx (addr / 4096) data) 0 4096 else data

/-- A tile's bytes as they come from a tier (R562, R564). -/
def hbmForm (s : State) (c addr : Nat) (data : List Byte) : List Byte :=
  if (ctxAt s c).mode == .confidential then slice (Config.xtsOpen (ctxAt s c).kx (addr / 4096) data) 0 4096 else slice data 0 4096

/-- The fetch queue pair of tile `k` of a transfer (R356): fetch queue pair `j` is queue pair `j + 1`. -/
def fetchQp (s : State) (k : Nat) : Nat := 1 + k % (max (fetchQpsVal s) 1)

/-- Whether a fetch queue pair has room: at most 64 tiles in flight on it and 8,192 in all (R356). -/
def tileRoom (s : State) (n : Nat) : Bool :=
  let l := s.transfers.filter (fun e => !e.2.waits)
  (l.filter (fun e => e.2.qp == n)).length < 64 && l.length < 8192

/-- Whether a page that begins with tile `k` of its transfer may be issued: no tile waits, and there is room for its first (R356). -/
def mayIssue (s : State) (k : Nat) : Bool := !s.transfers.any (fun e => e.2.waits) && tileRoom s (fetchQp s k)

/-- The pool channel of a slot (R357). With no channel count set there is one (log entry 60). -/
def poolChannel (s : State) (slot : Nat) : Nat := slot % max s.poolChannels 1

/-- The host identity that an access presents: that of the lowest-numbered entry that passes (R348). -/
def poolHost (s : State) (c slot : Nat) (write : Bool) : Nat :=
  ((s.poolRanges.find? (fun e => poolEntryAllows e.2 c slot write)).map (fun e => e.2.hostId)).getD s.hostId

/-- Put a tile on its way with its packet, its deadline at R359's timeout. -/
def launch (n : Nat) (t : Transfer) (s : State) : State :=
  let t := { t with deadline := now s + fetchTimeoutUsVal s * 1000, waits := false }
  let a := tierAddr t.tier t.slot (t.tile * 4096)
  let s := { s with transfers := Tab.put s.transfers n t }
  sendTile t.qp { ptype := if t.write then 4 else 2, addr := word a, payload := if t.write then tierForm s t.context a t.data else [],
                  transfer := some n, pool := if t.tier = 2 then some (poolChannel s t.slot, poolHost s t.context t.slot t.write) else none } s

/-- Issue tile `k` of a transfer (R356): it waits where its queue pair has no room. Tiles are numbered as they are issued. -/
def issueTile (c : Consumer) (k tier slot tile context addr : Nat) (write : Bool) (data : List Byte) (s : State) : State :=
  let n := s.nextTile
  let t : Transfer := { consumer := c, k, tier, slot, tile, qp := fetchQp s k, deadline := 0, write, addr, context, data, waits := true }
  let s := { s with nextTile := n + 1 }
  if tileRoom s t.qp && !s.transfers.any (fun e => e.2.waits && e.2.qp == t.qp) then launch n t s
  else { s with transfers := Tab.put s.transfers n t }

/-- Whether a transfer serves a session. -/
def servesSession (i : Nat) (t : Transfer) : Bool :=
  match t.consumer with
  | .park j _ => j == i
  | .parkMap j => j == i
  | .root j => j == i
  | .leaf j _ => j == i
  | .page j _ => j == i
  | .migrate j _ => j == i
  | .beneath j => j == i
  | .beneathWrite j => j == i
  | _ => false

/-- Forget the tiles on their way for a session: their completions are discarded when they come (R359). -/
def dropTransfers (i : Nat) (s : State) : State := { s with transfers := s.transfers.filter (fun e => !servesSession i e.2) }

/-- A move beneath gives up what it copies (R363): its new slots are freed. -/
def dropCopy (i : Nat) (s : State) : State :=
  match (sessAt s i).copy with
  | none => s
  | some c =>
    let s := { s with transfers := s.transfers.filter (fun e => e.2.consumer != .beneath i && e.2.consumer != .beneathWrite i) }
    c.slots.foldl (fun t k => freeHome 2 k t) (modSess i (fun y => { y with copy := none }) s)

/-- A page map entry's word. -/
def pageWord (e : PageEntry) : Nat :=
  at' e.tier 62 2 + flagAt e.dirty 61 + flagAt e.homeValid 60 + at' e.homeTier 59 1 + at' e.homeSlot 24 35 +
  at' (if e.tier = 0 then e.frame else 0) 0 24

/-- The bytes of a leaf at a root index. -/
def leafBytes (pages : Tab PageEntry) (r : Nat) : List Byte :=
  ((List.range 8192).map (fun v => leBytes 8 (pageWord (Tab.get pages (r * 8192 + v) {})))).flatten

/-- The bytes of a root: for each root index the number that `leafNo` gives, if the leaf is present. -/
def rootBytes (leafNo : Nat → Option Nat) : List Byte :=
  ((List.range 8192).map (fun r => leBytes 8 (match leafNo r with | some n => 2 ^ 63 + n | none => 0))).flatten

/-- The map image of a session whose pages all live in tier `t` (R127, R353): the root with ordinals, then each leaf. -/
def mapImage (x : Session) (t : Nat) : List Byte :=
  let ks := Tab.keys x.leaves
  let pages := Tab.mapVals x.pages (fun e => { e with tier := if e.tier = 3 then 3 else t, frame := 0 })
  rootBytes (fun r => (ks.idxOf? r).map (· + 1)) ++ (ks.map (leafBytes pages)).flatten

/-- The state with `f` applied to a session's park. -/
def modPark (i : Nat) (f : ParkMove → ParkMove) (s : State) : State :=
  modSess i (fun x => match x.move with
    | some (.park p) => { x with move := some (.park (f p)) }
    | _ => x) s

/-- The state with `f` applied to a session's revival. -/
def modRevive (i : Nat) (f : Revive → Revive) (s : State) : State := modSess i (fun x => { x with revive := x.revive.map f }) s

/-- Issue the tiles of one page of a park to its slot. -/
def issuePage (i k slot : Nat) (p : ParkMove) (s : State) : State :=
  let h := sessShape s i
  let x := sessAt s i
  let f := (pageAt x k).frame
  let l := pageBytes s i k
  foldRange h.used (fun t j =>
    issueTile (.park i k) (p.issued + j) p.tier slot j x.record.context (hbmAddr f (4096 * j)) true (slice l (4096 * j) 4096) t) s

/-- Issue what a park can issue now: pages in order, then the map image once every page is home (R353, R354). -/
def issuePark (i : Nat) : Nat → State → State
  | 0, s => s
  | fuel + 1, s =>
    let x := sessAt s i
    match x.move with
    | some (.park p) =>
      if p.failed then s
      else match p.todo with
        | k :: rest =>
          let e := pageAt x k
          if e.homeValid && e.homeTier + 1 == p.tier then issuePark i fuel (modPark i (fun q => { q with todo := rest }) s)
          else if (frameAt s e.frame).state == .filling || !mayIssue s p.issued then s
          else match allocTier p.tier x.entry.partition x.record.context 1 s with
            | none => modPark i (fun q => { q with failed := true }) s
            | some (slot, t) =>
              if !tierAllows s x.record.context p.tier slot true then
                bump ctrPoolDenials (modPark i (fun q => { q with failed := true }) s)
              else
                let t := issuePage i k slot p t
                let n := (sessShape s i).used
                issuePark i fuel (modPark i (fun q => { q with
                  todo := rest, flying := q.flying ++ List.replicate n k, slots := Tab.put q.slots k slot, issued := q.issued + n }) t)
        | [] =>
          if p.mapIssued || !p.flying.isEmpty then s
          else
            let img := mapImage x p.tier
            let n := img.length / 65536
            match allocTier p.tier x.entry.partition x.record.context n s with
            | none => modPark i (fun q => { q with failed := true }) s
            | some (slot, t) =>
              let t := foldRange (16 * n) (fun t j =>
                issueTile (.parkMap i) (p.issued + j) p.tier (slot + j / 16) (j % 16) x.record.context 0 true
                  (slice img (4096 * j) 4096) t) t
              modPark i (fun q => { q with
                mapIssued := true, mapSlots := List.range' slot n, mapFlying := 16 * n, issued := q.issued + 16 * n }) t
    | _ => s

/-- Issue what a session's park can issue now. -/
def pumpPark (i : Nat) (s : State) : State := issuePark i ((sessAt s i).pages.length + 2) s

/-- The slots that an abandoned or failed park allocated are freed, except homes recorded in the page map (R354). -/
def freeParkSlots (p : ParkMove) (s : State) : State :=
  (Tab.vals p.slots ++ p.mapSlots).foldl (fun t k => freeHome p.tier k t) s

/-- Whether every page and the map image of a park have been written (R74). -/
def parkDone (p : ParkMove) : Bool := p.todo.isEmpty && p.flying.isEmpty && p.mapIssued && p.mapFlying == 0 && !p.failed

/-- Whether a revival may issue its next fetch: a leaf needs the whole root, a page its whole leaf, as they name what follows. -/
def reviveReady (v : Revive) : Bool :=
  match v.todo with
  | [] => false
  | (0, _) :: _ => true
  | (1, _) :: _ => v.rootLeft == 0
  | (_, k) :: _ => Tab.get v.leafLeft (k / 8192) 0 == 0

/-- Reviving sessions that can issue, in the turns of R263: latency-critical first, then turns taken, then the order of their `RESUME`. -/
def reviveOrder (s : State) : List (Nat × Revive) :=
  let l := s.sessions.filterMap (fun e => match e.2.revive with
    | some v => if reviveReady v then some (e.1, e.2.record.cls, v) else none
    | none => none)
  (sortBy (fun a b =>
    a.2.1 < b.2.1 || (a.2.1 == b.2.1 && (a.2.2.turn < b.2.2.turn || (a.2.2.turn == b.2.2.turn && a.2.2.order < b.2.2.order)))) l).map
      (fun e => (e.1, e.2.2))

/-- A fetch of a session's data fails or is refused with a cause (R264, R349, R360). The `FAULT` itself is the caller's. -/
def countFetchFailure (s : State) : State := bump ctrFetchFailures s

end Sys2Proof.Machine
end

