-- ==== Sys2Proof/Machine/Search.lean ====
section
/-!
DEFINITION. Compass indexes in their frames, and how searches, moves and waiting commands end (R309 to R316, R322, R331, R338, R339).
-/
namespace Sys2Proof.Machine

/-- Bytes of a code of an index (B / 8), codes in a centroid frame, entries in a list frame. -/
def codeBytes (v : VIndex) : Nat := v.units * 16
def codesPerFrame (v : VIndex) : Nat := 65536 / codeBytes v
def entriesPerFrame (v : VIndex) : Nat := 65472 / (codeBytes v + 4)

/-- The state with index `x` replaced. -/
def setIndex (x : Nat) (v : VIndex) (s : State) : State := { s with indexes := Tab.put s.indexes x v }

/-- The state with `f` applied to index `x`. -/
def modIndex (x : Nat) (f : VIndex → VIndex) (s : State) : State := { s with indexes := Tab.edit s.indexes x f }

/-- Take a frame of index `x` at place `j` of the round of R312, unless R313 refuses it. -/
def allocIndexFrame (x c p j : Nat) (st : FrameState) (s : State) : Option (Nat × State) :=
  let ps := partFielders s p
  match ps[(j + x) % max ps.length 1]? with
  | none => none
  | some f => if freeFrames s f < frameLowWaterVal s p + 1 then none else allocFrame f { state := st, context := c, owner := x } s

/-- Take frames at places `j` to `j + n - 1`; all or none. -/
def allocIndexFrames (x c p j : Nat) : Nat → State → Option (List Nat × State)
  | 0, s => some ([], s)
  | n + 1, s =>
    (allocIndexFrames x c p j n s).bind (fun a => (allocIndexFrame x c p (j + n) .index a.2).map (fun b => (a.1 ++ [b.1], b.2)))

/-- The state of record `r` in the record map (R314). -/
def recordState (s : State) (v : VIndex) (r : Nat) : Nat :=
  ((readByte s (frameBase (v.mapFrames.getD (r / 262144) 0) + (r % 262144) / 4)).toNat / 4 ^ (r % 4)) % 4

/-- Set the state of record `r` in the record map (R314). -/
def setRecordState (v : VIndex) (r st : Nat) (s : State) : State :=
  let a := frameBase (v.mapFrames.getD (r / 262144) 0) + (r % 262144) / 4
  let b := (readByte s a).toNat
  writeBytes a [byte (b - ((b / 4 ^ (r % 4)) % 4) * 4 ^ (r % 4) + st * 4 ^ (r % 4))] s

/-- The list of a centroid. -/
def listAt (v : VIndex) (c : Nat) : VList := Tab.get v.lists c {}

/-- Entries in frame `j` of a list. -/
def entriesIn (v : VIndex) (l : VList) (j : Nat) : Nat := min (entriesPerFrame v) (l.entries - j * entriesPerFrame v)

/-- The header of frame `j` of a list (the list frame header); pool images name no next frame. -/
def listHeader (x c : Nat) (v : VIndex) (l : VList) (j : Nat) (pool : Bool) : List Byte :=
  wordBytes (word (at' (if pool then 0 else l.frames.getD (j + 1) 0) 40 24 + flagAt (j + 1 == ceilDiv l.entries (entriesPerFrame v)) 39 +
    at' (entriesIn v l j) 27 12 + at' x 23 4 + at' c 7 16))

/-- Write the headers of a list's frames. -/
def writeHeaders (x c : Nat) (v : VIndex) (l : VList) (s : State) : State :=
  foldRange l.frames.length (fun t j => writeBytes (frameBase (l.frames.getD j 0)) (listHeader x c v l j false) t) s

/-- Entry `e` of a list frame: its record id and its code. -/
def entryOf (s : State) (v : VIndex) (f e : Nat) : Nat × List Byte :=
  (leNat (readBytes s (frameBase f + 64 + entriesPerFrame v * codeBytes v + 4 * e) 4),
   readBytes s (frameBase f + 64 + e * codeBytes v) (codeBytes v))

/-- Write entry `e` of a list frame. -/
def writeEntry (v : VIndex) (f e id : Nat) (code : List Byte) (s : State) : State :=
  writeBytes (frameBase f + 64 + entriesPerFrame v * codeBytes v + 4 * e) (leBytes 4 id)
    (writeBytes (frameBase f + 64 + e * codeBytes v) code s)

/-- Bits in which two codes differ (R315). -/
def distance (a b : List Byte) : Nat := ((a.zip b).map (fun p => (bitsSet (p.1 ^^^ p.2).toNat 8).length)).sum

/-- The order of R326 on pairs of distance and number. -/
def candidateBefore (a b : Nat × Nat) : Bool := a.1 < b.1 || (a.1 == b.1 && a.2 < b.2)

/-- The pool slots of a list. -/
def poolSlotsOf (l : VList) : List Nat := match l.pool with | some (k, n) => List.range' k n | none => []

/-- Free what a list takes: its frames and its pool slots (R120, R352). -/
def freeList (l : VList) (s : State) : State :=
  (poolSlotsOf l).foldl (fun t k => freeHome 2 k t) (l.frames.foldl (fun t f => freeFrame f t) s)

/-- An index does not stay as it was sealed before the BASE (R510). -/
def noteUnsealed (x : Nat) (s : State) : State :=
  { s with
    survey.baseSealed := s.survey.baseSealed.erase x
    survey.run := s.survey.run.map (fun r => { r with sealed := r.sealed.erase x }) }

/-- Every frame of an index is freed and the index no longer exists (R324). -/
def dropIndex (x : Nat) (s : State) : State :=
  match Tab.find s.indexes x with
  | none => s
  | some v =>
    let s := (v.centroidFrames ++ v.dirFrames ++ v.mapFrames).foldl (fun t f => freeFrame f t) s
    let s := v.lists.foldl (fun t e => freeList e.2 t) s
    noteUnsealed x { s with indexes := Tab.drop s.indexes x }

/-- Whether a fielder runs a slice on a frame. -/
def sliceOn (s : State) (f : Nat) : Bool := s.fielders.any (fun e => (e.2.slice.map (fun l => l.2.frame == f)).getD false)

/-- A search ends with an answer: its fetches are given up, and its staging frames but those that a slice reads: those are freed as the slice
ends (R336). -/
def endSearch (k : Nat) (a : Answer) (s : State) : State :=
  match Tab.find s.searches k with
  | none => s
  | some q =>
    let s := { s with
      searches := Tab.drop s.searches k
      transfers := s.transfers.filter (fun e => match e.2.consumer with | .slice n _ _ => n != k | _ => true) }
    respond q.msg a (q.staging.foldl (fun t g => if sliceOn t g.frame then t else freeFrame g.frame t) s)

/-- A `COMPASS_PLACE` ends without effect: what it took is given back. -/
def failPlace (x : Nat) (st : Status) (s : State) : State :=
  match (Tab.find s.indexes x).bind (·.placing) with
  | none => s
  | some p =>
    let s := { s with transfers := s.transfers.filter (fun e => e.2.consumer != .place x) }
    let s := p.placed.foldl (fun t e => freeList e.2 t) s
    refuse p.msg st (modIndex x (fun v => { v with placing := none }) s)

/-- The index of a Compass command. -/
def indexOf (m : Msg) : Nat := opNat m 0

/-- An uncorrectable error in frame `f` of an index (R338): a search whose slice reads the frame ends, and a move of the list that holds it. -/
def faultIndex (x f : Nat) (s : State) : State :=
  let met (k : Nat) : Bool := s.fielders.any (fun e => (e.2.slice.map (fun l => l.1 == k && l.2.frame == f)).getD false)
  let moved := ((Tab.find s.indexes x).map (fun v => v.lists.any (fun l => l.2.frames.contains f))).getD false
  let s := modIndex x (fun v => { v with faulted := true }) s
  let s := ((Tab.keysWhere s.searches (fun q => q.index == x)).filter met).foldl (fun t k => endSearch k { status := .indexFault } t) s
  if moved then failPlace x .indexFault s else s

/-- A context's searches, moves and waiting commands end as it is torn down (R265, R339); a `COMPASS_DROP` that waited acts. -/
def tearCompass (c : Nat) (s : State) : State :=
  let mine (x : Nat) : Bool := ((Tab.find s.indexes x).map (·.context)) == some c
  let s := (Tab.keysWhere s.searches (fun q => mine q.index)).foldl (fun t k => endSearch k { status := .contextTornDown } t) s
  let s := ((Tab.keys s.indexes).filter mine).foldl (fun t x => failPlace x .contextTornDown t) s
  let ws := s.searchWaits.filter (fun w => (qpAt s w.2.msg.qp).context == c)
  ws.foldl (fun t w =>
    let t := { t with searchWaits := Tab.drop t.searchWaits w.1 }
    if w.2.msg.opcode == 0x040B && mine w.2.index then respond w.2.msg {} (dropIndex w.2.index t) else refuse w.2.msg .contextTornDown t) s

end Sys2Proof.Machine
end

