-- ==== Sys2Proof/Machine/Lookup.lean ====
section
/-!
DEFINITION. The Atlas: lookup checks, allocation, records, timers, admission (R60 to R69, R78, R87 to R92, R252 to R255).
-/
namespace Sys2Proof.Machine

/-- Fields of a handle. -/
def handlePartition (h : Word) : Nat := bits h 63 58
def handleGeneration (h : Word) : Nat := bits h 57 25
def handleIndex (h : Word) : Nat := bits h 24 0

/-- The handle of session `i`. -/
def handleOf (p g i : Nat) : Word := word (at' p 58 6 + at' g 25 33 + at' i 0 25)

/-- Whether an index is enabled (R66). -/
def enabled (s : State) (i : Nat) : Bool := i % 8388608 < s.dict.atlasEntries / 4

/-- Answer with a status, counting `HANDLE_INVALID` and `HANDLE_STALE` (0x5010.02). -/
def deny (m : Msg) (st : Status) (s : State) : State :=
  let s := if st == .handleInvalid || st == .handleStale then bump ctrStaleHandles s else s
  refuse m st s

/-- What a lookup gives: the index, or the status of the first check that fails. -/
inductive Found where
  | bad (st : Status) | at_ (i : Nat)
  deriving DecidableEq, Repr

/-- Checks 1 to 4 of R69. -/
def lookupEntry (s : State) (h : Word) : Found :=
  let i := handleIndex h
  let e := (sessAt s i).entry
  if h = 0 || !enabled s i then .bad .handleInvalid
  else if handleGeneration h ≠ e.generation then .bad .handleStale
  else if e.state == .free then .bad .handleStale
  else if handlePartition h ≠ e.partition then .bad .partitionMismatch
  else .at_ i

/-- Checks 1 to 6 of R69 for a message on queue pair `n`. `tornOk` is whether R265 step 1 still applies the command. -/
def lookup (s : State) (n : Nat) (h : Word) (tornOk : Bool) : Found :=
  match lookupEntry s h with
  | .bad st => .bad st
  | .at_ i =>
    let c := (sessAt s i).record.context
    if (qpAt s n).context ≠ c then .bad .contextDenied
    else if (ctxAt s c).tornDown && !tornOk then .bad .contextTornDown
    else .at_ i

/-- The lookup's traces: the Atlas lookup, and the record through the map cache for check 5 (R69). -/
def traceLookup (h : Word) (s : State) : State :=
  match lookupEntry s h with
  | .bad _ => pmu { code := 0x0D, requester := some 0x122 } s
  | .at_ i =>
    let x := sessAt s i
    let pv : Priv := .context x.record.context
    touchLine x.entry.partition (recordAddr s i) pv (pmu { code := 0x0D, priv := pv, requester := some 0x122 } s)

/-- The status that matches a tombstone's reason. -/
def reasonStatus : Reason → Status
  | .expired => .sessionExpired
  | .migrated => .sessionMigrated
  | _ => .sessionCancelled

/-- The status that a state returns to a command it does not accept (the transition table); `ok` where none is given. -/
def stateStatus (x : Session) : Status :=
  match x.entry.state with
  | .active => .stepInFlight
  | .parked => .sessionParked
  | .moving => .sessionMoving
  | .frozen => .sessionFrozen
  | .faulted => .sessionFaulted
  | .tombstone => reasonStatus x.record.reason
  | .free => .handleStale
  | _ => .ok

/-- The session state code (R64). -/
def stateCode : SessState → Nat
  | .free => 0 | .ready => 1 | .active => 2 | .waiting => 3 | .parked => 4 | .moving => 5 | .frozen => 6 | .faulted => 7 | .tombstone => 8

/-- The reason code. -/
def reasonCode : Reason → Nat
  | .none => 0 | .hostPark => 1 | .demoted => 2 | .preempted => 3 | .deadEnd => 4 | .cancelled => 5 | .expired => 6 | .migrated => 7

/-- Whether this module may allocate an index (R466). -/
def ownIndex (s : State) (i : Nat) : Bool :=
  doublesEnableVal s != 1 || s.pair.state == .takenOver ||
  (if nodeIdVal s < partnerNodeVal s then i % 2 == 0 else i % 2 == 1)

/-- The entry that R63 allocates in quarter `q`: one never used, lowest first, then the one free longest (log entry 5). -/
def allocInQuarter (s : State) (q : Nat) : Option Nat :=
  let lo := q * 8388608
  let fit (i : Nat) : Bool := i / 8388608 == q && enabled s i && ownIndex s i && !(sessAt s i).withheld
  match (leastFrom (fun i => (Tab.find s.sessions i).isNone && (ownIndex s i || !enabled s i)) lo (2 * s.sessions.length + 2)).filter fit with
  | some i => some i
  | none => s.freed.find? fit

/-- The entry that R63 allocates next. -/
def allocIndex (s : State) : Option Nat := (List.range 4).findSome? (allocInQuarter s)

/-- Non-FREE entries of a partition. -/
def nonFree (s : State) (p : Nat) : Nat :=
  (s.sessions.filter (fun e => e.2.entry.state != .free && e.2.entry.partition == p)).length

/-- A message whose grant another event holds waits in ingress (R24). -/
def holdMsg (m : Msg) (s : State) : State := { s with ingress := s.ingress ++ [m] }

/-- Whether an `ADMIT` or `FORK` of a ring home that awaits its members holds a grant (R698): `hit` is given its opcode and the session that it
allocated. -/
def grantHeld (s : State) (hit : BitVec 16 → Session → Bool) : Bool :=
  s.ringWaits.any (fun w => (w.opcode == 0x0101 || w.opcode == 0x0106) && hit w.opcode (sessAt s w.index))

/-- The grants of R698: a partition's admission element, a context's element (R557), a model slot's (R150), a parent's Atlas element. -/
def admissionHeld (s : State) (p : Nat) : Bool := grantHeld s (fun _ x => x.entry.partition == p)
def contextHeld (s : State) (c : Nat) : Bool := grantHeld s (fun o x => o == 0x0101 && x.record.context == c)
def slotHeld (s : State) (k : Nat) : Bool := grantHeld s (fun o x => o == 0x0101 && x.record.modelSlot == k)
def entryHeld (s : State) (i : Nat) : Bool := grantHeld s (fun o x => o == 0x0106 && handleIndex x.record.parent == i)

/-- Allocate entry `i` to a new session with its record (R61, R78). -/
def occupy (i p : Nat) (st : SessState) (r : Record) (s : State) : State :=
  let old := sessAt s i
  let g := if old.entry.generation ≥ 8589934591 then 1 else old.entry.generation + 1
  setSess i
    { entry := { state := st, partition := p, generation := g, conf := (ctxAt s r.context).mode == .confidential },
      record := { r with handle := handleOf p g i, createdNs := now s } }
    { s with freed := s.freed.erase i }

/-- Start a session's timer at a deadline, or none (R87 to R89). -/
def startTimer (i : Nat) (ns : Option Nat) (s : State) : State :=
  modSess i (fun x => { x with timerOn := ns.isSome, record.timerNs := ns.getD 0 }) s

/-- Stop a session's timer. -/
def stopTimer (i : Nat) (s : State) : State := startTimer i none s

/-- The time that is left on a session's timer. -/
def timerLeft (s : State) (i : Nat) : Option Nat :=
  let x := sessAt s i
  if x.timerOn then some (x.record.timerNs - now s) else none

/-- Enter WAITING and start the demotion timer (R87, R88): `ms` is a time that the `WAIT` carried. -/
def enterWaiting (i : Nat) (ms : Option Nat) (s : State) : State :=
  let x := sessAt s i
  let d := if x.record.demoteMs = 0 then demoteMsVal s x.entry.partition else x.record.demoteMs
  let t := ms.getD d
  startTimer i (if t = 0 then none else some (now s + t * 1000000))
    (modSess i (fun y => { y with entry.state := .waiting, record.reason := .none }) s)

/-- The tile bytes that one decode step of `len` positions reads (the admission formulas). -/
def stepBytes (m : Model) (len : Nat) : Nat :=
  let h := shapeOf m
  ((List.range m.layers).map (fun l =>
    let e := m.entries.getD l {}
    let a := if e.window = 0 then len + 1 else min (len + 1) (e.window + e.sinks)
    h.heads * h.slices * ceilDiv a 16 * 4096)).sum

/-- The bytes of the counted sessions of a partition without a candidate (R252). -/
def countedBytes (s : State) (p : Nat) : Nat :=
  (s.sessions.map (fun e =>
    let x := e.2
    if x.entry.partition == p && x.record.cls == 0 &&
      (x.entry.state == .ready || x.entry.state == .active || x.entry.state == .waiting)
    then stepBytes (modelOf s x) x.record.length else 0)).sum

/-- Whether Tpred for `bytes` exceeds the goal (R253); with ρ 100 it is unbounded. -/
def overGoal (s : State) (p bytes : Nat) : Bool :=
  let n := (partFielders s p).length
  bytes * 100 > lcStepGoalUsVal s p * n * 40000 * (100 - (partAt s p).rho)

/-- The rest of admission once a candidate's frames have been allocated (R254). -/
def fits (s : State) (p : Nat) : Bool := (partFielders s p).all (fun f => frameLowWaterVal s p ≤ freeFrames s f)

/-- Admission control (R252 to R255): `alloc` allocates the candidate's frames. A refusal leaves the state but for its counter. -/
def admission (p cls bytes : Nat) (alloc : State → Option State) (s : State) : Option State × State :=
  if cls = 0 && overGoal s p (countedBytes s p + bytes) then (none, bump ctrGoalRefusals s)
  else match alloc s with
    | some t => if fits t p then (some t, s) else (none, bump ctrFitRefusals s)
    | none => (none, bump ctrFitRefusals s)

/-- Take the root frame of a new session (R125). -/
def allocRoot (i : Nat) (s : State) : Option State :=
  (allocMapFrame i (i % (max (partFielders s (sessAt s i).entry.partition).length 1)) s).map (fun fs =>
    modSess i (fun x => { x with root := some fs.1, record.mapTier := 0, record.mapAddr := hbmAddr fs.1 0 }) fs.2)

/-- The words of a session record (the session record table). -/
def recordWords (x : Session) : List Word :=
  let r := x.record
  [r.handle,
   word (at' r.context 52 12 + at' r.cls 51 1 + at' (stateCode r.returnState) 48 3 + at' r.modelSlot 40 8 + at' (reasonCode r.reason) 32 8 +
     at' r.innings 0 32),
   word (at' r.stepSeq 32 32 + at' r.length 0 32),
   word (at' r.mapTier 62 2 + at' r.mapAddr 0 62),
   r.parent,
   word (at' r.childCount 32 32 + at' r.prefixLen 0 32),
   word r.createdNs, word r.lastStepNs, word r.timerNs,
   word (at' r.demoteMs 32 32 + at' r.ttlS 0 32),
   r.flags,
   word (at' r.faultCode 32 32 + at' r.faultFrame 0 24),
   r.grammar, r.tokenCarry,
   word (at' r.residentPages 32 32 + at' r.totalPages 0 32),
   r.lease, r.seqLists] ++ List.replicate 15 0

/-- The word of an Atlas entry. -/
def entryWord (x : Session) : Word :=
  let e := x.entry
  word (at' (stateCode e.state) 60 4 + at' e.partition 54 6 + at' e.generation 21 33 + at' x.record.innings 5 16 + flagAt e.mirrored 4 +
    flagAt e.conf 3 + flagAt e.cancelPending 2 + flagAt e.waitPending 1 + flagAt e.reviving 0)

end Sys2Proof.Machine
end

