-- ==== Sys2Proof/Machine/Life.lean ====
section
/-!
DEFINITION. The session state machine's shared moves: ending a step, tombstones, faults, parks, migrations given up, teardown, and what
follows when frames come free (R71 to R101, R130, R131, R181, R265 to R268, R296, R299, R418).
-/
namespace Sys2Proof.Machine

/-- The partner's acknowledgement that a release of session `i` waits for, if any (R470, R472). -/
def mirrorHeld (s : State) (i seq : Nat) : Bool := mirrors s i && (sessAt s i).entry.mirrored && s.pair.acked < seq

/-- Send a message of a session, or hold it until the mirror sequence is acknowledged (R470). -/
def release (i seq : Nat) (m : Msg) (s : State) : State :=
  if mirrorHeld s i seq then bump ctrMirrorWaits { s with held := s.held ++ [(seq, m)] } else sendMsg m s

/-- The `STEP_END` of a step (R435). -/
def stepEndMsg (x : Session) (st : Step) (status : Status) : Msg :=
  { qp := st.qp, opcode := 0xF002, status := status.code, tag := st.tag, handle := x.record.handle,
    args := word (at' st.seq0 32 32 + at' x.record.length 0 32) }

/-- The answer of a `DETOK_FLUSH` that acts now (R285). -/
def flushDetok (i qp : Nat) (tag : BitVec 32) (s : State) : State :=
  let x := sessAt s i
  let h := dtHeld x.record.tokenCarry
  let s := modSess i (fun y => { y with record.tokenCarry := setDt y.record.tokenCarry [] }) s
  sendMsg { qp, opcode := 0x8306, tag, handle := x.record.handle, body := (h.map (fun _ => replacement)).flatten } (bumpBy ctrDetokReplacements h.length s)

/-- Drop the mask request of a session's step. -/
def dropMask (i : Nat) (s : State) : State := { s with masks := s.masks.filter (fun r => r.index != i) }

/-- A performance event of dispatch for a session. -/
def pmuDispatch (code i : Nat) (s : State) : State :=
  let x := sessAt s i
  pmu { code, priv := .context x.record.context, requester := some 0x120, svc := some x.record.cls } s

/-- The step leaves the session, and what waited for its end acts (R285, R299). -/
def closeStep (i : Nat) (st : Step) (status : Status) (s : State) : State :=
  let s := modSess i (fun x => { x with step := none, ended := some status }) s
  let s := pmuDispatch 0x0F i (dropMask i s)
  st.flushes.foldl (fun t f => flushDetok i f.1 f.2 t) s

/-- A step that ends without effect (R82, R131, R181, R299, R435); the session's state is the caller's to set. -/
def voidStep (i : Nat) (status : Status) (s : State) : State :=
  match (sessAt s i).step with
  | none => s
  | some st =>
    let s := discardAppends i st (withdrawSess i stepMerge (dropTok st s))
    let s := if status == .stepRestart then
        bump ctrStepRestarts (modSess i (fun x => { x with record.flags := x.record.flags ||| 8 }) s)
      else s
    let s := closeStep i st status s
    sendMsg (stepEndMsg (sessAt s i) st status) s

/-- Release the frames of circulating ring-prefill blocks that `drop` names by key (R190). -/
def dropPass (i : Nat) (drop : Nat → Bool) (s : State) : State :=
  let x := sessAt s i
  let s := (x.passPages.filter (fun e => drop e.1)).foldl (fun t e => dropRef e.2 t) s
  modSess i (fun y => { y with passPages := y.passPages.filter (fun e => !drop e.1) }) s

/-- Forget a session's query blocks and ring work; their merge's assignments are withdrawn. -/
def dropBlock (i : Nat) (s : State) : State :=
  let x := sessAt s i
  let s := withdrawSess i (fun m => !stepMerge m) s
  if x.qblock.isNone && x.qwait.isEmpty && x.ringWork.isEmpty && x.passPages.isEmpty && x.passTodo.isEmpty then s
  else dropPass i (fun _ => true) (modSess i (fun x => { x with
    qblock := none, qwait := [], ringWork := [], passTodo := [], passLeft := 0, passEarly := 0 }) s)

/-- Send `PARK_DONE` for a park that a `PARK` started (R694). -/
def parkNotice (i : Nat) (p : ParkMove) (status : Status) (s : State) : State :=
  match p.cmd with
  | none => s
  | some (qp, tag) => notify qp 0xF00D tag (sessAt s i).record.handle status 0 [] [] s

/-- Send `MIGRATE_DONE` to the source's host (R80, R463). -/
def migrateNotice (i : Nat) (m : SourceMove) (status : Status) (new : Word) (s : State) : State :=
  notify m.qp 0xF007 m.tag (sessAt s i).record.handle status 0 [new] [] s

/-- The next tag for a request of the module's own. -/
def nextTag (s : State) : BitVec 32 × State := (BitVec.ofNat 32 s.tagCount, { s with tagCount := s.tagCount + 1 })

/-- Open a response wait (R427). -/
def openWait (w : Wait) (s : State) : State :=
  { s with waits := Tab.put s.waits ((leastUnused (Tab.keys s.waits) 0 (2 ^ 32)).getD 0) w }

/-- Send a peer request and wait for its answer (R427). -/
def askPeer (node qp : Nat) (handle : Word) (c : WaitFor) (p : PeerMsg) (s : State) : State :=
  let (tag, s) := nextTag s
  openWait { consumer := c, qp, tag } (sendPeer node qp tag handle none p s)

/-- A migration ends without success at its source (R464): the destination is told to abort and the host that it failed. -/
def failMigration (i : Nat) (m : SourceMove) (s : State) : State :=
  let s := { s with waits := s.waits.filter (fun w => w.2.consumer != .migrateOpen i) }
  let s := if m.opened then askPeer m.node (migrateQp m.node) m.newHandle .none (.migrateAbort m.newHandle) s else s
  migrateNotice i m .migrateFailed 0 (bump ctrMigrationsFailed s)

/-- Give up a session's move (R74, R354, R464, R694): `status` is how a commanded park ended. -/
def abandonMove (i : Nat) (status : Status) (s : State) : State :=
  match (sessAt s i).move with
  | none => s
  | some (.park p) =>
    let s := freeParkSlots p (dropTransfers i s)
    parkNotice i p status (modSess i (fun x => { x with move := none }) s)
  | some (.source m) => failMigration i m (modSess i (fun x => { x with move := none }) s)
  | some (.dest _) => modSess i (fun x => { x with move := none }) s

/-- End a revival: slots that the session's page map no longer names are freed (log entry 30). -/
def dropRevive (i : Nat) (s : State) : State :=
  let x := sessAt s i
  match x.revive with
  | none => s
  | some v =>
    let s := (v.slots.filter (fun e => !(pageAt x e.1).homeValid || ((pageAt x e.1).homeTier + 1, (pageAt x e.1).homeSlot) != e.2)).foldl (fun t e => freeHome e.2.1 e.2.2 t) s
    modSess i (fun y => { y with revive := none }) s

/-- The entry and record of a session that has become TOMBSTONE (R86). -/
def markTombstone (i : Nat) (r : Reason) (s : State) : State :=
  let x := sessAt s i
  stopTimer i (setSess i
    { x with
      entry := { x.entry with state := .tombstone, cancelPending := false, waitPending := false, reviving := false }
      record.reason := r
      move := none
      beneath := []
      beneathMap := false
      tombAt := now s } s)

/-- A session that has become TOMBSTONE no longer counts among its parent's children (R86, R95). -/
def leaveParent (i : Nat) (s : State) : State :=
  let p := (sessAt s i).record.parent
  let j := handleIndex p
  let y := sessAt s j
  if p ≠ 0 && y.entry.generation == handleGeneration p && y.entry.state != .free then
    modSess j (fun y => { y with record.childCount := y.record.childCount - 1 }) s
  else s

/-- Enter TOMBSTONE (R86, R275, R352). -/
def toTombstone (i : Nat) (r : Reason) (s : State) : State :=
  let s := dropCopy i (dropRevive i (dropBlock i (dropTransfers i s)))
  let s := releaseSegments i (releaseMap i (releasePages i (releaseHomes i s)))
  mirrorUpdate i (leaveParent i (markTombstone i r s))

/-- Where a park goes: the pool in a mirrored partition (R471); in the flat window host memory up to its limit (R361). -/
def parkTier (s : State) (p want : Nat) : Nat :=
  if doublesEnableVal s == 1 && mirrorPartVal s p == 1 then 2
  else if flatWindowVal s p == 1 then
    let lim := flatHostSlotsVal s p
    let held := ((s.sessions.filter (fun e => e.2.entry.partition == p)).map (fun e =>
      (e.2.pages.filter (fun q => q.2.homeValid && q.2.homeTier == 0)).length + (e.2.mapHome.filter (fun h => h.1 == 1)).length +
      (match e.2.move with
        | some (.park q) => if q.tier = 1 then q.slots.length + q.mapSlots.length else 0
        | _ => 0))).sum
    if lim = 0 || held < lim then 1 else 2
  else want

/-- The state to which a moved or frozen session returns (R73). -/
def returnOf : SessState → SessState
  | .waiting => .waiting
  | .parked => .parked
  | _ => .ready

/-- Enter MOVING for a park (R73, R353). -/
def startPark (i want : Nat) (r : Reason) (cmd : Option (Nat × BitVec 32)) (s : State) : State :=
  let x := sessAt s i
  let p : ParkMove := { tier := parkTier s x.entry.partition want, reason := r, cmd, todo := residentKeys x }
  let s := stopTimer i (setSess i
    { x with
      entry := { x.entry with state := .moving, waitPending := false }
      record.returnState := returnOf x.entry.state
      move := some (.park p) } s)
  pumpPark i (mirrorUpdate i s)

/-- Carry out one event's effects on jobs (R243). -/
def settleJobs (s : State) : State := reapJobs s

/-- The end of a step that completed or was cancelled (R81, R84, R296, R299, and the `STEP_END` row of R72). -/
def finishStep (i : Nat) (s : State) : State :=
  let x := sessAt s i
  match x.step with
  | none => s
  | some st =>
    let status : Status := if x.entry.cancelPending then .sessionCancelled else if st.deadEnd then .deadEnd else .ok
    let s := if status == .deadEnd then bump ctrDeadEnds s else s
    let s := if status == .sessionCancelled then dropTok st s else keepTok i st s
    let s := modSess i (fun y => { y with
      record.stepSeq := (y.record.stepSeq + 1) % 2 ^ 32
      record.length := y.record.length + 1
      record.lastStepNs := now s }) s
    let y := sessAt s i
    let s := mirrorItem i (.stepEnd y.record.stepSeq y.record.length y.record.grammar y.record.tokenCarry y.record.seqLists) s
    let seq := s.pair.sent
    let s := closeStep i st status s
    let s := release i seq (stepEndMsg (sessAt s i) st status) s
    if x.entry.cancelPending then bump ctrCancels (toTombstone i .cancelled s)
    else if st.deadEnd then startPark i 1 .deadEnd none s
    else if x.entry.waitPending then
      mirrorUpdate i (enterWaiting i st.waitMs (modSess i (fun y => { y with entry.waitPending := false }) s))
    else mirrorUpdate i (modSess i (fun y => { y with entry.state := .ready }) s)

/-- End a step that has no layer left to release, once its mask has been formed (log entry 26). -/
def tryEnd (i : Nat) (s : State) : State :=
  match (sessAt s i).step with
  | some st => if st.ending && st.masked then settleJobs (finishStep i s) else s
  | none => s

/-- End a step without effect and leave the session READY (R82), or TOMBSTONE where a cancel is pending, or WAITING where a wait is. -/
def restartStep (i : Nat) (status : Status) (s : State) : State :=
  let x := sessAt s i
  match x.step with
  | none => s
  | some st =>
    let s := voidStep i status s
    let s := if x.entry.cancelPending then bump ctrCancels (toTombstone i .cancelled s)
      else if x.entry.waitPending then
        mirrorUpdate i (enterWaiting i st.waitMs (modSess i (fun y => { y with entry.waitPending := false }) s))
      else mirrorUpdate i (modSess i (fun y => { y with entry.state := .ready }) s)
    settleJobs s

/-- Whether the way to a node is cut: its ring queue pair is in ERROR, or its route leaves by a port that is not UP (R462). -/
def nodeLost (s : State) (node : Nat) : Bool :=
  (qpAt s (ringQp node)).state == .error ||
  match firstHop s node with
  | some k => (portAt s k).state != .up
  | none => true

/-- The members that a step's layers need: those that hold a position of the session, or its next one. -/
def stepNeeds (s : State) (i : Nat) (st : Step) : List Nat :=
  let p := (sessAt s i).entry.partition
  match ringOf s p with
  | none => []
  | some (m, mu, g) =>
    (distinct ((List.range (st.len0 / g + 1)).map (fun j => j % m))).filterMap (fun k =>
      if k == mu then none else some (ringNodeBaseVal s p + k))

/-- End the steps of ring homes that need a lost member (R462). -/
def ringLost (s : State) : State :=
  let hit := (s.sessions.filter (fun e => match e.2.step with
    | some st => e.2.ringHome.isNone && (stepNeeds s e.1 st).any (nodeLost s)
    | none => false)).map Prod.fst
  hit.foldl (fun t i => restartStep i .stepRestart (bump ctrRingStepRestarts t)) s

/-- Apply `FAULT` to a session (R72, R264, R386). -/
def faultSession (i code : Nat) (s : State) : State :=
  let x := sessAt s i
  if x.entry.state == .free || x.entry.state == .faulted || x.entry.state == .tombstone then s
  else
    let s := voidStep i .sessionFaulted (dropBlock i s)
    let s := dropCopy i (dropRevive i (dropTransfers i (abandonMove i .sessionFaulted s)))
    let s := stopTimer i (modSess i (fun y => { y with
      entry := { y.entry with state := .faulted, cancelPending := false, waitPending := false }
      record.faultCode := code
      beneath := []
      beneathMap := false }) s)
    mirrorUpdate i (bump ctrSessionFaults s)

/-- Release the mark of a work request's slot. -/
def freeWr (n : Nat) (s : State) : State := { s with wrs := Tab.drop s.wrs n }

/-- A port without a queue pair's packets in its class queues. -/
def dropQueued (n : Nat) (p : Port) : Port :=
  { p with classes := Tab.mapVals p.classes (fun e => { e with queue := e.queue.filter (fun x => x.cameBy.isSome || pktSrcQp x.packet != n) }) }

/-- A queue pair enters ERROR with a status (R418). -/
def qpToError (n : Nat) (st : Status) (s : State) : State :=
  let q := qpAt s n
  let s := setQp n { q with state := .error, errorStatus := st.code, unacked := [], backlog := [], stored := [], assembling := none,
                            timer := none, oldest := none } s
  let s := { s with wrs := s.wrs.filter (fun e => bits (e.2.words.getD 0 0) 47 32 != n), masks := s.masks.filter (fun r => r.qp != n),
                    held := s.held.filter (fun h => h.2.qp != n)
                    ports := Tab.mapVals s.ports (dropQueued n) }
  let hit := (s.sessions.filter (fun e => match e.2.step with | some t => t.qp == n | none => false)).map Prod.fst
  let s := hit.foldl (fun t i => restartStep i .stepRestart t) s
  let blocks := (s.sessions.filter (fun e => (e.2.qblock.toList ++ e.2.qwait).any (fun b => b.qp == n))).map Prod.fst
  let s := blocks.foldl (fun t i => dropBlock i t) s
  notify 0 0xF005 0 0 .ok 0 [word n, word st.code.toNat] [] (bump ctrQpErrors s)

/-- Tear a context down (R265, R267): jobs and steps, queue pairs, then the sessions. -/
def teardown (c : Nat) (s : State) : State :=
  if (ctxAt s c).tornDown then s
  else
    let s := { s with contexts := Tab.put s.contexts c { ctxAt s c with tornDown := true }, lastTeardown := c }
    let s := alert .teardown (bump ctrContextTeardowns s)
    let mine (x : Session) : Bool := x.record.context == c && x.entry.state != .free
    let s := ((s.sessions.filter (fun e => mine e.2)).map Prod.fst).foldl (fun t i => voidStep i .sessionFaulted (dropBlock i t)) s
    let s := ((s.jobs.filter (fun e => e.2.context == c)).map Prod.fst).foldl (fun t j => endJob j t) s
    let s := tearCompass c s
    let s := (Tab.keysWhere s.qps (fun q => q.created && q.bound && q.context == c && q.state != .error)).foldl (fun t n => qpToError n .contextTornDown t) s
    settleJobs (((s.sessions.filter (fun e => mine e.2)).map Prod.fst).foldl (fun t i => faultSession i 3 t) s)

/-- Whether a model slot has a layer that uses a rotary table (R166). -/
def usesRope (m : Model) (table : Nat) : Bool := (m.entries.take m.layers).any (fun e => e.ropeOn && e.ropeTable == table)

/-- Whether session `i`'s step waits for a rotary load that was granted before the step opened (R166). -/
def ropeHeld (s : State) (i : Nat) : Bool :=
  match (sessAt s i).step with
  | none => false
  | some st => s.ropeLoads.any (fun l => l.order < st.ropeSeq && usesRope (modelOf s (sessAt s i)) l.table)

/-- Whether an append waits for the tiles of a shared page that it must copy, not for a frame (R130, R134). -/
def pageComing (s : State) (i : Nat) (h : Shape) (layer lp : Nat) : Bool :=
  (List.range h.heads).any (fun hd =>
    let e := pageAt (sessAt s i) (pageKey h layer hd (lp / h.run))
    filling s e && 1 < (frameAt s e.frame).refCount)

/-- Append one layer of a step and go on, or wait for a frame (R26, R128, R130, R460): no head is written until every one can be (log entry 58). -/
def appendLayer (i : Nat) (s : State) : State :=
  let x := sessAt s i
  match x.step with
  | none => s
  | some st =>
    let h := sessShape s i
    let p := x.entry.partition
    let row (ph : LayerPhase) (t : State) (fresh : List Nat) (n : Nat) : State :=
      modSess i (fun y => { y with step := some { st with
        phase := ph, freshPages := st.freshPages ++ fresh, layersAppended := n, mirrorAt := t.pair.sent } }) t
    if !holdsPos s p st.len0 then
      match ringOf s p with
      | some (m, _, g) =>
        let node := ringNodeBaseVal s p + ringHolder m g st.len0
        row .appended (sendPeer node (ringQp node) 0 x.record.handle (confOf s i)
          (.ringAppend { home := x.record.handle, layer := st.layer, position := st.len0, kv := st.kv }) s) [] st.layersAppended
      | none => s
    else
      let lp := localPos s p st.len0
      match appendRow i st.layer lp lp st.kv s with
      | some t =>
        let fresh := ((List.range h.heads).map (fun hd => pageKey h st.layer hd (lp / h.run))).filter (fun k => (pageAt x k).tier == 3)
        row .appended t fresh (st.layer + 1)
      | none =>
        modSess i (fun y => { y with step := some { st with
          phase := .waitFrame
          waitUntil := if pageComing s i h st.layer lp then none else st.waitUntil.orElse (fun _ => some (now s + appendWaitMsVal s * 1000000)) } }) s

/-- Try again the appends that wait for a frame, lowest index first (R130). -/
def retryAppends (s : State) : State :=
  ((s.sessions.filter (fun e => match e.2.step with | some st => st.phase == .waitFrame | none => false)).map Prod.fst).foldl
    (fun t i => appendLayer i t) s

/-- Let the steps that waited for a rotary load go on (R166). -/
def retryRope (s : State) : State :=
  ((s.sessions.filter (fun e => match e.2.step with | some st => st.phase == .waitRope | none => false)).map Prod.fst).foldl
    (fun t i => if ropeHeld t i then t else appendLayer i t) s

/-- What follows an event that may have freed frames or ended steps: appends that waited go on, jobs that are over end. -/
def settle (s : State) : State := settleJobs (retryAppends s)

end Sys2Proof.Machine
end

