-- ==== Sys2Proof/Machine/SessionCmds.lean ====
section
/-!
DEFINITION. The session commands: `WAIT`, `RESUME`, `PARK`, `FORK`, `CANCEL`, `FREEZE`, `THAW`, `MIGRATE`, `SESSION_SET`, `RECORD_READ`,
`LINEAGE` and `ADMIT` (chapter 03, R72 to R99; R694, R696; R457 to R459).
-/
namespace Sys2Proof.Machine

/-- A session command: the gate, the checks of R69 and R467, then its meaning on session `i`, once its Atlas element is free (R698). -/
def sessionCmd (f : Form) (tornOk : Bool) (m : Msg) (bad : Bool) (h : Nat → State → State) (s : State) : State :=
  request f m bad (fun t =>
    let t := traceLookup m.handle t
    match lookup t m.qp m.handle tornOk with
    | .bad st => deny m st t
    | .at_ i =>
      if (sessAt t i).shadow.isSome then refuse m .sessionShadow t
      else if entryHeld t i then holdMsg m t
      else h i t) s

/-- Nodes of a partition's ring but this one, with their member numbers (R456). -/
def ringMembers (s : State) (p : Nat) : List (Nat × Nat) :=
  match ringOf s p with
  | none => []
  | some (m, mu, _) => ((List.range m).filter (· != mu)).map (fun k => (k, ringNodeBaseVal s p + k))

/-- Send a `RING_CMD` to each of some members and wait for their answers (R458). -/
def fanRing (i : Nat) (op : BitVec 16) (ops : List Word) (members : List (Nat × Nat)) (s : State) : State :=
  members.foldl (fun t k =>
    askPeer k.2 (ringQp k.2) (sessAt t i).record.handle (.ring i k.1)
      (.ringCmd { home := (sessAt t i).record.handle, opcode := op, ops, length := (sessAt t i).record.length }) t) s

/-- Answer a command once it has been applied; a ring home first applies it on every member (R458). -/
def answerRing (i : Nat) (m : Msg) (a : Status) (s : State) : State :=
  let x := sessAt s i
  let ms := ringMembers s x.entry.partition
  if a != .ok || ms.isEmpty || x.ringHome.isSome then refuse m a s
  else
    let s := fanRing i m.opcode m.ops ms s
    { s with ringWaits := s.ringWaits ++ [{ index := i, qp := m.qp, tag := m.tag, opcode := m.opcode, answer := m.handle,
                                            got := [], left := ms.map Prod.fst }] }

/-- `WAIT` (R72, R88): `ms` is the demotion time it carries. -/
def applyWait (i : Nat) (ms : Option Nat) (s : State) : Status × State :=
  let x := sessAt s i
  match x.entry.state with
  | .ready => (.ok, mirrorUpdate i (enterWaiting i ms s))
  | .active => (.ok, mirrorUpdate i (modSess i (fun y => { y with
      entry.waitPending := true, step := y.step.map (fun st => { st with waitMs := ms }) }) s))
  | .waiting => (.ok, s)
  | _ => (stateStatus x, s)

/-- The frames of a reviving session, in the order of R260: its root, then for each layer its leaves and its pages. A map and pages that lie
in HBM, as a migration leaves them with a PARKED session, stay where they are. -/
def reviveFrames (i : Nat) (s : State) : Option State :=
  let x := sessAt s i
  let h := sessShape s i
  let p := x.entry.partition
  let leaf (r : Nat) (t : State) : Option State :=
    let k := r % h.lambda
    let lh := r / h.lambda
    (allocMapFrame i (leafStart t p i h (lh / h.heads) (lh % h.heads) k) t).map (fun fs =>
      modSess i (fun y => { y with leaves := Tab.put y.leaves r fs.1 }) fs.2)
  let page (k : Nat) (t : State) : Option State :=
    if (pageAt x k).tier = 0 || (pageAt x k).tier = 3 then some t
    else (pageFielder t p i h (keyLayer h k) (keyHead h k) (keyPage h k)).bind (fun fl =>
      (allocFrame fl { state := .filling, context := x.record.context, refCount := 1, owner := i } t).map (fun fs =>
        putPage i k { pageAt (sessAt fs.2 i) k with tier := 0, frame := fs.1 } fs.2))
  let layer (t : Option State) (l : Nat) : Option State :=
    let rs := (Tab.keys x.leaves).filter (fun r => x.root.isNone && r / h.lambda / h.heads == l)
    let ks := (Tab.keys x.pages).filter (fun k => keyLayer h k == l)
    let t := rs.foldl (fun t r => t.bind (leaf r)) t
    ks.foldl (fun t k => t.bind (page k)) t
  (List.range h.layers).foldl layer (if x.root.isSome then some s else allocRoot i s)

/-- What a revival fetches, in the order of R260. -/
def revivePlan (h : Shape) (x : Session) : List (Nat × Nat) :=
  (if x.root.isSome then [] else [(0, 0)]) ++ ((List.range h.layers).map (fun l =>
    ((Tab.keys x.leaves).filter (fun r => x.root.isNone && r / h.lambda / h.heads == l)).map (fun r => (1, r)) ++
    ((Tab.keysWhere x.pages (fun e => e.tier != 0 && e.tier != 3)).filter (fun k => keyLayer h k == l)).map (fun k => (2, k)))).flatten

/-- `RESUME` of a PARKED session that admission approves (R76, R77, R260, R261). -/
def revive (i : Nat) (x : Session) (t : State) : State :=
  let t := if (x.copy.map (fun c => c.key.isNone)).getD false then dropCopy i t else t
  let same := t.sessions.filterMap (fun e => if e.2.record.cls == x.record.cls then e.2.revive.map (·.turn) else none)
  stopTimer i (modSess i (fun y => { y with
    entry := { y.entry with state := .ready, reviving := y.record.residentPages != y.record.totalPages }
    record.reason := .none
    beneath := []
    beneathMap := false
    revive := some { length := x.record.length, order := t.reviveTurn, turn := same.foldl min (same.headD 0), tier := x.record.mapTier,
                     mapSlots := x.mapHome.map Prod.snd,
                     slots := (x.pages.filter (fun e => e.2.homeValid && e.2.tier != 0)).map (fun e =>
                       (e.1, (e.2.homeTier + 1, e.2.homeSlot)))
                     rootLeft := if x.root.isSome then 0 else 16
                     leafLeft := (Tab.keys x.leaves).map (fun r => (r, if x.root.isSome then 0 else 16))
                     todo := revivePlan (sessShape t i) x } }) { t with reviveTurn := t.reviveTurn + 1 })

/-- `RESUME` (R72, R76, R77, R259). -/
def applyResume (i : Nat) (s : State) : Status × State :=
  let x := sessAt s i
  match x.entry.state with
  | .ready => (.ok, s)
  | .active => (.ok, s)
  | .waiting => (.ok, mirrorUpdate i (stopTimer i (modSess i (fun y => { y with entry.state := .ready }) s)))
  | .parked =>
    match admission x.entry.partition x.record.cls (stepBytes (modelOf s x) x.record.length) (reviveFrames i) s with
    | (some t, _) => (.ok, mirrorUpdate i (revive i x t))
    | (none, s) => (.admitRefused, s)
  | .moving =>
    match x.move with
    | some (.park p) =>
      let s := abandonMove i .parkAbandoned s
      let s := modSess i (fun y => { y with entry.state := .ready }) s
      let s := if p.reason == .preempted then
          bump ctrPreemptAbandons (modSess i (fun y => { y with
            holdoffUntil := now s + preemptHoldoffMsVal s x.entry.partition * 1000000 }) s)
        else s
      (.ok, mirrorUpdate i s)
    | _ => (.sessionMoving, s)
  | _ => (stateStatus x, s)

/-- `PARK` (R72, R694). -/
def applyPark (i tier : Nat) (cmd : Option (Nat × BitVec 32)) (s : State) : Status × State :=
  let x := sessAt s i
  match x.entry.state with
  | .ready => (.ok, startPark i tier .hostPark cmd s)
  | .waiting => (.ok, startPark i tier .hostPark cmd s)
  | .parked => (.ok, s)
  | _ => (stateStatus x, s)

/-- Whether a step has no layer under way whose append has been written (R84): a restored step stands where it was captured. -/
def stepQuiet (st : Step) : Bool :=
  let ph := if st.phase == .held then st.heldPhase else st.phase
  st.ending || ph == .idle || ph == .waitFrame || ph == .waitRope

/-- `CANCEL` (R72, R84). -/
def applyCancel (i : Nat) (s : State) : Status × State :=
  let x := sessAt s i
  match x.entry.state with
  | .active =>
    let s := mirrorUpdate i (modSess i (fun y => { y with entry.cancelPending := true }) s)
    match x.step with
    | some st => if stepQuiet st then (.ok, finishStep i s) else (.ok, s)
    | none => (.ok, s)
  | .tombstone => (reasonStatus x.record.reason, s)
  | .free => (.handleStale, s)
  | _ => (.ok, bump ctrCancels (toTombstone i .cancelled (abandonMove i .sessionCancelled s)))

/-- `FREEZE` (R72, R73, R92). -/
def applyFreeze (i : Nat) (s : State) : Status × State :=
  let x := sessAt s i
  let hold (s : State) : State :=
    let left := timerLeft s i
    mirrorUpdate i (modSess i (fun y => { y with
      entry.state := .frozen, record.returnState := returnOf x.entry.state, record.timerNs := left.getD 0 }) s)
  match x.entry.state with
  | .ready => (.ok, hold s)
  | .waiting => (.ok, hold s)
  | .parked => (.ok, hold s)
  | .frozen => (.ok, s)
  | _ => (stateStatus x, s)

/-- `THAW` (R72, R92). -/
def applyThaw (i : Nat) (s : State) : Status × State :=
  let x := sessAt s i
  match x.entry.state with
  | .frozen => (.ok, mirrorUpdate i (modSess i (fun y => { y with
      entry.state := y.record.returnState
      record.timerNs := if y.timerOn then now s + y.record.timerNs else 0 }) s))
  | .faulted => (.sessionFaulted, s)
  | .tombstone => (reasonStatus x.record.reason, s)
  | _ => (.sessionNotFrozen, s)

/-- A source that its migration failed returns to the state it left (R72, R80, R464). -/
def returnSource (i : Nat) (m : SourceMove) (s : State) : State :=
  let s := failMigration i m (dropTransfers i (modSess i (fun y => { y with move := none }) s))
  let back := (sessAt s i).record.returnState
  mirrorUpdate i (if back == .waiting then enterWaiting i none s
    else startTimer i (m.remaining.map (· + now s)) (modSess i (fun y => { y with entry.state := back }) s))

/-- `MIGRATE` of a session whose state accepts it (R459, R463, R696). A `CANCEL` or `WAIT` that an ACTIVE session had accepted is dropped (log
entry 58). -/
def applyMigrate (i node part qp : Nat) (tag : BitVec 32) (s : State) : Status × State :=
  let x := sessAt s i
  let go (s : State) : State :=
    let left := timerLeft s i
    let m : SourceMove := { node, part, qp, tag, remaining := if x.entry.state == .parked then left else none }
    let s := stopTimer i (modSess i (fun y => { y with
      entry := { y.entry with state := .moving, waitPending := false, cancelPending := false }
      record.returnState := returnOf x.entry.state
      move := some (.source m) }) s)
    let y := sessAt s i
    if (ringOf s x.entry.partition).isSome then returnSource i m s
    else
      mirrorUpdate i (askPeer node (migrateQp node) y.record.handle (.migrateOpen i)
        (.migrateOpen { record := { y.record with timerNs := left.getD 0 }, partition := part, modelTag := (modelOf s y).tag,
                        imageTags := boundTags s y, key := keyOf s i,
                        pages := y.pages.filter (fun e => e.2.homeValid && e.2.homeTier == 1) }) s)
  match x.entry.state with
  | .ready => (.ok, go (dropBlock i s))
  | .waiting => (.ok, go s)
  | .parked => (.ok, go s)
  | .active => (.ok, go (voidStep i .stepRestart s))
  | _ => (stateStatus x, s)

/-- `WAIT` (R72, R87, R88). -/
def execWait (m : Msg) (s : State) : Out :=
  .next (sessionCmd { opcode := 0x0103, on := .bound, most := 1, setup := true } false m false
    (fun i t =>
      let r := applyWait i (if opWord m 0 = allOnes then none else some (opNat m 0)) t
      refuse m r.1 r.2) s)

/-- `RESUME` (R72, R76, R77, R458). -/
def execResume (m : Msg) (s : State) : Out :=
  .next (sessionCmd { opcode := 0x0104, on := .bound, setup := true } false m false
    (fun i t =>
      if (sessAt t i).entry.state == .parked && admissionHeld t (sessAt t i).entry.partition then holdMsg m t
      else
        let r := applyResume i t
        answerRing i m r.1 r.2) s)

/-- `PARK` (R72, R694, R458). A target tier other than 1 or 2 is malformed (R692). -/
def execPark (m : Msg) (s : State) : Out :=
  .next (sessionCmd { opcode := 0x0105, on := .bound, need := 1, most := 1, setup := true } false m
    (!(opNat m 0 == 1 || opNat m 0 == 2))
    (fun i t =>
      let r := applyPark i (opNat m 0) (some (m.qp, m.tag)) t
      answerRing i m r.1 r.2) s)

/-- `CANCEL` (R72, R84 to R86, R458). -/
def execCancel (m : Msg) (s : State) : Out :=
  .next (sessionCmd { opcode := 0x0107, on := .bound, setup := true } true m false
    (fun i t =>
      let r := applyCancel i t
      answerRing i m r.1 (settle r.2)) s)

/-- `FREEZE` (R72, R73, R92, R458). -/
def execFreeze (m : Msg) (s : State) : Out :=
  .next (sessionCmd { opcode := 0x0108, on := .bound, setup := true } false m false
    (fun i t =>
      let r := applyFreeze i t
      answerRing i m r.1 r.2) s)

/-- `THAW` (R72, R92, R458). -/
def execThaw (m : Msg) (s : State) : Out :=
  .next (sessionCmd { opcode := 0x0109, on := .bound, setup := true } false m false
    (fun i t =>
      let r := applyThaw i t
      answerRing i m r.1 r.2) s)

/-- `MIGRATE` (R696, R463, R459): the destination is judged before the session's state. -/
def execMigrate (m : Msg) (s : State) : Out :=
  .next (sessionCmd { opcode := 0x010A, on := .bound, need := 2, most := 2, setup := true } false m (opNat m 1 > 63)
    (fun i t =>
      if opNat m 0 == nodeIdVal t || !nodeInTopology t (opNat m 0) then refuse m .nodeInvalid t
      else
        let r := applyMigrate i (opNat m 0) (opNat m 1) m.qp m.tag t
        refuse m r.1 (settle r.2)) s)

/-- `SESSION_SET` (R68, R70, R93, R693). -/
def execSessionSet (m : Msg) (s : State) : Out :=
  let mask := opWord m 0
  .next (sessionCmd { opcode := 0x010B, on := .bound, need := 5, most := 5, setup := true } false m
    ((bit mask 0 && opNat m 1 > 1) || (bit mask 1 && opNat m 2 ≥ 2 ^ 32) || (bit mask 2 && opNat m 3 ≥ 2 ^ 32))
    (fun i t =>
      let x := sessAt t i
      if x.entry.state == .tombstone then refuse m (reasonStatus x.record.reason) t
      else
        let r := x.record
        let r := if bit mask 0 then { r with cls := opNat m 1 } else r
        let r := if bit mask 1 then { r with demoteMs := opNat m 2 } else r
        let r := if bit mask 2 then { r with ttlS := opNat m 3 } else r
        let r := if bit mask 3 then { r with flags := r.flags &&& ~~~(opWord m 4) } else r
        refuse m .ok (mirrorUpdate i (setSess i { x with record := r } t))) s)

/-- `RECORD_READ` (R70): the 256 bytes of the record. -/
def execRecordRead (m : Msg) (s : State) : Out :=
  .next (sessionCmd { opcode := 0x010C, on := .bound, setup := true } true m false
    (fun i t => respond m { body := wordsBytes (recordWords (sessAt t i)) } t) s)

/-- The ancestors of a session, nearest first, and whether the walk met a broken link (R98, R99). -/
def lineage (s : State) : Nat → Word → List (Word × SessState) × Bool
  | 0, _ => ([], false)
  | fuel + 1, h =>
    if h = 0 then ([], false)
    else
      let x := sessAt s (handleIndex h)
      if x.entry.generation ≠ handleGeneration h || x.entry.state == .free then ([], true)
      else
        let (l, b) := lineage s fuel x.record.parent
        ((x.record.handle, x.entry.state) :: l, b)

/-- `LINEAGE` (R98, R99): operand word 0 of the answer is `LINEAGE_BROKEN`, then a list of handle and state (log entry 22). -/
def execLineage (m : Msg) (s : State) : Out :=
  .next (sessionCmd { opcode := 0x010D, on := .bound, setup := true } true m false
    (fun i t =>
      let (l, b) := lineage t 64 (sessAt t i).record.parent
      let t := if b then bump ctrLineageBreaks t else t
      respond m { ops := [word (if b then 1 else 0)],
                  body := wordsBytes (word l.length :: (l.map (fun a => [a.1, word (stateCode a.2)])).flatten) } t) s)

/-- The context that `ADMIT` names, judged by checks 1 to 9 of R79. -/
def admitCheck (s : State) (n p c slot : Nat) : Status :=
  let x := ctxAt s c
  if x.mode == .none then noContext c
  else if x.mode == .pending then .contextNoKey
  else if x.tornDown then .contextTornDown
  else if (qpAt s n).context ≠ c then .contextDenied
  else if p ≠ x.partition then .partitionMismatch
  else if (partFielders s p).isEmpty then .partitionEmpty
  else if ringModeVal s p == 1 && ringSizeVal s p ≤ ringMemberVal s p then .ringConfig
  else if (Tab.get s.models slot {}).layers = 0 then .modelEmpty
  else if maxSessionsVal s p ≤ nonFree s p then .atlasQuota
  else if (allocIndex s).isNone then .atlasFull
  else .ok

/-- Every other member of a ring is asked to join (R457): `parent` and `len` are a fork's parent and prefix, `refusal` what the command is
refused with once all have answered (R79). -/
def joinRing (i : Nat) (m : Msg) (parent : Word) (len : Nat) (refusal : Option (BitVec 16)) (s : State) : State :=
  let x := sessAt s i
  let ms := ringMembers s x.entry.partition
  let s := ms.foldl (fun t k =>
    askPeer k.2 (ringQp k.2) x.record.handle (.ring i k.1)
      (.ringJoin { home := x.record.handle, context := x.record.context, modelSlot := x.record.modelSlot, cls := x.record.cls, key := keyOf t i,
                   parent, prefixLen := len }) t) s
  { s with ringWaits := s.ringWaits ++ [{ index := i, qp := m.qp, tag := m.tag, opcode := m.opcode, answer := x.record.handle,
                                          got := [], left := ms.map Prod.fst, refusal }] }

/-- `ADMIT` (R78, R79, R252 to R255, R457, R698): partition, context, model slot, class, page budget. -/
def execAdmitSession (m : Msg) (s : State) : Out :=
  .next (request { opcode := 0x0101, on := .bound, need := 4, most := 5, setup := true } m (opNat m 3 > 1) (fun t =>
    let p := opNat m 0
    let c := opNat m 1
    let slot := opNat m 2
    let cls := opNat m 3
    let budget := if opWord m 4 = allOnes then 0 else opNat m 4
    if contextHeld t c || slotHeld t slot || admissionHeld t p then holdMsg m t
    else match admitCheck t m.qp p c slot, allocIndex t with
    | .ok, some i =>
      let r : Record := { context := c, cls, modelSlot := slot, innings := 1 }
      match admission p cls (stepBytes (Tab.get t.models slot {}) budget) (fun u => allocRoot i (occupy i p .ready r u)) t with
      | (some u, _) =>
        let u := mirrorUpdate i u
        if (ringMembers u p).isEmpty then respond m { handle := some (sessAt u i).record.handle } (bump ctrAdmits u)
        else joinRing i m 0 0 none u
      | (none, t) => refuse m .admitRefused t
    | st, _ => refuse m st t) s)

/-- The keys of the pages that hold the first `len` positions of session `i` (R132, R185). -/
def prefixKeys (s : State) (i len : Nat) : List Nat :=
  let x := sessAt s i
  let h := sessShape s i
  (Tab.keysWhere x.pages (fun e => e.tier != 3)).filter (fun k => globalPos s x.entry.partition (keyPage h k * h.run) < len)

/-- Give a fork its parent's pages (R132): each frame gains a reference; leaves are created under R125; every entry starts DIRTY (R511). -/
def sharePages (i : Nat) (x : Session) (keys : List Nat) (s : State) : Option State :=
  let h := sessShape s i
  keys.foldl (fun t k => t.bind (fun t =>
    (ensureLeaf i h (keyLayer h k) (keyHead h k) (keyPage h k / 8192) t).map (fun t =>
      let e := pageAt x k
      modSess i (fun y => { y with inherited := y.inherited ++ [k] })
        (putPage i k { tier := 0, dirty := true, frame := e.frame } (addRef e.frame t))))) (some s)

/-- Give a fork its own copies of the parent's stack segments, and a reserved one where the parent has one (R275). -/
def copySegments (i parent : Nat) (s : State) : Option State :=
  let x := sessAt s parent
  let own := s.segments.filter (fun e => e.2.owner == parent && x.reservedSeg != some e.1)
  let step (a : Option (State × Tab Nat)) (e : Nat × Segment) : Option (State × Tab Nat) :=
    a.bind (fun (t, ren) => (freeSegment t).map (fun k =>
      ({ t with segments := Tab.put t.segments k { e.2 with owner := i } }, Tab.put ren e.1 k)))
  (own.foldl step (some (s, []))).bind (fun (t, ren) =>
    let t := ren.foldl (fun t e =>
      { t with segments := Tab.edit t.segments e.2 (fun g => { g with below := Tab.get ren g.below g.below }) }) t
    let w := x.record.grammar
    let w := setBits w 28 9 (Tab.get ren (gTop w) (gTop w))
    let t := modSess i (fun y => { y with record.grammar := w }) t
    if x.reservedSeg.isNone then some t
    else (freeSegment t).map (fun k =>
      modSess i (fun y => { y with reservedSeg := some k }) { t with segments := Tab.put t.segments k { owner := i } }))

/-- Fill an allocated fork `c` from its parent `i` (R132, R133, R275): the prefix's pages and the stack segments. Where a leaf's frame cannot be
had, the fork is refused as for a candidate that does not fit (log entry 58). -/
def fillFork (c i : Nat) (keys : List Nat) (s : State) : Status × State :=
  let x := sessAt s i
  if keys.any (fun k => (frameAt s (pageAt x k).frame).refCount ≥ 65535) then (.refLimit, s)
  else match sharePages c x keys s with
    | none => (.admitRefused, s)
    | some u => match copySegments c i u with
      | none => (.grammarStackFull, s)
      | some u =>
        let u := modSess i (fun y => { y with record.childCount := y.record.childCount + 1 }) u
        (.ok, modSess c (fun y => { y with entry.reviving := y.record.residentPages != y.record.totalPages }) u)

/-- `FORK` (R79, R94 to R96, R132, R133, R275, R457, R698): prefix length and class. -/
def execFork (m : Msg) (s : State) : Out :=
  .next (sessionCmd { opcode := 0x0106, on := .bound, need := 2, most := 2, setup := true } false m (opNat m 1 > 1)
    (fun i t =>
      let x := sessAt t i
      let p := x.entry.partition
      if admissionHeld t p then holdMsg m t
      else if x.entry.state != .ready && x.entry.state != .waiting then refuse m (stateStatus x) t
      else if x.record.length < opNat m 0 then refuse m .prefixTooLong t
      else if maxSessionsVal t p ≤ nonFree t p then refuse m .atlasQuota t
      else match allocIndex t with
        | none => refuse m .atlasFull t
        | some c =>
          let len := if opNat m 0 = 0 then x.record.length else opNat m 0
          let r : Record := { context := x.record.context, cls := opNat m 1, modelSlot := x.record.modelSlot, innings := 1,
                              parent := x.record.handle, length := len, prefixLen := len, grammar := x.record.grammar,
                              tokenCarry := x.record.tokenCarry, seqLists := x.record.seqLists }
          match admission p r.cls (stepBytes (modelOf t x) len) (fun u => allocRoot c (occupy c p .ready r u)) t with
          | (none, t) => refuse m .admitRefused t
          | (some u, _) =>
            match fillFork c i (prefixKeys t i len) u with
            | (.admitRefused, _) => refuse m .admitRefused (bump ctrFitRefusals t)
            | (.ok, u) =>
              let u := mirrorUpdate i (syncSession c u)
              if (ringMembers u p).isEmpty then respond m { handle := some (sessAt u c).record.handle } (bump ctrAdmits u)
              else joinRing c m x.record.handle len none u
            | (st, u) => if (ringMembers u p).isEmpty then refuse m st t else joinRing c m x.record.handle len (some st.code) u) s)

end Sys2Proof.Machine
end

