-- ==== Sys2Proof/Machine/Steps.lean ====
section
/-!
DEFINITION. Steps: `STEP`, `LAYER_IN`, `QUERY_BLOCK`, `KV_EXTEND`, and the token side of a step (R26, R27, R72, R83, R129, R153, R154, R239,
R297 to R300, R434 to R438).
-/
namespace Sys2Proof.Machine

/-- Fields of an attention message's `ARGS`. -/
def argLayer (m : Msg) : Nat := bits m.args 63 56
def argFedValid (m : Msg) : Bool := bit m.args 55
def argFed (m : Msg) : Nat := bits m.args 54 34
def argCount (m : Msg) : Nat := bits m.args 33 25 + 1

/-- Bytes of one layer's new K and V (R434). -/
def kvBytes (h : Shape) : Nat := h.heads * 2 * h.d * h.e

/-- What R239 says of a message that names a job and a session. -/
def jobCheck (s : State) (j i : Nat) : Status :=
  match Tab.find s.jobs j with
  | none => .jobUnknown
  | some x => if x.closed then .jobClosed else if x.members.contains i then .ok else .notInJob

/-- The most positions that a session of a partition may hold (R129, R187). -/
def maxLength (s : State) (p : Nat) (h : Shape) : Nat :=
  match ringOf s p with
  | some (m, _, _) => min 16777216 (m * h.nMax)
  | none => h.nMax

/-- Whether a step may append at a length (R129, R187). -/
def roomAt (s : State) (p len : Nat) (h : Shape) : Bool := len < maxLength s p h && localPos s p len < h.nMax

/-- The text of a step's fed token (R283, R284, R300): `TEXT_OUT` carries the step's `STEP_SEQ` in `ARGS` [63:32] (log entry 27). -/
def sendText (i : Nat) (st : Step) (text : List Byte) (s : State) : State :=
  notify st.qp 0xF004 st.tag (sessAt s i).record.handle .ok (word (at' st.seq0 32 32)) [] text s

/-- Detokenize the fed token and send its text (step 2 of R297). -/
def feedText (i : Nat) (st : Step) (v : Vocab) (tok : Nat) (t : Tok) (s : State) : Tok × State :=
  let str := tokenString v tok
  if dtRaw t.c then (t, sendText i st str s)
  else
    let (text, held, n) := detok (dtHeld t.c) str
    ({ t with c := setDt t.c held }, sendText i st text (bumpBy ctrDetokReplacements n s))

/-- Advance the grammar and the lists on the fed token, or note the escape (step 3 of R297, R295). -/
def feedState (i tok : Nat) (t : Tok) (s : State) : Tok × State :=
  if gEscMask t.g then ({ t with g := setFlag t.g 62 true }, bump ctrEscapes s)
  else if gEscaped t.g then (t, s)
  else
    let (t, s) := match grammarOf s t.g with
      | some g => advanceGrammar g i tok t s
      | none => (t, s)
    advanceLists tok t s

/-- The token side's work at the grant of a `STEP` (R297 to R299): the step and whether the fed token passed its check. -/
def feedStep (i : Nat) (fed : Option Nat) (st : Step) (s : State) : Step × Bool × State :=
  match vocabOf s st.tokenCarry with
  | none => ({ st with masked := true }, true, s)
  | some v =>
    let t := stepTok st
    let ask (t : Tok) (s : State) : Step × Bool × State :=
      if maskMode t.c = 0 then ({ withTok t st with masked := true }, true, s)
      else (withTok t st, true, { s with masks := s.masks ++ [{ index := i, qp := st.qp, tag := st.tag, seq := st.seq0, at_ := now s }] })
    match fed with
    | none => ask t s
    | some tok =>
      let (t, s) := if maskMode t.c = 0 then (t, s) else reserveSegment i t s
      if !tokenAllowed s i v t tok then ({ withTok t st with masked := true }, false, s)
      else
        let (t, s) := feedText i st v tok t s
        let (t, s) := feedState i tok t s
        ask t s

/-- Open a step: the session becomes ACTIVE, the token side works, layer 0 is appended (R72, R26, R166, R297, R298). In ring mode it ends at
once where the way to a member that it needs is cut (R462). -/
def openStep (i : Nat) (m : Msg) (s : State) : State :=
  let x := sessAt s i
  let md := modelOf s x
  let h := sessShape s i
  let decode := match Tab.find s.jobs m.job.toNat with | some j => j.kind == .decode | none => false
  let st : Step :=
    { qp := m.qp, tag := m.tag, outQp := m.qp, outTag := m.tag, job := m.job.toNat, seq0 := x.record.stepSeq, len0 := x.record.length,
      query := slice m.body 0 (queryBytes md), kv := slice m.body (queryBytes md) (kvBytes h), grammar := x.record.grammar,
      tokenCarry := x.record.tokenCarry, seqLists := x.record.seqLists, reserved := x.reservedSeg,
      ropeSeq := s.ropeCount }
  let (st, pass, s) :=
    if decode && tokOn st.tokenCarry then feedStep i (if argFedValid m then some (argFed m) else none) st s
    else ({ st with masked := true }, true, s)
  let s := stopTimer i (modSess i (fun y => { y with
    entry := { y.entry with state := .active, cancelPending := false, waitPending := false }
    record.reason := .none
    step := some st
    ended := none }) s)
  let s := mirrorUpdate i (pmuDispatch 0x0E i s)
  if !pass then restartStep i .tokenRejected (bump ctrTokensRejected s)
  else if (stepNeeds s i st).any (nodeLost s) then restartStep i .stepRestart (bump ctrRingStepRestarts s)
  else if ropeHeld s i then modSess i (fun y => { y with step := some { st with phase := .waitRope } }) s
  else appendLayer i s

/-- `STEP` (R72, R239, R129, R434). -/
def execStep (m : Msg) (s : State) : Out :=
  .next (sessionCmd { opcode := 0x0102, on := .bound, setup := true } false m false
    (fun i t =>
      let x := sessAt t i
      let h := sessShape t i
      if x.entry.state != .ready && x.entry.state != .waiting then refuse m (stateStatus x) t
      else if jobCheck t m.job.toNat i != .ok then refuse m (jobCheck t m.job.toNat i) t
      else if !roomAt t x.entry.partition x.record.length h then refuse m .lengthLimit (bump ctrLengthLimits t)
      else if m.body.length < queryBytes (modelOf t x) + kvBytes h then refuse m .messageMalformed t
      else if storeFull t m.job.toNat (queryBytes (modelOf t x)) then holdMsg m t
      else touchJobs (openStep i m t)) s)

/-- `LAYER_IN` (R27, R83, R84, R434). -/
def execLayerIn (m : Msg) (s : State) : Out :=
  .next (sessionCmd { opcode := 0x0201, on := .bound, setup := true } false m false
    (fun i t =>
      let x := sessAt t i
      let md := modelOf t x
      let h := sessShape t i
      match x.step with
      | none =>
        if x.ended == some .stepRestart then refuse m .stepRestart t
        else if stateStatus x == .ok then refuse m .layerOrder t
        else refuse m (stateStatus x) t
      | some st =>
        if st.phase != .idle || st.ending || argLayer m != st.layer + 1 then refuse m .layerOrder t
        else if m.body.length < queryBytes md + kvBytes h then refuse m .messageMalformed t
        else if storeFull t st.job (queryBytes md) then holdMsg m t
        else
          let st := { st with
            layer := argLayer m, outQp := m.qp, outTag := m.tag
            query := slice m.body 0 (queryBytes md), kv := slice m.body (queryBytes md) (kvBytes h) }
          touchJobs (appendLayer i (modSess i (fun y => { y with step := some st }) t))) s)

/-- A tile address (the tile address table). -/
structure TileAddr where
  layer : Nat
  head : Nat
  group : Nat
  slice : Nat
  index : Nat
  deriving DecidableEq, Repr

/-- The fields of a tile address. -/
def tileAddrOf (w : Word) : TileAddr :=
  { layer := bits w 63 56, head := bits w 55 48, group := bits w 47 28, slice := bits w 27 25, index := bits w 24 0 }

/-- The word of a tile address. -/
def tileAddrWord (a : TileAddr) : Word := word (at' a.layer 56 8 + at' a.head 48 8 + at' a.group 28 20 + at' a.slice 25 3 + at' a.index 0 25)

/-- Send a tile of a block that goes round to the next member, by the session's index there (R189); it counts if the queue pair takes it. -/
def sendPass (i : Nat) (a : TileAddr) (data : List Byte) (s : State) : State :=
  let x := sessAt s i
  match ringOf s x.entry.partition with
  | none => s
  | some (m, mu, _) =>
    let qp := ringQp (ringNodeBaseVal s x.entry.partition + (mu + 1) % m)
    if !qpReady s qp then s
    else
      bump ctrRingTilesSent (sendTile qp
        { ptype := 1, addr := tileAddrWord { a with index := x.passNext.getD i }, payload := data, ringPass := true, conf := confOf s i } s)

/-- Send what can go of a session's own tiles that are to go round, in order: one on its way from a slower tier is waited for (R122, R189). -/
def pumpPass (i : Nat) : Nat → State → State
  | 0, s => s
  | fuel + 1, s =>
    let x := sessAt s i
    match x.passTodo with
    | [] => s
    | (layer, hd, j) :: rest =>
      let h := sessShape s i
      let lp := localPos s x.entry.partition (16 * j)
      let e := pageAt x (pageKey h layer hd (lp / h.run))
      let tile (sl : Nat) : Nat := ((lp % h.run) / 16) * h.slices + sl
      if e.tier = 0 && !(List.range h.slices).all (fun sl => tileThere s e.frame (tile sl)) then s
      else
        let l := pageBytes s i (pageKey h layer hd (lp / h.run))
        pumpPass i fuel (foldRange h.slices (fun t sl =>
          let data := if e.tier = 0 then slice l (tile sl * 4096) 4096 else List.replicate 4096 0
          sendPass i { layer, head := hd, group := j, slice := sl, index := i } data t) (modSess i (fun y => { y with passTodo := rest }) s))

/-- Send what can go now of a session's own tiles that are to go round. -/
def resumePass (i : Nat) (s : State) : State := pumpPass i ((sessAt s i).passTodo.length + 1) s

/-- A layer's key blocks start round the ring (R189): every tile of this module's own positions, one tile a packet, to the next member; frames
kept for blocks that its query positions turn out not to need are released (R190). Each query block starts a pass of its own (log entry 58). -/
def startPass (i layer : Nat) (s : State) : State :=
  let x := sessAt s i
  let h := sessShape s i
  let groups (mine : Bool) : List Nat :=
    (List.range ((x.record.length + 15) / 16)).filter (fun j => holdsPos s x.entry.partition (16 * j) == mine)
  if (ringOf s x.entry.partition).isNone then s
  else
    let others := h.heads * h.slices * (groups false).length
    let own := ((List.range h.heads).map (fun hd => (groups true).map (fun j => (layer, hd, j)))).flatten
    let s := modSess i (fun y => { y with
      passLayer := some layer, passLeft := others - y.passEarly, passEarly := y.passEarly - others, passTodo := y.passTodo ++ own }) s
    let s := dropPass i (fun k =>
      let lh := k / 2 ^ 21
      lh / h.heads == layer && !passNeeded s i layer (lh % h.heads) ((k % 2 ^ 21) * h.run / 512)) s
    resumePass i s

/-- A query block as it starts its work at a ring home: each member gets its positions, and the home's tiles start round (R461, R189), once for
each block (log entry 58). -/
def fanBlock (i : Nat) (b : QBlock) (s : State) : State :=
  let x := sessAt s i
  let p := x.entry.partition
  match ringOf s p with
  | none => s
  | some (m, mu, g) =>
    let qb := queryBytes (modelOf s x)
    let next (k : Nat) : Nat := if (k + 1) % m = mu then i else Tab.get x.ringPeers ((k + 1) % m) i
    let s := (ringMembers s p).foldl (fun t k =>
      let offs := (List.range b.count).filter (fun o => ringHolder m g (b.first + o) == k.1)
      sendPeer k.2 (ringQp k.2) 0 x.record.handle (confOf t i)
        (.ringQblock { home := x.record.handle, layer := b.layer, mergeTag := 0, innings := x.record.innings % 65536, first := b.first,
                       positions := offs.map (b.first + ·), query := (offs.map (fun o => slice b.query (o * qb) qb)).flatten
                       length := x.record.length, next := next k.1 }) t) s
    startPass i b.layer (modSess i (fun y => { y with passNext := some (next mu) }) s)

/-- `QUERY_BLOCK` (R154, R239, R434): one operand word, the first query position. A `LAYER` at or above `LAYERS` is `QUERY_RANGE` (log entry
58). -/
def execQueryBlock (m : Msg) (s : State) : Out :=
  .next (sessionCmd { opcode := 0x0202, on := .bound, need := 1, most := 1, setup := true } false m false
    (fun i t =>
      let x := sessAt t i
      let md := modelOf t x
      if x.entry.state != .ready && x.entry.state != .waiting then refuse m (stateStatus x) t
      else if jobCheck t m.job.toNat i != .ok then refuse m (jobCheck t m.job.toNat i) t
      else if md.layers ≤ argLayer m || x.record.length < opNat m 0 + argCount m then refuse m .queryRange t
      else if m.body.length < argCount m * queryBytes md then refuse m .messageMalformed t
      else if storeFull t m.job.toNat (argCount m * queryBytes md) then holdMsg m t
      else
        let b : QBlock := { qp := m.qp, tag := m.tag, job := m.job.toNat, layer := argLayer m, first := opNat m 0, count := argCount m,
                            query := slice m.body 0 (argCount m * queryBytes md) }
        if x.qblock.isNone then touchJobs (fanBlock i b (modSess i (fun y => { y with qblock := some b }) t))
        else modSess i (fun y => { y with qwait := y.qwait ++ [b] }) t) s)

/-- The status that R436 gives a state for a tile write or `KV_EXTEND`. -/
def tileStatus (x : Session) : Status := if x.entry.state == .waiting then .sessionWaiting else stateStatus x

/-- `KV_EXTEND` (R438, R458). -/
def applyExtend (i n : Nat) (s : State) : Status × State :=
  let x := sessAt s i
  if x.entry.state != .ready then (tileStatus x, s)
  else if maxLength s x.entry.partition (sessShape s i) < x.record.length + n then (.lengthLimit, s)
  else (.ok, mirrorUpdate i (modSess i (fun y => { y with record.length := y.record.length + n }) s))

/-- `KV_EXTEND` (R438, R458). -/
def execKvExtend (m : Msg) (s : State) : Out :=
  .next (sessionCmd { opcode := 0x0203, on := .bound, need := 1, most := 1, setup := true } false m false
    (fun i t =>
      let r := applyExtend i (opNat m 0) t
      answerRing i m r.1 r.2) s)

/-- `APPEND_ACK` (R26): the append of the layer under way is in the write buffer; dispatch may issue the layer. -/
def execAppendAck (i : Nat) (s : State) : Out :=
  .next (engine s (match (sessAt s i).step with
    | some st =>
      if st.phase == .appended then touchJobs (modSess i (fun x => { x with step := some { st with phase := .ready } }) s) else s
    | none => s))

/-- `APPEND_WAIT_TIMEOUT` (R130): the step ends with `FRAME_SHORTAGE`, with the effect of R82. -/
def execAppendWaitTimeout (i : Nat) (s : State) : Out :=
  .next (engineHeld s (match (sessAt s i).step with
    | some st =>
      if st.phase == .waitFrame && st.waitUntil.any (· ≤ now s) then settle (restartStep i .frameShortage (bump ctrFrameShortages s)) else s
    | none => s))

/-- `MASK_FORM` (R288, R292, R294 to R296, R300 to R307): the oldest request's mask is formed and shipped. -/
def execMaskForm (s : State) : Out :=
  .next (engineHeld s (match s.masks with
    | [] => s
    | r :: rest =>
      let s := { s with masks := rest }
      match (sessAt s r.index).step with
      | none => s
      | some st => match vocabOf s st.tokenCarry with
        | none => s
        | some v =>
          let (t, s) := reserveSegment r.index (stepTok st) s
          let (f, ab, esc) := formMask s r.index v t
          let s := if ab then bump ctrForcedAbandoned s else s
          let x := sessAt s r.index
          let s := modSess r.index (fun x => { x with step := some { withTok (afterMask t ab esc) st with
            masked := true, deadEnd := f == .deadEnd } }) s
          let s := pmu { code := 0x12, priv := .context x.record.context, requester := some 0x141 } (bump ctrMasksSent s)
          let s := sendMask r.at_ { qp := r.qp, opcode := 0xF003, tag := r.tag, handle := x.record.handle
                                    body := maskBytes r.index r.seq v.size (maskMode st.tokenCarry) f } s
          tryEnd r.index s))

end Sys2Proof.Machine
end

