-- ==== Sys2Proof/Machine/Jobs.lean ====
section
/-!
DEFINITION. Step jobs: `JOB_OPEN`, `JOB_ADD`, `JOB_CLOSE`, grants, cuts, idle releases and the role governor (R234 to R251).
-/
namespace Sys2Proof.Machine

/-- What a list of handles gives: their sessions, or the first status that refuses one (R237, R238). -/
def judgeMembers (s : State) (n p c cls : Nat) (job : Option Nat) : List Word → Status × List Nat
  | [] => (.ok, [])
  | h :: t =>
    match lookup s n h false with
    | .bad st => (st, [])
    | .at_ i =>
      let x := sessAt s i
      if x.shadow.isSome then (.sessionShadow, [])
      else if x.entry.partition ≠ p then (.partitionMismatch, [])
      else if (jobOf s i).isSome && jobOf s i != job then (.jobMember, [])
      else if x.record.cls ≠ cls then (.classMismatch, [])
      else if x.record.context ≠ c then (.contextDenied, [])
      else
        let r := judgeMembers s n p c cls job t
        (r.1, i :: r.2)

/-- Open jobs of a partition. -/
def jobsIn (s : State) (p : Nat) : Nat := (s.jobs.filter (fun e => e.2.partition == p)).length

/-- `JOB_OPEN` (R234, R236 to R238): partition, context, class, kind, then a list of handles. The number is the lowest unused from 1 on
(log entry 28). -/
def execJobOpen (m : Msg) (s : State) : Out :=
  let hs := listWords m.body
  .next (request { opcode := 0x0204, on := .bound, need := 4, most := 4, setup := true } m
    (opNat m 2 > 1 || opNat m 3 > 1 || match hs with | some l => l.isEmpty || l.length > 256 | none => true) (fun t =>
    let p := opNat m 0
    let c := opNat m 1
    if (ctxAt t c).mode == .none then refuse m (noContext c) t
    else if (ctxAt t (qpAt t m.qp).context).tornDown || (ctxAt t c).tornDown then refuse m .contextTornDown t
    else if t.jobs.length ≥ 4096 || jobsIn t p ≥ 256 then refuse m .jobLimit t
    else if (qpAt t m.qp).context ≠ c then refuse m .contextDenied t
    else if (ctxAt t c).partition ≠ p then refuse m .partitionMismatch t
    else match judgeMembers t m.qp p c (opNat m 2) none (hs.getD []) with
      | (.ok, l) =>
        match leastUnused (Tab.keys t.jobs) 1 65535 with
        | none => refuse m .jobLimit t
        | some n =>
          let j : Job := { partition := p, context := c, cls := opNat m 2, kind := if opNat m 3 = 0 then .decode else .prefill,
                           members := distinct l }
          settleJobs (respond m { ops := [word n] } (touchJobs (bump ctrJobsOpened { t with jobs := Tab.put t.jobs n j })))
      | (st, _) => deny m st t) s)

/-- `JOB_ADD` (R236 to R239). -/
def execJobAdd (m : Msg) (s : State) : Out :=
  let hs := listWords m.body
  .next (request { opcode := 0x0205, on := .bound, need := 1, most := 1, setup := true } m
    (match hs with | some l => l.isEmpty | none => true) (fun t =>
    if (ctxAt t (qpAt t m.qp).context).tornDown then refuse m .contextTornDown t
    else match Tab.find t.jobs (opNat m 0) with
      | none => refuse m .jobUnknown t
      | some j =>
        if j.closed then refuse m .jobClosed t
        else if (qpAt t m.qp).context ≠ j.context then refuse m .contextDenied t
        else match judgeMembers t m.qp j.partition j.context j.cls (some (opNat m 0)) (hs.getD []) with
          | (.ok, l) =>
            let all := distinct (j.members ++ l)
            if all.length > 256 then refuse m .jobLimit t
            else refuse m .ok (touchJobs { t with jobs := Tab.put t.jobs (opNat m 0) { j with members := all } })
          | (st, _) => deny m st t) s)

/-- `JOB_CLOSE` (R239, R243). -/
def execJobClose (m : Msg) (s : State) : Out :=
  .next (request { opcode := 0x0206, on := .bound, need := 1, most := 1, setup := true } m false (fun t =>
    if (ctxAt t (qpAt t m.qp).context).tornDown then refuse m .contextTornDown t
    else match Tab.find t.jobs (opNat m 0) with
      | none => refuse m .jobUnknown t
      | some j =>
        if (qpAt t m.qp).context ≠ j.context then refuse m .contextDenied t
        else refuse m .ok (settleJobs { t with jobs := Tab.put t.jobs (opNat m 0) { j with closed := true } })) s)

/-- Places from one context number to another, counting round (R244 rule 3). -/
def contextTurn (last c : Nat) : Nat := (c + 4096 - last - 1) % 4096

/-- Whether prefill comes first in a partition now (R244 rule 2). -/
def prefillFirst (s : State) (p : Nat) : Bool := (partAt s p).prefillHeld * 100 < (partAt s p).rho * 10000000

/-- A job's rank under R244: class, kind, context's turn, time of eligibility. -/
def jobRank (s : State) (p : Nat) (j : Job) : Nat × Nat × Nat × Nat :=
  let pre := j.kind == .prefill
  (j.cls, if pre == prefillFirst s p then 0 else 1, contextTurn (partAt s p).lastContext j.context, j.eligibleAt.getD 0)

/-- Whether one rank comes before another. -/
def rankBefore (a b : Nat × Nat × Nat × Nat) : Bool :=
  a.1 < b.1 || (a.1 == b.1 && (a.2.1 < b.2.1 || (a.2.1 == b.2.1 && (a.2.2.1 < b.2.2.1 || (a.2.2.1 == b.2.2.1 && a.2.2.2 < b.2.2.2)))))

/-- The job that dispatch grants next in a partition (R244). -/
def chooseJob (s : State) (p : Nat) : Option (Nat × Job) :=
  (sortBy (fun a b => rankBefore (jobRank s p a.2) (jobRank s p b.2))
    (s.jobs.filter (fun e => e.2.partition == p && e.2.eligibleAt.isSome))).head?

/-- `JOB_GRANT` (R241, R244): the free fielder set passes to the chosen job. -/
def execJobGrant (p : Nat) (s : State) : Out :=
  .next (engineHeld s (if (partAt s p).holder.isSome then s
    else match chooseJob s p with
      | none => s
      | some (n, j) =>
        let s := { s with jobs := Tab.put s.jobs n { j with heldAt := some (now s), idleAt := none, cutting := false } }
        let s := modPart p (fun x => { x with holder := some n, lastContext := j.context }) s
        touchJobs (pmu { code := 0x10, priv := .context j.context, requester := some 0x120, svc := some j.cls } s)))

/-- The holding limit of a job (R246), if it has one. -/
def cutLimit (s : State) (p : Nat) (j : Job) : Option Nat :=
  match j.cls, j.kind with
  | 0, .decode => none
  | 0, .prefill => some (prefillCutUsVal s p)
  | _, .decode => some (beCutUsVal s p)
  | _, .prefill => some (min (beCutUsVal s p) (prefillCutUsVal s p))

/-- A fielder abandons a unit that waits for a tile (R247). -/
def abandonWaits (p : Nat) (s : State) : State :=
  (partFielders s p).foldl (fun t f => setFielder f { fielderAt t f with waiting := none } t) s

/-- `JOB_CUT` (R246 to R248): the holder has reached its limit and another job of the partition is eligible. -/
def execJobCut (p : Nat) (s : State) : Out :=
  .next (engineHeld s (match (partAt s p).holder with
    | none => s
    | some n => match Tab.find s.jobs n with
      | none => s
      | some j => match cutLimit s p j, j.heldAt with
        | some us, some t0 =>
          if t0 + us * 1000 ≤ now s && s.jobs.any (fun e => e.1 != n && e.2.partition == p && e.2.eligibleAt.isSome) then
            let s := abandonWaits p (releaseSet n s)
            let s := bump (if j.kind == .prefill then ctrPrefillCuts else ctrBeCuts) s
            touchJobs (pmu { code := 0x11, priv := .context j.context, requester := some 0x120, svc := some j.cls } s)
          else s
        | _, _ => s))

/-- `JOB_IDLE_RELEASE` (R242). -/
def execJobIdleRelease (p : Nat) (s : State) : Out :=
  .next (engineHeld s (match (partAt s p).holder with
    | none => s
    | some n => match (Tab.find s.jobs n).bind (·.idleAt) with
      | some t0 => if t0 + jobIdleUsVal s p * 1000 ≤ now s then touchJobs (bump ctrIdleReleases (releaseSet n s)) else s
      | none => s))

/-- A partition's prefill share at the end of a role period (R250). -/
def nextRho (s : State) (p : Nat) : Nat :=
  let x := partAt s p
  let r := if x.wp + x.wd = 0 then x.rho else (200 * x.wp + x.wp + x.wd) / (2 * (x.wp + x.wd))
  min (max r (rolePrefillMinPctVal s p)) (rolePrefillMaxPctVal s p)

/-- `ROLE_PERIOD` (R250): every 10 ms of network time. -/
def execRolePeriod (s : State) : Out :=
  .next (engine s (if now s < s.roleAt + 10000000 then s
    else
      let s := foldRange 64 (fun t p =>
        modPart p (fun x => { x with rho := nextRho t p, wp := 0, wd := 0, prefillHeld := 0 }) t) s
      { s with roleAt := now s }))

end Sys2Proof.Machine
end

