-- ==== Sys2Proof/Machine/Merging.lean ====
section
/-!
DEFINITION. The attention engine's events: merges opened, units completed, partials accepted, withdrawals acknowledged, outputs released;
the ring's partials (R171 to R173, R178 to R184, R200 to R226, R460, R461).
-/
namespace Sys2Proof.Machine

/-- Whether a job holds its fielder set and may issue. -/
def jobIssues (s : State) (n : Nat) : Bool :=
  match Tab.find s.jobs n with
  | some j => jobHolds s n j
  | none => false

/-- Count a merge that waits for a catcher, once (R205). -/
def waitMerge (waited : Bool) (s : State) : State := if waited then s else bump ctrMergeOpenWaits s

/-- The members that a ring home queries for a layer: those that hold an attended segment (R460). -/
def queryMembers (s : State) (i : Nat) (m : Merge) : List (Nat × Nat) :=
  let p := (sessAt s i).entry.partition
  match ringOf s p with
  | none => []
  | some (n, _, _) => (ringMembers s p).filter (fun k => m.segments.any (fun j => j % n == k.1))

/-- Send `RING_QUERY` for a step's layer (R460). -/
def askRing (i tag : Nat) (m : Merge) (s : State) : State :=
  let x := sessAt s i
  (queryMembers s i m).foldl (fun t k =>
    sendPeer k.2 (ringQp k.2) 0 x.record.handle (confOf t i)
      (.ringQuery { home := x.record.handle, layer := m.layer, mergeTag := tag, innings := m.innings % 65536, first := m.first,
                    positions := m.positions, query := m.query }) t) s

/-- Put rows of a query block at their positions; the block is formed once every position has its rows (R461, R203). -/
def addRows (i : Nat) (rows : List (Nat × List Byte)) (s : State) : State :=
  modSess i (fun x => match x.qblock with
    | none => x
    | some b =>
      let b := { b with rows := rows.foldl (fun t r => Tab.put t r.1 r.2) b.rows }
      let ps := (List.range b.count).map (b.first + ·)
      if ps.all (fun p => (Tab.find b.rows p).isSome) then
        { x with qblock := some { b with phase := .formed, output := (ps.map (fun p => Tab.get b.rows p [])).flatten } }
      else { x with qblock := some b }) s

/-- The rows of one query position in a merge's output. -/
def mergeRows (s : State) (m : Merge) : List (Nat × List Byte) :=
  let md := modelOf s (sessAt s m.index)
  let w := md.kvHeads * md.group * headDim md * formatBytes md.outFormat
  let out := mergeOutput s m
  m.positions.zipIdx.map (fun q => (q.1, slice out (q.2 * w) w))

/-- The rank of a segment among those that a ring home awaits (R212): attended segments that its member does not hold. -/
def segmentRank (s : State) (m : Merge) (home j : Nat) : Nat :=
  match ringOf s (sessAt s m.index).entry.partition with
  | none => 0
  | some (n, _, g) =>
    let le := (modelOf s (sessAt s m.index)).entries.getD m.layer {}
    let segs := distinct ((attendedBlocks le.window le.sinks m.positions).map (fun b => 512 * b / g))
    (segs.filter (fun k => k % n != home && k < j)).length

/-- Send a segment partial home (R461). -/
def sendSegment (m : Merge) (home tag head j : Nat) (v : Partial) (s : State) : State :=
  let x := sessAt s m.index
  let node := ringNodeBaseVal s x.entry.partition + home
  sendPeer node (ringQp node) 0 (s.ringMap.find? (fun e => e.2 == m.index) |>.map Prod.fst |>.getD 0) (confOf s m.index)
    (.segPartial { mergeTag := tag, innings := m.innings % 65536, sentNs := now s, layer := m.layer, head, segment := j,
                   level := segLevel (mergeSegment s m), qoff := 0, value := v }) s

/-- Send a ring member's partials of one segment that are ready, heads of the current group ascending, within the home's segment window (R211,
R212): the state, and whether the segment has been sent whole. -/
def sendSegmentHeads (home tag j : Nat) (heads : List Nat) (m : Merge) (s : State) : Bool × Merge × State :=
  heads.foldl (fun (a : Bool × Merge × State) hd =>
    if a.2.1.sent.contains (hd, j, 0) then a
    else
      let (v, fin, _) := segmentNode a.2.2 a.2.1 hd j
      if fin && segmentRank a.2.2 a.2.1 home j < a.2.1.homeFrontier + 64 then
        (a.1, { a.2.1 with sent := a.2.1.sent ++ [(hd, j, 0)] }, sendSegment a.2.1 home tag hd j (v.getD { heads := [], empty := true }) a.2.2)
      else (false, a.2)) (true, m, s)

/-- Send the segment partials of a ring member that are ready, in ascending segment order (R211, R212). -/
def sendSegments (t : Nat) (s : State) : State :=
  match Tab.find s.merges t with
  | none => s
  | some m => match m.home with
    | none => s
    | some (home, tag) =>
      if m.prefill then s
      else
        let h := sessShape s m.index
        let heads := (List.range (min m.hg (h.heads - m.eta * m.hg))).map (m.eta * m.hg + ·)
        let r := (ownSegments s m).foldl (fun (a : Bool × Merge × State) j =>
          if a.1 then sendSegmentHeads home tag j heads a.2.1 a.2.2 else a) (true, m, s)
        setMerge t r.2.1 r.2.2

/-- Whether a ring member has sent every segment partial of its merge. -/
def allSent (s : State) (m : Merge) : Bool :=
  (List.range (sessShape s m.index).heads).all (fun hd => (ownSegments s m).all (fun j => m.sent.contains (hd, j, 0)))

/-- Advance a merge after something was accepted (before R208, R203): its pass and head group, its end. -/
def advanceMerge (t : Nat) (s : State) : State :=
  match Tab.find s.merges t with
  | none => s
  | some m0 =>
    let h := sessShape s m0.index
    let s := (List.range h.heads).foldl (fun s _ => match Tab.find s.merges t with
      | none => s
      | some m => setMerge t (advancePair h.heads (mergeSegment s m) (h.heads * (m.count + 1)) m) (sendSegments t s)) (sendSegments t s)
    match Tab.find s.merges t with
    | none => s
    | some m =>
      if !mergeComplete s m then s
      else
        let closed := { s with merges := Tab.drop s.merges t }
        match m.home, m.prefill with
        | none, false =>
          let out := mergeOutput s m
          touchJobs (modSess m.index (fun x => { x with step := x.step.map (fun st => { st with phase := .formed, output := out }) }) closed)
        | none, true => touchJobs (addRows m.index (mergeRows s m) closed)
        | some _, false => if allSent s m then closed else s
        | some (home, _), true =>
          let x := sessAt s m.index
          let node := ringNodeBaseVal s x.entry.partition + home
          let hh := s.ringMap.find? (fun e => e.2 == m.index) |>.map Prod.fst |>.getD 0
          sendPeer node (ringQp node) 0 hh (confOf s m.index) (.ringOutput { home := hh, layer := m.layer, rows := mergeRows s m }) closed

/-- Open the merge of a step's layer (R204 to R207, R262). -/
def openStepMerge (i : Nat) (st : Step) (s : State) : State :=
  if !(jobIssues s st.job) || !layerThere s i st.layer then s
  else match openMerge i st.layer st.job false st.len0 [st.len0] st.query none s with
    | none => waitMerge st.mergeWaited (modSess i (fun x => { x with step := some { st with mergeWaited := true } }) s)
    | some t =>
      let t := modSess i (fun x => { x with step := some { st with phase := .merging, mergeWaited := false } }) t
      match Tab.find t.merges t.mergeTag with
      | some m => advanceMerge t.mergeTag (askRing i t.mergeTag m t)
      | none => t

/-- Open the merge of a query block's positions that this module holds (R179, R204 to R207, R262, R461). -/
def openBlockMerge (i : Nat) (b : QBlock) (s : State) : State :=
  let p := (sessAt s i).entry.partition
  let qb := queryBytes (modelOf s (sessAt s i))
  let offs := (List.range b.count).filter (fun o => holdsPos s p (b.first + o))
  if !(jobIssues s b.job) || !layerThere s i b.layer then s
  else if offs.isEmpty then modSess i (fun x => { x with qblock := some { b with phase := .merging } }) s
  else match openMerge i b.layer b.job true b.first (offs.map (b.first + ·)) ((offs.map (fun o => slice b.query (o * qb) qb)).flatten) none s with
    | none => waitMerge b.mergeWaited (modSess i (fun x => { x with qblock := some { b with mergeWaited := true } }) s)
    | some t => modSess i (fun x => { x with qblock := some { b with phase := .merging, mergeWaited := false } }) t

/-- Open the merge of a ring member's work (R460, R461). -/
def openRingMerge (i : Nat) (w : RingWork) (rest : List RingWork) (s : State) : State :=
  match openMerge i w.layer 0 w.prefill w.first w.positions w.query (some (w.home, w.mergeTag)) s with
  | none => waitMerge w.waited (modSess i (fun x => { x with ringWork := { w with waited := true } :: rest }) s)
  | some t =>
    let t := modSess i (fun x => { x with ringWork := rest }) t
    match Tab.find t.merges t.mergeTag with
    | some m => advanceMerge t.mergeTag (setMerge t.mergeTag { m with innings := w.innings } t)
    | none => t

/-- `MERGE_OPEN` (R205, R206): dispatch opens a session's next merge. -/
def execMergeOpen (i : Nat) (s : State) : Out :=
  .next (engineHeld s (if (mergeOf s i).isSome then s
    else
      let x := sessAt s i
      match x.step.filter (·.phase == .ready), x.qblock.filter (·.phase == .ready), x.ringWork with
      | some st, _, _ => touchJobs (openStepMerge i st s)
      | none, some b, _ => touchJobs (openBlockMerge i b s)
      | none, none, w :: rest => openRingMerge i w rest s
      | none, none, [] => s))

/-- The tiles that a unit reads, as frame and tile, in position group order (R111, R156): those of the groups that some query of `qs` attends to. -/
def unitTiles (s : State) (i layer head block : Nat) (qs : List Nat) : List (Nat × Nat) :=
  let x := sessAt s i
  let h := sessShape s i
  let le := (modelOf s x).entries.getD layer {}
  ((List.range 32).map (fun j =>
    let pos := 512 * block + 16 * j
    if (List.range 16).any (fun r => qs.any (fun q => attends le.window le.sinks q (pos + r))) then
      match frameOf s i h layer head pos with
      | some f => (List.range h.slices).map (fun sl => (f, ((pos % h.run) / 16) * h.slices + sl))
      | none => []
    else [])).flatten

/-- Dispatch reads the page map entries of a unit's pages (R143, R232). -/
def touchUnit (i layer head block : Nat) (s : State) : State :=
  let x := sessAt s i
  let h := sessShape s i
  let pos := ((List.range 32).map (fun j => 512 * block + 16 * j)).filter (holdsPos s x.entry.partition)
  (distinct (pos.map (fun p => pageKey h layer head (localPos s x.entry.partition p / h.run)))).foldl (fun t k =>
    if (pageAt x k).tier = 0 then touchMap i k t else t) s

/-- The query positions of a merge's pass that `u` belongs to. -/
def passPositions (m : Merge) (u : WorkUnit) : List Nat := (m.positions.drop ((u.qoff / m.passSize) * m.passSize)).take m.passSize

/-- A circulating block that a merge no longer needs gives up its frames (R190). -/
def sweepPass (m : Merge) (u : WorkUnit) (s : State) : State :=
  if !m.prefill || m.todo.any (fun w => w.block == u.block && w.head == u.head) then s
  else
    let h := sessShape s m.index
    dropPass m.index (fun k => k / 2 ^ 21 == m.layer * h.heads + u.head && (k % 2 ^ 21) * h.run / 512 == u.block) s

/-- A partial's 96-bit tag (R176): `q` is the query position. -/
def partialTag (m : Merge) (u : WorkUnit) (q group : Nat) (v : Partial) : BitVec 96 :=
  BitVec.ofNat 96 (at' m.index 71 25 + at' m.innings 55 16 + at' m.layer 47 8 + at' u.head 39 8 + at' u.block 19 20 + at' (q - m.first) 10 9 +
    at' group 5 5 + flagAt v.nan 4 + flagAt v.empty 3)

/-- The handshakes that a unit takes (R146): g × d / 4 for each position group that its query attends to. -/
def unitHs (s : State) (i layer head block q : Nat) : Nat :=
  let x := sessAt s i
  (unitTiles s i layer head block [q]).length / (sessShape s i).slices * ((modelOf s x).group * headDim (modelOf s x) / 4)

/-- `UNIT_COMPLETE` (R171, R178, R180, R184, R209, R215): a fielder does its next unit and emits its partial, or waits for a tile of a
FILLING frame. During a survey's freeze it finishes one unit at most (R515); in Setup
dispatch issues none (R597). `NAN_PARTIALS` rises once for the partial (log entry 58). -/
def execUnitComplete (f : Nat) (s : State) : Out :=
  let y := fielderAt s f
  .next (engine s (if s.mode == .setup || y.emitter.length ≥ 4 || y.slice.isSome || s.survey.quiet.contains f then s
    else match nextUnit s f with
      | none => s
      | some (t, m, u) =>
        let q := m.positions.getD u.qoff 0
        let x := sessAt s m.index
        let pv : Priv := .context x.record.context
        match (unitTiles s m.index m.layer u.head u.block [q]).find? (fun a => !tileThere s a.1 a.2) with
        | some a =>
          if y.waiting == some a then s
          else pmu { code := 0x03, priv := pv, requester := some f, addr := some (hbmAddr a.1 (4096 * a.2)), svc := some x.record.cls }
            (bump ctrFillWaits (setFielder f { y with waiting := some a } s))
        | none =>
          let qb := queryBytes (modelOf s x)
          let v := unitPartial s m.index m.layer u.head u.block q (slice m.query (u.qoff * qb) qb)
          let m' := { m with todo := m.todo.erase u }
          let s := setMerge t m' { s with survey.quiet := if s.survey.frozen then f :: s.survey.quiet else [] }
          let s := laneBusy f (unitHs s m.index m.layer u.head u.block q) pv (some x.record.cls) s
          let s := if u.qoff % m.passSize = 0 then
              let s := touchUnit m.index m.layer u.head u.block s
              (unitTiles s m.index m.layer u.head u.block (passPositions m u)).foldl (fun t a =>
                pmu { code := 0x02, priv := pv, requester := some f, addr := some (hbmAddr a.1 (4096 * a.2)), svc := some x.record.cls }
                  (bump ctrTilesRead t)) s
            else s
          let s := if v.nan then bump ctrNanPartials s else s
          touchJobs (sweepPass m' u (emitPartial f
            { tag := partialTag m u q (modelOf s x).group v, catcher := m.catcher, index := m.index, innings := m.innings % 65536, layer := m.layer, unit := u, value := v } s))))

/-- Accept a partial into merge `t` (R213, R196). -/
def acceptPartial (t : Nat) (m : Merge) (p : Emitted) (s : State) : State :=
  let before := nanCount s m p.unit.head p.unit.qoff
  let m := { m with leaves := m.leaves ++ [(p.unit, p.value)] }
  let after := nanCount s m p.unit.head p.unit.qoff
  let x := sessAt s p.index
  let s := bumpBy ctrNanMerges (after - before) (bump ctrPartialsMerged (setMerge t m s))
  let s := pmu { code := 0x06, priv := .context x.record.context, requester := some (0x100 + p.catcher), svc := some x.record.cls } s
  advanceMerge t s

/-- `PARTIAL_ACCEPT` (R213, R220, R223, R224): the catcher takes the oldest partial of its input buffer. One for a closing merge counts as
withdrawn, whatever its innings (log entry 58). -/
def execPartialAccept (c : Nat) (s : State) : Out :=
  .next (engine s (match (catcherAt s c).input with
    | [] => s
    | p :: rest =>
      let s := pumpCatcher c 1088 (setCatcher c { input := rest } s)
      match s.merges.find? (fun e => e.2.index == p.index && e.2.catcher == c) with
      | none => discardPartial p ctrOrphanPartials s
      | some (t, m) =>
        if m.closing then discardPartial p ctrWithdrawnPartials s
        else if m.innings % 65536 ≠ p.innings then discardPartial p ctrStalePartials s
        else acceptPartial t m p s))

/-- Whether a partial of a merge that a fielder has emitted has not been accepted or discarded yet. -/
def partialWaits (s : State) (m : Merge) (f : Nat) : Bool :=
  (fielderAt s f).emitter.any (fun p => p.index == m.index && p.catcher == m.catcher) ||
  (catcherAt s m.catcher).input.any (fun p => p.index == m.index && p.unit.fielder == f)

/-- `WITHDRAW_ACK_RX` (R221 to R223): it travels behind the partials that the fielder had emitted, and the catcher takes it behind them. -/
def execWithdrawAckRx (t f : Nat) (s : State) : Out :=
  .next (engine s (match Tab.find s.merges t with
    | none => s
    | some m =>
      if !m.closing || !m.awaiting.contains f || partialWaits s m f then s
      else
        let left := m.awaiting.erase f
        if left.isEmpty then touchJobs { s with merges := Tab.drop s.merges t } else setMerge t { m with awaiting := left } s))

/-- An `OUTPUT` message (R434). -/
def outputMsg (x : Session) (qp : Nat) (tag : BitVec 32) (layer count : Nat) (out : List Byte) : Msg :=
  { qp, opcode := 0xF001, tag, handle := x.record.handle, args := word (at' layer 56 8 + at' (count - 1) 25 9), body := out }

/-- Release a step's layer and go on to the next, or to the step's end (R203, R81, R84). -/
def releaseLayer (i : Nat) (st : Step) (s : State) : State :=
  let x := sessAt s i
  let s := sendMsg (outputMsg x st.outQp st.outTag st.layer 1 st.output) s
  let last := st.layer + 1 ≥ (modelOf s x).layers
  let s := modSess i (fun y => { y with step := some { st with phase := .idle, output := [], mirrorWaited := false, ending := last } }) s
  if x.entry.cancelPending then settle (finishStep i s) else if last then settle (tryEnd i s) else s

/-- `OUTPUT_RELEASE` (R203, R298, R470): a formed layer whose holds are cleared goes to egress. -/
def execOutputRelease (i : Nat) (s : State) : Out :=
  let x := sessAt s i
  .next (engineHeld s (match x.step.filter (·.phase == .formed), x.qblock.filter (·.phase == .formed) with
    | some st, _ =>
      if mirrorHeld s i st.mirrorAt then
        if st.mirrorWaited then s
        else bump ctrMirrorWaits (modSess i (fun y => { y with step := some { st with mirrorWaited := true } }) s)
      else touchJobs (releaseLayer i st s)
    | none, some b =>
      let s := dropPass i (fun _ => true) (sendMsg (outputMsg x b.qp b.tag b.layer b.count b.output) s)
      let s := match x.qwait with
        | [] => modSess i (fun y => { y with qblock := none }) s
        | w :: rest => fanBlock i w (modSess i (fun y => { y with qblock := some w, qwait := rest }) s)
      settleJobs s
    | none, none => s))

/-- The home's segment frontier (R212): the rank of the lowest remote segment not yet received whole. -/
def segFrontierOf (s : State) (m : Merge) : Nat :=
  let heads := (sessShape s m.index).heads
  (m.segments.takeWhile (fun j => (m.segNodes.filter (fun e => e.1.2.1 == j)).length ≥ heads)).length

/-- `SEG_PARTIAL` (R200, R212, R225, R226): stale, aged, or inserted into the home's tree. A second one for the same head, segment and position
is dropped and not counted (log entry 58). -/
def execSegPartial (m : Msg) (p : SegPartial) (s : State) : Out :=
  .next (peerMessage { opcode := 0xF103, on := .peer, most := 3 } m (fun t =>
    match Tab.find t.merges p.mergeTag with
    | none => bump ctrStalePartials t
    | some g =>
      if g.closing || g.home.isSome || g.innings % 65536 ≠ p.innings then bump ctrStalePartials t
      else if now t > p.sentNs + segmentMaxAgeMsVal t * 1000000 then bump ctrAgedSegments t
      else if g.segNodes.any (fun e => e.1 == (p.head, p.segment, p.qoff)) then t
      else
        let before := nanCount t g p.head p.qoff
        let g' := { g with segNodes := g.segNodes ++ [((p.head, p.segment, p.qoff), p.value)] }
        let after := nanCount t g' p.head p.qoff
        let f0 := segFrontierOf t g
        let f1 := segFrontierOf t g'
        let t := bump ctrPartialsMerged (bumpBy ctrNanMerges (after - before) (setMerge p.mergeTag g' t))
        let t := if f0 < f1 then
            (queryMembers t g.index g').foldl (fun u k =>
              sendPeer k.2 (ringQp k.2) 0 (sessAt u g.index).record.handle none (.segFrontier p.mergeTag (g.innings % 65536) f1) u) t
          else t
        advanceMerge p.mergeTag t) s)

/-- `SEG_FRONTIER` (R212): a ring member learns its home's segment frontier; the queue pair names the home. -/
def execSegFrontier (m : Msg) (s : State) : Out :=
  .next (peerMessage { opcode := 0xF104, on := .peer, need := 2, most := 2 } m (fun t =>
    let tag := bits (opWord m 0) 63 32
    let home (g : Merge) : Nat := peerNodeOf m.qp - ringNodeBaseVal t (sessAt t g.index).entry.partition
    match t.merges.find? (fun e => e.2.home == some (home e.2, tag) && e.2.innings % 65536 == bits (opWord m 0) 31 16) with
    | none => t
    | some (k, g) => advanceMerge k (setMerge k { g with homeFrontier := bits (opWord m 1) 14 0 } t)) s)

end Sys2Proof.Machine
end

