-- ==== Sys2Proof/Machine/TokenCmds.lean ====
section
/-!
DEFINITION. The token side's commands: table images in pieces, `TOKEN_BIND`, `TEXT_IN`, `DETOK_FLUSH`, `ESCAPE_SET` (R271 to R285, R293, R439).
-/
namespace Sys2Proof.Machine

/-- Slots of a kind of table (R439). -/
def kindSlots : LoadKind → Nat
  | .vocab => 8 | .grammar => 64 | .list => 64

/-- The `*_INVALID` and `*_IN_USE` statuses of a kind. -/
def kindInvalid : LoadKind → Status
  | .vocab => .vocabInvalid | .grammar => .grammarInvalid | .list => .listInvalid
def kindInUse : LoadKind → Status
  | .vocab => .vocabInUse | .grammar => .grammarInUse | .list => .listInUse

/-- Whether a session names a slot (R271). -/
def namesSlot (k : LoadKind) (slot : Nat) (x : Session) : Bool :=
  match k with
  | .vocab => tokOn x.record.tokenCarry && tokVocab x.record.tokenCarry == slot
  | .grammar => gOn x.record.grammar && gId x.record.grammar == slot
  | .list => (bOn x.record.seqLists && bList x.record.seqLists == slot) || (fOn x.record.seqLists && fList x.record.seqLists == slot)

/-- Whether any non-FREE session names a slot. -/
def slotInUse (s : State) (k : LoadKind) (slot : Nat) : Bool :=
  s.sessions.any (fun e => e.2.entry.state != .free && namesSlot k slot e.2)

/-- What other slots of a kind hold of its store, in bytes or sequence tokens (R270, R271). -/
def storeUsed (s : State) (k : LoadKind) (slot : Nat) : Nat :=
  match k with
  | .vocab => ((s.vocabs.filter (fun e => e.1 != slot)).map (fun e => e.2.bytes)).sum
  | .grammar => ((s.grammars.filter (fun e => e.1 != slot)).map (fun e => e.2.bytes)).sum
  | .list => ((s.lists.filter (fun e => e.1 != slot)).map (fun e => e.2.total)).sum

/-- An image as a commit judges it: its need of the store and the state with it in its slot (R271). -/
def judgeImage (k : LoadKind) (slot : Nat) (l : List Byte) (s : State) : Option (Nat × State) :=
  match k with
  | .vocab => (parseVocab l).bind (fun v => if vocabOk v then some (v.bytes, { s with vocabs := Tab.put s.vocabs slot v }) else none)
  | .grammar => (parseGrammar l).bind (fun g =>
      if grammarOk g.1 then some (g.1.bytes, { s with grammars := Tab.put s.grammars slot g.1 }) else none)
  | .list => (parseList l).map (fun x => (x.total, { s with lists := Tab.put s.lists slot x }))

/-- The capacity of a kind's store (R270). -/
def storeSize : LoadKind → Nat
  | .vocab => 134217728 | .grammar => 134217728 | .list => 16777216

/-- The state with a slot of a kind empty. -/
def clearSlot (k : LoadKind) (slot : Nat) (s : State) : State :=
  match k with
  | .vocab => { s with vocabs := Tab.drop s.vocabs slot }
  | .grammar => { s with grammars := Tab.drop s.grammars slot }
  | .list => { s with lists := Tab.drop s.lists slot }

/-- Commit an image (R271). -/
def commitImage (k : LoadKind) (slot : Nat) (l : List Byte) (s : State) : Status × State :=
  if l.isEmpty then if slotInUse s k slot then (kindInUse k, s) else (.ok, clearSlot k slot s)
  else match judgeImage k slot l s with
    | none => (kindInvalid k, s)
    | some (n, t) =>
      if storeUsed s k slot + n > storeSize k then (.tokenStoreFull, s)
      else if slotInUse s k slot then (kindInUse k, s)
      else (.ok, t)

/-- Bytes placed at an offset of a staging image; bytes that no piece has brought read zero (log entry 29). -/
def placeBytes (l : List Byte) (o : Nat) (b : List Byte) : List Byte :=
  let l := l ++ List.replicate (o + b.length - l.length) 0
  l.take o ++ b ++ l.drop (o + b.length)

/-- A piece of a table load (R439). -/
def loadPiece (op : BitVec 16) (k : LoadKind) (m : Msg) (s : State) : State :=
  request { opcode := op, on := .mailbox, need := 3, most := 3 } m false (fun t =>
    let slot := opNat m 0
    if kindSlots k ≤ slot then refuse m (kindInvalid k) t
    else
      let mine (g : Stage) : Bool := g.kind == k && g.slot == slot
      let old := t.stages.find? mine
      if (old.map (fun g => g.qp != m.qp)).getD false then refuse m .loadBusy t
      else
        let data := ((old.map (·.data)).getD [])
        let data := placeBytes data (opNat m 1) m.body
        let rest := t.stages.filter (fun g => !mine g)
        if bit (opWord m 2) 0 then
          let r := commitImage k slot data { t with stages := rest }
          refuse m r.1 r.2
        else
          refuse m .ok { t with stages := rest ++ [{ kind := k, slot, qp := (old.map (·.qp)).getD m.qp, data, at_ := now t }] }) s

/-- `VOCAB_LOAD` (R271, R276, R439, R695). -/
def execVocabLoad (m : Msg) (s : State) : Out := .next (loadPiece 0x0301 .vocab m s)

/-- `GRAMMAR_LOAD` (R271, R286, R439, R695). -/
def execGrammarLoad (m : Msg) (s : State) : Out := .next (loadPiece 0x0302 .grammar m s)

/-- `LIST_LOAD` (R271, R289, R439, R695). -/
def execListLoad (m : Msg) (s : State) : Out := .next (loadPiece 0x0303 .list m s)

/-- `LOAD_PIECE_TIMEOUT` (R439): no piece for 10 s. -/
def execLoadPieceTimeout (k : LoadKind) (slot : Nat) (s : State) : Out :=
  .next (engine s { s with stages := s.stages.filter (fun g => !(g.kind == k && g.slot == slot && g.at_ + 10000000000 ≤ now s)) })

/-- What R274 says of a bind. -/
def bindCheck (s : State) (m : Msg) : Status :=
  let none_ (k : Nat) : Bool := opWord m k == allOnes
  let g := Tab.find s.grammars (opNat m 1)
  let b := Tab.find s.lists (opNat m 2)
  let f := Tab.find s.lists (opNat m 3)
  match Tab.find s.vocabs (opNat m 0) with
  | none => .bindMismatch
  | some v =>
    let listOk (k : Nat) (l : Option SeqList) (forced : Bool) : Bool :=
      none_ k || match l with | some x => x.maxToken < v.size && x.forced == forced | none => false
    if !(none_ 1 || match g with | some x => x.vocabSize == v.size | none => false) then .bindMismatch
    else if !listOk 2 b false || !listOk 3 f true then .bindMismatch
    else if opNat m 4 == 0 && !(none_ 1 && none_ 2 && none_ 3) then .bindMismatch
    else .ok

/-- The words W12, W13 and W16 that an accepted bind writes (R273). -/
def bindWords (s : State) (m : Msg) : Word × Word × Word :=
  let on (k : Nat) : Bool := opWord m k != allOnes
  let start := (Tab.find s.grammars (opNat m 1)).map (·.start) |>.getD 0
  (if on 1 then word (2 ^ 63 + at' (opNat m 1) 56 6 + at' start 40 16) else 0,
   word (at' (opNat m 0) 61 3 + 2 ^ 60 + at' (opNat m 5) 7 1 + at' (opNat m 4) 5 2),
   word ((if on 2 then 2 ^ 63 + at' (opNat m 2) 57 6 else 0) + (if on 3 then 2 ^ 33 + at' (opNat m 3) 27 6 else 0)))

/-- `TOKEN_BIND` on a session (R273, R274). -/
def applyBind (i : Nat) (m : Msg) (s : State) : Status × State :=
  let x := sessAt s i
  if !(x.entry.state == .ready || x.entry.state == .waiting || x.entry.state == .parked) then (stateStatus x, s)
  else if bindCheck s m != .ok then (bindCheck s m, s)
  else
    let w := bindWords s m
    (.ok, mirrorUpdate i (modSess i (fun y => { y with
      record.grammar := w.1, record.tokenCarry := w.2.1, record.seqLists := w.2.2 }) (releaseSegments i s)))

/-- `TOKEN_BIND` (R272 to R274, R458, R692). -/
def execTokenBind (m : Msg) (s : State) : Out :=
  .next (sessionCmd { opcode := 0x0304, on := .bound, need := 6, most := 6, setup := true } false m (opNat m 4 > 2 || opNat m 5 > 1)
    (fun i t =>
      let r := applyBind i m t
      answerRing i m r.1 r.2) s)

/-- The status that `TEXT_IN` and `DETOK_FLUSH` return before `TOK_ON` is judged (R282, R285). -/
def textStatus (x : Session) : Status :=
  match x.entry.state with
  | .frozen => .sessionFrozen
  | .faulted => .sessionFaulted
  | .tombstone => reasonStatus x.record.reason
  | _ => if tokOn x.record.tokenCarry then .ok else .tokensUnbound

/-- `TEXT_IN` (R277 to R282): the answer lists the tokens (log entry 22). -/
def execTextIn (m : Msg) (s : State) : Out :=
  .next (sessionCmd { opcode := 0x0305, on := .bound, need := 1, most := 1, setup := true } false m
    (m.body.isEmpty || m.body.length > 65536)
    (fun i t =>
      let x := sessAt t i
      match textStatus x, vocabOf t x.record.tokenCarry with
      | .ok, some v =>
        let l := tkHeld x.record.tokenCarry ++ m.body
        let (ps, held) := judge (bit (opWord m 0) 0) l.length l
        let (toks, inv, un) := cutPieces v [] ps
        let t := modSess i (fun y => { y with record.tokenCarry := setTk y.record.tokenCarry held }) t
        let t := bumpBy ctrUnmatchedBytes un (bumpBy ctrInvalidBytes inv (bumpBy ctrTokensCut toks.length t))
        let t := pmu { code := 0x13, weight := toks.length, priv := .context x.record.context, requester := some 0x140 } t
        respond m { body := wordsBytes (word toks.length :: toks.map word) } (mirrorUpdate i t)
      | .ok, none => refuse m .tokensUnbound t
      | st, _ => refuse m st t) s)

/-- `DETOK_FLUSH` (R285): with a step in flight it acts after that step ends. -/
def execDetokFlush (m : Msg) (s : State) : Out :=
  .next (sessionCmd { opcode := 0x0306, on := .bound, setup := true } false m false
    (fun i t =>
      let x := sessAt t i
      match textStatus x, x.step with
      | .ok, none => mirrorUpdate i (flushDetok i m.qp m.tag t)
      | .ok, some st => modSess i (fun y => { y with step := some { st with flushes := st.flushes ++ [(m.qp, m.tag)] } }) t
      | st, _ => refuse m st t) s)

/-- `ESCAPE_SET` (R293): the escape set of the queue pair's context. -/
def execEscapeSet (m : Msg) (s : State) : Out :=
  let ids := listWords m.body
  .next (request { opcode := 0x0307, on := .bound, setup := true } m (match ids with | some l => l.length > 16 | none => true) (fun t =>
    let c := (qpAt t m.qp).context
    if (ctxAt t c).tornDown then refuse m .contextTornDown t
    else if t.sessions.any (fun e => e.2.record.context == c && e.2.entry.state != .free && e.2.entry.state != .tombstone &&
        tokOn e.2.record.tokenCarry) then refuse m .escapeInUse t
    else refuse m .ok { t with contexts := Tab.put t.contexts c { ctxAt t c with escapes := (ids.getD []).map BitVec.toNat } }) s)

end Sys2Proof.Machine
end

