-- ==== Sys2Proof/Machine/AttnTables.lean ====
section
/-!
DEFINITION. Model slots, rotary tables and the re-arming of contexts: `MODEL_LOAD`, `MODEL_READ`, `ROPE_LOAD` and its events,
`CONTEXT_REARM` (R147 to R152, R157, R165, R166, R268).
-/
namespace Sys2Proof.Machine

/-- The pair counts that a rotary table has or may come to have (R148). -/
def ropePairs (s : State) (t : Nat) : List Nat :=
  (Tab.get s.ropes t {}).pairs :: (s.ropeLoads.filter (fun l => l.table == t)).map (fun l => l.image.pairs)

/-- Whether a non-FREE session names a model slot (R149). -/
def modelInUse (s : State) (slot : Nat) : Bool :=
  s.sessions.any (fun e => e.2.entry.state != .free && e.2.record.modelSlot == slot)

/-- `MODEL_LOAD` (R148 to R150, R152): the slot number and the image. An image that is invalid and would replace a slot in use is
`MODEL_INVALID` (log entry 58). -/
def execModelLoad (m : Msg) (s : State) : Out :=
  .next (request { opcode := 0x0210, on := .mailbox, need := 1, most := 1 } m (m.body.length < 4112) (fun t =>
    let slot := opNat m 0
    let x := parseModel m.body
    if slot > 255 || m.body.length > 4112 || !modelOk x (ropePairs t) then refuse m .modelInvalid t
    else if slotHeld t slot then holdMsg m t
    else if modelInUse t slot then refuse m .modelInUse t
    else refuse m .ok { t with models := if x.layers = 0 then Tab.drop t.models slot else Tab.put t.models slot x }) s)

/-- `MODEL_READ` (R148): the slot's image; an empty slot reads zero. -/
def execModelRead (m : Msg) (s : State) : Out :=
  .next (request { opcode := 0x0211, on := .mailbox, need := 1, most := 1 } m false (fun t =>
    if opNat m 0 > 255 then refuse m .modelInvalid t
    else respond m { body := modelImage (Tab.get t.models (opNat m 0) {}) } t) s)

/-- Whether a step that opened before a load's grant, and so does not wait for it, is in flight with a layer that uses the table
(R166). -/
def ropeUsed (s : State) (l : RopeLoad) : Bool :=
  s.sessions.any (fun e => match e.2.step with
    | none => false
    | some st => st.ropeSeq ≤ l.order && usesRope (modelOf s e.2) l.table)

/-- `ROPE_LOAD` (R165, R166): checked at its grant; it is answered when it is applied or refused. -/
def execRopeLoad (m : Msg) (s : State) : Out :=
  .next (request { opcode := 0x0212, on := .mailbox, need := 1, most := 1 } m (m.body.length < 1032) (fun t =>
    let x := parseRope m.body
    let bad := t.models.any (fun e => (e.2.entries.take e.2.layers).any (fun l =>
      l.ropeOn && l.ropeTable == opNat m 0 && headDim e.2 < 2 * x.pairs))
    if opNat m 0 > 31 || m.body.length > 1032 || x.pairs > 128 || bad then refuse m .ropeInvalid t
    else { t with
      ropeCount := t.ropeCount + 1
      ropeLoads := t.ropeLoads ++ [{ table := opNat m 0, image := x, qp := m.qp, tag := m.tag, order := t.ropeCount,
                                     deadline := now t + ropeLoadWaitMsVal t * 1000000 }] }) s)

/-- Answer a rotary load. -/
def answerRope (l : RopeLoad) (st : Status) (s : State) : State :=
  sendMsg { qp := l.qp, opcode := 0x8212, status := st.code, tag := l.tag } s

/-- `ROPE_LOAD_APPLY` (R166): the oldest waiting load of the table is applied once no step in flight uses the table. -/
def execRopeLoadApply (table : Nat) (s : State) : Out :=
  .next (engineHeld s (match s.ropeLoads.find? (fun l => l.table == table) with
    | none => s
    | some l =>
      if ropeUsed s l then s
      else
        let s := { s with ropes := Tab.put s.ropes table l.image, ropeLoads := s.ropeLoads.erase l }
        touchJobs (retryRope (answerRope l .ok s))))

/-- `ROPE_LOAD_TIMEOUT` (R166). -/
def execRopeLoadTimeout (table : Nat) (s : State) : Out :=
  .next (engine s (match s.ropeLoads.find? (fun l => l.table == table && l.deadline ≤ now s) with
    | none => s
    | some l => touchJobs (retryRope (answerRope l .ropeBusy { s with ropeLoads := s.ropeLoads.erase l }))))

/-- `CONTEXT_REARM` (R268). -/
def execContextRearm (m : Msg) (s : State) : Out :=
  .next (request { opcode := 0x0213, on := .mailbox, need := 1, most := 1 } m false (fun t =>
    let c := opNat m 0
    if (ctxAt t c).mode == .none then refuse m (noContext c) t
    else if t.sessions.any (fun e => e.2.record.context == c && e.2.entry.state != .free && e.2.entry.state != .tombstone) then
      refuse m .contextBusy t
    else refuse m .ok { t with contexts := Tab.put t.contexts c { ctxAt t c with tornDown := false } }) s)

end Sys2Proof.Machine
end

