-- ==== Sys2Proof/Machine/Moves.lean ====
section
/-!
DEFINITION. What happens to sessions by itself: timers, the end of a tombstone, pre-emption, the ends of parks and migrations, the flat
window, innings (R74, R75, R80, R87 to R91, R97, R100, R101, R256 to R263, R353, R354, R361 to R363, R463, R464).
-/
namespace Sys2Proof.Machine

/-- Whether a session's timer has reached its deadline (R90). Shadows run no timers (R467). -/
def timerDue (s : State) (i : Nat) : Bool :=
  let x := sessAt s i
  x.timerOn && x.record.timerNs ≤ now s && x.shadow.isNone

/-- `DEMOTE_TIMER` (R72, R87): a WAITING session's demotion timer starts a park to tier 1. -/
def execDemoteTimer (i : Nat) (s : State) : Out :=
  .next (engineHeld s (if (sessAt s i).entry.state == .waiting && timerDue s i then
      settle (startPark i 1 .demoted none (bump ctrDemotions s))
    else s))

/-- `TTL_EXPIRY` (R72, R86, R89). -/
def execTtlExpiry (i : Nat) (s : State) : Out :=
  .next (engineHeld s (if (sessAt s i).entry.state == .parked && timerDue s i then
      settle (toTombstone i .expired (bump ctrExpiries s))
    else s))

/-- An entry becomes FREE (R97). Its generation stays for the next allocation (R61), and its record as it is until then. -/
def freeEntry (i : Nat) (s : State) : State :=
  let x := sessAt s i
  { setSess i { entry := { generation := x.entry.generation }, record := x.record, withheld := x.withheld } s with
    freed := s.freed ++ [i], ringMap := s.ringMap.filter (fun e => e.2 != i) }

/-- `LAST_REF` (R72, R97). -/
def execLastRef (i : Nat) (s : State) : Out :=
  let x := sessAt s i
  .next (engineHeld s (if x.entry.state == .tombstone && x.shadow.isNone && x.record.childCount == 0 &&
      x.tombAt + tombHoldMsVal s x.entry.partition * 1000000 ≤ now s then
      let s := mirrorItem i (.update { x.entry with state := .free } x.record (modelOf s x).tag (boundTags s x) (keyOf s i)) s
      freeEntry i s
    else s))

/-- Raise a session's innings by one, or note that the raise waits for its 100 µs (R100, R101). -/
def raiseInnings (i : Nat) (s : State) : State :=
  let x := sessAt s i
  match x.inningsAt with
  | some t =>
    if now s < t + 100000 then modSess i (fun y => { y with inningsDue := y.inningsDue + 1 }) s
    else modSess i (fun y => { y with inningsAt := some (now s), record.innings := (y.record.innings + 1) % 2 ^ 32 }) s
  | none => modSess i (fun y => { y with inningsAt := some (now s), record.innings := (y.record.innings + 1) % 2 ^ 32 }) s

/-- `INNINGS_INCREMENT` (R101): an increment that waited is applied. -/
def execInningsIncrement (i : Nat) (s : State) : Out :=
  let x := sessAt s i
  .next (engineHeld s (if x.inningsDue = 0 || now s < x.inningsAt.getD 0 + 100000 then s
    else mirrorUpdate i (raiseInnings i (modSess i (fun y => { y with inningsDue := y.inningsDue - 1 }) s))))

/-- Whether an append of a partition waits for a frame (R130). -/
def appendWaits (s : State) (p : Nat) : Bool :=
  s.sessions.any (fun e => e.2.entry.partition == p && match e.2.step with | some st => st.phase == .waitFrame | none => false)

/-- The pseudo-channels for which a partition pre-empts (R256; log entry 32): those below `FRAME_LOW_WATER` or for which an append waits, and
those that were and have not reached `FRAME_HIGH_WATER` again. -/
def shortChannels (s : State) (p : Nat) : List Nat :=
  (partFielders s p).filter (fun f =>
    let n := freeFrames s f
    n < frameLowWaterVal s p || (n == 0 && appendWaits s p) || ((partAt s p).short.contains f && n < frameHighWaterVal s p))

/-- Whether a session may be a victim of its partition (R257, R259), whose short pseudo-channels stand in `Part.short`. -/
def isVictim (s : State) (p i : Nat) (x : Session) : Bool :=
  x.entry.partition == p && x.shadow.isNone && x.holdoffUntil ≤ now s &&
  (x.entry.state == .waiting || (x.entry.state == .ready && (jobOf s i).isNone)) &&
  x.pages.any (fun e => e.2.tier == 0 && (frameAt s e.2.frame).state == .kv && (frameAt s e.2.frame).refCount == 1 &&
    (partAt s p).short.contains (frameFielder e.2.frame))

/-- R257's order of victims: class, state, resident pages; the index settles the rest, as the table is in its order. -/
def victimRank (x : Session) : Nat × Nat × Nat × Nat :=
  (1 - x.record.cls, if x.entry.state == .waiting then 0 else 1, x.record.residentPages, 0)

/-- The victim that a partition takes next (R257). -/
def chooseVictim (s : State) (p : Nat) : Option Nat :=
  ((sortBy (fun a b => rankBefore (victimRank a.2) (victimRank b.2)) (s.sessions.filter (fun e => isVictim s p e.1 e.2))).head?).map
    Prod.fst

/-- Pre-emptions of a partition in flight. -/
def preemptions (s : State) (p : Nat) : Nat :=
  (s.sessions.filter (fun e => e.2.entry.partition == p &&
    match e.2.move with | some (.park q) => q.reason == .preempted | _ => false)).length

/-- `PREEMPTION_START` (R256 to R258): at most 4 in flight in a partition; it stops where no victim remains. -/
def execPreemptionStart (p : Nat) (s : State) : Out :=
  let l := shortChannels s p
  .next (engineHeld s (
    let s := modPart p (fun x => { x with short := l }) s
    if l.isEmpty || preemptions s p ≥ 4 then s
    else match chooseVictim s p with
      | none => modPart p (fun x => { x with short := [] }) s
      | some i => settle (startPark i 1 .preempted none (bump ctrPreemptions s))))

/-- The time-to-live with which a session is parked (R89). -/
def startTtl (i : Nat) (s : State) : State :=
  let x := sessAt s i
  let t := if x.record.ttlS = 0 then ttlSVal s x.entry.partition else x.record.ttlS
  startTimer i (if t = 0 then none else some (now s + t * 1000000000)) s

/-- `MOVE_DONE` of a park (R74, R75, R89, R258, R353 step 4, R694). -/
def completePark (i : Nat) (p : ParkMove) (s : State) : State :=
  let x := sessAt s i
  let s := x.pages.foldl (fun t e => if e.2.tier = 0 then dropRef e.2.frame t else t) s
  let s := (match x.root with | some f => f :: Tab.vals x.leaves | none => []).foldl (fun t f => freeFrame f t) s
  let away := Tab.mapVals x.pages (fun e => if e.tier = 0 then { e with tier := p.tier, frame := 0 } else e)
  let s := x.mapHome.foldl (fun t e => freeHome e.1 e.2 t) (dropTransfers i s)
  let s := setSess i { x with
    entry := { x.entry with state := .parked, reviving := false }
    record := { x.record with
      reason := p.reason
      mapTier := p.tier
      mapAddr := p.mapSlots.headD 0 * 65536
      residentPages := 0
      flags := if p.reason == .preempted then x.record.flags ||| 16 else x.record.flags }
    root := none
    leaves := Tab.mapVals x.leaves (fun _ => 0)
    pages := away
    mapHome := p.mapSlots.map (fun k => (p.tier, k))
    parkedAt := now s
    revive := none
    move := none } s
  let s := mirrorUpdate i (mirrorItem i (.map away) (startTtl i s))
  settle (parkNotice i p .ok s)

/-- Whether tiles for an index at the far end are still to be acknowledged on a queue pair (R463 step 3). -/
def tilesOut (s : State) (n index : Nat) : Bool :=
  let q := qpAt s n
  (q.unacked.map (·.what) ++ q.backlog).any (fun o => o.ptype == 1 && bits o.addr 24 0 == index)

/-- The homes in tier 2 pass to the destination with their page map entries (R463 step 2; log entry 31). -/
def passHomes (i : Nat) (s : State) : State :=
  modSess i (fun y => { y with pages := Tab.mapVals y.pages (fun e =>
    if e.homeValid && e.homeTier == 1 then { e with homeValid := false, homeTier := 0, homeSlot := 0 } else e) }) s

/-- `MOVE_DONE` (R72, R74, R463 step 3). -/
def execMoveDone (i : Nat) (s : State) : Out :=
  let x := sessAt s i
  .next (engineHeld s (match x.move with
    | some (.park p) => if parkDone p then completePark i p s else s
    | some (.source m) =>
      if m.opened && m.todo.isEmpty && !m.failed && !s.transfers.any (fun e => servesSession i e.2) &&
          !tilesOut s (migrateQp m.node) (handleIndex m.newHandle) then
        let s := settle (toTombstone i .migrated (passHomes i (bump ctrMigrationsOut s)))
        askPeer m.node (migrateQp m.node) m.newHandle (.migrateCommit i m.qp m.tag m.newHandle) (.migrateCommit m.newHandle) s
      else s
    | _ => s))

/-- A session whose park failed returns to the state it left (R73, R80, R354, R694). -/
def failPark (i : Nat) (s : State) : State :=
  let s := abandonMove i .tierUnreachable (bump ctrParkFailures s)
  let back := (sessAt s i).record.returnState
  mirrorUpdate i (if back == .waiting then enterWaiting i none s else modSess i (fun y => { y with entry.state := back }) s)

/-- `MOVE_FAIL` (R72, R80, R354, R464). -/
def execMoveFail (i : Nat) (s : State) : Out :=
  .next (engineHeld s (match (sessAt s i).move with
    | some (.park p) => if p.failed then settle (failPark i s) else s
    | some (.source m) => if m.failed then settle (returnSource i m s) else s
    | _ => s))

/-- Send one page of a migrating session as tile writes to its new index (R463 step 2). -/
def sendPage (i k : Nat) (m : SourceMove) (tile : Nat → List Byte) (s : State) : State :=
  let h := sessShape s i
  foldRange h.used (fun t j =>
    sendTile (migrateQp m.node)
      { ptype := 1, payload := tile j, conf := confOf s i
        addr := word (at' (keyLayer h k) 56 8 + at' (keyHead h k) 48 8 + at' (keyPage h k * (h.run / 16) + j / h.slices) 28 20 +
          at' (j % h.slices) 25 3 + at' (handleIndex m.newHandle) 0 25) } t) s

/-- The state with `f` applied to a session's migration as source. -/
def modSource (i : Nat) (f : SourceMove → SourceMove) (s : State) : State :=
  modSess i (fun x => match x.move with
    | some (.source m) => { x with move := some (.source (f m)) }
    | _ => x) s

/-- Send what a migrating session can send now, in order: pages in HBM at once, pages in tier 1 once fetched (R463 step 2). -/
def pumpMigrate (i : Nat) : Nat → State → State
  | 0, s => s
  | fuel + 1, s =>
    let x := sessAt s i
    match x.move with
    | some (.source m) =>
      match m.todo with
      | [] => s
      | k :: rest =>
        let e := pageAt x k
        let done (t : State) : State := pumpMigrate i fuel (modSource i (fun q => { q with todo := rest }) t)
        if e.homeValid && e.homeTier == 1 then done s
        else if e.tier = 0 then
          if filling s e then s else done (sendPage i k m (fun j => slice (pageBytes s i k) (4096 * j) 4096) s)
        else if e.tier = 3 then done s
        else if !mayIssue s 0 then s
        else
          done (foldRange (sessShape s i).used (fun t j =>
            issueTile (.migrate i k) j e.tier e.homeSlot j x.record.context 0 false [] t) s)
    | _ => s

/-- A tile of a page in tier 1 that a migration fetched: it travels on to the destination (R463 step 2). -/
def migrateTile (i k j : Nat) (data : List Byte) (s : State) : State :=
  match (sessAt s i).move with
  | some (.source m) =>
    let h := sessShape s i
    sendTile (migrateQp m.node)
      { ptype := 1, payload := data, conf := confOf s i
        addr := word (at' (keyLayer h k) 56 8 + at' (keyHead h k) 48 8 + at' (keyPage h k * (h.run / 16) + j / h.slices) 28 20 +
          at' (j % h.slices) 25 3 + at' (handleIndex m.newHandle) 0 25) } s
  | _ => s

/-- The sessions whose page maps name a frame, with the page's key. -/
def frameUsers (s : State) (f : Nat) : List (Nat × Nat) :=
  (s.sessions.map (fun e => (e.2.pages.filter (fun q => q.2.tier == 0 && q.2.frame == f)).map (fun q => (e.1, q.1)))).flatten

/-- A revival is over when its map and all its pages have arrived: `REVIVING` clears with the last page (R77), the map image's slots are
freed with the map's return to HBM (R352). -/
def settleRevive (i : Nat) (s : State) : State :=
  let x := sessAt s i
  let s := if x.entry.reviving && x.record.residentPages == x.record.totalPages then
      mirrorUpdate i (modSess i (fun y => { y with entry.reviving := false }) s)
    else s
  match x.revive with
  | none => s
  | some v =>
    if v.rootLeft ≠ 0 || v.leafLeft.any (fun e => e.2 != 0) then s
    else
      let s := x.mapHome.foldl (fun t e => freeHome e.1 e.2 t) s
      modSess i (fun y => { y with mapHome := [], revive := if v.slots.isEmpty then none else y.revive }) s

/-- The last tile of a page has come: the frame becomes KV (R122), and every session that names it has one more resident page (R77). -/
def pageArrived (i k f : Nat) (s : State) : State :=
  let us := frameUsers s f
  let s := turnFrame f .kv { s with fills := Tab.drop s.fills f }
  let s := us.foldl (fun t u => modSess u.1 (fun y => { y with record.residentPages := y.record.residentPages + 1 }) t) s
  let x := sessAt s i
  let e := pageAt x k
  let s := match x.revive.bind (fun v => Tab.find v.slots k) with
    | some h => if e.homeValid && (e.homeTier + 1, e.homeSlot) == h then s else freeHome h.1 h.2 s
    | none => s
  let s := modRevive i (fun v => { v with slots := Tab.drop v.slots k }) s
  let s := mirrorRows i k (sessShape s i) true (fun p => p < localPos s x.entry.partition x.record.length) s
  let s := us.foldl (fun t u => pumpMigrate u.1 ((sessAt t u.1).pages.length + 1) (pumpPark u.1 (settleRevive u.1 t))) (settleRevive i s)
  settle s

/-- Write a fetched tile into its page's frame: rows that the session has appended since its `RESUME` keep what was appended. -/
def pageTile (i k j : Nat) (data : List Byte) (s : State) : State :=
  let x := sessAt s i
  let h := sessShape s i
  let e := pageAt x k
  if !filling s e then s
  else
    let len := match x.revive with | some v => localPos s x.entry.partition v.length | none => 0
    let first := keyPage h k * h.run + 16 * (j / h.slices)
    let s := foldRange 16 (fun t r =>
      if first + r < len then writeBytes (hbmAddr e.frame (4096 * j + 256 * r)) (slice data (256 * r) 256) t else t) s
    let bits := Tab.get s.fills e.frame 0 ||| 2 ^ j
    resumePass i (if bits + 1 = 2 ^ h.used then pageArrived i k e.frame s else { s with fills := Tab.put s.fills e.frame bits })

/-- A tile of a root or leaf has come. -/
def mapTile (i : Nat) (leaf : Option Nat) (s : State) : State :=
  settleJobs (settleRevive i (modRevive i (fun v => match leaf with
    | none => { v with rootLeft := v.rootLeft - 1 }
    | some r => { v with leafLeft := Tab.edit v.leafLeft r (· - 1) }) s))

/-- A session's data cannot be fetched (R264, R349, R360). -/
def fetchFault (i code : Nat) (s : State) : State := settle (faultSession i code s)

/-- Issue the tiles of one root, leaf or page of a reviving session (R260, R348). -/
def issueRevive (i : Nat) (v : Revive) (s : State) : State :=
  let x := sessAt s i
  let h := sessShape s i
  let c := x.record.context
  match v.todo with
  | [] => s
  | (kind, k) :: rest =>
    let (tier, slot, n, who) : Nat × Nat × Nat × Consumer :=
      if kind = 0 then (v.tier, v.mapSlots.headD 0, 16, .root i)
      else if kind = 1 then (v.tier, v.mapSlots.getD (((Tab.keys x.leaves).idxOf k) + 1) 0, 16, .leaf i k)
      else
        let a := Tab.get v.slots k (0, 0)
        (a.1, a.2, h.used, .page i k)
    if !tierAllows s c tier slot false then fetchFault i 0x20003 (bump ctrPoolDenials s)
    else
      let f := (pageAt x k).frame
      let s := foldRange n (fun t j =>
        issueTile who (v.issued + j) tier slot j c (if kind = 2 then hbmAddr f (4096 * j) else 0) false [] t) s
      modRevive i (fun w => { w with todo := rest, issued := w.issued + n, turn := w.turn + 1 }) s

/-- `REVIVAL_FETCH_ISSUE` (R260 to R263): the reviving session whose turn it is issues its next root, leaf or page. -/
def execRevivalFetchIssue (s : State) : Out :=
  .next (engine s (match reviveOrder s with
    | [] => s
    | (i, v) :: _ => if mayIssue s v.issued then issueRevive i v s else s))

/-- `FLAT_IDLE_PARK` (R361): `LAST_STEP_NS`, or the time of admission where no step has been, starts the idle time. -/
def execFlatIdlePark (i : Nat) (s : State) : Out :=
  let x := sessAt s i
  let p := x.entry.partition
  let t := flatIdleParkSVal s p
  .next (engineHeld s (if flatWindowVal s p == 1 && t != 0 && x.entry.state == .ready && x.shadow.isNone && (jobOf s i).isNone &&
      max x.record.lastStepNs x.record.createdNs + t * 1000000000 ≤ now s then
      settle (startPark i 1 .demoted none s)
    else s))

/-- Begin to copy the next page of a move beneath, and after the last the map image, to slots of tier 2 (R362). Where none can be had, the next
`FLAT_MIGRATION` tries again. -/
def startCopy (i : Nat) (s : State) : State :=
  let x := sessAt s i
  let p := x.entry.partition
  let c := x.record.context
  match x.beneath with
  | k :: rest =>
    let e := pageAt x k
    (match allocTier 2 p c 1 s with
    | none => s
    | some (slot, t) =>
      let n := (sessShape s i).used
      foldRange n (fun t j => issueTile (.beneath i) j (e.homeTier + 1) e.homeSlot j c 0 false [] t)
        (modSess i (fun y => { y with beneath := rest, copy := some { key := some k, slots := [slot], left := n } }) t))
  | [] =>
    let n := x.mapHome.length
    (match allocTier 2 p c n s with
    | none => s
    | some (slot, t) =>
      let img := mapImage x 2
      foldRange (16 * n) (fun t j => issueTile (.beneathWrite i) j 2 (slot + j / 16) (j % 16) c 0 true (slice img (4096 * j) 4096) t)
        (modSess i (fun y => { y with copy := some { key := none, slots := List.range' slot n, left := 16 * n } }) t))

/-- A tile of a page that moves beneath has been read: it is written to the page's new slot (R362). -/
def beneathTile (i j : Nat) (data : List Byte) (s : State) : State :=
  match (sessAt s i).copy with
  | none => s
  | some c => issueTile (.beneathWrite i) j 2 (c.slots.headD 0) j (sessAt s i).record.context 0 true data s

/-- A tile of what moves beneath is in its new slot. -/
def beneathWritten (i : Nat) (s : State) : State :=
  modSess i (fun y => { y with copy := y.copy.map (fun c => { c with left := c.left - 1 }) }) s

/-- A move beneath whose tile fails ends with the pages it has moved (log entry 60). -/
def beneathFailed (i : Nat) (s : State) : State := dropCopy i (modSess i (fun y => { y with beneath := [], beneathMap := false }) s)

/-- Switch a copied page, or the map image, to its new place and free the old one (R352, R362, R363). A page that an append has changed keeps
its entry, and a revival that has begun to fetch a page frees its old slot as the page arrives. -/
def switchHome (i : Nat) (c : BeneathCopy) (s : State) : State :=
  let x := sessAt s i
  let s := modSess i (fun y => { y with copy := none }) s
  match c.key with
  | some k =>
    let e := pageAt x k
    let slot := c.slots.headD 0
    if !e.homeValid then freeHome 2 slot s
    else
      let s := putPage i k { e with homeTier := 1, homeSlot := slot, tier := if e.tier = 1 then 2 else e.tier } s
      let asked := (x.revive.map (fun v => (Tab.find v.slots k).isSome && !v.todo.contains (2, k))).getD false
      let s := modRevive i (fun v => if v.todo.contains (2, k) then { v with slots := Tab.put v.slots k (2, slot) } else v) s
      bump ctrFlatMigrations (if asked then s else freeHome (e.homeTier + 1) e.homeSlot s)
  | none =>
    let s := x.mapHome.foldl (fun t e => freeHome e.1 e.2 t) s
    mirrorUpdate i (modSess i (fun y => { y with
      beneathMap := false, record.mapTier := 2, record.mapAddr := c.slots.headD 0 * 65536, mapHome := c.slots.map (fun k => (2, k)) }) s)

/-- `FLAT_DEMOTE` (R361, R362): the pages and map of a session parked in tier 1 begin to move beneath it. -/
def execFlatDemote (i : Nat) (s : State) : Out :=
  let x := sessAt s i
  let p := x.entry.partition
  let t := flatDemoteSVal s p
  .next (engineHeld s (if flatWindowVal s p == 1 && t != 0 && x.entry.state == .parked && x.shadow.isNone && x.record.mapTier == 1 &&
      !x.beneathMap && x.copy.isNone && x.parkedAt + t * 1000000000 ≤ now s then
      startCopy i (modSess i (fun y => { y with
        beneath := Tab.keysWhere y.pages (fun e => e.homeValid && e.homeTier == 0), beneathMap := true }) s)
    else s))

/-- `FLAT_MIGRATION` (R362, R363): what is copied switches to its new place, and while the session stays PARKED the next copy begins. -/
def execFlatMigration (i : Nat) (s : State) : Out :=
  .next (engineHeld s (match (sessAt s i).copy with
    | some c =>
      if c.left ≠ 0 then s
      else
        let s := switchHome i c s
        if (sessAt s i).entry.state == .parked && (sessAt s i).beneathMap then startCopy i s else s
    | none => if (sessAt s i).entry.state == .parked && (sessAt s i).beneathMap then startCopy i s else s))

/-- A park's tile write has ended (R353, R354, R359). `park` names the page, none the map image. -/
def parkTile (i : Nat) (key : Option Nat) (s : State) : State :=
  let x := sessAt s i
  let s := match key with
    | none => modPark i (fun p => { p with mapFlying := p.mapFlying - 1 }) s
    | some k =>
      match x.move with
      | some (.park p) =>
        let left := p.flying.erase k
        let s := modPark i (fun q => { q with flying := left }) s
        match left.contains k, Tab.find p.slots k with
        | false, some slot =>
          let e := pageAt x k
          let s := if e.homeValid then freeHome (e.homeTier + 1) e.homeSlot s else s
          putPage i k { e with homeValid := true, homeTier := p.tier - 1, homeSlot := slot }
            (modPark i (fun q => { q with slots := Tab.drop q.slots k }) s)
        | _, _ => s
      | _ => s
  pumpPark i s

end Sys2Proof.Machine
end

