-- ==== Sys2Proof/Machine/Compass.lean ====
section
/-!
DEFINITION. Compass: its commands, searches in rounds, slices on fielders, lists placed in the pool (R309 to R339).
-/
namespace Sys2Proof.Machine

/-- Why a Compass command has no effect whenever it acts: a context that it names is torn down, or its index is another context's (R265, R311,
R576). -/
def compassDenied (s : State) (m : Msg) (always : Bool) : Option Status :=
  let c := (qpAt s m.qp).context
  let reads := m.opcode.toNat == 0x0409 || m.opcode.toNat == 0x040A
  let torn (c : Nat) : Bool := (ctxAt s c).tornDown && !always
  match Tab.find s.indexes (indexOf m) with
  | none => if torn c then some .contextTornDown else none
  | some v =>
    if torn c || torn v.context then some .contextTornDown
    else if v.context ≠ c then some (if reads && (ctxAt s v.context).mode == .confidential then .confDenied else .contextDenied)
    else none

/-- What is judged of a Compass command on its index before its own rules (R265, R311, R338, R576). -/
def compassJudge (s : State) (m : Msg) (always : Bool) : Status :=
  match compassDenied s m always, Tab.find s.indexes (indexOf m) with
  | some st, _ => st
  | none, none => .indexUnknown
  | none, some v => if v.faulted && !always then .indexFault else .ok

/-- A Compass command that is judged and then acts on its index. -/
def onIndex (m : Msg) (always : Bool) (h : VIndex → State → State) (s : State) : State :=
  match compassJudge s m always, Tab.find s.indexes (indexOf m) with
  | .ok, some v => h v s
  | st, _ => refuse m st s

/-- `COMPASS_CREATE` (R309, R310, R312, R313, R317, R553): index, B, C, K. -/
def doCreate (m : Msg) (s : State) : State :=
  let x := indexOf m
  let c := (qpAt s m.qp).context
  let p := (ctxAt s c).partition
  let (b, n, k) := (opNat m 1, opNat m 2, opNat m 3)
  if (ctxAt s c).mode == .none then refuse m (noContext c) s
  else if (ctxAt s c).tornDown then refuse m .contextTornDown s
  else if (Tab.find s.indexes x).isSome then
    refuse m (match compassJudge s m false with | .ok => .indexInUse | st => st) s
  else if b < 128 || 4096 < b || b % 128 ≠ 0 || n = 0 || 65536 < n || k = 0 || 1024 < k || (partFielders s p).isEmpty then
    refuse m .indexShape s
  else
    let v : VIndex := { context := c, partition := p, units := b / 128, centroids := n, maps := k, centroidFrames := [], dirFrames := [],
                        mapFrames := [] }
    match (allocIndexFrames x c p 0 (ceilDiv n (codesPerFrame v)) s).bind (fun a =>
      (allocIndexFrames x c p 0 (ceilDiv n 4096) a.2).bind (fun d =>
        (allocIndexFrames x c p 0 k d.2).map (fun r =>
          setIndex x { v with centroidFrames := a.1, dirFrames := d.1, mapFrames := r.1 } r.2))) with
    | none => refuse m .indexNoFrame s
    | some t => refuse m .ok t

/-- The number of records of an index that are LIVE or DELETED. -/
def recordsHeld (s : State) (v : VIndex) : Bool :=
  v.lists.any (fun e => e.2.entries != 0) || v.live != 0 || v.mapFrames.any (fun f => s.hbm.any (fun c => frameBase f ≤ c.1 && c.1 < frameBase f + 65536))

/-- `COMPASS_CENTROIDS` (R318): index, first centroid, then a list of codes. -/
def doCentroids (m : Msg) (s : State) : State :=
  onIndex m false (fun v s =>
    match listItems (codeBytes v) m.body with
    | none => refuse m .messageMalformed s
    | some l =>
      if v.centroids < opNat m 1 + l.length then refuse m .messageMalformed s
      else if recordsHeld s v then refuse m .indexNotEmpty s
      else
        let s := foldRange l.length (fun t i =>
          let c := opNat m 1 + i
          writeBytes (frameBase (v.centroidFrames.getD (c / codesPerFrame v) 0) + (c % codesPerFrame v) * codeBytes v) (l.getD i []) t) s
        refuse m .ok s) s

/-- The code of a centroid. -/
def centroidCode (s : State) (v : VIndex) (c : Nat) : List Byte :=
  readBytes s (frameBase (v.centroidFrames.getD (c / codesPerFrame v) 0) + (c % codesPerFrame v) * codeBytes v) (codeBytes v)

/-- The centroid nearest to a code, the lower number where distances are equal (R319). -/
def nearest (s : State) (v : VIndex) (code : List Byte) : Nat :=
  (foldRange v.centroids (fun (b : Nat × Nat) c =>
    let d := distance (centroidCode s v c) code
    if c = 0 || d < b.1 then (d, c) else b) (0, 0)).2

/-- Append one record to a list (R316, R319); none where R313 refuses a frame. -/
def appendEntry (x : Nat) (v : VIndex) (c id : Nat) (code : List Byte) (s : State) : Option (VIndex × State) :=
  let l := listAt v c
  let n := entriesPerFrame v
  let room := if l.entries % n = 0 then
      (allocIndexFrame x v.context v.partition (c + l.frames.length) .index s).map (fun a => ({ l with frames := l.frames ++ [a.1] }, a.2))
    else some (l, s)
  room.map (fun (l, s) =>
    let s := writeEntry v (l.frames.getD (l.entries / n) 0) (l.entries % n) id code s
    let l := { l with entries := l.entries + 1 }
    let v := { v with lists := Tab.put v.lists c l, live := v.live + 1 }
    (v, setRecordState v id 1 (writeHeaders x c v l s)))

/-- Insert one record (R319): its status, and the index and state after it. -/
def insertRecord (x : Nat) (v : VIndex) (item : List Byte) (s : State) : Status × VIndex × State :=
  let id := numAt item 0 8
  let code := slice item 8 (codeBytes v)
  let c := numAt item (8 + codeBytes v) 8
  if v.maps * 262144 ≤ id || (c ≠ 0xFFFFFFFF && v.centroids ≤ c) then (.recordRange, v, s)
  else if recordState s v id = 1 then (.recordExists, v, s)
  else if recordState s v id = 2 then (.recordDeleted, v, s)
  else if v.sealed then (.indexSealed, v, s)
  else match appendEntry x v (if c = 0xFFFFFFFF then nearest s v code else c) id code s with
    | none => (.indexNoFrame, v, s)
    | some (v, s) => (.ok, v, s)

/-- Insert records up to the first that fails: how many were applied, that record's status. -/
def insertAll (x : Nat) (v : VIndex) (n : Nat) (s : State) : List (List Byte) → Status × Nat × VIndex × State
  | [] => (.ok, n, v, s)
  | i :: rest => match insertRecord x v i s with
    | (.ok, v, s) => insertAll x v (n + 1) s rest
    | (st, v, s) => (st, n, v, s)

/-- `COMPASS_INSERT` (R319): index, then a list of records: id, code, centroid (log entry 22). The answer's operand word is the count applied. -/
def doInsert (m : Msg) (s : State) : State :=
  onIndex m false (fun v s =>
    match listItems (codeBytes v + 16) m.body with
    | none => refuse m .messageMalformed s
    | some l =>
      let (st, n, v, t) := insertAll (indexOf m) v 0 s l
      respond m { status := st, ops := [word n] } (setIndex (indexOf m) v t)) s

/-- `COMPASS_DELETE` (R320): index, then a list of ids. The answer's operand word counts the ids not found. -/
def doDelete (m : Msg) (s : State) : State :=
  onIndex m false (fun v s =>
    let (v, missed, s) := ((listWords m.body).getD []).foldl (fun (a : VIndex × Nat × State) w =>
      if w.toNat < v.maps * 262144 && recordState a.2.2 v w.toNat == 1 then
        ({ a.1 with live := a.1.live - 1 }, a.2.1, setRecordState v w.toNat 2 a.2.2)
      else (a.1, a.2.1 + 1, a.2.2)) (v, 0, s)
    respond m { ops := [word missed] } (setIndex (indexOf m) v s)) s

/-- Write a list anew without its DELETED entries (R316, R321); none where R313 refuses a frame. -/
def compactList (x c : Nat) (v : VIndex) (s : State) : Option (VIndex × State) :=
  let l := listAt v c
  let n := entriesPerFrame v
  let all := (List.range l.entries).map (fun e => entryOf s v (l.frames.getD (e / n) 0) (e % n))
  let keep := all.filter (fun e => recordState s v e.1 != 2)
  let gone := all.filter (fun e => recordState s v e.1 == 2)
  (allocIndexFrames x v.context v.partition c (ceilDiv keep.length n) s).map (fun (fs, s) =>
    let s := keep.zipIdx.foldl (fun t e => writeEntry v (fs.getD (e.2 / n) 0) (e.2 % n) e.1.1 e.1.2 t) s
    let l' : VList := { entries := keep.length, frames := fs }
    let s := gone.foldl (fun t e => setRecordState v e.1 0 t) s
    let v := { v with lists := if keep.isEmpty then Tab.drop v.lists c else Tab.put v.lists c l' }
    (v, writeHeaders x c v l' (l.frames.foldl (fun t f => freeFrame f t) s)))

/-- `COMPASS_COMPACT` (R321): index, centroid or 0xFFFF_FFFF for all. -/
def doCompact (m : Msg) (s : State) : State :=
  onIndex m false (fun v s =>
    let c := opNat m 1
    if c ≠ 0xFFFFFFFF && v.centroids ≤ c then refuse m .messageMalformed s
    else if v.sealed then refuse m .indexSealed s
    else match (if c = 0xFFFFFFFF then Tab.keys v.lists else [c]).foldl (fun (a : Option (VIndex × State)) k =>
        a.bind (fun a => compactList (indexOf m) k a.1 a.2)) (some (v, s)) with
      | none => refuse m .indexNoFrame s
      | some (v, t) => refuse m .ok (setIndex (indexOf m) v t)) s

/-- `COMPASS_SEAL` (R322). -/
def doSeal (m : Msg) (s : State) : State :=
  onIndex m false (fun v s => refuse m .ok (setIndex (indexOf m) { v with sealed := true } s)) s

/-- `COMPASS_UNSEAL` (R322). -/
def doUnseal (m : Msg) (s : State) : State :=
  onIndex m false (fun v s =>
    if v.pool then refuse m .indexInPool s else refuse m .ok (noteUnsealed (indexOf m) (setIndex (indexOf m) { v with sealed := false } s))) s

/-- The new place of each list that a move to the pool needs, taken from the range for the partition's parks (R322, R350; log entry 33). -/
def placeOut (v : VIndex) (s : State) : Option (Tab VList × State) :=
  v.lists.foldl (fun (a : Option (Tab VList × State)) e => a.bind (fun a =>
    let n := e.2.frames.length
    (allocPool (parkPoolRangeVal s v.partition) v.context n a.2).bind (fun b =>
      if (List.range' b.1 n).all (fun k => poolAllows s v.context k true) then
        some (Tab.put a.1 e.1 { entries := e.2.entries, pool := some (b.1, n) }, b.2)
      else none))) (some ([], s))

/-- The frames that a move back to HBM needs (R312, R313, R322). -/
def placeIn (x : Nat) (v : VIndex) (s : State) : Option (Tab VList × State) :=
  v.lists.foldl (fun (a : Option (Tab VList × State)) e => a.bind (fun a =>
    let n := ceilDiv e.2.entries (entriesPerFrame v)
    (allocIndexFrames x v.context v.partition e.1 n a.2).map (fun b => (Tab.put a.1 e.1 { entries := e.2.entries, frames := b.1 }, b.2))))
    (some ([], s))

/-- Issue one tile of a move. -/
def placeTile (x : Nat) (v : VIndex) (p : Placing) (c j t : Nat) (s : State) : State :=
  let old := listAt v c
  let new := Tab.get p.placed c {}
  if p.tier = 2 then
    let f := old.frames.getD j 0
    let data := readBytes s (frameBase f + 4096 * t) 4096
    let data := if t = 0 then listHeader x c v old j true ++ data.drop 8 else data
    issueTile (.place x) p.issued 2 ((poolSlotsOf new).getD j 0) t v.context 0 true data s
  else
    issueTile (.place x) p.issued 2 ((poolSlotsOf old).getD j 0) t v.context (hbmAddr (new.frames.getD j 0) (4096 * t)) false [] s

/-- Issue what a move can issue now (R348, R349); at its last tile every list has its new place (R322). -/
def pumpPlace (x : Nat) : Nat → State → State
  | 0, s => s
  | fuel + 1, s =>
    match Tab.find s.indexes x with
    | none => s
    | some v => match v.placing with
      | none => s
      | some p => match p.todo with
        | (c, j, t) :: rest =>
          let slot := (poolSlotsOf (if p.tier = 2 then Tab.get p.placed c {} else listAt v c)).getD j 0
          if !mayIssue s p.issued then s
          else if !poolAllows s v.context slot (p.tier == 2) then failPlace x .poolDenied (bump ctrPoolDenials s)
          else
            let s := placeTile x v p c j t s
            pumpPlace x fuel (setIndex x { v with placing := some { p with todo := rest, flying := p.flying + 1, issued := p.issued + 1 } } s)
        | [] =>
          if p.flying ≠ 0 then s
          else
            let s := v.lists.foldl (fun t e => freeList e.2 t) s
            let w := { v with lists := p.placed, pool := p.tier == 2, placing := none }
            let s := p.placed.foldl (fun t e => writeHeaders x e.1 w e.2 t) (setIndex x w s)
            refuse p.msg .ok s

/-- `COMPASS_PLACE` (R322): index, tier 0 or 2. It is answered once every list has moved. -/
def doPlace (m : Msg) (s : State) : State :=
  onIndex m false (fun v s =>
    let x := indexOf m
    let tier := opNat m 1
    let go (a : Option (Tab VList × State)) (st : Status) : State :=
      match a with
      | none => refuse m st (if st == .poolDenied then bump ctrPoolDenials s else s)
      | some (placed, t) =>
        let todo := (placed.map (fun e => ((List.range (ceilDiv e.2.entries (entriesPerFrame v))).map (fun j =>
          (List.range 16).map (fun k => (e.1, j, k)))).flatten)).flatten
        pumpPlace x (todo.length + 1) (setIndex x { v with placing := some { msg := m, tier, todo, placed } } t)
    if tier = 2 && !v.sealed then refuse m .indexNotSealed s
    else if v.pool == (tier == 2) then refuse m .ok s
    else if tier = 2 then go (placeOut v s) .poolDenied
    else go (placeIn x v s) .indexNoFrame) s

/-- The words of an index descriptor (the index descriptor table). -/
def descriptor (v : VIndex) : List Word :=
  [word (2 ^ 63 + flagAt v.sealed 62 + flagAt v.faulted 61 + flagAt v.pool 60 + at' v.context 48 12 + at' v.units 42 6 + at' v.centroids 25 17),
   word (at' v.maps 53 11 + at' v.live 24 29)]

/-- `COMPASS_INFO` (R311). -/
def doInfo (m : Msg) (s : State) : State := onIndex m true (fun v s => respond m { ops := descriptor v } s) s

/-- `COMPASS_DROP` (R324). -/
def doDrop (m : Msg) (s : State) : State := onIndex m true (fun _ s => refuse m .ok (dropIndex (indexOf m) s)) s

/-- Take the first `n` of a list of candidates in the order of R326 after one more joins it. -/
def joinBest (n : Nat) (a : Nat × Nat) (l : List (Nat × Nat)) : List (Nat × Nat) := (insertBy candidateBefore a l).take n

/-- Put the slices and fetches of some lists in a search's queue (R336). -/
def scheduleLists (v : VIndex) (cs : List Nat) (q : Search) : Search :=
  cs.foldl (fun q c =>
    let l := listAt v c
    let n := ceilDiv l.entries (entriesPerFrame v)
    if l.pool.isSome then { q with fetch := q.fetch ++ (List.range n).map (fun j => (c, j)) }
    else { q with todo := q.todo ++ (List.range n).map (fun j =>
      { coarse := false, list := c, ord := j, frame := l.frames.getD j 0, entries := entriesIn v l j }) })
    { q with taken := q.taken + cs.length }

/-- The LIVE records that a scan found in some lists. -/
def liveIn (q : Search) (cs : List Nat) : Nat := (cs.map (fun c => (Tab.get q.found c {}).live)).sum

/-- The lists of R328's run, if the lists scanned so far settle it. -/
def runOf (q : Search) (seq : List Nat) (p : Nat) : Option (List Nat) :=
  if !q.extend then (if q.taken ≥ min p seq.length then some (seq.take p) else none)
  else
    match ((List.range (q.taken + 1)).filter (fun n => p ≤ n)).find? (fun n => q.count ≤ liveIn q (seq.take n)) with
    | some n => some (seq.take n)
    | none => if q.taken ≥ seq.length then some seq else none

/-- The result of a search over a run of lists (R329, the result tables). -/
def searchAnswer (v : VIndex) (q : Search) (run : List Nat) : Answer :=
  let fs := run.map (fun c => Tab.get q.found c {})
  let best := (fs.map (·.best)).flatten.foldl (fun acc a => joinBest q.count a acc) []
  let skipped := (fs.map (·.skipped)).sum
  let compared := (run.map (fun c => (listAt v c).entries)).sum - skipped
  { ops := [word (at' (opNat q.msg 1) 32 32 + at' q.index 28 4 + at' best.length 17 11 + at' run.length 8 9 +
              flagAt (best.length < q.count) 7),
            word (at' (min skipped 0xFFFFFFFF) 32 32 + at' (min compared 0xFFFFFFFF) 0 32)],
    body := wordsBytes (best.map (fun a => word (at' a.2 32 32 + at' a.1 0 13))) }

/-- Staging frames of a partition (R336), those that slices of ended searches still read among them. -/
def stagingIn (s : State) (p : Nat) : Nat :=
  ((s.searches.filter (fun e => ((Tab.find s.indexes e.2.index).map (·.partition)) == some p)).map (fun e => e.2.staging.length)).sum +
  (s.fielders.filter (fun e => partOfFielder s e.1 == some p &&
    (e.2.slice.map (fun l => l.2.staged && (Tab.find s.searches l.1).isNone)).getD false)).length

/-- Fetch the list frames of a search that can be fetched now (R336). -/
def pumpStage (k : Nat) : Nat → State → State
  | 0, s => s
  | fuel + 1, s =>
    match Tab.find s.searches k with
    | none => s
    | some q => match q.fetch, Tab.find s.indexes q.index with
      | (c, j) :: rest, some v =>
        let l := listAt v c
        let slot := (poolSlotsOf l).getD j 0
        if compassStageFramesVal s v.partition ≤ stagingIn s v.partition || !mayIssue s 0 then s
        else if !tierAllows s v.context 2 slot false then endSearch k { status := .indexFetchFailed } (bump ctrPoolDenials s)
        else match allocIndexFrame q.index v.context v.partition (c + j) .filling s with
          | none => s
          | some (f, s) =>
            let q := { q with fetch := rest, staging := q.staging ++ [{ list := c, ord := j, frame := f, entries := entriesIn v l j, left := 16 }] }
            let s := bump ctrStageFetches { s with searches := Tab.put s.searches k q }
            pumpStage k fuel (foldRange 16 (fun t i =>
              issueTile (.slice k c j) i 2 slot i v.context (hbmAddr f (4096 * i)) false [] t) s)
      | _, _ => s

/-- Carry a search on when nothing of its stage or round is left (R327, R328, R334). -/
def advanceSearch (k : Nat) : Nat → State → State
  | 0, s => s
  | fuel + 1, s =>
    match Tab.find s.searches k with
    | none => s
    | some q =>
      if !q.todo.isEmpty || !q.fetch.isEmpty || !q.staging.isEmpty || q.running ≠ 0 then pumpStage k (q.fetch.length + 1) s
      else match Tab.find s.indexes q.index with
        | none => endSearch k { status := .indexUnknown } s
        | some v =>
          let p := min q.probe v.centroids
          match q.sequence with
          | none =>
            let seq := (q.coarse.map Prod.snd).take (if q.extend then min v.centroids 256 else p)
            let q := scheduleLists v (seq.take p) { q with sequence := some seq }
            advanceSearch k fuel { s with searches := Tab.put s.searches k q }
          | some seq =>
            match runOf q seq p with
            | some run =>
              let a := searchAnswer v q run
              let s := bump ctrSearches s
              endSearch k a (if bit (a.ops.getD 0 0) 7 then bump ctrShortResults s else s)
            | none =>
              advanceSearch k fuel { s with searches := Tab.put s.searches k (scheduleLists v ((seq.drop q.taken).take p) q) }

/-- Start search `k` (R325, R327, R331): index, tag, probe, k, `EXTEND`, then the code. -/
def doSearch (m : Msg) (granted k : Nat) (s : State) : State :=
  onIndex m false (fun v s =>
    if opNat m 2 = 0 || 256 < opNat m 2 || opNat m 3 = 0 || 1024 < opNat m 3 || m.body.length ≠ codeBytes v then refuse m .searchRange s
    else
      let n := codesPerFrame v
      let q : Search :=
        { msg := m, index := indexOf m, at_ := granted, query := m.body, probe := opNat m 2, count := opNat m 3, extend := bit (opWord m 4) 0,
          todo := v.centroidFrames.zipIdx.map (fun f =>
            { coarse := true, list := 0, ord := f.2, frame := f.1, entries := min n (v.centroids - f.2 * n) }) }
      { s with searches := Tab.put s.searches k q, searchCount := max s.searchCount (k + 1) }) s

/-- Apply a Compass command at its index's element; `k` numbers the commands in the order of their grants (R333). -/
def applyCompass (m : Msg) (granted k : Nat) (s : State) : State :=
  match m.opcode.toNat with
  | 0x0401 => doCreate m s
  | 0x0402 => doCentroids m s
  | 0x0403 => doInsert m s
  | 0x0404 => doDelete m s
  | 0x0405 => doCompact m s
  | 0x0406 => doSeal m s
  | 0x0407 => doUnseal m s
  | 0x0408 => doPlace m s
  | 0x0409 => doSearch m granted k s
  | 0x040A => doInfo m s
  | _ => doDrop m s

/-- Whether a command on index `x` must wait, given the commands that wait before it (R323, R333). -/
def compassBlocked (s : State) (x : Nat) (search : Bool) (before : Tab SearchWait) : Bool :=
  ((Tab.find s.indexes x).bind (·.placing)).isSome ||
  (if search then before.any (fun w => w.2.index == x && !w.2.search) || 256 ≤ s.searches.length
   else before.any (fun w => w.2.index == x) || s.searches.any (fun q => q.2.index == x))

/-- Let waiting Compass commands act whose turn has come, in the order of their grants. -/
def pumpCompass : Nat → State → State
  | 0, s => s
  | fuel + 1, s =>
    match s.searchWaits.find? (fun w => !compassBlocked s w.2.index w.2.search (s.searchWaits.filter (fun v => v.1 < w.1))) with
    | none => s
    | some (k, w) => pumpCompass fuel (applyCompass w.msg w.at_ k { s with searchWaits := Tab.drop s.searchWaits k })

/-- After Compass's state changed: waiting fetches and commands go on. -/
def settleCompass (s : State) : State :=
  let s := (Tab.keys s.searches).foldl (fun t k => pumpStage k 65536 t) s
  settle (pumpCompass (s.searchWaits.length + 1) s)

/-- A Compass command that may act (R265, R311): it acts at once, or waits for searches and changes granted before it (R323, R333). -/
def compassCmd (f : Form) (search : Bool) (m : Msg) (bad : Bool) (s : State) : State :=
  request { f with setup := true, on := .bound } m bad (fun t =>
    match (compassDenied t m (m.opcode == 0x040B)).filter (fun _ => (ctxAt t (qpAt t m.qp).context).mode != .none) with
    | some st => refuse m st t
    | none =>
    if compassBlocked t (indexOf m) search t.searchWaits then
      if search && searchQueueMaxVal t ≤ (t.searchWaits.filter (fun w => w.2.search)).length then refuse m .searchBusy t
      else
        let t := if search then t else bump ctrMutationWaits t
        { t with searchWaits := Tab.put t.searchWaits t.searchCount { msg := m, index := indexOf m, at_ := now t, search },
                 searchCount := t.searchCount + 1 }
    else settleCompass (applyCompass m (now t) t.searchCount t)) s

/-- Whether a list operand's count lies outside 1 to `n` (R692). -/
def badCount (n : Nat) (body : List Byte) : Bool := body.length < 8 || numAt body 0 8 = 0 || n < numAt body 0 8

/-- `COMPASS_CREATE` (R317). -/
def execCompassCreate (m : Msg) (s : State) : Out :=
  .next (compassCmd { opcode := 0x0401, on := .bound, need := 4, most := 4 } false m (opNat m 0 > 15) s)

/-- `COMPASS_CENTROIDS` (R318). -/
def execCompassCentroids (m : Msg) (s : State) : Out :=
  .next (compassCmd { opcode := 0x0402, on := .bound, need := 2, most := 2 } false m (badCount 512 m.body) s)

/-- `COMPASS_INSERT` (R319). -/
def execCompassInsert (m : Msg) (s : State) : Out :=
  .next (compassCmd { opcode := 0x0403, on := .bound, need := 1, most := 1 } false m (badCount 256 m.body) s)

/-- `COMPASS_DELETE` (R320). -/
def execCompassDelete (m : Msg) (s : State) : Out :=
  .next (compassCmd { opcode := 0x0404, on := .bound, need := 1, most := 1 } false m
    (badCount 4096 m.body || (listWords m.body).isNone) s)

/-- `COMPASS_COMPACT` (R321). -/
def execCompassCompact (m : Msg) (s : State) : Out :=
  .next (compassCmd { opcode := 0x0405, on := .bound, need := 2, most := 2 } false m false s)

/-- `COMPASS_SEAL` (R322, R323). -/
def execCompassSeal (m : Msg) (s : State) : Out :=
  .next (compassCmd { opcode := 0x0406, on := .bound, need := 1, most := 1 } false m false s)

/-- `COMPASS_UNSEAL` (R322). -/
def execCompassUnseal (m : Msg) (s : State) : Out :=
  .next (compassCmd { opcode := 0x0407, on := .bound, need := 1, most := 1 } false m false s)

/-- `COMPASS_PLACE` (R322). -/
def execCompassPlace (m : Msg) (s : State) : Out :=
  .next (compassCmd { opcode := 0x0408, on := .bound, need := 2, most := 2 } false m (!(opNat m 1 == 0 || opNat m 1 == 2)) s)

/-- `COMPASS_SEARCH` (R325 to R334). -/
def execCompassSearch (m : Msg) (s : State) : Out :=
  .next (compassCmd { opcode := 0x0409, on := .bound, need := 5, most := 5 } true m false s)

/-- `COMPASS_INFO` (R311): a read of the descriptor as it stands. -/
def execCompassInfo (m : Msg) (s : State) : Out :=
  .next (request { opcode := 0x040A, on := .bound, need := 1, most := 1, setup := true } m false (doInfo m) s)

/-- `COMPASS_DROP` (R324). -/
def execCompassDrop (m : Msg) (s : State) : Out :=
  .next (compassCmd { opcode := 0x040B, on := .bound, need := 1, most := 1 } false m false s)

/-- `COMPASS_SLICE_ISSUE` (R30, R184, R333): the first queued slice for a fielder that no step job holds. -/
def execCompassSliceIssue (f : Nat) (s : State) : Out :=
  .next (engine s (match partOfFielder s f with
    | none => s
    | some p =>
      if s.survey.frozen || (partAt s p).holder.isSome || (fielderAt s f).slice.isSome then s
      else match s.searches.findSome? (fun e => (e.2.todo.find? (fun l => frameFielder l.frame == f)).map (fun l => (e.1, e.2, l))) with
        | none => s
        | some (k, q, l) =>
          let s := { s with searches := Tab.put s.searches k { q with todo := q.todo.erase l, running := q.running + 1 } }
          setFielder f { fielderAt s f with slice := some (k, l) } s))

/-- What a coarse slice finds (R327, R332). -/
def scanCentroids (s : State) (v : VIndex) (q : Search) (l : Slice) : Search :=
  foldRange l.entries (fun q e =>
    let c := l.ord * codesPerFrame v + e
    { q with coarse := joinBest 256 (distance (centroidCode s v c) q.query, c) q.coarse }) q

/-- What a list slice finds (R329, R332). -/
def scanList (s : State) (v : VIndex) (q : Search) (l : Slice) : ListFound :=
  foldRange l.entries (fun (r : ListFound) e =>
    let (id, code) := entryOf s v l.frame e
    if recordState s v id = 1 then { r with live := r.live + 1, best := joinBest q.count (distance code q.query, id) r.best }
    else { r with skipped := r.skipped + 1 }) (Tab.get q.found l.list {})

/-- The handshakes that a slice takes (R331): its entries' code bits, and 2 for each entry that enters the slice's own best list. -/
def sliceHs (s : State) (v : VIndex) (q : Search) (l : Slice) : Nat :=
  let cand (e : Nat) : Option (Nat × Nat) :=
    if l.coarse then
      let c := l.ord * codesPerFrame v + e
      some (distance (centroidCode s v c) q.query, c)
    else
      let (id, code) := entryOf s v l.frame e
      if recordState s v id = 1 then some (distance code q.query, id) else none
  let r := foldRange l.entries (fun (r : Nat × List (Nat × Nat)) e =>
    match cand e with
    | none => r
    | some c =>
      let best := joinBest (if l.coarse then 256 else q.count) c r.2
      (if best.contains c then r.1 + 1 else r.1, best)) (0, [])
  ceilDiv (l.entries * 8 * codeBytes v) 8192 + 2 * r.1 + 32

/-- The staging frame of a slice is freed (R336). -/
def freeStage (k : Nat) (l : Slice) (s : State) : State :=
  match Tab.find s.searches k with
  | none => s
  | some q => match q.staging.find? (fun g => g.list == l.list && g.ord == l.ord && !l.coarse) with
    | none => s
    | some g => freeFrame g.frame { s with searches := Tab.put s.searches k { q with staging := q.staging.erase g } }

/-- `COMPASS_SLICE_DONE` (R332, R334 to R336): the slice's candidates are merged; a search that has ended discards them (R56). -/
def execCompassSliceDone (f : Nat) (s : State) : Out :=
  .next (engine s (match (fielderAt s f).slice with
    | none => s
    | some (k, l) =>
      let s := setFielder f { fielderAt s f with slice := none } s
      match Tab.find s.searches k with
      | none => settleCompass (bump ctrLateDiscards (if l.staged then freeFrame l.frame s else s))
      | some q => match Tab.find s.indexes q.index with
        | none => s
        | some v =>
          let s := pmu { code := 0x08, priv := .context v.context, requester := some f, addr := some (hbmAddr l.frame 0) } s
          let s := laneBusy f (sliceHs s v q l) (.context v.context) none s
          let s := bumpBy ctrEntriesCompared l.entries (bump ctrSlicesScanned s)
          let q := { q with running := q.running - 1 }
          let s := if l.coarse then { s with searches := Tab.put s.searches k (scanCentroids s v q l) }
            else
              let r := scanList s v q l
              bumpBy ctrTombstoneSkips (r.skipped - (Tab.get q.found l.list {}).skipped)
                { s with searches := Tab.put s.searches k { q with found := Tab.put q.found l.list r } }
          settleCompass (advanceSearch k 1024 (freeStage k l s))))

/-- `SEARCH_TIMEOUT` (R335): of a search in progress or waiting, named by the number of its grant. -/
def execSearchTimeout (k : Nat) (s : State) : Out :=
  let due (t : Nat) : Bool := t + searchTimeoutMsVal s * 1000000 ≤ now s
  .next (engine s (match Tab.find s.searches k, Tab.find s.searchWaits k with
    | some q, _ => if due q.at_ then settleCompass (endSearch k { status := .searchTimeout } (bump ctrSearchTimeouts s)) else s
    | none, some w =>
      if w.search && due w.at_ then
        settleCompass (refuse w.msg .searchTimeout (bump ctrSearchTimeouts { s with searchWaits := Tab.drop s.searchWaits k }))
      else s
    | none, none => s))

/-- A tile of a list frame has come into its staging frame (R336). -/
def stageTile (k c j : Nat) (addr : Nat) (data : List Byte) (s : State) : State :=
  match Tab.find s.searches k with
  | none => s
  | some q => match q.staging.find? (fun g => g.list == c && g.ord == j) with
    | none => s
    | some g =>
      let s := writeBytes addr data s
      let g' := { g with left := g.left - 1 }
      let q := { q with staging := q.staging.map (fun y => if y == g then g' else y) }
      if g'.left ≠ 0 then { s with searches := Tab.put s.searches k q }
      else
        let q := { q with todo := q.todo ++ [{ coarse := false, list := c, ord := j, frame := g.frame, entries := g.entries, staged := true }] }
        turnFrame g.frame .index { s with searches := Tab.put s.searches k q }

/-- A tile of an index that moves has come or gone. -/
def placedTile (x : Nat) (s : State) : State :=
  let s := modIndex x (fun v => { v with placing := v.placing.map (fun p => { p with flying := p.flying - 1 }) }) s
  let n := match (Tab.find s.indexes x).bind (·.placing) with | some p => p.todo.length | none => 0
  settleCompass (pumpPlace x (n + 1) s)

end Sys2Proof.Machine
end

