-- ==== Sys2Proof/Machine/Regions.lean ====
section
/-!
DEFINITION. Host ranges, the fabric manager's messages, regions, publishes, leases, attachments and region reads (R342 to R348, R364 to R379).
-/
namespace Sys2Proof.Machine

/-- `HOST_RANGE_ADD` (R342): range number, base, length. -/
def execHostRangeAdd (m : Msg) (s : State) : Out :=
  .next (request { opcode := 0x0501, on := .mailbox, need := 3, most := 3 } m false (fun t =>
    let (n, b, l) := (opNat m 0, opNat m 1, opNat m 2)
    if 63 < n || b % 65536 ≠ 0 || l = 0 || l % 65536 ≠ 0 || 2 ^ 29 < l / 65536 || (Tab.find t.hostRanges n).isSome then
      refuse m .rangeInvalid t
    else refuse m .ok { t with hostRanges := Tab.put t.hostRanges n { base := b, slots := l / 65536 } }) s)

/-- `HOST_RANGE_REMOVE` (R345). -/
def execHostRangeRemove (m : Msg) (s : State) : Out :=
  .next (request { opcode := 0x0502, on := .mailbox, need := 1, most := 1 } m false (fun t =>
    let n := opNat m 0
    if 63 < n || (Tab.find t.hostRanges n).isNone then refuse m .rangeInvalid t
    else if t.hostSlots.any (fun k => k / 2 ^ 29 == n) || t.sampler.range == some n then refuse m .rangeBusy t
    else refuse m .ok { t with hostRanges := Tab.drop t.hostRanges n }) s)

/-- `FM_RANGE_SET` (R346, R347): the entry's number, bits 63 to 0, bits 127 to 64 (log entry 22). It is checked against nothing. -/
def execFmRangeSet (m : Msg) (s : State) : Out :=
  .next (request { opcode := 0x0503, on := .fm, need := 3, most := 3 } m (opNat m 0 > 255) (fun t =>
    let lo := opWord m 1
    let hi := opWord m 2
    let e : PoolRange := { valid := bit hi 63, access := bits hi 62 61, alloc := bit hi 60, allContexts := bit hi 59, context := bits hi 58 47,
                           hostId := bits hi 21 6, base := bits hi 5 0 * 2 ^ 29 + bits lo 63 35, limit := bits lo 34 0 }
    refuse m .ok { t with poolRanges := Tab.put t.poolRanges (opNat m 0) e }) s)

/-- `FM_IDENTITY` (R347): host identity, pool channel count 1 to 64 (R357). -/
def execFmIdentity (m : Msg) (s : State) : Out :=
  .next (request { opcode := 0x0504, on := .fm, need := 2, most := 2 } m (opNat m 0 > 65535 || opNat m 1 = 0 || opNat m 1 > 64) (fun t =>
    refuse m .ok { t with hostId := opNat m 0, poolChannels := opNat m 1 }) s)

/-- The state with region `r` replaced. -/
def setRegion (r : Nat) (x : Region) (s : State) : State := { s with regions := Tab.put s.regions r x }

/-- The index of a region's owner, if the handle still names a session (R378). -/
def ownerOf (s : State) (x : Region) : Option Nat :=
  let i := handleIndex x.owner
  let y := sessAt s i
  if x.owner ≠ 0 && y.entry.state != .free && y.entry.generation == handleGeneration x.owner then some i else none

/-- The state with `f` applied to the `LEASE` word and the flags of a region's owner. -/
def modOwner (x : Region) (f : Word × Word → Word × Word) (s : State) : State :=
  match ownerOf s x with
  | none => s
  | some i =>
    let y := (sessAt s i).record
    let (l, g) := f (y.lease, y.flags)
    mirrorUpdate i (modSess i (fun z => { z with record.lease := l, record.flags := g }) s)

/-- Write a whole slot, the `j`-th of its transfer, to the pool on the fetch queue pairs (R356, R564). -/
def poolSlotWrite (c slot j : Nat) (data : List Byte) (s : State) : State :=
  foldRange 16 (fun t i => issueTile .store (16 * j + i) 2 slot i c 0 true (slice data (4096 * i) 4096) t) s

/-- The bytes of a line-list slot whose entry `v` names slot `f v`. -/
def listSlot (f : Nat → Nat) : List Byte := ((List.range 8192).map (fun v => leBytes 8 (f v))).flatten

/-- Allocate `n` slots one by one in a region's range (R350); all or none. -/
def allocSlots (range c : Nat) : Nat → State → Option (List Nat × State)
  | 0, s => some ([], s)
  | n + 1, s => (allocSlots range c n s).bind (fun a => (allocPool range c 1 a.2).map (fun b => (a.1 ++ [b.1], b.2)))

/-- What is judged of a region command before its own rules (R265; contexts as log entry 34 says). -/
def regionJudge (s : State) (m : Msg) (r : Nat) (always : Bool) : Status :=
  let c := (qpAt s m.qp).context
  if (ctxAt s c).tornDown && !always then .contextTornDown
  else match Tab.find s.regions r with
    | none => .regionUnknown
    | some x => if x.context ≠ c then .contextDenied else .ok

/-- A region command on the region that operand 0 names. -/
def onRegion (m : Msg) (always : Bool) (h : Region → State → State) (s : State) : State :=
  match regionJudge s m (opNat m 0) always, Tab.find s.regions (opNat m 0) with
  | .ok, some x => h x s
  | st, _ => refuse m st s

/-- The form of a region command. -/
def regionForm (op : BitVec 16) (need most : Nat) : Form := { opcode := op, on := .bound, need, most, setup := true }

/-- The state after a region is created (R365): its list and lines take slots, every line is zero, the owner's W15 names it. -/
def createRegion (r : Nat) (x : Region) (s : State) : Option State :=
  let n := ceilDiv x.lines 8192
  (allocSlots x.range x.context (1 + n + x.lines) s).map (fun (l, s) =>
    let leaf (k : Nat) : Nat := l.getD (1 + k) 0
    let line (k : Nat) : Nat := l.getD (1 + n + k) 0
    let s := poolSlotWrite x.context (l.headD 0) 0 (listSlot (fun v => if v < n then leaf v else 0)) s
    let s := foldRange n (fun t k => poolSlotWrite x.context (leaf k) (1 + k)
      (listSlot (fun v => if 8192 * k + v < x.lines then line (8192 * k + v) else 0)) t) s
    let s := foldRange x.lines (fun t k => poolSlotWrite x.context (line k) (1 + n + k) [] t) s
    let x := { x with root := l.headD 0, leaves := (List.range n).map (fun k => (k, leaf k)),
                      lineSlots := (List.range x.lines).map (fun k => (k, line k)) }
    modOwner x (fun w => (word (2 ^ 63 + at' r 32 14), w.2)) (setRegion r x s))

/-- `REGION_CREATE` (R364, R365, R553): region, kind, lines, row bytes, pool range entry, owner handle. -/
def execRegionCreate (m : Msg) (s : State) : Out :=
  .next (request (regionForm 0x0510 6 6) m
    (opNat m 1 > 1 || opNat m 4 > 255 || (opNat m 1 = 1 && (opNat m 3 = 0 || opNat m 3 > 65536))) (fun t =>
    let c := (qpAt t m.qp).context
    let owner := if opWord m 5 = allOnes then 0 else opWord m 5
    let r := opNat m 0
    let range := Tab.get t.poolRanges (opNat m 4) {}
    let found := if owner = 0 then Found.at_ 0 else lookup t m.qp owner false
    if (ctxAt t c).mode == .none then refuse m (noContext c) t
    else if (ctxAt t c).tornDown then refuse m .contextTornDown t
    else match found with
      | .bad st => deny m st t
      | .at_ i =>
        if owner ≠ 0 && bit (sessAt t i).record.lease 63 then refuse m .regionOwnerBusy t
        else if 16383 < r || (Tab.find t.regions r).isSome || opNat m 2 = 0 || 16777216 < opNat m 2 then refuse m .regionLimit t
        else
          let x : Region := { table := opNat m 1 = 1, context := c, range := opNat m 4, lines := opNat m 2,
                              rowBytesM1 := if opNat m 1 = 1 then opNat m 3 - 1 else 0, root := 0, owner }
          match (if range.valid && range.alloc && range.access == 2 && range.context == c then createRegion r x t else none) with
          | none => refuse m .poolDenied (bump ctrPoolDenials t)
          | some u => refuse m .ok u) s)

/-- Free pool slots. -/
def freeSlots (l : List Nat) (s : State) : State := l.foldl (fun t k => freeHome 2 k t) s

/-- A publish ends and its staged slots are freed (R367, R371). -/
def abortPublish (k : Nat) (s : State) : State :=
  match Tab.find s.publishes k with
  | none => s
  | some p => freeSlots (Tab.vals p.staged) { s with publishes := Tab.drop s.publishes k }

/-- A lease ends (R378, R379): its publishes are aborted, the owner's `LEASE_ACTIVE` clears. -/
def endLease (r : Nat) (x : Region) (l : Lease) (s : State) : State :=
  let s := (Tab.keysWhere s.publishes (fun p => p.region == r && p.lease == l.id)).foldl (fun t k => abortPublish k t) s
  modOwner x (fun w => (setBits w.1 62 62 0, w.2)) (setRegion r { x with lease := none } s)

/-- A lease is voided (R378). -/
def voidLease (r : Nat) (x : Region) (l : Lease) (s : State) : State :=
  let s := modOwner x (fun w => (w.1, w.2 ||| 1)) (endLease r x l s)
  alert .leaseVoided (bump ctrLeasesVoided s)

/-- `REGION_DROP` (R366): any lease is voided, publishes are aborted, every slot is freed. -/
def execRegionDrop (m : Msg) (s : State) : Out :=
  .next (request (regionForm 0x0511 1 1) m false (fun t =>
    onRegion m true (fun x t =>
      let r := opNat m 0
      let t := match x.lease with | some l => voidLease r x l t | none => t
      let t := (Tab.keysWhere t.publishes (fun p => p.region == r)).foldl (fun u k => abortPublish k u) t
      let old := ((t.retained.filter (fun e => e.region == r)).map (·.slots)).flatten
      let t := freeSlots (x.root :: Tab.vals x.leaves ++ Tab.vals x.lineSlots ++ old) t
      let t := modOwner x (fun w => (setBits w.1 63 62 0, w.2)) t
      refuse m .ok { t with regions := Tab.drop t.regions r, retained := t.retained.filter (fun e => e.region != r) }) t) s)

/-- Whether a command under lease `id` of a region may go on (R376): `ok` where no lease is named or its holder sent it. -/
def leaseJudge (s : State) (m : Msg) (r id : Nat) : Status :=
  if id = 0 then .ok
  else match (Tab.find s.regions r).bind (·.lease) with
    | some l => if l.id ≠ id then .leaseVoid else if l.qp ≠ m.qp then .leaseDenied else .ok
    | none => .leaseVoid

/-- A granted command under a lease moves its deadline (R376). -/
def renewLease (r id : Nat) (s : State) : State :=
  match Tab.find s.regions r with
  | some x => match x.lease with
    | some l => if id ≠ 0 && l.id == id then setRegion r { x with lease := some { l with deadline := now s + l.timeoutNs } } s else s
    | none => s
  | none => s

/-- `PUBLISH_OPEN` (R371): region, expected version, lease id or 0. -/
def execPublishOpen (m : Msg) (s : State) : Out :=
  .next (request (regionForm 0x0512 3 3) m (opNat m 1 ≥ 2 ^ 32) (fun t =>
    onRegion m false (fun x t =>
      match leaseJudge t m (opNat m 0) (opNat m 2) with
      | .ok =>
        if t.publishes.length ≥ 1024 then refuse m .publishLimit t
        else
          let n := t.publishCount + 1
          let p : Publish := { region := opNat m 0, context := x.context, expected := opNat m 1, lease := opNat m 2, qp := m.qp, at_ := now t }
          respond m { ops := [word n] } (renewLease (opNat m 0) (opNat m 2)
            { t with publishes := Tab.put t.publishes n p, publishCount := n })
      | st => refuse m st t) t) s)

/-- A command on an open publish (R371, R376). -/
def onPublish (m : Msg) (h : Publish → Region → State → State) (s : State) : State :=
  let c := (qpAt s m.qp).context
  if (ctxAt s c).tornDown then refuse m .contextTornDown s
  else match Tab.find s.publishes (opNat m 0) with
    | none => refuse m .publishUnknown s
    | some p => match Tab.find s.regions p.region with
      | none => refuse m .publishUnknown s
      | some x =>
        if p.context ≠ c then refuse m .contextDenied s
        else match x.lease with
          | some l =>
            if p.lease ≠ 0 && l.id == p.lease && l.qp ≠ m.qp then refuse m .leaseDenied s
            else h p x (renewLease p.region p.lease { s with publishes := Tab.put s.publishes (opNat m 0) { p with at_ := now s } })
          | none => h p x { s with publishes := Tab.put s.publishes (opNat m 0) { p with at_ := now s } }

/-- `PUBLISH_PUT` (R371, R348, R692): publish id, line number, 16 tiles. -/
def execPublishPut (m : Msg) (s : State) : Out :=
  let past := ((Tab.find s.publishes (opNat m 0)).bind (fun p => Tab.find s.regions p.region)).map (fun x => decide (x.lines ≤ opNat m 1))
  .next (request (regionForm 0x0513 2 2) m (m.body.length < 65536 || past == some true) (fun t =>
    onPublish m (fun p x t =>
      let n := opNat m 1
      match (match Tab.find p.staged n with | some k => some (k, t) | none => allocPool x.range x.context 1 t) with
        | none => refuse m .poolDenied (bump ctrPoolDenials t)
        | some (k, u) =>
          if !poolAllows t x.context k true then refuse m .poolDenied (bump ctrPoolDenials t)
          else refuse m .ok (poolSlotWrite x.context k 0 (slice m.body 0 65536)
            { u with publishes := Tab.put u.publishes (opNat m 0) { p with staged := Tab.put p.staged n k, at_ := now t } })) t) s)

/-- The checks of R367 in their order. -/
def commitJudge (x : Region) (p : Publish) : Status :=
  match x.lease with
  | some l => if l.id ≠ p.lease then .regionLeased else if x.version ≠ p.expected then .versionStale else .ok
  | none => if p.lease ≠ 0 then .leaseVoid else if x.version ≠ p.expected then .versionStale else .ok

/-- Make the staged lines a region's next version (R368, R370); none where the range has no slot. -/
def commitPublish (x : Region) (p : Publish) (s : State) : Option State :=
  let ks := distinct ((Tab.keys p.staged).map (· / 8192))
  (allocSlots x.range x.context (ks.length + 1) s).map (fun (l, s) =>
    let lines := p.staged.foldl (fun t e => Tab.put t e.1 e.2) x.lineSlots
    let leaves := ks.zipIdx.foldl (fun t e => Tab.put t e.1 (l.getD (e.2 + 1) 0)) x.leaves
    let s := ks.zipIdx.foldl (fun t e => poolSlotWrite x.context (l.getD (e.2 + 1) 0) e.2
      (listSlot (fun v => Tab.get lines (8192 * e.1 + v) 0)) t) s
    let s := poolSlotWrite x.context (l.headD 0) ks.length (listSlot (fun v => Tab.get leaves v 0)) s
    let old := x.root :: (ks.map (fun k => Tab.get x.leaves k 0) ++ (Tab.keys p.staged).map (fun n => Tab.get x.lineSlots n 0))
    let v := if x.version = 4294967295 then 1 else x.version + 1
    let s := { s with retained := s.retained ++ [{ region := p.region, version := x.version, at_ := now s, slots := old }] }
    bump ctrPublishesCommitted (setRegion p.region { x with version := v, root := l.headD 0, leaves, lineSlots := lines } s))

/-- `PUBLISH_COMMIT` (R367 to R370, R376). -/
def execPublishCommit (m : Msg) (s : State) : Out :=
  .next (request (regionForm 0x0514 1 1) m false (fun t =>
    onPublish m (fun p _ t =>
      match Tab.find t.regions p.region with
      | none => refuse m .publishUnknown t
      | some x => match commitJudge x p with
        | .ok =>
          match commitPublish x p { t with publishes := Tab.drop t.publishes (opNat m 0) } with
          | some u => refuse m .ok u
          | none => refuse m .poolDenied (bump ctrPoolDenials (abortPublish (opNat m 0) t))
        | st => refuse m st (abortPublish (opNat m 0) (if st == .versionStale then bump ctrVersionStales t else t))) t) s)

/-- `PUBLISH_ABORT` (R371). -/
def execPublishAbort (m : Msg) (s : State) : Out :=
  .next (request (regionForm 0x0515 1 1) m false (fun t =>
    onPublish m (fun _ _ t => refuse m .ok (abortPublish (opNat m 0) t)) t) s)

/-- `PUBLISH_IDLE_TIMEOUT` (R371). -/
def execPublishIdleTimeout (k : Nat) (s : State) : Out :=
  .next (engineHeld s (match Tab.find s.publishes k with
    | some p => if p.at_ + publishIdleMsVal s * 1000000 ≤ now s then abortPublish k s else s
    | none => s))

/-- `REGION_RETAIN_EXPIRY` (R370): replaced slots whose time has passed are freed. -/
def execRegionRetainExpiry (s : State) : Out :=
  let due (e : Retained) : Bool := e.at_ + regionRetainMsVal s * 1000000 ≤ now s
  .next (engineHeld s (freeSlots ((s.retained.filter due).map (·.slots)).flatten { s with retained := s.retained.filter (fun e => !due e) }))

/-- `REGION_ATTACH` (R372, R575, R576): home module, region. The answer's operand word is the number by which reads name the attachment,
16,384 and up (log entry 35). What another home's descriptor holds is free. -/
def execRegionAttach (m : Msg) (s : State) : Out :=
  .next (request (regionForm 0x0516 2 2) m (opNat m 0 > 63) (fun t =>
    let c := (qpAt t m.qp).context
    let add (a : Attachment) (u : State) : State :=
      match leastUnused (Tab.keys u.attachments) 0 4095 with
      | none => refuse m .regionLimit u
      | some n =>
        if !poolAllows u c a.root false then refuse m .poolDenied (bump ctrPoolDenials u)
        else respond m { ops := [word (16384 + n)] } { u with attachments := Tab.put u.attachments n a }
    if (ctxAt t c).tornDown then refuse m .contextTornDown t
    else if opNat m 0 == nodeIdVal t then
      match Tab.find t.regions (opNat m 1) with
      | none => refuse m .regionUnknown t
      | some x =>
        if x.context ≠ c && (ctxAt t x.context).mode == .confidential then refuse m .confDenied t
        else add { home := opNat m 0, region := opNat m 1, context := c, root := x.root, version := x.version, lines := x.lines,
                   rowBytesM1 := x.rowBytesM1, lineSlots := x.lineSlots } t
    else
      let (a, t) := draw t
      let (b, t) := draw t
      add { home := opNat m 0, region := opNat m 1, context := c, root := bits a 34 0, version := bits b 31 0, lines := bits a 58 35 + 1,
            rowBytesM1 := bits b 47 32, table := bit b 48, at_ := now t } t) s)

/-- A region or attachment as a read sees it: context of the region, version, lines, row size, root, the line slots known, whether rows exist. -/
structure ReadView where
  context : Nat
  version : Nat
  lines : Nat
  rowBytes : Nat
  remote : Option Nat
  lineSlots : Tab Nat
  rows : Bool

/-- What a read names (log entry 35): a region of this module, or an attachment; an attachment whose version is gone is stale (R373). Whether
another home has replaced it is a free value, once `REGION_RETAIN_MS` has passed since the attachment, and it stays replaced. -/
def readView (s : State) (n : Nat) : Status × Option ReadView × State :=
  if n < 16384 then
    match Tab.find s.regions n with
    | none => (.regionUnknown, none, s)
    | some x => (.ok, some { context := x.context, version := x.version, lines := x.lines, rowBytes := x.rowBytesM1 + 1, remote := none,
                             lineSlots := x.lineSlots, rows := x.table }, s)
  else match Tab.find s.attachments (n - 16384) with
    | none => (.regionUnknown, none, s)
    | some a =>
      let local_ := a.home == nodeIdVal s
      let v : ReadView := { context := a.context, version := a.version, lines := a.lines, rowBytes := a.rowBytesM1 + 1,
                            remote := if local_ then none else some a.root, lineSlots := a.lineSlots, rows := a.table }
      if local_ then
        match Tab.find s.regions a.region with
        | none => (.versionStale, none, s)
        | some x =>
          if x.version == a.version || s.retained.any (fun e => e.region == a.region && e.version == a.version) then
            (.ok, some { v with context := x.context, rows := x.table }, s)
          else (.versionStale, none, s)
      else if a.stale then (.versionStale, none, s)
      else if now s < a.at_ + regionRetainMsVal s * 1000000 then (.ok, some v, s)
      else
        let (w, s) := draw s
        if bit w 0 then
          (.versionStale, none, { s with attachments := Tab.put s.attachments (n - 16384) { a with stale := true } })
        else (.ok, some v, s)

/-- The tiles that a region read needs next: of the root or leaves while slots of its lines are unknown, then of the lines. -/
def jobNeeds (j : RegionJob) : List (Nat × Nat) :=
  let unknown := (j.want.map (fun w => w.1)).filter (fun n => (Tab.find j.lineSlots n).isNone)
  match j.remote with
  | some root =>
    if unknown.isEmpty then (j.want.map (fun w => (List.range 16).filterMap (fun t =>
        if w.2.1 < 4096 * (t + 1) && 4096 * t < w.2.1 + w.2.2 then some (Tab.get j.lineSlots w.1 0, t) else none))).flatten
    else unknown.map (fun n => match Tab.find j.leafSlots (n / 8192) with
      | none => (root, (n / 8192) / 512)
      | some k => (k, (n % 8192) / 512))
  | none => (j.want.map (fun w => (List.range 16).filterMap (fun t =>
      if w.2.1 < 4096 * (t + 1) && 4096 * t < w.2.1 + w.2.2 then some (Tab.get j.lineSlots w.1 0, t) else none))).flatten

/-- Learn what the tiles of a root or leaf name. -/
def jobLearn (j : RegionJob) : RegionJob :=
  match j.remote with
  | none => j
  | some root => (j.want.map (fun w => w.1)).foldl (fun j n =>
    let j := match Tab.find j.leafSlots (n / 8192), Tab.find j.got (16 * root + (n / 8192) / 512) with
      | none, some d => { j with leafSlots := Tab.put j.leafSlots (n / 8192) (numAt d (8 * ((n / 8192) % 512)) 8 % 2 ^ 35) }
      | _, _ => j
    match Tab.find j.leafSlots (n / 8192) with
    | none => j
    | some k => match Tab.find j.lineSlots n, Tab.find j.got (16 * k + (n % 8192) / 512) with
      | none, some d => { j with lineSlots := Tab.put j.lineSlots n (numAt d (8 * (n % 512)) 8 % 2 ^ 35) }
      | _, _ => j) j

/-- The bytes that a region read answers, piece by piece. -/
def jobBytes (j : RegionJob) : List Byte :=
  (j.want.map (fun w =>
    let k := Tab.get j.lineSlots w.1 0
    slice (((List.range 16).map (fun t => Tab.get j.got (16 * k + t) (List.replicate 4096 0))).flatten) w.2.1 w.2.2)).flatten

/-- A region read ends. -/
def endJobRead (n : Nat) (a : Answer) (s : State) : State :=
  match Tab.find s.regionJobs n with
  | none => s
  | some j => respond j.msg a { s with
      regionJobs := Tab.drop s.regionJobs n
      transfers := s.transfers.filter (fun e => e.2.consumer != .region n) }

/-- Issue what a region read can issue now (R348, R356). -/
def pumpRead (n : Nat) : Nat → State → State
  | 0, s => s
  | fuel + 1, s =>
    match Tab.find s.regionJobs n with
    | none => s
    | some j => match j.todo with
      | [] => s
      | (k, t) :: rest =>
        if !poolAllows s j.context k false then endJobRead n { status := .poolDenied } (bump ctrPoolDenials s)
        else if !mayIssue s j.got.length then s
        else
          let s := { s with regionJobs := Tab.put s.regionJobs n { j with todo := rest, left := j.left ++ [(k, t)] } }
          pumpRead n fuel (issueTile (.region n) (j.got.length + j.left.length) 2 k t j.context 0 false [] s)

/-- Carry a region read on: the next tiles it needs, or its answer (R373, R374). -/
def advanceRead (n : Nat) : Nat → State → State
  | 0, s => s
  | fuel + 1, s =>
    match Tab.find s.regionJobs n with
    | none => s
    | some j =>
      if !j.todo.isEmpty then pumpRead n (j.todo.length + 1) s
      else if !j.left.isEmpty then s
      else
        let j := jobLearn j
        let need := (jobNeeds j).filter (fun a => (Tab.find j.got (16 * a.1 + a.2)).isNone)
        let need := need.foldl (fun acc a => if acc.contains a then acc else acc ++ [a]) []
        let s := { s with regionJobs := Tab.put s.regionJobs n { j with todo := need } }
        if need.isEmpty then endJobRead n { ops := [word j.version], body := jobBytes j } s else advanceRead n fuel s

/-- Start a region read (R348, R576). -/
def startRead (m : Msg) (f : ReadView → Status × List (Nat × Nat × Nat)) (s : State) : State :=
  let c := (qpAt s m.qp).context
  if (ctxAt s c).tornDown then refuse m .contextTornDown s
  else match readView s (opNat m 0) with
    | (_, some v, s) =>
      if v.context ≠ c && (ctxAt s v.context).mode == .confidential then refuse m .confDenied s
      else match f v with
        | (.ok, want) =>
          let n := (leastUnused (Tab.keys s.regionJobs) 0 (2 ^ 32)).getD 0
          let j : RegionJob := { msg := m, context := c, version := v.version, remote := v.remote, want, lineSlots := v.lineSlots }
          advanceRead n 8 { s with regionJobs := Tab.put s.regionJobs n j }
        | (st, _) => refuse m st s
    | (st, none, s) => refuse m st s

/-- `REGION_GATHER` (R374): region or attachment, then a list of row numbers. The answer's operand word is the version. -/
def execRegionGather (m : Msg) (s : State) : Out :=
  let rows := ((listWords m.body).getD []).map (·.toNat)
  .next (request (regionForm 0x0517 1 1) m (badCount 4096 m.body || (listWords m.body).isNone) (fun t =>
    startRead m (fun v =>
      let per := 65536 / v.rowBytes
      if !v.rows || rows.any (fun r => per * v.lines ≤ r) then (.rowRange, [])
      else (.ok, rows.map (fun r => (r / per, (r % per) * v.rowBytes, v.rowBytes)))) t) s)

/-- `REGION_READ` (R373): region or attachment, line number. -/
def execRegionRead (m : Msg) (s : State) : Out :=
  .next (request (regionForm 0x0518 2 2) m false (fun t =>
    startRead m (fun v => if v.lines ≤ opNat m 1 then (.messageMalformed, []) else (.ok, [(opNat m 1, 0, 65536)])) t) s)

/-- A tile of a region read has come. -/
def regionTile (n k t : Nat) (data : List Byte) (s : State) : State :=
  match Tab.find s.regionJobs n with
  | none => s
  | some j => advanceRead n 8 { s with
      regionJobs := Tab.put s.regionJobs n { j with got := Tab.put j.got (16 * k + t) data, left := j.left.erase (k, t) } }

/-- `LEASE_TAKE` (R375): region, lease id (unused), timeout in ms or 0. -/
def execLeaseTake (m : Msg) (s : State) : Out :=
  .next (request (regionForm 0x0519 3 3) m (opNat m 2 ≠ 0 && (opNat m 2 < 10 || 60000 < opNat m 2)) (fun t =>
    onRegion m false (fun x t =>
      if x.lease.isSome then refuse m .regionLeased t
      else
        let id := t.leaseCount % 4294967295 + 1
        let ns := (if opNat m 2 = 0 then leaseTimeoutMsVal t else opNat m 2) * 1000000
        let x := { x with lease := some { id, qp := m.qp, timeoutNs := ns, deadline := now t + ns } }
        respond m { ops := [word id] }
          (modOwner x (fun w => (setBits (setBits w.1 62 62 1) 31 0 id, w.2)) (setRegion (opNat m 0) x { t with leaseCount := id }))) t) s)

/-- The lease that a lease command names, if it is held. -/
def leaseNamed (s : State) (m : Msg) : Option (Region × Lease) :=
  match Tab.find s.regions (opNat m 0) with
  | none => none
  | some x => match x.lease with
    | some l => if l.id == opNat m 1 then some (x, l) else none
    | none => none

/-- `LEASE_BEAT` (R376, R377, R431): it has no answer. -/
def execLeaseBeat (m : Msg) (s : State) : Out :=
  .next (peerMessage (regionForm 0x051A 3 3) m (fun t =>
    if (ctxAt t (qpAt t m.qp).context).tornDown then t
    else match leaseNamed t m with
    | none => bump ctrLateDiscards t
    | some (_, l) => if l.qp ≠ m.qp then t else renewLease (opNat m 0) l.id t) s)

/-- `LEASE_RELEASE` (R379, R376). -/
def execLeaseRelease (m : Msg) (s : State) : Out :=
  .next (request (regionForm 0x051B 3 3) m false (fun t =>
    onRegion m false (fun _ t =>
      match leaseNamed t m with
      | none => refuse m .leaseVoid t
      | some (x, l) => if l.qp ≠ m.qp then refuse m .leaseDenied t else refuse m .ok (endLease (opNat m 0) x l t)) t) s)

/-- `LEASE_QUERY` (R376, R377): the answer's operand words are 1 for a lease that is held, and its deadline. -/
def execLeaseQuery (m : Msg) (s : State) : Out :=
  .next (request (regionForm 0x051C 3 3) m false (fun t =>
    onRegion m true (fun _ t =>
      match leaseNamed t m with
      | none => refuse m .leaseVoid t
      | some (_, l) => if l.qp ≠ m.qp then refuse m .leaseDenied t else respond m { ops := [1, word l.deadline] } t) t) s)

/-- `LEASE_DEADLINE` (R378). -/
def execLeaseDeadline (r : Nat) (s : State) : Out :=
  .next (engineHeld s (match Tab.find s.regions r with
    | some x => match x.lease with
      | some l => if l.deadline ≤ now s then voidLease r x l s else s
      | none => s
    | none => s))

end Sys2Proof.Machine
end

