-- ==== Sys2Proof/Machine/SurveyEnd.lean ====
section
/-!
DEFINITION. The survey engine's writer: shards as bytes, the NV layout, the writing order, draining, the ends of a survey (R513 to R533,
R573).
-/
namespace Sys2Proof.Machine

/-- The bytes of a page locator. -/
def locatorWords (l : Locator) : List Word := [l.g1, word (at' l.place 62 2 + at' l.at_ 0 56)]

/-- A stack segment in 64 bytes: 30 entries of 16 bits (before R288). -/
def segmentBytes (l : List Nat) : List Byte := slice (l.map (leBytes 2)).flatten 0 64

/-- A shard's payload before it is sealed (R526). -/
def plainPayload : ShardBody → List Byte
  | .session r ls stack =>
    wordsBytes (recordWords { record := r }) ++ wordBytes (word ls.length) ++ wordsBytes (ls.map locatorWords).flatten ++
    wordBytes (word stack.length) ++ (stack.map segmentBytes).flatten
  | .page d => slice d 0 65536
  | .index d => slice d 0 65536
  | b => Config.shardPayload b

/-- The length of a shard's payload as it is stored. -/
def payloadLen (sh : Shard) : Nat :=
  (match sh.body with
    | .session _ ls stack => 272 + 16 * ls.length + 64 * stack.length
    | .page _ => 65536
    | .index _ => 65536
    | b => (Config.shardPayload b).length) + (if sh.enc.isSome then 16 else 0)

/-- A shard's size in the stream: header and payload, padded to 4,096 bytes. -/
def shardSize (sh : Shard) : Nat := ceilDiv (64 + payloadLen sh) 4096 * 4096

/-- Header words H0 to H4 (the shard header table). -/
def headWords (sh : Shard) : List Word :=
  [word (at' sh.kind 56 8 + flagAt sh.enc.isSome 55 + flagAt sh.mid 54), word sh.seq, word (at' sh.stepSeq 32 32 + at' sh.length 0 32), sh.g0, sh.g1]

/-- The survey key of a context for a survey (R573). -/
def surveyKey (s : State) (c : Nat) (r : CommitRec) : List Byte :=
  hmac (ctxAt s c).ks (wordBytes r.serial ++ leBytes 8 r.seq ++ leBytes 8 r.instant)

/-- A shard's payload as it stands at an offset of a survey's stream: sealed where `ENC` is 1 (R573). -/
def storedPayload (s : State) (r : CommitRec) (off : Nat) (sh : Shard) : List Byte :=
  match sh.enc with
  | none => plainPayload sh.body
  | some c => slice (Config.gcmSeal (surveyKey s c r) (leBytes 8 off ++ List.replicate 4 0) (wordsBytes (headWords sh)) (plainPayload sh.body)) 0
      (payloadLen sh)

/-- A shard's bytes in the stream. -/
def shardBytes (s : State) (r : CommitRec) (off : Nat) (sh : Shard) : List Byte :=
  let p := storedPayload s r off sh
  let (m, mu, g) := sh.ring.getD (1, 0, 1)
  slice (wordsBytes (headWords sh ++
      [word (at' p.length 32 32 + at' (crc32c p) 0 32),
       word (at' sh.node 56 8 + (if sh.ring.isSome then flagAt true 55 + at' (m - 1) 50 5 + at' mu 45 5 + at' g 40 5 else 0)), 0]) ++ p) 0 (shardSize sh)

/-- A manifest entry's 32 bytes. -/
def entryBytes (s : State) (r : CommitRec) (off : Nat) (sh : Shard) : List Byte :=
  wordsBytes [word (at' sh.kind 56 8 + at' off 0 56), sh.g0, sh.g1,
    word (at' sh.stepSeq 32 32 + at' (crc32c (storedPayload s r off sh)) 0 32)]

/-- A manifest (the manifest table). -/
def manifestBytes (s : State) (r : CommitRec) (entries : List Byte) : List Byte :=
  wordsBytes [word (at' 0x4D4E4653 32 32 + at' (entries.length / 32) 0 32), word r.seq, r.id, word r.base, word r.instant, r.serial,
    word (at' r.kind 56 8 + at' (nodeIdVal s) 48 8), 0] ++ entries

/-- A commit record's 4,096 bytes (the commit record table). -/
def recordBytes (r : CommitRec) : List Byte :=
  let b := slice (wordsBytes [word (at' 0x53565259 32 32 + at' 1 16 16 + at' r.slot 8 8 + at' r.kind 0 8), word r.seq, r.id, word r.base,
    word r.instant, r.serial, word r.bytes, word r.heldFrom, word r.manifest, word r.manifestBytes] ++ slice r.sha 0 32) 0 4088
  b ++ List.replicate 4 0 ++ leBytes 4 (crc32c (b ++ List.replicate 4 0))

/-- A commit record that bytes of LBA 0 of a slot hold, if it is valid (R527). -/
def parseRecord (slot : Nat) (b : List Byte) : Option CommitRec :=
  let w (k : Nat) : Word := wordAt b (8 * k)
  if bits (w 0) 63 32 == 0x53565259 && bits (w 0) 31 16 == 1 && bits (w 0) 15 8 == slot &&
      numAt b 4092 4 == crc32c (slice b 0 4092) then
    some { slot, kind := bits (w 0) 7 0, seq := (w 1).toNat, id := w 2, base := (w 3).toNat, instant := (w 4).toNat, serial := w 5,
           bytes := (w 6).toNat, heldFrom := (w 7).toNat, manifest := (w 8).toNat, manifestBytes := (w 9).toNat, sha := slice b 80 32 }
  else none

/-- A slot's size in LBAs (R524), its first LBA, and the bytes of its log. -/
def slotSize (lbas : Nat) : Nat := (lbas - 16) / 2 / 16 * 16
def slotLba (lbas slot : Nat) : Nat := 16 + slot * slotSize lbas
def logBytes (lbas : Nat) : Nat := (slotSize lbas - 16) * 4096

/-- The LBA of a stream offset in a slot's log (R524). -/
def logLba (lbas slot off : Nat) : Nat := slotLba lbas slot + 16 + (off / 4096) % (slotSize lbas - 16)

/-- Whether the NV label is valid (R524). -/
def labelOk (lbas : Nat) (b : List Byte) : Bool :=
  numAt b 0 4 == 0x4C425853 && numAt b 8 8 == slotSize lbas && numAt b 4092 4 == crc32c (slice b 0 4092)

/-- The NV label (R524). -/
def labelBytes (lbas : Nat) : List Byte :=
  let b := slice (leBytes 8 0x4C425853 ++ leBytes 8 (slotSize lbas) ++ wordBytes moduleSerial) 0 4092
  b ++ leBytes 4 (crc32c b)

/-- The 64-byte submission queue entry of an NVMe command on namespace 1, as the NVM Express specifications lay it out (R6): opcode and
command identifier, namespace, data pointer, starting LBA, number of blocks less one with the FUA bit. Opcodes: 0 Flush, 1 Write, 2
Read. -/
def nvmeEntry (id opcode : Nat) (fua : Bool) (lba blocks : Nat) : List Byte :=
  leBytes 4 (at' id 16 16 + opcode) ++ leBytes 4 1 ++ List.replicate 16 0 ++ slice (Config.nvPointer id) 0 16 ++ leBytes 8 lba ++
    leBytes 4 (flagAt fua 30 + (blocks - 1) % 65536) ++ List.replicate 12 0

/-- Issue an NVMe command for an operation, with its deadline (R523). -/
def nvIssue (op : NvOp) (mk : Nat → Sent) (s : State) : State :=
  let n := s.survey.nextId
  emit (mk n) { s with survey.doing := some (op, n, now s + nvTimeoutMsVal s * 1000000), survey.nextId := n + 1 }

/-- Write data at an LBA of the NV module. -/
def nvWrite (op : NvOp) (fua : Bool) (lba : Nat) (data : List Byte) (s : State) : State :=
  nvIssue op (fun n => .nvme (nvmeEntry n 1 fua lba (data.length / 4096)) data) s

/-- Read blocks of the NV module. -/
def nvRead (op : NvOp) (lba blocks : Nat) (s : State) : State := nvIssue op (fun n => .nvme (nvmeEntry n 2 false lba blocks) []) s

/-- Whether no NVMe command is under way that something waits for. -/
def nvIdle (s : State) : Bool :=
  match s.survey.doing with
  | none => true
  | some d => d.1 == .stale

/-- `SURVEY_STATE` (R538). -/
def surveyState (s : State) : Nat :=
  match s.survey.run with
  | some r => match r.stage with
    | .freezing => 1
    | .zeroing | .shards | .manifest => 2
    | .flush | .commit => 3
    | .draining => 4
  | none => if s.survey.restore.isSome then 5 else 0

/-- A frame leaves the hold bitmap; one that waited to be FREE becomes FREE (R518). -/
def unhold (f : Nat) (s : State) : State :=
  let s := { s with survey.held := s.survey.held.erase f }
  if s.survey.freeLater.contains f && !s.survey.held.contains f then
    freeFrame f { s with survey.freeLater := s.survey.freeLater.filter (· ≠ f) }
  else s

/-- The pool slots that surveys record now (R520). -/
def recount (s : State) : State := { s with survey.poolRefs := (Tab.vals s.survey.slotRefs).flatten }

/-- The survey in progress ends: its holds go, `SURVEY_DONE` is sent (before R515). -/
def endSurvey (r : SurveyRun) (st : Status) (drained : Bool) (s : State) : State :=
  let s := { s with
    survey.run := none, survey.frozen := false, survey.quiet := [], survey.broken := false
    survey.doing := s.survey.doing.map (fun (d : NvOp × Nat × Nat) => if d.1 == NvOp.survey then (NvOp.stale, d.2) else d)
    survey.slotRefs := Tab.drop s.survey.slotRefs 2
    transfers := s.transfers.filter (fun e => match e.2.consumer with | .survey _ => false | _ => true) }
  let s := recount (s.survey.held.foldl (fun t f => unhold f t) s)
  notify 0 0xF00B r.tag 0 st (if drained then 1 else 0) [word r.record.seq] [] s

/-- The survey in progress fails (R529, R533). -/
def failSurvey (st : Status) (s : State) : State :=
  match s.survey.run with
  | none => s
  | some r =>
    let s := bump ctrSurveysFailed s
    endSurvey r st false (if r.record.kind = 1 then { s with survey.baseSeq := 0, survey.baseSealed := [] } else s)

/-- The state with `f` applied to the survey in progress. -/
def modRun (f : SurveyRun → SurveyRun) (s : State) : State := { s with survey.run := s.survey.run.map f }

/-- Send the stream's next chunks to the host: whole ones of 1 MiB, and the last once the stream is complete (R531). -/
def drainChunks (last : Bool) : Nat → State → State
  | 0, s => s
  | fuel + 1, s =>
    match s.survey.run with
    | none => s
    | some r =>
      if r.qp = 0 || r.tail.isEmpty || (!last && r.tail.length < 1048576) then s
      else
        let d := r.tail.take 1048576
        drainChunks last fuel (modRun (fun q => { q with tail := q.tail.drop 1048576, drained := q.drained + d.length })
          (notify r.qp 0xF009 r.tag 0 .ok 0 [word r.record.seq, word r.drained] d s))

/-- A page's bytes with the rows that a session held at the instant (R519): of the rows kept, the first `rows` come from tiles fetched. -/
def pageData (it : StreamItem) (frame : List Byte) : List Byte :=
  ((List.range 16).map (fun t =>
    ((List.range 16).map (fun i =>
      let row := 16 * (t / it.slices) + i
      if t < it.run / 16 * it.slices && it.keep.contains row then
        if row < it.rows then slice (Tab.get it.tiles t []) (256 * i) 256 else slice frame (4096 * t + 256 * i) 256
      else List.replicate 256 0)).flatten)).flatten

/-- The shard of an item, its page's bytes complete. -/
def itemShard (it : StreamItem) : Shard :=
  match it.shard.body with
  | .page d => { it.shard with body := .page (pageData it d) }
  | _ => it.shard

/-- Clear `DIRTY` of the page map entries that a BASE wrote or referenced (R521). -/
def cleanPages (l : List (Nat × Nat)) (s : State) : State :=
  l.foldl (fun t e => if (sessAt t e.1).pages.isEmpty then t
    else modSess e.1 (fun x => { x with pages := Tab.edit x.pages e.2 (fun p => { p with dirty := false }) }) t) s

/-- An item has been written (R510, R521, R531, R538). -/
def itemWritten (r : SurveyRun) (it : StreamItem) (s : State) : State :=
  let sh := itemShard it
  let s := modRun (fun q => { q with
    items := q.items.tail, offset := it.offset + shardSize sh
    written := q.written ++ entryBytes s r.record it.offset sh
    tail := if q.qp = 0 then [] else q.tail ++ shardBytes s r.record it.offset sh }) s
  let s := if sh.kind = 4 then pmu { code := 0x1C, requester := some 0x150 } (bump ctrPagesWritten s) else bumpBy ctrPagesReferenced it.refs s
  let s := if r.record.kind = 1 then cleanPages it.names s else s
  drainChunks false 64 (match it.frame with | some f => unhold f s | none => s)

/-- Whether the log has room for the stream up to an offset (R530): none where it fails, false where it waits for the drain. -/
def logRoom (s : State) (r : SurveyRun) (upTo : Nat) : Option Bool :=
  let n := logBytes s.survey.lbas
  if r.qp = 0 then if upTo ≤ n then some true else none
  else some (decide (upTo ≤ s.survey.confirmed + n))

/-- Write stream bytes into the survey's log (R524): up to where the log wraps, and at most the 65,536 blocks of one NVMe command; what is left
follows when that is done. -/
def logWrite (slot off : Nat) (data : List Byte) (s : State) : State :=
  let n := logBytes s.survey.lbas
  let k := min (n - off % n) (65536 * 4096)
  nvWrite .survey false (logLba s.survey.lbas slot off) (data.take k)
    (modRun (fun q => { q with rest := if data.length ≤ k then none else some (off + k, data.drop k) }) s)

/-- Write what is left of a write into the log. -/
def logRest (r : SurveyRun) (s : State) : State :=
  match r.rest with
  | some (off, data) => logWrite r.record.slot off data s
  | none => s

/-- The write of the survey's next item or of its manifest, if it can be issued (R528, R530). -/
def writeNext (r : SurveyRun) (s : State) : State :=
  let room (upTo : Nat) (go : State → State) : State :=
    match logRoom s r upTo with
    | none => failSurvey .surveyNoSpace s
    | some false => s
    | some true => go s
  match r.items with
  | [] =>
    let m := manifestBytes s r.record r.written
    let size := ceilDiv m.length 4096 * 4096
    room (r.offset + size) (fun t =>
      logWrite r.record.slot r.offset (slice m 0 size)
        (modRun (fun q => { q with
          stage := .manifest
          record := { q.record with
            manifest := r.offset, manifestBytes := m.length, sha := sha256 m, bytes := r.offset + size
            heldFrom := r.offset + size - logBytes t.survey.lbas }
          tail := if q.qp = 0 then [] else q.tail ++ slice m 0 size }) t))
  | it :: rest =>
    match it.fetch with
    | some (tier, slot) =>
      let n := it.run / 16 * it.slices
      if !it.asked then
        if mayIssue s 0 then
          modRun (fun q => { q with items := { it with asked := true } :: rest })
            (foldRange n (fun t j =>
              issueTile (.survey r.record.seq) j tier slot j ((it.names.head?.map (fun e => (sessAt t e.1).record.context)).getD 0) 0 false [] t) s)
        else s
      else if it.tiles.length < n then s
      else room (it.offset + shardSize it.shard) (fun t =>
        logWrite r.record.slot it.offset (shardBytes t r.record it.offset (itemShard it)) t)
    | none => room (it.offset + shardSize it.shard) (fun t =>
        logWrite r.record.slot it.offset (shardBytes t r.record it.offset (itemShard it)) t)

/-- Let the survey take its next step, if no NVMe command of its own is under way. -/
def advanceSurvey (s : State) : State :=
  match s.survey.run with
  | some r =>
    if !nvIdle s then s
    else if s.survey.broken then failSurvey .surveyNvError s
    else match r.stage with
      | .zeroing => nvWrite .survey true (slotLba s.survey.lbas r.record.slot) (List.replicate 4096 0) s
      | .shards => writeNext r s
      | _ => s
  | none => s

/-- A tile of a page that the survey fetches has come. -/
def surveyTile (tile : Nat) (data : List Byte) (s : State) : State :=
  modRun (fun q => match q.items with
    | it :: rest => { q with items := { it with tiles := Tab.put it.tiles tile data } :: rest }
    | [] => q) s

/-- The survey commits (R520, R528, R531): its slot's pool slots replace those of the survey it overwrote. -/
def commitSurvey (r : SurveyRun) (s : State) : State :=
  let s := bump ctrSurveysCommitted { s with
    survey.records := Tab.put s.survey.records r.record.slot r.record
    survey.slotRefs := Tab.put (Tab.drop s.survey.slotRefs 2) r.record.slot r.refs
    survey.baseSeq := if r.record.kind = 1 then 0 else s.survey.baseSeq }
  let s := recount s
  let go := s.survey.poolLater.filter (fun k => !s.survey.poolRefs.contains k)
  let s := { s with survey.poolLater := s.survey.poolLater.filter (fun k => s.survey.poolRefs.contains k),
                    poolSlots := s.poolSlots.filter (fun k => !go.contains k) }
  if r.qp = 0 then endSurvey r .ok false s
  else
    let s := drainChunks true (r.tail.length / 1048576 + 1) s
    notify r.qp 0xF009 r.tag 0 .ok 0 [word r.record.seq, allOnes] (recordBytes r.record) (modRun (fun q => { q with stage := .draining }) s)

/-- The stage that an NVMe command of the survey has ended, and what comes next in the writing order (R528). -/
def surveyStage (r : SurveyRun) (s : State) : State :=
  match r.stage with
  | .zeroing => advanceSurvey (modRun (fun q => { q with stage := .shards }) { s with survey.records := Tab.drop s.survey.records r.record.slot })
  | .shards => match r.items with
    | it :: _ => advanceSurvey (itemWritten r it s)
    | [] => s
  | .manifest => nvIssue .survey (fun n => .nvme (nvmeEntry n 0 false 0 0) []) (drainChunks true (r.tail.length / 1048576 + 1) (modRun (fun q => { q with stage := .flush }) s))
  | .flush => nvWrite .survey true (slotLba s.survey.lbas r.record.slot) (recordBytes r.record) (modRun (fun q => { q with stage := .commit }) s)
  | .commit => commitSurvey r s
  | _ => s

/-- An NVMe command of the survey has completed (R528): the rest of a write follows, else the next in the writing order. -/
def surveyWritten (s : State) : State :=
  match s.survey.run with
  | none => s
  | some r => if r.rest.isSome then logRest r s else surveyStage r s

/-- A retired frame that the survey holds fails it (R518). -/
def surveyRetired (f : Nat) (s : State) : State := if s.survey.held.contains f then failSurvey .surveyNvError s else s

end Sys2Proof.Machine
end

