-- ==== Sys2Proof/Machine/Fetches.lean ====
section
/-!
DEFINITION. How tiles on their way end: arrivals, writes done, repeats and failures (R122, R264, R337, R353, R354, R356, R358 to R360, R388).
-/
namespace Sys2Proof.Machine

/-- A tile has arrived from its tier (R358): its data is in its frame, and whoever waits for it goes on. -/
def tileCame (n : Nat) (t : Transfer) (data : List Byte) (s : State) : State :=
  let a := tierAddr t.tier t.slot (4096 * t.tile)
  let s := { s with transfers := Tab.drop s.transfers n }
  let s := pmu { code := 0x18, priv := .context t.context, requester := some 0x128, addr := some a } (bump ctrTilesFetched s)
  let d := hbmForm s t.context a data
  match t.consumer with
  | .root i => mapTile i none s
  | .leaf i r => mapTile i (some r) s
  | .page i k => pageTile i k t.tile d s
  | .slice q c j => settleCompass (stageTile q c j t.addr d s)
  | .place x => placedTile x (writeBytes t.addr d s)
  | .region j => regionTile j t.slot t.tile d s
  | .migrate i k => migrateTile i k t.tile d s
  | .beneath i => beneathTile i t.tile d s
  | .survey _ => surveyTile t.tile d s
  | _ => s

/-- A tile write has ended (R353). -/
def tileWritten (n : Nat) (t : Transfer) (s : State) : State :=
  let a := tierAddr t.tier t.slot (4096 * t.tile)
  let s := { s with transfers := Tab.drop s.transfers n }
  let s := pmu { code := 0x19, priv := .context t.context, requester := some 0x130, addr := some a } (bump ctrTilesParked s)
  match t.consumer with
  | .park i k => parkTile i (some k) s
  | .parkMap i => parkTile i none s
  | .place x => placedTile x s
  | .beneathWrite i => beneathWritten i s
  | _ => s

/-- Why a tile failed: its time and repeats ran out, its data is uncorrectable, its tier refused it (R388), no pool range entry covers its slot
any longer (R349). -/
inductive Cause where
  | timeout | uncorrectable | refused | denied
  deriving DecidableEq, Repr

/-- The fault code of a cause in a tier (R388). A refusal by the host adapter has no code of its own; it counts as its data uncorrectable
(log entry 36). -/
def causeCode (tier : Nat) : Cause → Nat
  | .timeout => tier * 65536 + 1
  | .uncorrectable => tier * 65536 + 2
  | .refused => if tier = 2 then 0x20004 else 0x10002
  | .denied => 0x20003

/-- A fetch or a park's write has failed (R264, R337, R354, R360, R464). The status of a region read whose data is uncorrectable is not given:
a free value (log entry 36). A write of a region's slot that fails has no further effect (log entry 60). -/
def tileFailed (n : Nat) (t : Transfer) (c : Cause) (s : State) : State :=
  let s := { s with transfers := Tab.drop s.transfers n }
  let s := if c = .denied then bump ctrPoolDenials s else countFetchFailure s
  let code := causeCode t.tier c
  match t.consumer with
  | .park i _ => modPark i (fun p => { p with failed := true }) (dropTransfers i s)
  | .parkMap i => modPark i (fun p => { p with failed := true }) (dropTransfers i s)
  | .root i => fetchFault i code s
  | .leaf i _ => fetchFault i code s
  | .page i _ => fetchFault i code s
  | .slice q _ _ => settleCompass (endSearch q { status := .indexFetchFailed } s)
  | .place x => settleCompass (failPlace x (if c = .denied then .poolDenied else .indexFetchFailed) s)
  | .region j =>
    match c with
    | .timeout => endJobRead j { status := .responseTimeout } s
    | .refused => endJobRead j { status := .poolDenied } s
    | .denied => endJobRead j { status := .poolDenied } s
    | .uncorrectable =>
      let (w, s) := draw s
      endJobRead j { code := some (w.setWidth 16) } s
  | .migrate i _ => modSource i (fun m => { m with failed := true }) (dropTransfers i s)
  | .survey _ => failSurvey .surveyNvError s
  | .beneath i => beneathFailed i s
  | .beneathWrite i => beneathFailed i s
  | .store => s

/-- Put tile `n` on its way if it waits and there is room for it (R356), unless no pool range entry covers its slot any longer (R348, R349). -/
def tryLaunch (n : Nat) (s : State) : State :=
  match Tab.find s.transfers n with
  | none => s
  | some t =>
    if !t.waits || !tileRoom s t.qp then s
    else if !tierAllows s t.context t.tier t.slot t.write then tileFailed n t .denied s
    else launch n t s

/-- Issue what was held back by the limits on tiles in flight, or by tiles not yet arrived (R356). -/
def pumpAll (s : State) : State :=
  let s := (Tab.keysWhere s.transfers (fun t => t.waits)).foldl (fun t n => tryLaunch n t) s
  let s := (Tab.keysWhere s.sessions (fun x => x.move.isSome)).foldl (fun t i =>
    pumpMigrate i ((sessAt t i).pages.length + 1) (pumpPark i t)) s
  let s := (Tab.keys s.regionJobs).foldl (fun t n => advanceRead n 8 t) s
  let s := (Tab.keysWhere s.indexes (fun v => v.placing.isSome)).foldl (fun t x =>
    pumpPlace x ((match (Tab.find t.indexes x).bind (·.placing) with | some p => p.todo.length | none => 0) + 1) t) s
  advanceSurvey (settleCompass s)

/-- `TILE_FETCH_DONE` (R122, R358): a completion for a transfer that is no more is discarded (R56). -/
def execTileFetchDone (n : Nat) (r : TileResult) (s : State) : Out :=
  .next (engine s (match Tab.find s.transfers n with
    | none => bump ctrLateDiscards s
    | some t =>
      if t.write || t.waits then s
      else pumpAll (match r with
        | .done data => tileCame n t data s
        | .uncorrectable => tileFailed n t .uncorrectable s
        | .refused => tileFailed n t .refused s)))

/-- `PARK_TILE_WRITTEN` (R353, R354, R359). -/
def execParkTileWritten (n : Nat) (r : TileResult) (s : State) : Out :=
  .next (engine s (match Tab.find s.transfers n with
    | none => bump ctrLateDiscards s
    | some t =>
      if !t.write || t.waits then s
      else pumpAll (match r with
        | .done _ => tileWritten n t s
        | .uncorrectable => tileFailed n t .uncorrectable s
        | .refused => tileFailed n t .refused s)))

/-- `FETCH_TIMEOUT` (R359, R427): the tile is repeated on the next fetch queue pair under a new number, so that a completion of its first issue
is late (R56), or its repeats are spent and it fails. What no pool range entry covers any longer is not repeated (R348, R349). -/
def execFetchTimeout (n : Nat) (s : State) : Out :=
  .next (engine s (match Tab.find s.transfers n with
    | none => s
    | some t =>
      if t.waits || now s < t.deadline then s
      else
        let s := if t.write then s else bump ctrResponseTimeouts s
        if fetchRetriesVal s ≤ t.repeats then pumpAll (tileFailed n t .timeout s)
        else if !tierAllows s t.context t.tier t.slot t.write then pumpAll (tileFailed n t .denied s)
        else
          let q := 1 + (t.qp % max (fetchQpsVal s) 1)
          let m := s.nextTile
          let s := { s with transfers := Tab.put (Tab.drop s.transfers n) m { t with repeats := t.repeats + 1, qp := q, waits := true }, nextTile := m + 1 }
          tryLaunch m (bump ctrFetchRepeats s)))

end Sys2Proof.Machine
end

