-- ==== Sys2Proof/Machine/Errors.lean ====
section
/-!
DEFINITION. Errors in HBM, in the module's tables and in key slots (R381 to R387, R338, R556).
-/
namespace Sys2Proof.Machine

/-- Retire a frame; a survey that holds it fails (R121, R518). -/
def retireHeld (f : Nat) (s : State) : State := surveyRetired f (retireFrame f s)

/-- What follows a teardown. -/
def tearDown (c : Nat) (s : State) : State := settleCompass (settle (teardown c s))

/-- `FAULT` with cause 1 on a session in a state that it changes (R382, R385). -/
def frameFault (i f : Nat) (s : State) : State :=
  let x := sessAt s i
  if x.entry.state == .free || x.entry.state == .faulted || x.entry.state == .tombstone then s
  else
    let s := modSess i (fun y => { y with record.flags := y.record.flags ||| 2, record.faultFrame := f }) (faultSession i 1 s)
    mirrorUpdate i s

/-- An uncorrectable error in the record of an Atlas entry (R384). -/
def recordError (i : Nat) (s : State) : State :=
  let x := sessAt s i
  let s := bump ctrHbmUncorrected (if x.withheld then s else bump ctrRecordSlotsWithheld (modSess i (fun y => { y with withheld := true }) s))
  if x.entry.state == .free then s else tearDown x.record.context (faultSession i 2 s)

/-- The Atlas index whose record lies at an HBM address of the record region (R118). -/
def recordIndexAt (a : Nat) : Nat :=
  let f := a / 65536
  (frameFielder f / 64) * 8388608 + recordOrdinal f * 256 + (a % 65536) / 256

/-- `HBM_UNCORRECTABLE` (R382): a read for session `i` met the error. A frame of an index, which a Compass read met, follows R338. -/
def execHbmUncorrectable (f _o i : Nat) (s : State) : Out :=
  let x := frameAt s f
  .next (engine s (match x.state with
    | .kv | .filling | .map => tearDown (sessAt s i).record.context (frameFault i f (bump ctrHbmUncorrected (retireHeld f s)))
    | .index => tearDown x.context (faultIndex x.owner f (bump ctrHbmUncorrected (retireHeld f s)))
    | _ => s))

/-- `RECORD_UNCORRECTABLE` (R384). -/
def execRecordUncorrectable (i : Nat) (s : State) : Out := .next (engine s (if enabled s i then recordError i s else s))

/-- What follows one uncorrectable error that scrub finds (R385), at an HBM address. -/
def scrubError (a : Nat) (s : State) : State :=
  let f := a / 65536
  let x := frameAt s f
  match x.state with
  | .record => recordError (recordIndexAt a) s
  | .kv | .filling | .map =>
    let s := bump ctrHbmUncorrected (retireHeld f s)
    tearDown x.context (if (sessAt s x.owner).record.context == x.context then frameFault x.owner f s else s)
  | .index => tearDown x.context (faultIndex x.owner f (bump ctrHbmUncorrected (retireHeld f s)))
  | .free => bump ctrHbmUncorrected (retireHeld f s)
  | _ => s

/-- `SCRUB_PASS` (R381, R385): once in each `SCRUB_PERIOD_S`, the addresses of a stack where scrub found errors it could not
correct, and those it corrected. -/
def execScrubPass (stack : Nat) (bad corrected : List Nat) (s : State) : Out :=
  let here (a : Nat) : Bool := frameFielder (a / 65536) / 32 == stack
  .next (engine s (
    if 7 < stack || ((Tab.find s.scrubbedAt stack).map (fun a => decide (now s < a + scrubPeriodSVal s * 1000000000))).getD false then s
    else
    let s := { s with scrubbedAt := Tab.put s.scrubbedAt stack (now s) }
    let s := (corrected.filter here).foldl (fun t a =>
      pmu { code := 0x1A, requester := some (0x158 + stack), addr := some a } (bump ctrHbmCorrected t)) s
    (bad.filter here).foldl (fun t a => scrubError a t) s))

/-- `SRAM_FATAL` (R387): 1 the Atlas SRAM, 2 the frame table SRAM. -/
def execSramFatal (which : Nat) (s : State) : Out :=
  .next (if s.mode == .fatal || !(which == 1 || which == 2) then s
    else alert .fatal { s with mode := .fatal, fatal := which })

/-- `KEY_SLOT_ERROR` (R556): the context's key slot holds keys once it is CONFIDENTIAL. -/
def execKeySlotError (c : Nat) (s : State) : Out :=
  .next (engine s (if (ctxAt s c).mode == .confidential then tearDown c s else s))

end Sys2Proof.Machine
end

