-- ==== Sys2Proof/Machine/Triggers.lean ====
section
/-!
DEFINITION. Trigger counters and triggered work requests (R437, R440 to R445).
-/
namespace Sys2Proof.Machine

/-- Fields of a posted work request (R440). -/
def wrWord (w : WorkReq) (k : Nat) : Word := w.words.getD k 0
def wrOp (w : WorkReq) : Nat := bits (wrWord w 0) 63 56
def wrTrigger (w : WorkReq) : Nat := bits (wrWord w 0) 55 54
def wrQp (w : WorkReq) : Nat := bits (wrWord w 0) 47 32
def wrCounter (w : WorkReq) : Nat := bits (wrWord w 0) 31 18
def wrDone (w : WorkReq) : Nat := bits (wrWord w 0) 17 4
def wrThreshold (w : WorkReq) : Nat := bits (wrWord w 1) 63 32
def wrSignalTag (w : WorkReq) : Nat := bits (wrWord w 1) 31 0

/-- Trigger counter `c`. -/
def counterAt (s : State) (c : Nat) : Trigger := Tab.get s.triggers c {}

/-- A counter's value; counter 0 reads zero (R440). -/
def triggerValue (s : State) (c : Nat) : Nat := if c = 0 then 0 else (counterAt s c).value.toNat

/-- Whether a posted work request's counter trigger holds (R440, R442). -/
def wrHolds (s : State) (w : WorkReq) : Bool :=
  !w.fired && wrTrigger w != 1 && wrThreshold w ≤ triggerValue s (wrCounter w)

/-- The posted work requests that are ready at a change, in posting order (R442). -/
def wrsReady (s : State) : List Nat := Tab.keysWhere s.wrs (wrHolds s)

/-- Add to a trigger counter for a context (R437, R440): counter 0 ignores it, a counter that is not the context's skips it. -/
def addTrigger (c n ctx : Nat) (s : State) : State :=
  if c = 0 then s
  else if (counterAt s c).context == some ctx then
    { s with triggers := Tab.put s.triggers c { counterAt s c with value := (counterAt s c).value + BitVec.ofNat 32 n } }
  else bump ctrCounterBumpsIgnored s

/-- A work request completes: its done counter gains one, and it is gone (R440, R443). -/
def completeWr (n : Nat) (s : State) : State :=
  match Tab.find s.wrs n with
  | none => s
  | some w => addTrigger (wrDone w) 1 w.context (freeWr n s)

/-- The fields of a message header (R428) with the payload behind it: operand words first (R429). -/
def messageOf (qp : Nat) (header payload : List Byte) : Msg :=
  let m0 := wordAt header 0
  let m2 := wordAt header 16
  let n := bits m2 47 40
  let k := min n (payload.length / 8)
  { qp, opcode := BitVec.ofNat 16 (bits m0 63 48), status := BitVec.ofNat 16 (bits m0 47 32), tag := BitVec.ofNat 32 (bits m0 31 0),
    handle := wordAt header 8, job := BitVec.ofNat 16 (bits m2 63 48), args := wordAt header 24,
    ops := wordsAt payload 0 k, body := payload.drop (8 * k), cut := k < n }

/-- The position groups of a layer up to the end of its last page (R444). -/
def layerGroups (h : Shape) (x : Session) (layer : Nat) : Nat :=
  (x.pages.filter (fun e => e.2.tier != 3 && keyLayer h e.1 == layer)).foldl (fun a e => max a ((keyPage h e.1 + 1) * (h.run / 16))) 0

/-- The 4,096 bytes of a tile of a session: of a page that is not in HBM a free value, of a page that does not exist zero. -/
def tileBytes (i : Nat) (h : Shape) (layer head group sl : Nat) (s : State) : List Byte × State :=
  let k := pageKey h layer head (16 * group / h.run)
  let e := pageAt (sessAt s i) k
  if e.tier = 0 then (slice (pageBytes s i k) ((((16 * group % h.run) / 16) * h.slices + sl) * 4096) 4096, s)
  else if e.tier = 3 then (List.replicate 4096 0, s)
  else drawBytes 4096 s

/-- The session that a SHIP_TILES names, if its context may ship it (R139). -/
def shipSession (s : State) (w : WorkReq) : Option Nat :=
  match lookupEntry s (wrWord w 2) with
  | .at_ i => if (sessAt s i).record.context == w.context && (sessAt s i).shadow.isNone then some i else none
  | .bad _ => none

/-- Fire a SHIP_TILES (R443, R444). -/
def fireShip (n : Nat) (w : WorkReq) (s : State) : State :=
  let layer := bits (wrWord w 3) 63 56
  let first := bits (wrWord w 3) 39 20
  let want := bits (wrWord w 3) 19 0
  match shipSession s w with
  | none => completeWr n (if want = 0 then s else bump ctrDescriptorClamps s)
  | some i =>
    let x := sessAt s i
    let h := sessShape s i
    let have_ := layerGroups h x layer - first
    let s := if have_ < want then bump ctrDescriptorClamps s else s
    let cnt := min want have_
    if cnt = 0 then completeWr n s
    else
      let s := { s with wrs := Tab.put s.wrs n { w with fired := true, left := cnt * h.heads * h.slices } }
      (List.range' first cnt).foldl (fun t g => foldRange h.heads (fun t hd => foldRange h.slices (fun t sl =>
        let (data, t) := tileBytes i h layer hd g sl t
        sendTile (wrQp w)
          { ptype := 1, payload := data, counter := bits (wrWord w 4) 45 32, wr := some n
            addr := word (at' layer 56 8 + at' hd 48 8 + at' g 28 20 + at' sl 25 3 + at' (bits (wrWord w 4) 24 0) 0 25) } t) t) t) s

/-- Fire a SEND_INLINE (R440, R444): a message header without a payload. -/
def fireInline (n : Nat) (w : WorkReq) (s : State) : State :=
  let len := bits (wrWord w 3) 63 58
  let s := if 32 < len then bump ctrDescriptorClamps s else s
  let hdr := slice ((wordsBytes ((List.range 4).map (fun k => wrWord w (4 + k)))).take len) 0 32
  let s := { s with wrs := Tab.put s.wrs n { w with fired := true, left := 1 } }
  sendPackets (wrQp w) [{ ptype := 0, first := true, last := true, header := hdr, payload := [], wr := some n }]
    (emit (.msg (messageOf (wrQp w) hdr [])) s)

/-- Fire a work request (R440, R442). On a queue pair that is not READY it is gone without completing. -/
def fireWr (n : Nat) (w : WorkReq) (s : State) : State :=
  let s := bump ctrWrsFired s
  if wrOp w = 3 then completeWr n (addTrigger (bits (wrWord w 3) 13 0) (bits (wrWord w 3) 63 32) w.context s)
  else if !qpReady s (wrQp w) then freeWr n s
  else if wrOp w = 1 then fireShip n w s
  else fireInline n w s

/-- Fire the work requests of a list, and behind them those that their firing makes ready (R442). -/
def fireList : Nat → List Nat → State → State
  | 0, _, s => s
  | _, [], s => s
  | fuel + 1, n :: rest, s =>
    match Tab.find s.wrs n with
    | none => fireList fuel rest s
    | some w =>
      if w.fired then fireList fuel rest s
      else
        let t := fireWr n w s
        fireList fuel (rest ++ (wrsReady t).filter (fun k => !rest.contains k)) t

/-- Fire what has become ready. -/
def fireReady (s : State) : State := fireList (2 * s.wrs.length * (s.wrs.length + 1) + 1) (wrsReady s) s

/-- One packet of a work request has been acknowledged (R443). -/
def wrAcked (n : Nat) (s : State) : State :=
  match Tab.find s.wrs n with
  | none => s
  | some w =>
    if w.left ≤ 1 then fireReady (completeWr n s) else { s with wrs := Tab.put s.wrs n { w with left := w.left - 1 } }

/-- Whether a counter is another context's than `c`. -/
def foreign (s : State) (c ctx : Nat) : Bool :=
  c != 0 && match (counterAt s c).context with
    | some o => o != ctx
    | none => false

/-- Whether a context may post a work request (R441). -/
def wrOk (s : State) (ctx : Nat) (w : WorkReq) : Bool :=
  (wrOp w == 1 || wrOp w == 2 || wrOp w == 3) && wrTrigger w != 3 &&
  512 ≤ wrQp w && (qpAt s (wrQp w)).bound && (qpAt s (wrQp w)).context == ctx &&
  !foreign s (wrCounter w) ctx && !foreign s (wrDone w) ctx &&
  (wrOp w != 3 || !foreign s (bits (wrWord w 3) 13 0) ctx)

/-- The state with one more work request posted, under the next number (log entry 43). -/
def postWr (w : WorkReq) (s : State) : State := { s with wrs := Tab.put s.wrs s.wrCount w, wrCount := s.wrCount + 1 }

/-- `WR_POST` (R441, R442): 64 bytes for each work request; the answer lists their numbers. -/
def execWrPost (m : Msg) (s : State) : Out :=
  let k := m.body.length / 64
  .next (request { opcode := 0x0610, on := .bound, setup := true } m (m.body.length % 64 != 0 || k < 1 || 64 < k) (fun t =>
    let c := (qpAt t m.qp).context
    let ws := (List.range k).map (fun j => ({ words := wordsAt m.body (64 * j) 8, context := c } : WorkReq))
    if (ctxAt t c).tornDown then refuse m .contextTornDown t
    else if !ws.all (wrOk t c) then refuse m .wrInvalid t
    else if 262144 < (t.wrs.filter (fun e => !e.2.fired)).length + k then refuse m .wrLimit t
    else
      let n := t.wrCount
      let t := ws.foldl (fun u w => postWr w u) t
      fireReady (respond m { body := wordsBytes (word k :: (List.range' n k).map word) } t)) s)

/-- `WR_CANCEL` (R445): the number of a work request that has not fired. -/
def execWrCancel (m : Msg) (s : State) : Out :=
  .next (request { opcode := 0x0611, on := .bound, need := 1, most := 1, setup := true } m false (fun t =>
    if (ctxAt t (qpAt t m.qp).context).tornDown then refuse m .contextTornDown t
    else match Tab.find t.wrs (opNat m 0) with
      | some w => if w.fired || w.context != (qpAt t m.qp).context then refuse m .wrUnknown t else refuse m .ok (freeWr (opNat m 0) t)
      | none => refuse m .wrUnknown t) s)

/-- `COUNTER_SET` (R440, R441): counter, context, value. -/
def execCounterSet (m : Msg) (s : State) : Out :=
  .next (request { opcode := 0x0612, on := .mailbox, need := 3, most := 3 } m
    (16383 < opNat m 0 || 2 ^ 32 ≤ opNat m 2) (fun t =>
    if (ctxAt t (opNat m 1)).mode == .none then refuse m (noContext (opNat m 1)) t
    else if (ctxAt t (opNat m 1)).tornDown then refuse m .contextTornDown t
    else if opNat m 0 = 0 then refuse m .ok t
    else fireReady (refuse m .ok
      { t with triggers := Tab.put t.triggers (opNat m 0) { context := some (opNat m 1), value := BitVec.ofNat 32 (opNat m 2) } })) s)

/-- `COUNTER_ADD` (R440, R441): counter, value. -/
def execCounterAdd (m : Msg) (s : State) : Out :=
  .next (request { opcode := 0x0613, on := .bound, need := 2, most := 2, setup := true } m (16383 < opNat m 0 || 2 ^ 32 ≤ opNat m 1) (fun t =>
    let c := (qpAt t m.qp).context
    if (ctxAt t c).tornDown then refuse m .contextTornDown t
    else if opNat m 0 ≠ 0 && (counterAt t (opNat m 0)).context != some c then refuse m .wrInvalid t
    else fireReady (refuse m .ok (addTrigger (opNat m 0) (opNat m 1) c t))) s)

/-- `WR_SIGNAL` (R440): it fires the work requests of its queue pair whose `SIGNAL_TAG` is its `TAG`. It has no answer (R431). -/
def execWrSignal (m : Msg) (s : State) : Out :=
  .next (peerMessage { opcode := 0x0614, on := .bound, setup := true } m (fun t =>
    let hit := Tab.keysWhere t.wrs (fun w => !w.fired && wrTrigger w != 0 && wrQp w == m.qp && wrSignalTag w == m.tag.toNat)
    fireList (2 * t.wrs.length * (t.wrs.length + 1) + 1) hit t) s)

end Sys2Proof.Machine
end

