-- ==== Sys2Proof/Machine/TileWrites.lean ====
section
/-!
DEFINITION. `TILE_WRITE`: tiles from hosts and ring homes, circulating ring-prefill blocks, pages of migrating sessions (R138, R139, R141, R189,
R190, R436, R437, R461).
-/
namespace Sys2Proof.Machine

/-- A tile leaves ingress as it is handled. -/
def takeTile (t : TileWrite) (s : State) : State := { s with tileIngress := s.tileIngress.erase t }

/-- A tile that finds no frame stays in ingress (R24; log entry 44). -/
def holdTile (t : TileWrite) (s : State) : State := if s.tileIngress.contains t then s else { s with tileIngress := s.tileIngress ++ [t] }

/-- Refuse a tile write (R436). -/
def nakTile (t : TileWrite) (st : Status) (s : State) : State :=
  bump ctrTileNaks (notify t.qp 0xF006 0 0 .ok 0 [t.addr, word st.code.toNat] [] (takeTile t s))

/-- Whether a tile address lies in a session's shape, with `groups` position groups (R141). -/
def tileFits (h : Shape) (a : TileAddr) (groups : Nat) : Bool := a.layer < h.layers && a.head < h.heads && a.slice < h.slices && a.group < groups

/-- Refuse a tile address that is out of range (R141). -/
def rangeNak (t : TileWrite) (s : State) : State := bump ctrTileRangeRejects (nakTile t .tileRange s)

/-- The 256 bytes of a row in a slice, zero beyond the head dimension (R109). -/
def rowMask (h : Shape) (sl : Nat) (row : List Byte) : List Byte :=
  let v := min 128 (h.d * h.e - 128 * sl)
  slice (row.take v) 0 128 ++ slice ((row.drop 128).take v) 0 128

/-- Write rows of a tile into its page, for local positions that `want` names; none where a frame is wanting (R128, R134). -/
def writeTileRows (i : Nat) (h : Shape) (a : TileAddr) (data : List Byte) (want : Nat → Bool) (s : State) : Option State :=
  let first := 16 * a.group
  let rows := (List.range 16).filter (fun r => want (first + r))
  let n := first / h.run
  if rows.isEmpty then some s
  else
    (writablePage i h a.layer a.head n (localPos s (sessAt s i).entry.partition (sessAt s i).record.length) s).map (fun t =>
      let k := pageKey h a.layer a.head n
      let f := (pageAt (sessAt t i) k).frame
      let base := frameBase f + (((first % h.run) / 16) * h.slices + a.slice) * 4096
      let t := rows.foldl (fun u r => writeBytes (base + 256 * r) (rowMask h a.slice (slice data (256 * r) 256)) u) t
      mirrorRows i k h false (fun p => rows.contains (p - first)) (dirtyPage i k t))

/-- The write of a tile is done: its counter gains one (R437). -/
def tileDone (t : TileWrite) (s : State) : State :=
  let q := qpAt s t.qp
  fireReady (addTrigger t.counter 1 (if q.bound then q.context else 4096) (takeTile t s))

/-- The session of a circulating block: its tile address names this module's own index (log entry 41). -/
def passSession (s : State) (idx : Nat) : Option Nat :=
  let x := sessAt s idx
  if enabled s idx && x.entry.state != .free && (ringOf s x.entry.partition).isSome then some idx else none

/-- Store a tile of a circulating block in a frame of its own (R190), which is KV once all its tiles have come (R122). -/
def storePass (i : Nat) (h : Shape) (a : TileAddr) (data : List Byte) (s : State) : Option State :=
  let x := sessAt s i
  let pos := 16 * a.group
  let k := passKey h a.layer a.head (pos / h.run)
  let tile := ((pos % h.run) / 16) * h.slices + a.slice
  let put (f : Nat) (t : State) : State :=
    let t := writeBytes (frameBase f + 4096 * tile) (slice data 0 4096) t
    let got := Tab.get t.fills f 0 ||| 2 ^ tile
    if got + 1 = 2 ^ h.used then turnFrame f .kv { t with fills := Tab.drop t.fills f }
    else { t with fills := Tab.put t.fills f got }
  match Tab.find x.passPages k with
  | some f => some (put f s)
  | none =>
    (stripeFielder s x.entry.partition i h a.layer a.head (pos / 512)).bind (fun fl =>
      (allocFrame fl { state := .filling, context := x.record.context, refCount := 1, owner := i } s).map (fun fs =>
        put fs.1 (modSess i (fun y => { y with passPages := Tab.put y.passPages k fs.1 }) fs.2)))

/-- Whether a circulating block goes on to the next member: not to the one that sent it round (R189). -/
def passesOn (s : State) (i group : Nat) : Bool :=
  match ringOf s (sessAt s i).entry.partition with
  | some (m, mu, g) => ringHolder m g (16 * group) != (mu + 1) % m
  | none => false

/-- One more tile of the layer that goes round has come, or of one that is not known yet (R190). -/
def countPass (i : Nat) (s : State) : State :=
  modSess i (fun x => if 0 < x.passLeft then { x with passLeft := x.passLeft - 1 } else { x with passEarly := x.passEarly + 1 }) s

/-- A circulating ring-prefill block (R189, R190, R436). It waits in ingress while the session's index at the next member is not known. -/
def ringPassTile (t : TileWrite) (s : State) : State :=
  let a := tileAddrOf t.addr
  match passSession s a.index with
  | none => nakTile t .tileRange s
  | some i =>
    let x := sessAt s i
    let h := sessShape s i
    if !(x.entry.state == .ready || x.entry.state == .active) then nakTile t (tileStatus x) s
    else if !tileFits h a (maxLength s x.entry.partition h / 16) then rangeNak t s
    else if passesOn s i a.group && x.passNext.isNone then holdTile t s
    else
      let stored := if passNeeded s i a.layer a.head (16 * a.group / 512) then storePass i h a t.data s else some s
      match stored with
      | none => holdTile t s
      | some u =>
        let u := countPass i (bump ctrRingTilesReceived u)
        tileDone t (if passesOn u i a.group then sendPass i a t.data u else u)

/-- A tile of a session that migrates to this module (R436, R463): which tiles of its page have come is noted (R465). -/
def migrationTile (t : TileWrite) (s : State) : State :=
  let a := tileAddrOf t.addr
  let x := sessAt s a.index
  let mine := match x.move with
    | some (.dest d) => x.entry.state == .moving && d.node == peerNodeOf t.qp
    | _ => false
  let h := sessShape s a.index
  if !mine then nakTile t .tileRange s
  else if !tileFits h a (h.nMax / 16) then rangeNak t s
  else match writeTileRows a.index h a t.data (fun _ => true) s with
    | none => holdTile t s
    | some u =>
      let n := 16 * a.group / h.run
      let k := pageKey h a.layer a.head n
      let bit := 2 ^ (((16 * a.group % h.run) / 16) * h.slices + a.slice)
      tileDone t (modSess a.index (fun y => match y.move with
        | some (.dest d) => { y with move := some (.dest { d with got := Tab.put d.got k (Tab.get d.got k 0 ||| bit) }) }
        | _ => y) u)

/-- The session of a tile write that is neither of these, if the queue pair may reach it (R139, R461). -/
def tileSession (s : State) (t : TileWrite) : Option Nat :=
  let a := tileAddrOf t.addr
  if 257 ≤ t.qp && t.qp ≤ 384 then
    match (sessAt s a.index).ringHome with
    | some (n, _, _) => if n == peerNodeOf t.qp && (sessAt s a.index).entry.state != .free then some a.index else none
    | none => none
  else
    let x := sessAt s a.index
    let q := qpAt s t.qp
    if q.bound && enabled s a.index && x.entry.state != .free && x.record.context == q.context && x.ringHome.isNone then some a.index else none

/-- A ring home sends a tile on to the member that holds its positions, by the session's index there (R461). It counts in neither ring counter of
R192 (log entry 58). -/
def forwardTile (t : TileWrite) (i m mu g : Nat) (a : TileAddr) (s : State) : State :=
  let p := (sessAt s i).entry.partition
  let holder := ringHolder m g (16 * a.group)
  if holder == mu then s
  else
    sendTile (ringQp (ringNodeBaseVal s p + holder))
      { ptype := 1, addr := tileAddrWord { a with group := ringLocal m g (16 * a.group) / 16, index := Tab.get (sessAt s i).ringPeers holder a.index }
        payload := t.data, counter := t.counter
        conf := confOf s i } s

/-- Every other tile write (R436): a session in READY, rows at or above its `LENGTH`. -/
def sessionTile (t : TileWrite) (s : State) : State :=
  let a := tileAddrOf t.addr
  match tileSession s t with
  | none => nakTile t .tileRange s
  | some i =>
    let x := sessAt s i
    let p := x.entry.partition
    let h := sessShape s i
    if x.shadow.isSome then nakTile t .sessionShadow s
    else if x.entry.state != .ready then nakTile t (tileStatus x) s
    else
      match (if x.ringHome.isNone then ringOf s p else none) with
      | some (m, mu, g) =>
        if !tileFits h a (maxLength s p h / 16) then rangeNak t s
        else if ringHolder m g (16 * a.group) != mu then tileDone t (forwardTile t i m mu g a s)
        else
          let b := { a with group := ringLocal m g (16 * a.group) / 16 }
          match writeTileRows i h b t.data (fun lp => x.record.length ≤ globalPos s p lp) s with
          | none => holdTile t s
          | some u => tileDone t u
      | none =>
        if !tileFits h a (h.nMax / 16) then rangeNak t s
        else match writeTileRows i h a t.data (fun lp => x.record.length ≤ globalPos s p lp) s with
          | none => holdTile t s
          | some u => tileDone t u

/-- `TILE_WRITE` (R436, R437). Until start-up completes tiles wait in ingress (R652). -/
def execTileWrite (t : TileWrite) (s : State) : Out :=
  .next (if !linkAlive s || !qpReady s t.qp then takeTile t s
    else if s.power.phase != .running then holdTile t s
    else if s.mode == .fatal then nakTile t .moduleFatal s
    else if s.survey.frozen then holdTile t s
    else if 321 ≤ t.qp && t.qp ≤ 384 then migrationTile t s
    else if 257 ≤ t.qp && t.qp ≤ 320 && t.ringPass then ringPassTile t s
    else sessionTile t s)

end Sys2Proof.Machine
end

