-- ==== Sys2Proof/Machine/Rings.lean ====
section
/-!
DEFINITION. Ring mode across modules: joining, commands for a member's part, appends and queries (R456 to R462). A home's index, generation and
node name a session at a member.
-/
namespace Sys2Proof.Machine

/-- The session that a member holds for a home's session (R457). -/
def ringResolve (s : State) (qp : Nat) (home : Word) : Option Nat :=
  (s.sessions.find? (fun e => e.2.ringHome == some (peerNodeOf qp, handleIndex home, handleGeneration home) && e.2.entry.state != .free)).map
    Prod.fst

/-- Whether a context may hold a session whose key check, if it is confidential, is `key` (R575). -/
def keyMatches (s : State) (c : Nat) (key : Option Word) : Bool :=
  match key with
  | none => (ctxAt s c).mode != .confidential
  | some k => (ctxAt s c).mode == .confidential && (ctxAt s c).keyCheck == k

/-- Whether a member may join a session (R457, R575): checks of R79 that concern a member, in its order. -/
def joinCheck (s : State) (r : RingJoin) : Status :=
  let p := handlePartition r.home
  let x := ctxAt s r.context
  if x.mode == .none then .contextUnknown
  else if x.mode == .pending then .contextNoKey
  else if x.tornDown then .contextTornDown
  else if !keyMatches s r.context r.key then .contextKeyAbsent
  else if p ≠ x.partition then .partitionMismatch
  else if (partFielders s p).isEmpty then .partitionEmpty
  else if ringModeVal s p != 1 || ringSizeVal s p ≤ ringMemberVal s p then .ringConfig
  else if (Tab.get s.models r.modelSlot {}).layers = 0 then .modelEmpty
  else if maxSessionsVal s p ≤ nonFree s p then .atlasQuota
  else if (allocIndex s).isNone then .atlasFull
  else .ok

/-- A fork's part at a member takes its parent's pages there (R132; log entry 41): none where the member cannot. -/
def joinFork (i qp : Nat) (r : RingJoin) (s : State) : Option State :=
  if r.parent = 0 then some s
  else
    (ringResolve s qp r.parent).bind (fun j =>
      match fillFork i j (prefixKeys s j r.prefixLen) (modSess i (fun y => { y with record.parent := (sessAt s j).record.handle }) s) with
      | (.ok, u) => some u
      | _ => none)

/-- `RING_JOIN` (R457): the member allocates an entry for the home's session. -/
def execRingJoin (m : Msg) (r : RingJoin) (s : State) : Out :=
  .next (request { opcode := 0x0720, on := .peer, most := 255, setup := true } m (r.cls > 1) (fun t =>
    let p := handlePartition r.home
    match joinCheck t r, allocIndex t with
    | .ok, some i =>
      let len := r.prefixLen
      let rec_ : Record := { context := r.context, cls := r.cls, modelSlot := r.modelSlot, innings := 1, length := len, prefixLen := len }
      match admission p r.cls (stepBytes (Tab.get t.models r.modelSlot {}) len) (fun u =>
          (allocRoot i (occupy i p .ready rec_ u)).bind (joinFork i m.qp r)) t with
      | (some u, _) =>
        let u := modSess i (fun y => { y with ringHome := some (peerNodeOf m.qp, handleIndex r.home, handleGeneration r.home) })
          { u with ringMap := u.ringMap ++ [(r.home, i)] }
        respond m { handle := some (sessAt u i).record.handle } (mirrorUpdate i u)
      | (none, t) => refuse m .admitRefused t
    | st, _ => refuse m st t) s)

/-- Apply a session command to a member's part (R458), which first takes the home's `LENGTH` from before the command. -/
def applyRing (i : Nat) (m : Msg) (r : RingCmd) (s : State) : Status × State :=
  let m := { m with ops := r.ops }
  let len := if r.opcode == 0x0203 then r.length - opNat m 0 else r.length
  let s0 := s
  let s := modSess i (fun y => { y with record.length := len }) s
  match r.opcode.toNat with
  | 0x0104 => applyResume i s
  | 0x0105 => applyPark i (opNat m 0) none s
  | 0x0107 => let a := applyCancel i s; (a.1, settle a.2)
  | 0x0108 => applyFreeze i s
  | 0x0109 => applyThaw i s
  | 0x0203 => applyExtend i (opNat m 0) s
  | 0x0304 => applyBind i m s
  | _ => (.opcodeUnknown, s0)

/-- `RING_CMD` (R458). -/
def execRingCmd (m : Msg) (r : RingCmd) (s : State) : Out :=
  .next (request { opcode := 0x0721, on := .peer, most := 255, setup := true } m false (fun t =>
    match ringResolve t m.qp r.home with
    | none => deny m .handleStale t
    | some i =>
      if (ctxAt t (sessAt t i).record.context).tornDown && r.opcode != 0x0107 then refuse m .contextTornDown t
      else
        let a := applyRing i m r t
        refuse m a.1 a.2) s)

/-- `RING_APPEND` (R460): one layer's row at the member that holds its position. Without a frame it stays in ingress (R24). -/
def execRingAppend (m : Msg) (r : RingAppend) (s : State) : Out :=
  .next (peerMessage { opcode := 0xF101, on := .peer, most := 255 } m (fun t =>
    match ringResolve t m.qp r.home with
    | none => t
    | some i =>
      let x := sessAt t i
      let p := x.entry.partition
      let h := sessShape t i
      if x.entry.state != .ready || h.layers ≤ r.layer || !holdsPos t p r.position then t
      else
        let lp := localPos t p r.position
        match appendRow i r.layer lp lp r.kv (modSess i (fun y => { y with record.length := r.position }) t) with
        | some u => u
        | none => { t with ingress := t.ingress ++ [m] }) s)

/-- The member number of the home that sends on a peer service queue pair. -/
def homeMember (s : State) (p qp : Nat) : Nat := peerNodeOf qp - ringNodeBaseVal s p

/-- Add a ring home's work to a member's session. -/
def addRingWork (i : Nat) (qp : Nat) (prefill : Bool) (r : RingQuery) (s : State) : State :=
  let p := (sessAt s i).entry.partition
  let w : RingWork := { home := homeMember s p qp, mergeTag := r.mergeTag, innings := r.innings, layer := r.layer, prefill,
                        first := r.first, positions := r.positions, query := r.query }
  modSess i (fun y => { y with ringWork := y.ringWork ++ [w] }) s

/-- Whether a `RING_APPEND` of a session that came on a queue pair still waits for a frame (R130, R460). -/
def ringAppendWaits (s : State) (qp : Nat) (home : Word) : Bool :=
  s.ingress.any (fun m => m.opcode == 0xF101 && m.qp == qp && m.handle == home)

/-- `RING_QUERY` (R460): the member attends its segments for the home's query, once it has applied the append that came before it (R26). -/
def execRingQuery (m : Msg) (r : RingQuery) (s : State) : Out :=
  .next (peerMessage { opcode := 0xF102, on := .peer, most := 255 } m (fun t =>
    match ringResolve t m.qp r.home with
    | none => t
    | some i =>
      if ringAppendWaits t m.qp r.home then holdMsg m t
      else if (sessAt t i).entry.state != .ready || (sessShape t i).layers ≤ r.layer then t else addRingWork i m.qp false r t) s)

/-- `RING_QBLOCK` (R461, R189): the member's query positions of a block, and its own key blocks start round. -/
def execRingQblock (m : Msg) (r : RingQuery) (s : State) : Out :=
  .next (peerMessage { opcode := 0xF105, on := .peer, most := 255 } m (fun t =>
    match ringResolve t m.qp r.home with
    | none => t
    | some i =>
      if (sessAt t i).entry.state != .ready || (sessShape t i).layers ≤ r.layer then t
      else
        let t := modSess i (fun y => { y with record.length := r.length, passNext := some r.next }) t
        let t := if r.positions.isEmpty then t else addRingWork i m.qp true r t
        startPass i r.layer t) s)

/-- `RING_OUTPUT` (R461): a member's rows for the home's block. -/
def execRingOutput (m : Msg) (r : RingOutput) (s : State) : Out :=
  .next (peerMessage { opcode := 0xF106, on := .peer, most := 255 } m (fun t =>
    match lookupEntry t r.home with
    | .bad _ => t
    | .at_ i =>
      match (sessAt t i).qblock with
      | some b => if b.layer == r.layer && b.phase == .merging then touchJobs (addRows i r.rows t) else t
      | none => t) s)

/-- A ring home's `ADMIT` or `FORK` that is refused after all (R79, R457): the members that joined are told to cancel, and the entry is free
again. -/
def undoJoin (i : Nat) (w : RingWait) (s : State) : State :=
  let x := sessAt s i
  let h := x.record.handle
  let joined := (w.got.filter (fun e => e.2 == 0)).map (fun e => (e.1, ringNodeBaseVal s x.entry.partition + e.1))
  let s := joined.foldl (fun t k => askPeer k.2 (ringQp k.2) h .none (.ringCmd { home := h, opcode := 0x0107 }) t) s
  let s := if w.refusal.isNone then leaveParent i s else s
  freeEntry i (releaseSegments i (releaseMap i (releasePages i s)))

/-- Record a member's answer to a ring home's command; when all have answered, the home answers its host with the first status other than
`OK` in member order (R457, R458). -/
def ringAnswered (i member : Nat) (code : BitVec 16) (handle : Word) (s : State) : State :=
  match s.ringWaits.find? (fun w => w.index == i && w.left.contains member) with
  | none => s
  | some w =>
    let w' := { w with got := w.got ++ [(member, code)], left := w.left.erase member }
    let rest := s.ringWaits.erase w
    let joins := w.opcode == 0x0101 || w.opcode == 0x0106
    let s := if joins && code == 0 then modSess i (fun y => { y with ringPeers := Tab.put y.ringPeers member (handleIndex handle) }) s else s
    if !w'.left.isEmpty then { s with ringWaits := s.ringWaits.map (fun v => if v == w then w' else v) }
    else
      let s := { s with ringWaits := rest }
      let bad := (sortBy (fun a b => a.1 < b.1) w'.got).find? (fun e => e.2 != 0)
      let m : Msg := { qp := w.qp, opcode := w.opcode, tag := w.tag, handle := w.answer }
      if joins then
        let no : Option (BitVec 16) := match bad with | some _ => some Status.admitRefused.code | none => w.refusal
        match no with
        | none => respond m {} (bump ctrAdmits s)
        | some c => respond { m with handle := (sessAt s i).record.parent } { code := some c } (undoJoin i w' s)
      else respond m { code := bad.map Prod.snd } s

end Sys2Proof.Machine
end

