-- ==== Sys2Proof/Machine/Mirrors.lean ====
section
/-!
DEFINITION. The doubles pair: shadows, the mirror stream's receiver, acknowledgements, beats, takeover and detaching (R466 to R477).
-/
namespace Sys2Proof.Machine

/-- Whether a message comes from the partner of a doubles pair. -/
def fromPartner (s : State) (m : Msg) : Bool := doublesEnableVal s == 1 && peerNodeOf m.qp == partnerNodeVal s

/-- The image tag of a token slot, if it is loaded. -/
def slotTag (s : State) (k : LoadKind) (n : Nat) : Option Word :=
  match k with
  | .vocab => (Tab.find s.vocabs n).map (·.tag)
  | .grammar => (Tab.find s.grammars n).map (·.tag)
  | .list => (Tab.find s.lists n).map (·.tag)

/-- Whether this module holds a session's model slot and token slots with equal tags (R463, R472). -/
def tagsMatch (s : State) (slot : Nat) (tag : Word) (images : List (LoadKind × Nat × Word)) : Bool :=
  let md := Tab.get s.models slot {}
  md.layers != 0 && md.tag == tag && images.all (fun t => slotTag s t.1 t.2.1 == some t.2.2)

/-- The frames of a shadow or of a session that this module gives up are freed; its homes in the pool are kept (R471, R475). -/
def releaseShadow (i : Nat) (s : State) : State := releaseMap i (releasePages i s)

/-- Discard a shadow (R475). -/
def discardShadow (i : Nat) (s : State) : State := bump ctrShadowsDiscarded (freeEntry i (releaseShadow i s))

/-- Discard every shadow that `p` names. -/
def discardShadows (p : Session → Bool) (s : State) : State :=
  (Tab.keysWhere s.sessions (fun x => x.shadow.isSome && p x)).foldl (fun t i => discardShadow i t) s

/-- Give a shadow its root and the frames of its leaves where its map lies in HBM (R469, R125). -/
def shadowMap (i : Nat) (s : State) : Option State :=
  let x := sessAt s i
  if x.root.isSome then some s
  else
    let h := sessShape s i
    (Tab.keys x.leaves).foldl (fun t r => t.bind (fun t =>
      let k := r % h.lambda
      let lh := r / h.lambda
      (allocMapFrame i (leafStart t x.entry.partition i h (lh / h.heads) (lh % h.heads) k) t).map (fun fs =>
        modSess i (fun y => { y with leaves := Tab.put y.leaves r fs.1 }) fs.2))) (allocRoot i s)

/-- Apply `MIRROR_UPDATE` to a shadow (R469): its Atlas entry and record, but for what names this module's own frames. Parked, it releases its
frames and keeps the pool slots that the primary's page map names (R471). A tombstone's hold starts again at each update (log entry 58). -/
def shadowUpdate (i : Nat) (e : Entry) (r : Record) (s : State) : Option State :=
  let x := sessAt s i
  let sh : Shadow := { copied := e.mirrored || (match x.shadow with | some v => v.copied | none => false) }
  let x := if x.shadow.isSome then x else {}
  let s := setSess i { x with
    entry := e, shadow := some sh, tombAt := now s
    record := { r with mapTier := x.record.mapTier, mapAddr := x.record.mapAddr, residentPages := x.record.residentPages,
                       totalPages := x.record.totalPages } } { s with freed := s.freed.erase i }
  match e.state with
  | .free => some (freeEntry i (releaseShadow i s))
  | .tombstone => some (releaseShadow i s)
  | .parked =>
    let s := (match x.root with | some f => f :: Tab.vals x.leaves | none => []).foldl (fun t f => freeFrame f t) s
    some (modSess i (fun y => { y with
      root := none, leaves := Tab.mapVals y.leaves (fun _ => 0)
      record.mapTier := r.mapTier, record.mapAddr := r.mapAddr
      mapHome := (List.range' (r.mapAddr / 65536) (1 + y.leaves.length)).map (fun k => (r.mapTier, k)) }) s)
  | _ => if r.mapTier = 0 then shadowMap i (modSess i (fun y => { y with mapHome := [] }) s) else some s

/-- Apply one entry of `MIRROR_MAP` (R469, R471). A page that comes back from the pool is FILLING until its
rows have come. -/
def shadowPage (i k : Nat) (e : PageEntry) (s : State) : Option State :=
  let o := pageAt (sessAt s i) k
  let h := sessShape s i
  if e.tier = 0 then
    if o.tier = 0 then
      some (putPage i k (if filling s o && !e.homeValid then o else { e with frame := o.frame }) s)
    else
      (allocPage i h (keyLayer h k) (keyHead h k) (keyPage h k) (if e.homeValid then .filling else .kv) s).map (fun t =>
        putPage i k { e with frame := (pageAt (sessAt t i) k).frame } t)
  else
    let s := if o.tier = 0 then dropRef o.frame s else s
    (if e.tier = 3 then some s else ensureLeafShadow i h k s).map (putPage i k (if e.tier = 3 then {} else { e with frame := 0 }))
where
  /-- A leaf of a shadow whose map is away needs no frame. -/
  ensureLeafShadow (i : Nat) (h : Shape) (k : Nat) (s : State) : Option State :=
    let x := sessAt s i
    if (Tab.find x.leaves (k / 8192)).isSome then some s
    else if x.root.isNone then some (modSess i (fun y => { y with leaves := Tab.put y.leaves (k / 8192) 0 }) s)
    else ensureLeaf i h (keyLayer h k) (keyHead h k) (keyPage h k / 8192) s

/-- Write mirrored rows into a shadow's page (R138, R469). -/
def shadowRows (i k : Nat) (rows : List (Nat × List Byte)) (whole : Bool) (s : State) : State :=
  let h := sessShape s i
  let f := (pageAt (sessAt s i) k).frame
  let s := rows.foldl (fun t r => foldRange h.slices (fun t sl =>
    writeBytes (frameBase f + rowOffset h r.1 sl) (slice r.2 (256 * sl) 256) t) t) s
  if whole then putPage i k (pageAt (sessAt s i) k) (turnFrame f .kv { s with fills := Tab.drop s.fills f }) else s

/-- Apply a mirror item to a shadow; none where the partner lacks a frame (log entry 38). -/
def applyItem (i : Nat) (b : MirrorBody) (s : State) : Option State :=
  let x := sessAt s i
  match b with
  | .update e r _ _ _ => shadowUpdate i e r s
  | .map l => if x.shadow.isNone then some s else l.foldl (fun t c => t.bind (shadowPage i c.1 c.2)) (some s)
  | .append layer p kv => if x.shadow.isNone then some s else appendRow i layer p p kv s
  | .rows k e rows whole => if x.shadow.isNone then some s else (shadowPage i k e s).map (shadowRows i k rows whole)
  | .stepEnd q n g c l =>
    if x.shadow.isNone then some s
    else some (modSess i (fun y => { y with record := { y.record with
      stepSeq := q, length := n, grammar := g, tokenCarry := c, seqLists := l } }) s)
  | .page k e data =>
    if x.shadow.isNone then some s
    else (shadowPage i k e s).map (fun t =>
      let f := (pageAt (sessAt t i) k).frame
      let t := writeBytes (frameBase f) (slice data 0 65536) (turnFrame f .kv { t with fills := Tab.drop t.fills f })
      putPage i k { e with frame := f } t)

/-- Whether the partner may hold a session as its shadow (R466, R468, R472, R575). -/
def shadowFits (s : State) (i : Nat) (b : MirrorBody) : Bool :=
  match b with
  | .update e r tag images key =>
    let c := ctxAt s r.context
    (e.state == .free || e.state == .tombstone ||
      (tagsMatch s r.modelSlot tag images && keyMatches s r.context key && c.mode != .none && c.partition == e.partition)) &&
    ((sessAt s i).shadow.isSome || ((sessAt s i).entry.state == .free && !(sessAt s i).withheld))
  | _ => true

/-- Apply a mirror item and acknowledge it (R469, R472, R477). What cannot be mirrored is refused and its shadow discarded. -/
def mirrorIn (op : BitVec 16) (m : Msg) (it : MirrorItem) (s : State) : State :=
  peerMessage { opcode := op, on := .peer, most := 255 } m (fun t =>
    if !fromPartner t m || t.pair.state == .detached then t
    else if t.pair.state == .takenOver then bump ctrMirrorLateItems t
    else
      let ack (r : Option Nat) (u : State) : State :=
        sendPeer (peerNodeOf m.qp) m.qp 0 m.handle none (.mirrorAck it.seq r)
          { u with pair.applied := max u.pair.applied it.seq, pair.heardAt := now u }
      let no (u : State) : State :=
        ack (some it.index) (if (sessAt u it.index).shadow.isSome then freeEntry it.index (releaseShadow it.index u) else u)
      if !shadowFits t it.index it.body then no t
      else match applyItem it.index it.body t with
        | some u => ack none u
        | none => no t) s

/-- `MIRROR_UPDATE` (R469). -/
def execMirrorUpdate (m : Msg) (it : MirrorItem) (s : State) : Out := .next (mirrorIn 0xF110 m it s)

/-- `MIRROR_MAP` (R469). -/
def execMirrorMap (m : Msg) (it : MirrorItem) (s : State) : Out := .next (mirrorIn 0xF111 m it s)

/-- `MIRROR_APPEND` (R469). -/
def execMirrorAppend (m : Msg) (it : MirrorItem) (s : State) : Out := .next (mirrorIn 0xF112 m it s)

/-- `MIRROR_STEP_END` (R469). -/
def execMirrorStepEnd (m : Msg) (it : MirrorItem) (s : State) : Out := .next (mirrorIn 0xF113 m it s)

/-- `MIRROR_PAGE` (R472). -/
def execMirrorPage (m : Msg) (it : MirrorItem) (s : State) : Out := .next (mirrorIn 0xF114 m it s)

/-- Send the held messages that need wait no longer, in order (R470). -/
def releaseHeld (all : Bool) (s : State) : State :=
  let go := s.held.filter (fun h => all || h.1 ≤ s.pair.acked)
  go.foldl (fun t h => sendMsg h.2 t) { s with held := s.held.filter (fun h => !(all || h.1 ≤ s.pair.acked)) }

/-- Set `MIRRORED` on the sessions whose initial copy has been acknowledged whole (R472); with none left the pair is PAIRED. -/
def settlePair (was : List Nat) (s : State) : State :=
  let done := was.filter (fun i => !s.pair.sync.any (fun e => e.1 == i))
  let s := done.foldl (fun t i =>
    if mirrors t i then mirrorUpdate i (modSess i (fun y => { y with entry.mirrored := true }) t) else t) s
  if s.pair.state == .syncing && s.pair.sync.isEmpty then { s with pair.state := .paired } else s

/-- The partner refuses a session (R472). -/
def mirrorRefused (i : Nat) (s : State) : State :=
  if (sessAt s i).mirrorRefused || (sessAt s i).entry.state == .free then s
  else bump ctrMirrorRefusals (modSess i (fun y => { y with mirrorRefused := true, entry.mirrored := false })
    { s with pair.sync := s.pair.sync.filter (fun e => e.1 != i) })

/-- `MIRROR_ACK` (R470, R472, R473): in STALLED everything that waits stays held. -/
def execMirrorAck (m : Msg) (s : State) : Out :=
  .next (peerMessage { opcode := 0xF115, on := .peer, need := 2, most := 2 } m (fun t =>
    if !fromPartner t m || !(t.pair.state == .syncing || t.pair.state == .paired) then t
    else
      let n := max t.pair.acked (opNat m 0)
      let was := distinct (t.pair.sync.map (fun e => e.1))
      let t := { t with pair := { t.pair with
        acked := n, heardAt := now t, items := t.pair.items.filter (fun e => n < e.1), sync := t.pair.sync.filter (fun e => n < e.2.1) } }
      let t := if opWord m 1 = allOnes then t else mirrorRefused (opNat m 1) t
      releaseHeld false (settlePair was t)) s)

/-- The pair begins to synchronise when the partner is first heard (log entry 38): every own session of a mirrored partition is copied (R472). -/
def startPair (s : State) : State :=
  let s := { s with pair.state := .syncing, pair.heardAt := now s }
  settlePair [] ((Tab.keysWhere s.sessions (fun x => x.shadow.isNone)).foldl (fun t i => if mirrors t i then syncSession i t else t) s)

/-- `PAIR_BEAT` (R473). -/
def execPairBeat (m : Msg) (s : State) : Out :=
  .next (peerMessage { opcode := 0xF116, on := .peer } m (fun t =>
    if !fromPartner t m then t
    else if t.pair.state == .none then startPair t
    else { t with pair.heardAt := now t }) s)

/-- `PAIR_BEAT_SEND` (R473). -/
def execPairBeatSend (s : State) : Out :=
  .next (engine s (if doublesEnableVal s == 1 && s.pair.sentAt + pairBeatUsVal s * 1000 ≤ now s then
      let node := partnerNodeVal s
      sendPeer node (ringQp node) 0 0 none .pairBeat { s with pair.sentAt := now s }
    else s))

/-- Enter STALLED (R473). -/
def stall (s : State) : State := alert .pairStalled { s with pair.state := .stalled }

/-- Whether the pair mirrors and has not stalled. -/
def pairLive (s : State) : Bool := s.pair.state == .syncing || s.pair.state == .paired

/-- `PAIR_DEADLINE` (R473). -/
def execPairDeadline (s : State) : Out :=
  .next (engine s (if pairLive s && s.pair.lostAt.isNone && s.pair.heardAt + pairDeadlineMsVal s * 1000000 ≤ now s then stall s else s))

/-- Give a session the stack segments that its W12 names, as far as the store has them; the manual does not say that their entries travel
to another module, so they are free values (log entry 45). -/
def drawStack (i : Nat) (s : State) : State :=
  let x := sessAt s i
  let d := gDepth x.record.grammar
  let put (a : Nat × State) (j : Nat) : Nat × State :=
    match freeSegment a.2 with
    | none => a
    | some k =>
      let l := foldRange (min 30 (d - 30 * j)) (fun (b : List Nat × State) _ =>
        let (w, t) := draw b.2
        (b.1 ++ [bits w 15 0], t)) ([], a.2)
      (k, { l.2 with segments := Tab.put l.2.segments k { owner := i, entries := l.1, below := a.1 } })
  let (top, s) := (List.range (ceilDiv d 30)).foldl put (0, s)
  let s := if d = 0 then s else modSess i (fun y => { y with record.grammar := setBits y.record.grammar 28 9 top }) s
  if !gReserved x.record.grammar then s
  else match freeSegment s with
    | some k => modSess i (fun y => { y with reservedSeg := some k }) { s with segments := Tab.put s.segments k { owner := i } }
    | none => modSess i (fun y => { y with record.grammar := setFlag y.record.grammar 8 false }) s

/-- Discard the rows at a shadow's `LENGTH` that a step had appended (R476, R131). -/
def discardRows (i : Nat) (s : State) : State :=
  let x := sessAt s i
  let h := sessShape s i
  let p := localPos s x.entry.partition x.record.length
  (x.pages.filter (fun e => e.2.tier == 0 && keyPage h e.1 == p / h.run)).foldl (fun t e =>
    if p % h.run = 0 then dropRef e.2.frame (putPage i e.1 { dirty := e.2.dirty } t) else zeroRow h e.2.frame p t) s

/-- A shadow's pages that have not come from the pool are fetched as a revival fetches them. -/
def reviveShadow (i : Nat) (s : State) : State :=
  let x := sessAt s i
  let ks := Tab.keysWhere x.pages (filling s)
  if ks.isEmpty then modSess i (fun y => { y with entry.reviving := false }) s
  else modSess i (fun y => { y with
    entry.reviving := true
    revive := some { length := y.record.length, order := s.reviveTurn, turn := 0, tier := 2, mapSlots := [], rootLeft := 0,
                     slots := ks.map (fun k => (k, ((pageAt x k).homeTier + 1, (pageAt x k).homeSlot)))
                     leafLeft := [], todo := ks.map (fun k => (2, k)) } }) { s with reviveTurn := s.reviveTurn + 1 }

/-- Restart an adopted session's timer from `TIMER_NS` (R91, R476). -/
def adoptTimer (i : Nat) (s : State) : State := modSess i (fun y => { y with timerOn := y.record.timerNs != 0 }) s

/-- `FAILOVER` of one shadow (R72, R476). -/
def failover (i : Nat) (s : State) : State :=
  let x := sessAt s i
  let homes := (x.pages.filter (fun e => e.2.homeValid && e.2.homeTier == 1)).map (fun e => e.2.homeSlot) ++
    (x.mapHome.filter (fun e => e.1 == 2)).map Prod.snd
  let s := { s with poolSlots := s.poolSlots ++ homes.filter (fun k => !s.poolSlots.contains k) }
  let s := modSess i (fun y => { y with shadow := none, entry.mirrored := false }) s
  if x.entry.state == .faulted || x.entry.state == .tombstone then s
  else
    let s := drawStack i (reviveShadow i (raiseInnings i (modSess i (fun y => { y with record.flags := y.record.flags ||| 4 }) s)))
    match x.entry.state with
    | .active =>
      let s := discardRows i s
      bump ctrStepRestarts (modSess i (fun y => { y with
        entry := { y.entry with state := .ready, cancelPending := false, waitPending := false }
        record.flags := y.record.flags ||| 8, ended := some .stepRestart }) s)
    | .moving =>
      if x.record.returnState == .waiting then enterWaiting i none s
      else if x.record.returnState == .parked then startTtl i (modSess i (fun y => { y with entry.state := .parked }) s)
      else modSess i (fun y => { y with entry.state := .ready }) s
    | _ => adoptTimer i s

/-- Take over the partner's sessions (R476). -/
def takeOver (s : State) : State :=
  let n := partnerNodeVal s
  let s := { s with pair := { s.pair with state := .takenOver, adopted := some n, items := [], sync := [] } }
  let s := discardShadows (fun x => match x.shadow with | some v => !v.copied | none => false) s
  let s := (Tab.keysWhere s.sessions (fun x => x.shadow.isSome)).foldl (fun t i => failover i t) s
  let s := notify 0 0xF008 0 0 .ok 0 [word 4, word n] [] s
  releaseHeld true (alert .takeover (bump ctrFailovers s))

/-- The module's partner has reported `MODULE_FATAL` (R474). -/
def partnerFatal (s : State) : State := if doublesEnableVal s == 1 && (pairLive s) then takeOver s else s

/-- `PARTNER_SIGNAL_LOSS` (R473, R474). -/
def execPartnerSignalLoss (s : State) : Out :=
  .next (engine s (match s.pair.lostAt with
    | none => s
    | some t =>
      if doublesEnableVal s != 1 || !pairLive s || now s < t + pairDeadlineMsVal s * 1000000 then s
      else if failoverModeVal s = 0 then takeOver s
      else stall s))

/-- `PAIR_TAKEOVER` (R474, R476). -/
def execPairTakeover (m : Msg) (s : State) : Out :=
  .next (request { opcode := 0x0701, on := .fm } m false (fun t =>
    if doublesEnableVal t != 1 then refuse m .pairNotConfigured t
    else if t.pair.state == .takenOver || t.pair.state == .detached then refuse m .pairStateInvalid t
    else refuse m .ok (takeOver t)) s)

/-- `PAIR_DETACH` (R475): what waited for the partner waits no longer (R473). -/
def execPairDetach (m : Msg) (s : State) : Out :=
  .next (request { opcode := 0x0702, on := .fm } m false (fun t =>
    if doublesEnableVal t != 1 then refuse m .pairNotConfigured t
    else if t.pair.state == .takenOver then refuse m .pairStateInvalid t
    else
      let t := discardShadows (fun _ => true) t
      let t := { t with
        sessions := Tab.mapVals t.sessions (fun y => { y with entry.mirrored := false })
        pair := { t.pair with state := .detached, items := [], sync := [] } }
      refuse m .ok (releaseHeld true t)) s)

end Sys2Proof.Machine
end

