-- ==== Sys2Proof/Machine/Migrations.lean ====
section
/-!
DEFINITION. Migrations at their destination, and the answers to the module's own requests (R427, R463 to R465).
-/
namespace Sys2Proof.Machine

/-- What a destination judges before admission (R463, R348, R575), and whether it is a mismatch of tags (R464). -/
def migrateCheck (s : State) (o : MigrateOpen) : Status × Bool :=
  let c := o.record.context
  let x := ctxAt s c
  let p := o.partition
  if x.mode == .none then (.contextUnknown, false)
  else if x.mode == .pending then (.contextNoKey, false)
  else if x.tornDown then (.contextTornDown, false)
  else if !keyMatches s c o.key then (.migrateFailed, true)
  else if p ≠ x.partition then (.partitionMismatch, false)
  else if (partFielders s p).isEmpty then (.partitionEmpty, false)
  else if !tagsMatch s o.record.modelSlot o.modelTag o.imageTags then (.migrateFailed, true)
  else if maxSessionsVal s p ≤ nonFree s p then (.atlasQuota, false)
  else if (allocIndex s).isNone then (.atlasFull, false)
  else if o.pages.any (fun e => !poolAllows s c e.2.homeSlot false) then (.poolDenied, false)
  else (.ok, false)

/-- The keys of every page that holds positions below a session's `LENGTH` at this module. -/
def lengthKeys (s : State) (i : Nat) : List Nat :=
  let x := sessAt s i
  let h := sessShape s i
  let n := ceilDiv (localPos s x.entry.partition x.record.length) h.run
  ((List.range h.layers).map (fun l => ((List.range h.heads).map (fun hd => (List.range n).map (fun k => pageKey h l hd k))).flatten)).flatten

/-- The entry, root and pool pages of a session that migrates here. -/
def openEntry (i node : Nat) (o : MigrateOpen) (s : State) : Option State :=
  let r : Record := { o.record with mapTier := 0, mapAddr := 0, parent := 0, childCount := 0, residentPages := 0, totalPages := 0,
                                    returnState := o.record.returnState, lease := 0 }
  let d : DestMove := { node, back := o.record.returnState, innings := o.record.innings,
                        remaining := if o.record.timerNs = 0 then none else some o.record.timerNs }
  let s := modSess i (fun y => { y with move := some (.dest d), record.timerNs := 0 }) (occupy i o.partition .moving r s)
  let h := sessShape s i
  o.pages.foldl (fun t e => t.bind (fun t =>
    (ensureLeaf i h (keyLayer h e.1) (keyHead h e.1) (keyPage h e.1 / 8192) t).map (fun t =>
      putPage i e.1 { e.2 with tier := 2, frame := 0 } { t with poolSlots := t.poolSlots ++ [e.2.homeSlot] }))) (allocRoot i s)

/-- A trial of the frames that a migrating session will take here (R254): every page of its `LENGTH` but those that stay in the pool. -/
def trialFrames (i : Nat) (s : State) : Option State :=
  let h := sessShape s i
  (lengthKeys s i).foldl (fun t k => t.bind (fun t =>
    if (pageAt (sessAt t i) k).tier = 3 then allocPage i h (keyLayer h k) (keyHead h k) (keyPage h k) .kv t else some t)) (some s)

/-- `MIGRATE_OPEN` (R463 step 1, R464). -/
def execMigrateOpen (m : Msg) (o : MigrateOpen) (s : State) : Out :=
  .next (request { opcode := 0x0730, on := .peer, most := 255, setup := true } m (63 < o.partition) (fun t =>
    match migrateCheck t o, allocIndex t with
    | (.ok, _), some i =>
      let node := peerNodeOf m.qp
      match admission o.partition o.record.cls (stepBytes (Tab.get t.models o.record.modelSlot {}) o.record.length)
          (fun u => (openEntry i node o u).bind (trialFrames i)) t, openEntry i node o t with
      | (some _, _), some u => respond m { handle := some (sessAt u i).record.handle } u
      | (_, t), _ => refuse m .admitRefused t
    | (st, tags), _ => refuse m st (if tags then bump ctrMigrateTagMismatches t else t)) s)

/-- The migration's destination here that a handle names, or the status of a handle that names none: the lookup's (R25, R62, R66), else
`MIGRATE_UNRESOLVED` (log entry 58). -/
def destOf (s : State) (h : Word) : Status × Option (Nat × DestMove) :=
  match lookupEntry s h with
  | .at_ i => match (sessAt s i).entry.state, (sessAt s i).move with
    | .moving, some (.dest d) => (.ok, some (i, d))
    | _, _ => (.migrateUnresolved, none)
  | .bad st => (st, none)

/-- The destination enters the captured state (R463 step 4, R100). -/
def commitDest (i : Nat) (d : DestMove) (s : State) : State :=
  let x := sessAt s i
  let s := drawStack i (modSess i (fun y => { y with
    entry := { y.entry with state := d.back, reviving := false }
    record.innings := (d.innings + 1) % 2 ^ 32, inningsAt := some (now s)
    parkedAt := now s
    record.reason := if d.back == .parked then y.record.reason else .none
    move := none }) s)
  let s := match d.back with
    | .waiting => (match d.remaining with
      | some n => startTimer i (some (now s + n)) s
      | none => stopTimer i s)
    | .parked => startTimer i (d.remaining.map (· + now s)) s
    | _ => stopTimer i s
  settle (syncSession i (bump ctrMigrationsIn (modSess i (fun y => { y with record.returnState := x.record.returnState }) s)))

/-- The destination gives up its entry and frames (R464). Slots whose homes the source still holds are not freed. -/
def abortDest (i : Nat) (s : State) : State :=
  let x := sessAt s i
  let homes := (x.pages.filter (fun e => e.2.homeValid && e.2.homeTier == 1)).map (fun e => e.2.homeSlot)
  settle (freeEntry i (releaseMap i (releasePages i { s with poolSlots := s.poolSlots.filter (fun k => !homes.contains k) })))

/-- `MIGRATE_COMMIT` (R463 step 4). -/
def execMigrateCommit (m : Msg) (s : State) : Out :=
  .next (request { opcode := 0x0731, on := .peer, most := 255, setup := true } m false (fun t =>
    match destOf t m.handle with
    | (_, some (i, d)) => refuse m .ok (commitDest i d t)
    | (st, none) => deny m st t) s)

/-- `MIGRATE_ABORT` (R464). -/
def execMigrateAbort (m : Msg) (s : State) : Out :=
  .next (request { opcode := 0x0732, on := .peer, most := 255, setup := true } m false (fun t =>
    match destOf t m.handle with
    | (_, some (i, _)) => refuse m .ok (abortDest i t)
    | (st, none) => deny m st t) s)

/-- `MIGRATE_RESOLVE` (R465): 0 abort or 1 commit. -/
def execMigrateResolve (m : Msg) (s : State) : Out :=
  .next (request { opcode := 0x0703, on := .mailbox, need := 1, most := 1 } m (1 < opNat m 0) (fun t =>
    match destOf t m.handle with
    | (_, some (i, d)) => refuse m .ok (if opNat m 0 = 1 then commitDest i d t else abortDest i t)
    | (st, none) => deny m st t) s)

/-- A migration's queue pair has entered ERROR (R464, R465): sources fail, a destination that has every page is held. -/
def migrateQpLost (n : Nat) (s : State) : State :=
  let node := peerNodeOf n
  let s := (Tab.keysWhere s.sessions (fun x => match x.move with | some (.source q) => q.node == node | _ => false)).foldl (fun t i =>
    modSource i (fun q => { q with failed := true }) t) s
  let whole (t : State) (i : Nat) : Bool :=
    let got := match (sessAt t i).move with | some (.dest d) => d.got | _ => []
    (lengthKeys t i).all (fun k => (pageAt (sessAt t i) k).tier == 2 || Tab.get got k 0 + 1 == 2 ^ (sessShape t i).used)
  (Tab.keysWhere s.sessions (fun x => match x.move with | some (.dest d) => d.node == node | _ => false)).foldl (fun t i =>
    if whole t i then
      alert .migrateHeld (modSess i (fun y => match y.move with
        | some (.dest d) => { y with move := some (.dest { d with held := true }) }
        | _ => y) t)
    else t) s

/-- What a migration's source sends, in the order of R260: pages in HBM and in tier 1 (R463 step 2). -/
def sourcePlan (s : State) (i : Nat) : List Nat :=
  Tab.keysWhere (sessAt s i).pages (fun e => e.tier != 3)

/-- The answer to a request of the module's own has come (R427): `code` is its status. -/
def answered (c : WaitFor) (m : Msg) (s : State) : State :=
  match c with
  | .ring i k => ringAnswered i k m.status m.handle s
  | .migrateOpen i =>
    if m.status == 0 then
      pumpMigrate i ((sessAt s i).pages.length + 1)
        (modSource i (fun q => { q with opened := true, newHandle := m.handle, todo := sourcePlan s i }) s)
    else modSource i (fun q => { q with failed := true }) s
  | .migrateCommit i qp tag new =>
    notify qp 0xF007 tag (sessAt s i).record.handle .ok 0 [new] [] s
  | .none => s

/-- A message that answers a request of the module's own arrives: one that no wait expects is discarded (R56, R427). A partner that answers
`MODULE_FATAL` has halted (R474). -/
def responseCame (m : Msg) (s : State) : State :=
  let s := if m.status == Status.moduleFatal.code && fromPartner s m then partnerFatal s else s
  match s.waits.find? (fun e => e.2.qp == m.qp && e.2.tag == m.tag) with
  | none => bump ctrLateDiscards s
  | some (n, w) => answered w.consumer m { s with waits := Tab.drop s.waits n }

/-- `RESPONSE_TIMEOUT` (R427). -/
def execResponseTimeout (n : Nat) (s : State) : Out :=
  .next (engine s (match Tab.find s.waits n with
    | none => s
    | some w =>
      answered w.consumer { qp := w.qp, opcode := 0, status := Status.responseTimeout.code, tag := w.tag }
        (bump ctrResponseTimeouts { s with waits := Tab.drop s.waits n })))

end Sys2Proof.Machine
end

