-- ==== Sys2Proof/Machine/Qps.lean ====
section
/-!
DEFINITION. Queue pair commands (R409, R416 to R418, R565 to R567).
-/
namespace Sys2Proof.Machine

/-- A queue pair enters ERROR, with what follows for rings and migrations (R418, R462, R465). -/
def qpError (n : Nat) (st : Status) (s : State) : State :=
  let s := qpToError n st s
  if 257 ≤ n && n ≤ 320 then ringLost s
  else if 321 ≤ n && n ≤ 384 then migrateQpLost n s
  else s

/-- The code of a queue pair's state. -/
def qpStateCode : QpState → Nat
  | .reset => 0 | .ready => 1 | .error => 2

/-- The words Q0 to Q3 of a queue pair's context (R416, R417). -/
def qpWords (s : State) (n : Nat) : List Word :=
  let q := qpAt s n
  if (385 ≤ n && n < 512) || (512 ≤ n && !q.created) then List.replicate 4 0
  else
    [word (at' (qpStateCode q.state) 62 2 + at' q.kind 59 3 + flagAt q.bound 58 + at' q.context 46 12 + at' (qpClass s n) 43 3 +
       at' ((qpPort s n).getD 0) 40 3 + flagAt q.enc 39 + at' q.peerNode 31 8 + at' q.peerQp 15 16),
     word (at' q.sndNxt 40 24 + at' q.sndUna 16 24 + at' q.windowM1 3 13),
     word (at' q.rcvNxt 40 24 + at' q.rtoUs 24 16 + at' q.retries 20 4),
     word (at' q.errorStatus.toNat 48 16)]

/-- Whether an operand names a general queue pair that `QP_CREATE` made. -/
def madeQp (s : State) (n : Nat) : Bool := 512 ≤ n && n ≤ 65535 && (qpAt s n).created

/-- `QP_CREATE` (R417, R566): context or none, port, traffic class, `ENC`; the answer's operand word is the number. -/
def execQpCreate (m : Msg) (s : State) : Out :=
  .next (request { opcode := 0x0601, on := .mailbox, need := 4, most := 4 } m (4 < opNat m 1 || 7 < opNat m 2 || 1 < opNat m 3) (fun t =>
    let bound := opWord m 0 ≠ allOnes
    let c := opNat m 0
    let conf := bound && (ctxAt t c).mode == .confidential
    let enc := opNat m 3 == 1
    if bound && contextHeld t c then holdMsg m t
    else if bound && (ctxAt t c).mode == .none then refuse m (noContext c) t
    else if conf && !enc then refuse m .confEncRequired t
    else if enc && !conf then refuse m .confNoKey t
    else match leastFrom (fun k => !(qpAt t k).created) 512 (t.qps.length + 1) with
      | some n =>
        if 65535 < n then refuse m .qpLimit t
        else
          respond m { ops := [word n] }
            (setQp n { created := true, bound, context := if bound then c else 0, port := opNat m 1, tclass := opNat m 2, enc } t)
      | none => refuse m .qpLimit t) s)

/-- A queue pair as it enters RESET: Q1 to Q3 clear (R417), its salts are forgotten (R567). -/
def resetQp (q : Qp) : Qp :=
  { state := .reset, kind := q.kind, bound := q.bound, context := q.context, tclass := q.tclass, port := q.port, enc := q.enc,
    peerNode := q.peerNode, peerQp := q.peerQp, created := q.created }

/-- A queue pair as it enters READY (R417). -/
def readyQp (q : Qp) (node peer snd rcv window rto : Nat) : Qp :=
  { resetQp q with
    state := .ready, peerNode := node, peerQp := peer, sndNxt := snd, sndUna := snd, rcvNxt := rcv, windowM1 := window - 1, rtoUs := rto,
    sndSalt := q.sndSalt, rcvSalt := q.rcvSalt, salted := q.salted }

/-- Whether the operands of a `QP_MODIFY` to READY hold values that their fields can hold (R416, R692). -/
def readyOperandsBad (m : Msg) : Bool :=
  opNat m 1 == 1 && (255 < opNat m 2 || 65535 < opNat m 3 || 2 ^ 24 ≤ opNat m 4 || 2 ^ 24 ≤ opNat m 5 || opNat m 6 < 1 || 4096 < opNat m 6 ||
    65535 < opNat m 7)

/-- `QP_MODIFY` (R409, R417, R418, R567). -/
def execQpModify (m : Msg) (s : State) : Out :=
  .next (request { opcode := 0x0602, on := .mailbox, need := 8, most := 8 } m (readyOperandsBad m) (fun t =>
    let n := opNat m 0
    let q := qpAt t n
    if !madeQp t n then refuse m .qpState t
    else match q.state, opNat m 1 with
      | .reset, 1 =>
        if !t.time.everValid then refuse m .timeNotValid t
        else if q.enc && !q.salted then refuse m .qpKeyMissing t
        else
          let rto := if opNat m 7 = 0 then rtoUsVal t else opNat m 7
          refuse m .ok (setQp n (readyQp q (opNat m 2) (opNat m 3) (opNat m 4) (opNat m 5) (opNat m 6) rto) t)
      | .ready, 0 => refuse m .ok (setQp n (resetQp q) t)
      | .error, 0 => refuse m .ok (setQp n (resetQp q) t)
      | .ready, 2 => refuse m .ok (settle (qpError n .qpErrorSet t))
      | _, _ => refuse m .qpState t) s)

/-- `QP_DESTROY` (R417). -/
def execQpDestroy (m : Msg) (s : State) : Out :=
  .next (request { opcode := 0x0603, on := .mailbox, need := 1, most := 1 } m false (fun t =>
    let n := opNat m 0
    if madeQp t n && (qpAt t n).state == .reset then refuse m .ok { t with qps := Tab.drop t.qps n } else refuse m .qpState t) s)

/-- `QP_QUERY` (R416, R417): the body of the answer is Q0 to Q3. -/
def execQpQuery (m : Msg) (s : State) : Out :=
  .next (request { opcode := 0x0604, on := .mailbox, need := 1, most := 1 } m (65535 < opNat m 0) (fun t =>
    respond m { body := wordsBytes (qpWords t (opNat m 0)) } t) s)

/-- `QP_KEY_SET` (R542, R567): queue pair, the far end's salt; `ARGS` of the answer is the module's fresh salt. -/
def execQpKeySet (m : Msg) (s : State) : Out :=
  .next (request { opcode := 0x0906, on := .mailbox, need := 2, most := 2 } m false (fun t =>
    let n := opNat m 0
    let q := qpAt t n
    if t.sec.state == .notReady then refuse m .securityNotReady t
    else if !(madeQp t n && q.state == .reset && q.enc) then refuse m .qpState t
    else
      let (w, t) := draw t
      respond m { args := w } (setQp n { q with rcvSalt := opWord m 1, sndSalt := w, salted := true } t)) s)

/-- `PEER_SALT` (R571): the far end's salt of a peer service queue pair. -/
def execPeerSalt (m : Msg) (s : State) : Out :=
  .next (peerMessage { opcode := 0xF117, on := .peer, need := 1, most := 1, freeze := false } m (fun t =>
    let q := { qpAt t m.qp with rcvSalt := opWord m 0, salted := true }
    flushQp m.qp q.backlog.length (setQp m.qp q t)) s)

/-- Bring a peer service queue pair to READY with a fresh salt, which it sends first (R455, R571; window and timeout log entry 11). -/
def readyPeer (n : Nat) (s : State) : State :=
  if (qpAt s n).state != .reset then s
  else
    let q := qpDefault s n
    let (w, s) := draw s
    let s := setQp n { q with state := .ready, windowM1 := 4095, rtoUs := rtoUsVal s, sndSalt := w } s
    sendPeer q.peerNode n 0 0 none (.salt w) s

/-- Peer service queue pairs become READY once time is valid and the topology is not NONE (R455). -/
def readyPeers (s : State) : State :=
  if s.time.everValid && peerTopologyVal s ≠ 0 then (List.range' 257 128).foldl (fun t n => readyPeer n t) s else s

end Sys2Proof.Machine
end

