-- ==== Sys2Proof/Machine/Packets.lean ====
section
/-!
DEFINITION. Packets received: integrity, lengths, meters, forwarding, the sequence rules, acknowledgements, messages from their segments
(R410 to R415, R419 to R430, R449 to R454, R499 to R502, R568 to R572).
-/
namespace Sys2Proof.Machine

/-- Bytes of the message header block that a packet carries. -/
def pktLead (p : Packet) : Nat := if pktType p = 0 && pktFirst p then 32 else 0

/-- The header's CRC is right (R410). -/
def hcrcOk (p : Packet) : Bool :=
  let b := wordsBytes [p.h0, p.h1, p.h2, p.h3]
  crc32c (b.take 24 ++ b.drop 28) == bits p.h3 31 0

/-- Framed data length of a packet in bytes after its header block (R479). -/
def dataLength (p : Packet) : Nat := pktLead p + 32 * ceilDiv (pktLen p + 16) 32

/-- Framed length (R479). -/
def framedLength (p : Packet) : Nat := 32 + dataLength p

/-- The length fits the type's buffer and the blocks framed (R413, R414). -/
def lengthOk (p : Packet) : Bool :=
  pktLen p ≤ 4096 && p.data.length == dataLength p &&
  match pktType p with
  | 0 => true
  | 5 => pktLen p ≤ 512 && pktLen p % 8 == 0
  | 2 => pktLen p == 0
  | _ => pktLen p == 4096

/-- The privilege of events of traffic on a queue pair (the event privilege table). -/
def qpPriv (s : State) (n : Nat) : Priv :=
  if 257 ≤ n && n ≤ 384 then .module
  else if 512 ≤ n && (qpAt s n).bound then .context (qpAt s n).context
  else .host

/-- Receive buffers of a class at a port (before R402). -/
def portBuffers (k : Nat) : Nat := if k = 0 then 128 else 32

/-- Refill one of a meter's or shaper's buckets at time `t` (R490): rate in Mb/s, size in bytes. -/
def refillBucket (b : Bucket) (t rate size : Nat) (fill : Bool) : Bucket :=
  if fill then { t := size, r := 0, last := t }
  else
    let x := (t - b.last) * rate + b.r
    let n := b.t + (x / 8000 : Nat)
    if n ≥ (size : Int) then { t := size, r := 0, last := t } else { t := n, r := x % 8000, last := t }

/-- Colours of a meter (R500). -/
inductive Colour where
  | green | yellow | red
  deriving DecidableEq, Repr

/-- Meter a packet (R499, R500): its colour and the meter afterwards. A PIR below the CIR counts as the CIR. -/
def meterJudge (s : State) (k c lf : Nat) : Colour × State :=
  let cir := meterCirMbpsVal s k c
  let pir := meterPirMbpsVal s k c
  if pir = 0 then (.green, s)
  else
    let p := portAt s k
    let m := Tab.get p.meters c {}
    let tc := refillBucket m.tc (now s) cir (meterCbsBytesVal s k c) m.refill
    let tp := refillBucket m.tp (now s) (max pir cir) (meterPbsBytesVal s k c) m.refill
    let put (a b : Bucket) : State := setPort k { p with meters := Tab.put p.meters c { tc := a, tp := b, refill := false } } s
    if tp.t < lf then (.red, put tc tp)
    else if tc.t < lf then (.yellow, put tc { tp with t := tp.t - lf })
    else (.green, put { tc with t := tc.t - lf } { tp with t := tp.t - lf })

/-- Judge a packet by its class's meter and count it (R500, R501): whether it is kept. -/
def meterKeep (k : Nat) (p : Packet) (s : State) : Bool × State :=
  if pktType p = 5 then (true, s)
  else
    let c := pktClass p
    match meterJudge s k c (framedLength p) with
    | (.green, s) => (true, bump (ctrGreenPkts k c) s)
    | (.red, s) => (false, bump (ctrRedPkts k c) s)
    | (.yellow, s) =>
      let s := bump (ctrYellowPkts k c) s
      if yellowActionVal s k c = 1 && portBuffers k - (creditAt (portAt s k) c).inUse < yellowFloorVal s k then
        (false, bump (ctrYellowDrops k) s)
      else (true, s)

/-- Count a packet's event, but for one that carries data of a CONFIDENTIAL session between modules (R571, R638). -/
def pktEvent (e : PmuEvent) (n : Nat) (enc : Bool) (s : State) : State := if 257 ≤ n && n ≤ 384 && enc then s else pmu e s

/-- A packet leaves by a port, past the class queues (R484) or at the scheduler's pick. -/
def sendOut (k n : Nat) (p : Packet) (s : State) : State :=
  pktEvent { code := 0x15, priv := qpPriv s n, requester := some (0x130 + k), tclass := some (pktClass p) } n (pktEnc p)
    (bump (ctrPacketsTx k) (emit (.packet k p) s))

/-- The bitmap of held PSNs (R421): bit `i` stands for `RCV_NXT` + 1 + `i`; a multiple of 8 bytes. -/
def heldBitmap (q : Qp) : List Byte :=
  let base := q.rcvNxt + 2 ^ 24 * q.rcvWraps
  let is := (Tab.keys q.stored).map (fun e => e - base - 1)
  match is.getLast? with
  | none => []
  | some top => leBytes (8 * (top / 64 + 1)) ((is.map (fun i => 2 ^ i)).sum)

/-- The additional data and key of an encrypted ACK (R570): header bytes 0 to 27, then the bitmap. -/
def ackAad (p : Packet) (bitmap : List Byte) : List Byte := (wordsBytes [p.h0, p.h1, p.h2, p.h3]).take 28 ++ bitmap

/-- The ACK packet of a queue pair (R410, R421, R570). -/
def formAck (s : State) (n : Nat) : Packet :=
  let q := qpAt s n
  let bm := heldBitmap q
  let h0 := word (at' q.peerQp 48 16 + at' n 32 16 + 0x50)
  let h1 := word (at' 5 60 4 + at' (qpClass s n) 57 3 + flagAt q.enc 56 + at' bm.length 40 13 + at' q.peerNode 32 8 + at' (nodeIdVal s) 24 8)
  let p := withHcrc h0 h1 0 (word (at' q.rcvNxt 40 24 + flagAt true 39)) []
  let trailer :=
    if q.enc then
      let aad := ackAad p bm
      let key := hmac (directionKey (ctxAt s q.context).kl q.sndSalt (nodeIdVal s) n) aad
      slice (Config.gcmSeal key (List.replicate 12 0) aad []) 0 16
    else leBytes 4 (crc32c bm) ++ List.replicate 12 0
  { p with data := pad32 (bm ++ trailer) }

/-- Send an ACK (R422, R484). By a peer port that is not UP it is dropped (R454). -/
def sendAck (n : Nat) (s : State) : State :=
  let p := formAck s n
  let s := setQp n { qpAt s n with arrivals := 0, oldest := none } s
  match qpPort s n with
  | some k =>
    if (portAt s k).state == .up then sendOut k n p s
    else if k ≥ 1 then bump ctrRouteDrops s
    else s
  | none => bump ctrRouteDrops s

/-- The context of a session that a peer names by its home's handle, or by the handle or index that both share (R571). -/
def peerHandleContext (s : State) (n : Nat) (h : Word) : Option Nat :=
  match ringResolve s n h with
  | some i => some (sessAt s i).record.context
  | none =>
    let x := sessAt s (handleIndex h)
    if x.entry.state == .free then none else some x.record.context

/-- The context whose KL opens an encrypted packet of queue pair `n` (R568, R571). -/
def openContext (s : State) (n : Nat) (p : Packet) : Option Nat :=
  let q := qpAt s n
  if !(257 ≤ n && n ≤ 384) then (if q.enc then some q.context else none)
  else if pktType p = 1 then
    let a := tileAddrOf p.h2
    match passSession s a.index with
    | some i => if n ≤ 320 then some (sessAt s i).record.context else some (sessAt s a.index).record.context
    | none => some (sessAt s a.index).record.context
  else
    let h := if pktFirst p then wordAt p.data 8 else match q.assembling with | some o => wordAt o.header 8 | none => 0
    peerHandleContext s n h

/-- The extended PSN of an arriving packet (R568). -/
def pktExt (q : Qp) (p : Packet) : Nat :=
  let base := q.rcvNxt + 2 ^ 24 * q.rcvWraps
  let d := (pktPsn p + 2 ^ 24 - q.rcvNxt) % 2 ^ 24
  if d < 2 ^ 23 then base + d else base + d - 2 ^ 24

/-- The payload's CRC of a packet that is not encrypted (R411). -/
def plainCrcOk (p : Packet) : Bool :=
  numAt p.data (pktLead p + pktLen p) 4 == crc32c (slice p.data (pktLead p) (pktLen p))

/-- The payload of an arriving packet, if its CRC or tag is right (R411, R412, R416, R568, R571). -/
def openPayload (s : State) (n : Nat) (p : Packet) : Option (List Byte) :=
  let q := qpAt s n
  let lead := pktLead p
  if pktEnc p then
    (openContext s n p).bind (fun c =>
      let key := directionKey (ctxAt s c).kl q.rcvSalt (pktSrc p) (pktSrcQp p)
      if pktType p = 5 then
        let bm := slice p.data 0 (pktLen p)
        let aad := ackAad p bm
        (Config.gcmOpen (hmac key aad) (List.replicate 12 0) aad (slice p.data (pktLen p) 16)).map (fun _ => bm)
      else
        Config.gcmOpen key (psnNonce (pktExt q p)) (wordsBytes [p.h0, p.h1, p.h2] ++ p.data.take lead)
          (slice p.data lead (pktLen p + 16)))
  else if q.enc then none
  else
    if plainCrcOk p then some (slice p.data lead (pktLen p)) else none

/-- Repeat one packet (R424, R425, R483). -/
def repeatPacket (n : Nat) (u : Unacked) (s : State) : State :=
  let s := pktEvent { code := 0x16, priv := qpPriv s n, requester := some (0x130 + (qpPort s n).getD 0), tclass := some (qpClass s n) } n
    u.what.conf.isSome (bump ctrRepeats s)
  queuePacket n (formPacket s n u.psn u.ext u.what) true none s

/-- Repeat once the PSNs below `need` or more held ones, each no more often than once per `RTO_US` (R424). -/
def fastRepeat (n need : Nat) (bitmap : List Nat) (base : Nat) (s : State) : State :=
  (qpAt s n).unacked.foldl (fun t u =>
    let q := qpAt t n
    let off := (u.psn + 2 ^ 24 - base) % 2 ^ 24
    let above := (bitmap.filter (fun i => off < i + 1)).length
    let free := match u.fastAt with | some f => f + q.rtoUs * 1000 ≤ now t | none => true
    if need ≤ above && free then
      let q := { q with unacked := q.unacked.map (fun v => if v.psn == u.psn then { v with fastAt := some (now t) } else v) }
      repeatPacket n u (bump ctrFastRepeats (setQp n q t))
    else t) s

/-- Retire what an acknowledgement shows (R423 to R425, R443): PSNs below `ack`, and those whose bits are set. -/
def retireAcked (n ack : Nat) (bitmap : List Byte) (s : State) : State :=
  let q := qpAt s n
  let d := (ack + 2 ^ 24 - q.sndUna) % 2 ^ 24
  let sent := (q.sndNxt + 2 ^ 24 - q.sndUna) % 2 ^ 24
  if sent < d then s
  else
    let set := bitsSet (leNat bitmap) (8 * bitmap.length)
    let off (u : Unacked) : Nat := (u.psn + 2 ^ 24 - q.sndUna) % 2 ^ 24
    let gone (u : Unacked) : Bool := off u < d || set.any (fun i => off u == d + 1 + i)
    let left := q.unacked.filter (fun u => !gone u)
    let done := q.unacked.filter gone
    let una := match left with | u :: _ => u.psn | [] => q.sndNxt
    let q := { q with unacked := left, sndUna := una }
    let q := if done.isEmpty then q
      else { q with retries := 0, timer := if left.isEmpty then none else some (now s + q.rtoUs * 1000) }
    let s := setQp n q s
    let s := done.foldl (fun t u => match u.what.wr with | some w => wrAcked w t | none => t) s
    flushQp n (qpAt s n).backlog.length (fastRepeat n (fastRepeatCountVal s) set ack s)

/-- Take an acknowledgement. Once the repeat timer has won, an acknowledgement of what was repeated is late, and discarded, or answers the
repeat (R56, R59): its packet does not tell which, so a free value does (log entry 45). -/
def takeAck (n ack : Nat) (bitmap : List Byte) (s : State) : State :=
  if (qpAt s n).retries = 0 then retireAcked n ack bitmap s
  else
    let (w, t) := draw s
    if bit w 0 then bump ctrLateDiscards t else retireAcked n ack bitmap t

/-- Where a request is accepted (R433), for the opcodes of requests and peer messages (R455). -/
def opcodeOn (o : Nat) : Option On :=
  (([((0x0101, 0x010D), .bound), ((0x0201, 0x0206), .bound), ((0x0210, 0x0213), .mailbox), ((0x0301, 0x0303), .mailbox), ((0x0304, 0x0307), .bound),
     ((0x0401, 0x040B), .bound), ((0x0501, 0x0502), .mailbox), ((0x0503, 0x0504), .fm), ((0x0510, 0x051C), .bound), ((0x0601, 0x0604), .mailbox),
     ((0x0612, 0x0612), .mailbox), ((0x0610, 0x0614), .bound), ((0x0701, 0x0702), .fm), ((0x0703, 0x0703), .mailbox), ((0x0720, 0x0721), .peer),
     ((0x0730, 0x0732), .peer), ((0x0801, 0x0807), .mailbox), ((0x0904, 0x0904), .mailboxOrBound), ((0x0901, 0x0908), .mailbox),
     ((0x0A01, 0x0A03), .mailbox), ((0xF101, 0xF106), .peer), ((0xF110, 0xF117), .peer)] : List ((Nat × Nat) × On)).find?
      (fun r => r.1.1 ≤ o && o ≤ r.1.2)).map Prod.snd

/-- Whether an opcode is a request's or a peer message's. -/
def opcodeKnown (o : Nat) : Bool := (opcodeOn o).isSome

/-- A message has come whole: an answer to the module's own request, a command that waits in ingress, or one that is not known (R431, R433).
A halted module takes no answer (R387). -/
def deliverMessage (m : Msg) (s : State) : State :=
  let o := m.opcode.toNat
  if opcodeKnown o then { s with ingress := s.ingress ++ [m] }
  else if s.mode == .fatal && 0x8000 ≤ o then s
  else if 257 ≤ m.qp && m.qp ≤ 384 && 0x8000 ≤ o then responseCame m s
  else if 0x8000 ≤ o && o < 0xF000 then bump ctrLateDiscards s
  else if s.mode == .fatal then refuse m .moduleFatal s
  else refuse m .opcodeUnknown s

/-- A message ends unread (R430): what R387 and R433 judge comes first (R692), and a message that has no answer gets none (R431). -/
def refuseOpen (m : Msg) (st : Status) (s : State) : State :=
  let o := m.opcode.toNat
  if s.mode == .fatal then (if 0x8000 ≤ o && !opcodeKnown o then s else refuse m .moduleFatal s)
  else if 0x8000 ≤ o || o == 0x051A || o == 0x0614 then s
  else match opcodeOn o with
    | none => refuse m .opcodeUnknown s
    | some on => refuse m (if onAllowed s m.qp on then st else .opcodeDenied) s

/-- The largest message payload (R430). -/
def maxPayload : Nat := 67108864

/-- Take one segment of a message (R430). -/
def takeSegment (n : Nat) (o : Outgoing) (s : State) : State :=
  let q := qpAt s n
  let s := match o.first, q.assembling with
    | true, some a => if a.tooLong then s else refuseOpen (messageOf n a.header a.payload) .messageMalformed s
    | _, _ => s
  let q := qpAt s n
  let cur : Option OpenMsg :=
    if o.first then some { header := o.header, payload := o.payload }
    else q.assembling.map (fun a => if a.tooLong then a else { a with payload := a.payload ++ o.payload })
  match cur with
  | none => s
  | some a =>
    let tooMuch := !a.tooLong && maxPayload < a.payload.length
    let s := if tooMuch then refuseOpen (messageOf n a.header []) .messageTooLong s else s
    let a := if tooMuch then { a with tooLong := true, payload := [] } else a
    let q := qpAt s n
    if o.last then
      let s := setQp n { q with assembling := none } s
      if a.tooLong then s else deliverMessage { messageOf n a.header a.payload with cameBy := o.cameBy } s
    else setQp n { q with assembling := some a } s

/-- The completion of a tile fetch by its packet (R358): the fetch whose queue pair and tier address it answers. A halted
module takes none (R387). -/
def fetchCame (n : Nat) (o : Outgoing) (s : State) : State :=
  if s.mode == .fatal then s
  else match s.transfers.find? (fun e => !e.2.write && !e.2.waits && e.2.qp == n && word (tierAddr e.2.tier e.2.slot (4096 * e.2.tile)) == o.addr) with
  | some (k, t) => pumpAll (tileCame k t o.payload s)
  | none => bump ctrLateDiscards s

/-- Hand one packet's content to ingress, in PSN order (R420). -/
def deliver (n : Nat) (o : Outgoing) (s : State) : State :=
  match o.ptype with
  | 0 => takeSegment n o s
  | 1 => { s with tileIngress := s.tileIngress ++ [{ qp := n, addr := o.addr, counter := o.counter, ringPass := o.ringPass, data := o.payload, cameBy := o.cameBy }] }
  | 3 => fetchCame n o s
  | _ => s

/-- Deliver the contiguous run of stored packets (R420). -/
def deliverRun (n : Nat) : Nat → State → State
  | 0, s => s
  | fuel + 1, s =>
    let q := qpAt s n
    let e := q.rcvNxt + 2 ^ 24 * q.rcvWraps
    match Tab.find q.stored e with
    | none => s
    | some o =>
      let nxt := (q.rcvNxt + 1) % 2 ^ 24
      let q := { q with stored := Tab.drop q.stored e, rcvNxt := nxt, rcvWraps := if nxt = 0 then q.rcvWraps + 1 else q.rcvWraps }
      deliverRun n fuel (deliver n o (setQp n q s))

/-- The sequence rules and acknowledgements for an intact packet of a queue pair (R419 to R422, R57). -/
def sequence (k n : Nat) (p : Packet) (payload : List Byte) (s : State) : State :=
  let q := qpAt s n
  let d := (pktPsn p + 2 ^ 24 - q.rcvNxt) % 2 ^ 24
  let e := q.rcvNxt + 2 ^ 24 * q.rcvWraps + d
  if q.windowM1 + 1 ≤ d && d < 2 ^ 23 then sendAck n (bump (ctrWindowDrops k) s)
  else if 2 ^ 23 ≤ d || (Tab.find q.stored e).isSome then sendAck n (bump ctrDuplicateAcks s)
  else
    let o : Outgoing := { ptype := pktType p, first := pktFirst p, last := pktLast p, header := p.data.take (pktLead p), payload,
                          addr := p.h2, counter := bits p.h1 13 0, ringPass := bit p.h1 23, cameBy := some (k, pktClass p) }
    let gap := !q.stored.isEmpty
    let q := { q with stored := Tab.put q.stored e o, arrivals := q.arrivals + 1, oldest := some (q.oldest.getD (now s)) }
    let s := deliverRun n (q.stored.length) (setQp n q s)
    if d != 0 || gap || pktAckReq p || ackCoalesceVal s ≤ (qpAt s n).arrivals then sendAck n s else s

/-- A packet for this module (R412, R416, R418 to R425). -/
def localPacket (k : Nat) (p : Packet) (s : State) : State :=
  let n := pktDestQp p
  if !qpReady s n then (if !pktEnc p && !plainCrcOk p then bump (ctrIntegrityDrops k) s else s)
  else match openPayload s n p with
    | none => bump (ctrIntegrityDrops k) s
    | some pl =>
      let s := pktEvent { code := 0x14, priv := qpPriv s n, requester := some (0x128 + k), tclass := some (pktClass p) } n (pktEnc p)
        (bump (ctrPacketsRx k) s)
      if pktType p = 5 then takeAck n (pktAckPsn p) pl s
      else
        let s := if pktAckValid p then takeAck n (pktAckPsn p) [] s else s
        sequence k n p pl s

/-- Whether a packet that came by port `k` is for this module (R449; `DEST_NODE` is checked on peer ports only). -/
def isLocal (s : State) (k : Nat) (p : Packet) : Bool := k == 0 || pktDest p == nodeIdVal s || s.pair.adopted == some (pktDest p)

/-- Note that a packet holds a receive buffer of its class (R402, R403). -/
def holdBuffer (k : Nat) (p : Packet) (s : State) : State :=
  if pktType p = 5 then s
  else
    let q := portAt s k
    let c := creditAt q (pktClass p)
    setPort k (setCredit (pktClass p) { c with inUse := c.inUse + 1 } q) s

/-- Give a receive buffer of a class back (R402); the host port's not until start-up completes (R652). -/
def freeBuffer (k c : Nat) (s : State) : State :=
  let q := portAt s k
  let x := creditAt q c
  if x.inUse = 0 || (k == 0 && s.power.phase == .starting) then s else setPort k (setCredit c { x with inUse := x.inUse - 1, freed := (x.freed + 1) % 2 ^ 16 } q) s

/-- Forward a packet (R449 to R454, R482, R484). -/
def forwardPacket (k : Nat) (p : Packet) (s : State) : State :=
  let s := pmu { code := 0x14, requester := some (0x128 + k), tclass := some (pktClass p) } (bump (ctrPacketsRx k) s)
  let drop (t : State) : State := bump ctrRouteDrops (if pktType p = 5 then t else freeBuffer k (pktClass p) t)
  match firstHop s (pktDest p) with
  | none => drop s
  | some o =>
    if (portAt s o).state != .up then drop s
    else
      let s := bump ctrForwardedPackets s
      if pktType p = 5 then sendOut o 257 p s
      else joinQueue o { packet := p, joined := now s, entering := !sameDimension k o, cameBy := some k } s

/-- A packet has arrived on a port (R394, R402, R412, R414, R449, R500, R501). -/
def arrive (k : Nat) (p : Packet) (s : State) : State :=
  if !linkAlive s || (portAt s k).state != .up then s
  else
    let b := bits p.h0 7 0
    if [0x00, 0x60, 0x70, 0x78, 0x79, 0x7A].contains b then s
    else if b ≠ 0x50 || !hcrcOk p then bump (ctrIntegrityDrops k) s
    else if 5 < pktType p then bump (ctrIntegrityDrops k) (holdBuffer k p s)
    else if !lengthOk p then bump (ctrLengthDrops k) (holdBuffer k p s)
    else
      let (keep, s) := meterKeep k p s
      let s := holdBuffer k p s
      if !keep then s
      else if isLocal s k p then localPacket k p s
      else forwardPacket k p s

/-- `PACKET_RX` (R419). -/
def execPacketRx (k : Nat) (p : Packet) (s : State) : Out := .next (arrive k p s)

/-- `ACK_RX` (R423): a packet of another type changes nothing. -/
def execAckRx (k : Nat) (p : Packet) (s : State) : Out := .next (if pktType p = 5 then arrive k p s else s)

/-- `ACK_DELAY_EXPIRY` (R422). -/
def execAckDelayExpiry (n : Nat) (s : State) : Out :=
  .next (match (qpAt s n).oldest with
    | some t => if qpReady s n && t + ackDelayNsVal s ≤ now s then sendAck n s else s
    | none => s)

/-- `REPEAT_TIMEOUT` (R425, R426). -/
def execRepeatTimeout (n : Nat) (s : State) : Out :=
  .next (match (qpAt s n).timer with
    | none => s
    | some t =>
      let q := qpAt s n
      if !qpReady s n || now s < t then s
      else if retryLimitVal s < q.retries + 1 then settle (qpError n .retryExceeded s)
      else
        let r := q.retries + 1
        let q := { q with retries := r, timer := some (now s + min (q.rtoUs * 2 ^ r) (64 * q.rtoUs) * 1000) }
        q.unacked.foldl (fun u a => repeatPacket n a u) (bump ctrRepeatTimeouts (setQp n q s)))

end Sys2Proof.Machine
end

