-- ==== Sys2Proof/Machine/Ports.lean ====
section
/-!
DEFINITION. Ports and network time: bring-up, codewords, credits, TIME blocks, path delay, holdover, the pulse (R395 to R409, R448, R455, R661).
-/
namespace Sys2Proof.Machine

/-- Whether the topology uses a port; the host port is always used (R448). -/
def portUsed (s : State) (k : Nat) : Bool :=
  k == 0 || match peerTopologyVal s with
    | 1 => k == 1 || k == 2
    | 2 => 1 ≤ k && k ≤ 4
    | _ => false

/-- Whether a port may come up (R446, R448, R651). -/
def portEnabled (s : State) (k : Nat) : Bool := linkAlive s && k ≤ 4 && portUsed s k && portEnableVal s k == 1

/-- The port that leads to the partner. -/
def partnerPort (s : State) : Option Nat := if doublesEnableVal s == 1 then firstHop s (partnerNodeVal s) else none

/-- The state with a port in a new bring-up state. -/
def portTo (k : Nat) (st : LinkState) (s : State) : State := setPort k { portAt s k with state := st } s

/-- A port enters CREDIT: its counts start again, buffers freed from the buffer number (R402). -/
def enterCredit (k : Nat) (s : State) : State :=
  let p := portAt s k
  setPort k { p with
    state := .credit, creditSent := false, creditGot := false
    credits := (List.range 8).map (fun c => (c, { freed := portBuffers k })) } s

/-- `PORT_SIGNAL_DETECT` (the port states table). -/
def execPortSignalDetect (k : Nat) (s : State) : Out :=
  .next (if portEnabled s k && (portAt s k).state == .down then
      let s := setPort k { portAt s k with state := .train, since := now s } s
      if partnerPort s == some k then { s with pair.lostAt := none } else s
    else s)

/-- `PORT_TRAIN_DONE` (the port states table). -/
def execPortTrainDone (k : Nat) (s : State) : Out := .next (if (portAt s k).state == .train then portTo k .lock s else s)

/-- `PORT_LOCK` (the port states table): the host port goes on to DESKEW. -/
def execPortLock (k : Nat) (s : State) : Out :=
  .next (if (portAt s k).state == .lock then (if k = 0 then portTo k .deskew s else enterCredit k s) else s)

/-- `LANES_ALIGNED` (R397): up to 50 ns of skew. -/
def execLanesAligned (skew : Nat) (s : State) : Out :=
  .next (if (portAt s 0).state == .deskew && skew ≤ 50 then enterCredit 0 s else s)

/-- `PORT_UP` (R402, the port states table): a CREDIT block received and one sent. -/
def execPortUp (k : Nat) (s : State) : Out :=
  .next (let p := portAt s k
    if p.state == .credit && p.creditSent && p.creditGot then portTo k .up s else s)

/-- A port goes down (R400, R401, R462); the partner's signal is lost from now on (R474). -/
def portDown (k : Nat) (s : State) : State :=
  if (portAt s k).state == .down then s
  else
    let s := setPort k { portAt s k with
      state := .down, since := now s, creditSent := false, creditGot := false, credits := [], badCodewords := [] } s
    let s := bump (ctrLinkDowns k) s
    let s := if partnerPort s == some k then { s with pair.lostAt := some (now s) } else s
    if k ≥ 1 then settle (ringLost s) else s

/-- `PORT_DOWN` (R400). -/
def execPortDown (k : Nat) (s : State) : Out := .next (portDown k s)

/-- `CODEWORD_UNCORRECTABLE` (R398, R400): its packets do not arrive; too many within 1 ms take the port down. -/
def execCodewordUncorrectable (k lane : Nat) (s : State) : Out :=
  .next (let p := portAt s k
    if p.state == .down then s
    else
      let recent := ((Tab.get p.badCodewords lane []).filter (fun t => now s < t + 1000000)) ++ [now s]
      let s := bump (ctrFecCwUncorrectable k) (setPort k { p with badCodewords := Tab.put p.badCodewords lane recent } s)
      if fecDownCountVal s k < recent.length then portDown k s else s)

/-- `CREDIT_RX` (R402, R403): the counts of the eight classes. -/
def execCreditRx (k : Nat) (counts : List Nat) (s : State) : Out :=
  .next (let p := portAt s k
    if p.state == .credit || p.state == .up then
      let p := { p with
        creditGot := true
        credits := (List.range 8).map (fun c => (c, { creditAt p c with limit := counts.getD c 0 % 2 ^ 16 })) }
      setPort k p s
    else s)

/-- Whether ingress holds a message or tile that came by a port in a class (R24, R403). -/
def ingressHolds (s : State) (k c : Nat) : Bool :=
  s.ingress.any (fun m => m.cameBy == some (k, c)) || s.tileIngress.any (fun t => t.cameBy == some (k, c))

/-- Receive buffers of a class that forwarded packets of a port still hold (R453). -/
def forwardHeld (s : State) (k c : Nat) : Nat :=
  ((Tab.vals s.ports).map (fun p => ((classAt p c).queue.filter (fun x => x.cameBy == some k)).length)).sum

/-- Give back the receive buffers that nothing holds any more (R24, R402); the host port's not until start-up completes (R652). -/
def freeBuffers (k c : Nat) (s : State) : State :=
  if ingressHolds s k c || (k == 0 && s.power.phase == .starting) then s
  else
    let p := portAt s k
    let x := creditAt p c
    let n := x.inUse - forwardHeld s k c
    setPort k (setCredit c { x with inUse := x.inUse - n, freed := (x.freed + n) % 2 ^ 16 } p) s

/-- `CREDIT_SEND` (R402). -/
def execCreditSend (k : Nat) (s : State) : Out :=
  .next (if (portAt s k).state == .credit || (portAt s k).state == .up then
      let s := foldRange 8 (fun t c => freeBuffers k c t) s
      let p := portAt s k
      emit (.credit k ((List.range 8).map (fun c => (creditAt p c).freed))) (setPort k { p with creditSent := true } s)
    else s)

/-- Set network time in one step; the time of the last TIME block moves with it. -/
def stepTime (t : Nat) (s : State) : State :=
  { s with time := { s.time with now := t % 2 ^ 64, slew := 0, slewAt := none } }

/-- Time becomes valid (R406, R455). -/
def makeValid (t : Nat) (s : State) : State :=
  let s := stepTime t s
  readyPeers { s with time := { s.time with state := 1, everValid := true } }

/-- `TIME_BLOCK_RX` (R405, R406): the adapter's time as the block left it. -/
def execTimeBlockRx (sent : Nat) (s : State) : Out :=
  .next (if !linkAlive s || (portAt s 0).state != .up then s
    else
      let off : Int := (sent : Int) + s.time.pathDelay - s.time.now
      let adapter := sent + s.time.pathDelay
      let s := { s with time := { s.time with blocks := s.time.blocks + 1, lastBlock := some (sent, now s), offset := off } }
      if s.time.state = 0 then
        if s.time.haveDelay && 2 ≤ s.time.blocks then
          let s := makeValid adapter s
          { s with time.lastBlock := some (sent, now s) }
        else s
      else
        let s := { s with time.state := 1 }
        if off.natAbs ≤ timeStepNsVal s then { s with time.slew := off }
        else
          let s := bump ctrTimeSteps (stepTime adapter s)
          { s with time.lastBlock := some (sent, now s) })

/-- `DELAY_REQ_SEND` (R405). -/
def execDelayReqSend (s : State) : Out :=
  .next (if !linkAlive s || (portAt s 0).state != .up then s
    else emit .delayReq { s with time.delayReqAt := some (now s) })

/-- `DELAY_RSP_RX` (R405, R406): the adapter's time as the DELAY_REQ reached it. -/
def execDelayRspRx (got : Nat) (s : State) : Out :=
  .next (match s.time.delayReqAt, s.time.lastBlock with
    | some t3, some (t1, t2) =>
      let d : Int := (((t2 : Int) - t1) + ((got : Int) - t3)) / 2
      let s := { s with time := { s.time with pathDelay := d.toNat % 2 ^ 32, haveDelay := true, delayReqAt := none } }
      if s.time.state = 0 && 2 ≤ s.time.blocks then
        let n := t1 + s.time.pathDelay + (now s - t2)
        let s := makeValid n s
        { s with time.lastBlock := some (t1, t1 + s.time.pathDelay) }
      else s
    | _, _ => s)

/-- `TIME_HOLDOVER` (R408). -/
def execTimeHoldover (s : State) : Out :=
  .next (match s.time.lastBlock with
    | some (_, t) =>
      if s.time.state = 1 && t + timeHoldoverMsVal s * 1000000 ≤ now s then { s with time.state := 2, time.slew := 0 } else s
    | none => s)

/-- `TIMEPULSE` (R661): it rises at each whole second of network time and falls 100 ms later. -/
def execTimepulse (s : State) : Out :=
  .next (if s.time.state = 0 || !linkAlive s then { s with time.pulse := false }
    else if s.time.pulse then
      if s.time.pulseAt + 100000000 ≤ now s then { s with time.pulse := false } else s
    else if now s % 1000000000 < 100000000 && s.time.pulseAt != now s - now s % 1000000000 then
      { s with time.pulse := true, time.pulseAt := now s - now s % 1000000000 }
    else s)

end Sys2Proof.Machine
end

