-- ==== Sys2Proof/Machine/Egress.lean ====
section
/-!
DEFINITION. Egress: the scheduler, shapers, time gates, queue sampling (R479 to R498, R503 to R507, R569).
-/
namespace Sys2Proof.Machine

/-- The mask that a gate list shows at an offset in its cycle (R494): the last entry holds until the cycle ends. -/
def maskAt : List (Nat × Nat) → Nat → Nat → Nat
  | [], last, _ => last
  | (m, n) :: t, _, o => if o < n then m else maskAt t m (o - n)

/-- The interval of a gate list at an offset in its cycle. -/
def intervalAt : List (Nat × Nat) → Nat → Nat → Nat
  | [], i, _ => i - 1
  | (_, n) :: t, i, o => if o < n then i else intervalAt t (i + 1) (o - n)

/-- The offset in its cycle of a list that became operational at `t0`, at time `t`, before or after it (R494 to R496). -/
def cycleOffset (l : GateList) (t0 t : Nat) : Nat := (((t : Int) - t0) % (l.cycle : Int)).toNat

/-- The gate mask of a port at a network time (R492 to R496): of a list due by then, else of the operational list; all open without one. -/
def gateMask (s : State) (k t : Nat) : Nat :=
  let p := portAt s k
  if gateEnableVal s k != 1 || !s.time.everValid then 0xFF
  else match p.coming.filter (fun c => c.2 ≤ t), p.running with
    | some (l, t0), _ => maskAt l.entries 0xFF (cycleOffset l t0 t)
    | none, some (l, t0) => maskAt l.entries 0xFF (cycleOffset l t0 t)
    | none, none => 0xFF

/-- Whether the gate of a class is open at a time. -/
def gateOpen (s : State) (k c t : Nat) : Bool := (gateMask s k t).testBit c

/-- Usable rate of a port in Gb/s (R497). -/
def portRate (k : Nat) : Nat := if k = 0 then 400 else 100

/-- Whether a packet of a class that starts now passes the guard check (R497). -/
def gatePasses (s : State) (k c lf : Nat) : Bool :=
  gateOpen s k c (now s) &&
  (gateGuardVal s k != 1 || gateEnableVal s k != 1 ||
    (List.range (ceilDiv (lf * 8) (portRate k))).all (fun d => gateOpen s k c (now s + d)))

/-- Credit available to a class (R403). -/
def creditLeft (p : Port) (c : Nat) : Nat :=
  let x := creditAt p c
  let d := (x.limit + 2 ^ 16 - x.sent) % 2 ^ 16
  if d < 2 ^ 15 then d else 0

/-- Whether a head packet has the credit it needs (R403, R453). -/
def hasCredit (p : Port) (c : Nat) (x : Queued) : Bool := (if x.entering then 2 else 1) ≤ creditLeft p c

/-- Evaluate the classes of a port: shapers refill (R490, R491), classes that changed between strict and weighted lose their deficit (R488). -/
def evaluate (s : State) (k : Nat) (p : Port) : Port :=
  foldRange 8 (fun p c =>
    let e := classAt p c
    let r := shapeRateMbpsVal s k c
    let b := shapeBurstBytesVal s k c
    let strict := tcWeightVal s k c == 0
    let sh := if r = 0 then e.shaper else refillBucket e.shaper (now s) r b e.refill
    setClass c { e with
      shaper := sh, refill := if r = 0 then e.refill else false, deficit := if strict == e.wasStrict then e.deficit else 0
      wasStrict := strict } p) p

/-- Whether a class's shaper allows it (R485, R490). -/
def shaperOk (s : State) (k c : Nat) (e : EgressClass) : Bool := shapeRateMbpsVal s k c == 0 || 0 ≤ e.shaper.t

/-- Whether a class is eligible (R485). -/
def eligible (s : State) (k : Nat) (p : Port) (c : Nat) : Bool :=
  let e := classAt p c
  match e.queue with
  | [] => false
  | x :: _ => hasCredit p c x && gatePasses s k c (framedLength x.packet) && shaperOk s k c e

/-- The class that the procedure of R486 picks, and the port with its turn and deficits. -/
def pick (s : State) (k : Nat) (p : Port) : Option Nat × Port :=
  let w (c : Nat) : Nat := tcWeightVal s k c
  match (List.range 8).reverse.find? (fun c => w c == 0 && eligible s k p c) with
  | some c => (some c, p)
  | none =>
    let t := classAt p p.turn
    let fits := match t.queue with | x :: _ => framedLength x.packet ≤ t.deficit | [] => false
    if 0 < w p.turn && eligible s k p p.turn && fits then (some p.turn, p)
    else match ((List.range 8).map (fun n => (p.turn + n + 1) % 8)).find? (fun c => 0 < w c && eligible s k p c) with
      | some c =>
        let e := classAt p c
        (some c, setClass c { e with deficit := e.deficit + w c * 4192 } { p with turn := c })
      | none => (none, p)

/-- Count, once each, the head packets that wait for credit, for their shaper, or for the guard (R446, R491, R497). -/
def countHolds (k : Nat) (taken : Option Nat) (s : State) : State :=
  foldRange 8 (fun s c =>
    let p := portAt s k
    let e := classAt p c
    match e.queue with
    | [] => s
    | x :: rest =>
      if taken == some c then s
      else
        let put (y : Queued) (t : State) : State := setPort k (setClass c { e with queue := y :: rest } p) t
        let lf := framedLength x.packet
        if !hasCredit p c x then (if x.stalled then s else bump (ctrCreditStalls k) (put { x with stalled := true } s))
        else if gateOpen s k c (now s) && !gatePasses s k c lf then
          (if x.guarded then s else bump (ctrGuardHolds k) (put { x with guarded := true } s))
        else if gatePasses s k c lf && !shaperOk s k c e then
          (if x.held then s else bump (ctrShaperHolds k) (put { x with held := true } s))
        else s) s

/-- Send the head packet of a class (R486, R487, R490, R504); a mask that leaves late is counted (R307). -/
def sendHead (k c : Nat) (s : State) : State :=
  let p := portAt s k
  let e := classAt p c
  match e.queue with
  | [] => s
  | x :: rest =>
    let lf := framedLength x.packet
    let d := if tcWeightVal s k c = 0 then e.deficit else e.deficit - lf
    let e := { e with
      queue := rest
      deficit := if rest.isEmpty then 0 else d
      shaper := if shapeRateMbpsVal s k c = 0 then e.shaper else { e.shaper with t := e.shaper.t - (lf + shaperOverheadVal s k : Nat) }
      sent := (e.sent + 1) % 2 ^ 32
      maxAge := max e.maxAge (now s - x.joined) }
    let cr := creditAt p c
    let s := setPort k (setCredit c { cr with sent := (cr.sent + 1) % 2 ^ 16 } (setClass c e p)) s
    let s := match x.cameBy with | some a => freeBuffer a c s | none => s
    let s := if (x.grant.map (fun g => decide (g + 120000 < now s))).getD false then bump ctrMasksLate s else s
    sendOut k (if x.cameBy.isSome then 257 else pktSrcQp x.packet) x.packet s

/-- Queue pairs whose next packet would spend their last extended PSN enter ERROR (R569). -/
def exhausted (s : State) : List Nat :=
  Tab.keysWhere s.qps (fun q => q.enc && q.state == .ready && !q.backlog.isEmpty && 2 ^ 48 ≤ q.sndNxt + 2 ^ 24 * q.sndWraps)

/-- `EGRESS_PICK` (R485 to R491, R497, R498): at a packet boundary of a port. -/
def execEgressPick (k : Nat) (s : State) : Out :=
  .next (if !linkAlive s then s
    else
      let s := (exhausted s).foldl (fun t n => settle (qpError n .keyExhausted t)) s
      if (portAt s k).state != .up then s
      else
        let (c, p) := pick s k (evaluate s k (portAt s k))
        let s := countHolds k c (setPort k p s)
        match c with
        | some c => sendHead k c s
        | none => s)

/-- `GATE_SWITCH` (R493): a pending list becomes operational at its T. -/
def execGateSwitch (k : Nat) (s : State) : Out :=
  .next (let p := portAt s k
    match p.coming with
    | some (l, t) =>
      if s.time.everValid && t ≤ now s then
        bump ctrGateSwitches (setPort k { p with running := some (l, t), coming := none, interval := 0 } s)
      else s
    | none => s)

/-- `GATE_INTERVAL` (R494, R496): the interval in force is the one that network time gives. -/
def execGateInterval (k : Nat) (s : State) : Out :=
  .next (let p := portAt s k
    match p.running with
    | some (l, t) =>
      if gateEnableVal s k == 1 then setPort k { p with interval := intervalAt l.entries 0 (cycleOffset l t (now s)) } s else s
    | none => s)

/-- Framed bytes of a queue (S2 `DEPTH_BYTES`). -/
def queueBytes (q : List Queued) : Nat := (q.map (fun x => framedLength x.packet)).sum

/-- One sample record of class `c` of port `k` (R504). -/
def sampleRecord (s : State) (at_ k c : Nat) : List Byte :=
  let p := evaluate s k (portAt s k)
  let e := classAt p c
  let age := match e.queue with | x :: _ => now s - x.joined | [] => 0
  wordsBytes [word at_,
    word (flagAt true 63 + at' k 59 3 + at' c 56 3 + flagAt (gateOpen s k c (now s)) 55 + flagAt (shaperOk s k c e) 54 +
      at' (creditLeft p c) 38 16 + at' (min e.queue.length 65535) 22 16),
    word (at' (min (queueBytes e.queue) (2 ^ 32 - 1)) 32 32 + at' (min age (2 ^ 32 - 1)) 0 32),
    word (at' (min (max e.maxAge age) (2 ^ 32 - 1)) 32 32 + at' e.sent 0 32)]

/-- The records that the sample ring holds (R505): the range's length over 32. -/
def sampleCapacity (s : State) : Nat :=
  match s.sampler.range with
  | some r => (match Tab.find s.hostRanges r with | some e => e.slots * 2048 | none => 0)
  | none => 0

/-- A record marked as the first after a loss (S1 `LOST`). -/
def markLost (l : List Byte) : List Byte := wordsBytes [wordAt l 0, setBits (wordAt l 8) 62 62 1, wordAt l 16, wordAt l 24]

/-- Write the tile gathered so far, padded, or discard it for want of room or of a queue pair that can
write it (R506, R507). -/
def flushSamples (s : State) : State :=
  let x := s.sampler
  match x.range, x.tile with
  | _, [] => s
  | none, _ => s
  | some r, a :: rest =>
    let n := x.tile.length
    let q := 1 + (x.wr / 128) % (max (fetchQpsVal s) 1)
    if sampleCapacity s < x.wr + 128 - sampleRdVal s || !qpReady s q then
      bumpBy ctrSamplesLost n { s with sampler := { x with tile := [], lost := true } }
    else
      let data := slice (((if x.lost then markLost a else a) :: rest).flatten) 0 4096
      let o := (x.wr % sampleCapacity s) * 32
      let a := tierAddr 1 (r * 2 ^ 29) o
      let s := { s with sampler := { x with tile := [], lost := false, wr := (x.wr + 128) % 2 ^ 64 } }
      bumpBy ctrSamplesWritten n (sendTile q { ptype := 4, addr := word a, payload := data }
        (pmu { code := 0x19, priv := .host, requester := some 0x130, addr := some a } s))

/-- Take one queue's record; a full tile is written at once (R504, R506). -/
def takeSample (at_ n : Nat) (s : State) : State :=
  let k := n / 8
  let c := n % 8
  let rec_ := sampleRecord s at_ k c
  let e := classAt (portAt s k) c
  let s := setPort k (setClass c { e with sent := 0, maxAge := 0 } (portAt s k)) s
  let x := s.sampler
  let s := { s with sampler := { x with tile := x.tile ++ [rec_], firstAt := if x.tile.isEmpty then now s else x.firstAt } }
  if s.sampler.tile.length = 128 then flushSamples s else s

/-- `QUEUE_SAMPLE` (R504): at a multiple of the sample interval, no later than 1 µs after it. -/
def execQueueSample (s : State) : Out :=
  .next (engine s (
    let i := max (sampleIntervalUsVal s) 1 * 1000
    let at_ := now s - now s % i
    if s.sampler.range.isNone || 1000 < now s % i || s.sampler.lastAt = at_ + 1 then s
    else (bitsSet (sampleQueuesVal s) 40).foldl (fun t n => takeSample at_ n t) { s with sampler.lastAt := at_ + 1 }))

/-- `SAMPLE_FLUSH` (R506): `SAMPLE_FLUSH_US` after a partial tile's first record. -/
def execSampleFlush (s : State) : Out :=
  .next (engine s (if !s.sampler.tile.isEmpty && s.sampler.firstAt + sampleFlushUsVal s * 1000 ≤ now s then flushSamples s else s))

end Sys2Proof.Machine
end

