-- ==== Sys2Proof/Machine/Security.lean ====
section
/-!
DEFINITION. The security engine: start-up, contexts, attestation, key delivery, firmware (chapter 15).
-/
namespace Sys2Proof.Machine

/-- A firmware slot's bytes: as `FW_UPDATE` left it, else as at shipment. -/
def fwSlot (s : State) (k : Nat) : List Byte := (Tab.find s.sec.slots k).getD (Config.firmwareSlot k)

/-- `SEC_VERSION` of a slot's header. -/
def fwVersion (l : List Byte) : Nat := numAt l 12 4

/-- The anti-rollback counter (R545). -/
def rollback (s : State) : Nat := s.sec.rollback.getD (Config.rollbackCounter % 2 ^ 32)

/-- Whether a firmware slot passes (R547). -/
def fwPasses (s : State) (l : List Byte) : Bool :=
  let n := numAt l 8 4
  sha256 Config.vpkModulus == Config.vpkDigest &&
  Config.pssVerify Config.vpkModulus (slice l 0 128) (slice l 128 384) &&
  n ≤ 29359616 && sha256 (slice l 512 n) == slice l 16 32 && rollback s ≤ fwVersion l

/-- The firmware check of start-up (R547, R548): the passing image with the higher `SEC_VERSION` runs, slot A when both are equal; with none
the module enters RECOVERY. -/
def fwBoot (s : State) : State :=
  let a := fwSlot s 0
  let b := fwSlot s 1
  let s := { s with sec.atStart := some (rollback s) }
  match fwPasses s a, fwPasses s b with
  | true, true => { s with sec.running := some (if fwVersion a < fwVersion b then 1 else 0) }
  | true, false => { s with sec.running := some 0 }
  | false, true => { s with sec.running := some 1 }
  | false, false => alert .security { s with sec.running := none, sec.state := .recovery }

/-- The running image's slot bytes. -/
def fwRunning (s : State) : List Byte := (s.sec.running.map (fwSlot s)).getD []

/-- `MODULE_SERIAL` bytes. -/
def serialBytes : List Byte := wordBytes moduleSerial

/-- The boot certificate's first 832 bytes (the boot certificate table). -/
def certBody (s : State) (sign wrap : List Byte) : List Byte :=
  let f := fwRunning s
  wordBytes (word (at' 0x43425254 32 32 + at' 1 16 16)) ++ serialBytes ++ slice f 16 32 ++
  wordBytes (word (at' (fwVersion f) 32 32 + at' (s.sec.atStart.getD (rollback s)) 0 32)) ++ wordBytes 0 ++ slice sign 0 384 ++ slice wrap 0 384

/-- Whether the identity record's signature verifies under VPK (R543, R546). -/
def identitySigned : Bool :=
  Config.pssVerify Config.vpkModulus (slice identityRecord 0 512) (slice identityRecord 512 384)

/-- `SECURITY_READY` (R542, R543): keys drawn and the boot certificate signed, or IDENTITY_UNAVAILABLE. -/
def execSecurityReady (s : State) : Out :=
  .next (engine s (
    if s.sec.state != .notReady then s
    else if !(identitySigned && Config.dikUnwraps s.draws) then
      alert .security { s with sec.state := .identityUnavailable }
    else
      let (sign, t) := drawBytes 384 s
      let (wrap, t) := drawBytes 384 t
      let (kr, t) := drawBytes 64 t
      let body := certBody t sign wrap
      let n := t.draws
      let t := { t with draws := n + 1 }
      { t with sec.state := .ready, sec.akSign := sign, sec.akWrap := wrap, sec.kr := kr,
               sec.cert := body ++ slice (Config.pssSign 0 n body) 0 384 }))

/-- A command of this chapter that the engine answers only once it has left NOT_READY (R542). -/
def whenReady (m : Msg) (h : State → State) (t : State) : State :=
  if t.sec.state == .notReady then refuse m .securityNotReady t else h t

/-- A command of this chapter at the element of the context that it names (R557). -/
def atContext (m : Msg) (h : State → State) (t : State) : State :=
  whenReady m (fun t => if contextHeld t (opNat m 0) then holdMsg m t else h t) t

/-- Whether `DEBUG_ENABLE` is 1, written or in force (R580, R581). -/
def debugOn (s : State) : Bool := debugEnableVal s == 1 || rwVal s 0x6000 1 0 == 1

/-- Whether a boundary-scan instruction is in effect (R578). -/
def scanOn (s : State) : Bool := 2 ≤ s.power.tapIr.toNat && s.power.tapIr.toNat ≤ 5

/-- How many contexts are live (the `CONF_LIVE` entry). -/
def confLive (s : State) : Nat :=
  (s.contexts.filter (fun e => e.2.mode == .pending || e.2.mode == .confidential)).length

/-- `CONTEXT_CREATE` (R551, R552, R580): context, partition, mode. -/
def execContextCreate (m : Msg) (s : State) : Out :=
  .next (request { opcode := 0x0901, on := .mailbox, need := 3, most := 3, freeze := false } m false (atContext m (fun t =>
    let c := opNat m 0
    let conf := opNat m 2 == 1
    let make (k : CtxMode) : State :=
      refuse m .ok { t with contexts := Tab.put t.contexts c { ctxAt t c with mode := k, partition := opNat m 1 } }
    if 4095 < c || 63 < opNat m 1 || 1 < opNat m 2 || (conf && c == 0) then refuse m .contextInvalid t
    else if (ctxAt t c).tornDown then refuse m .contextTornDown t
    else if (ctxAt t c).mode != .none then refuse m .contextExists t
    else if !conf then make .open_
    else if t.sec.state == .identityUnavailable then refuse m .identityUnavailable t
    else if debugOn t then refuse m .debugActive t
    else if scanOn t then refuse m .scanActive t
    else make .pending)) s)

/-- Whether something still belongs to a context (R555). -/
def contextBusy (s : State) (c : Nat) : Bool :=
  s.sessions.any (fun e => e.2.entry.state != .free && e.2.record.context == c) ||
  s.qps.any (fun e => e.2.created && e.2.bound && e.2.context == c) ||
  s.indexes.any (fun e => e.2.context == c) ||
  s.regions.any (fun e => e.2.context == c) ||
  s.jobs.any (fun e => e.2.context == c && !e.2.closed)

/-- `CONTEXT_DESTROY` (R551, R555). -/
def execContextDestroy (m : Msg) (s : State) : Out :=
  .next (request { opcode := 0x0902, on := .mailbox, need := 1, most := 1, freeze := false } m false (atContext m (fun t =>
    let c := opNat m 0
    if 4095 < c || (ctxAt t c).mode == .none then refuse m (noContext c) t
    else if contextBusy t c then refuse m .contextBusy t
    else refuse m .ok { t with contexts := Tab.drop t.contexts c })) s)

/-- `CONTEXT_TEARDOWN` (R265, R556). -/
def execContextTeardown (m : Msg) (s : State) : Out :=
  .next (request { opcode := 0x0903, on := .mailbox, need := 1, most := 1 } m false (whenReady m (fun t =>
    let c := opNat m 0
    if 4095 < c || (ctxAt t c).mode == .none then refuse m (noContext c) t
    else if (ctxAt t c).tornDown then refuse m .ok t
    else refuse m .ok (tearDown c t))) s)

/-- The mode code of a report: 0 NONE, 1 OPEN, 2 PENDING, 3 CONFIDENTIAL. -/
def modeCode : CtxMode → Nat
  | .none => 0 | .open_ => 1 | .pending => 2 | .confidential => 3

/-- The first 192 bytes of an attestation report (the attestation report table). -/
def reportBody (s : State) (c : Nat) (nonce : List Byte) : List Byte :=
  let x := ctxAt s c
  wordBytes (word (at' 0x41545354 32 32 + at' 1 16 16)) ++ serialBytes ++ nonce ++
  sha256 (slice s.sec.cert 0 832) ++ sha256 (slice identityRecord 0 896) ++
  wordBytes (word (at' c 52 12 + at' (modeCode x.mode) 50 2 + flagAt x.tornDown 49 + at' x.partition 43 6 + flagAt (debugOn s) 42 +
    flagAt (scanOn s) 41 + at' (confLive s) 29 12)) ++
  wordBytes (if x.mode == .confidential then x.keyCheck else 0) ++ wordBytes (word (now s)) ++
  wordBytes (word (at' s.time.state 56 8 + at' (nodeIdVal s) 48 8)) ++ List.replicate 48 0

/-- `ATTEST` (R543, R558): the answer is the report, the boot certificate and the identity record. -/
def execAttest (m : Msg) (s : State) : Out :=
  .next (request { opcode := 0x0904, on := .mailboxOrBound, need := 1, most := 1, freeze := false } m (m.body.length < 32)
    (atContext m (fun t =>
      let c := opNat m 0
      let nonce := slice m.body 0 32
      if t.sec.state == .identityUnavailable then refuse m .identityUnavailable t
      else if 4095 < c then refuse m .contextInvalid t
      else if m.qp ≠ 0 && (qpAt t m.qp).context ≠ c then refuse m .contextDenied t
      else
        let body := reportBody t c nonce
        let n := t.draws
        let t := bump ctrAttestReports
          { t with draws := n + 1, contexts := Tab.put t.contexts c { ctxAt t c with nonce := some nonce } }
        respond m { body := body ++ slice (Config.pssSign 1 n body) 0 384 ++ slice t.sec.cert 0 1216 ++
                            slice identityRecord 0 896 } t)) s)

/-- The key block that a delivery brings, if it opens and is well formed (R559, R560). -/
def keyBlock (s : State) (c : Nat) (nonce cipher : List Byte) : Option (List Byte) :=
  match Config.oaepOpen s.sec.akWrap nonce cipher with
  | some b =>
    if b.length == 136 && numAt b 0 2 == c && numAt b 2 6 == 0 && slice b 8 32 != slice b 40 32 then some b else none
  | none => none

/-- `KEY_DELIVER` (R551, R560, R561). -/
def execKeyDeliver (m : Msg) (s : State) : Out :=
  .next (request { opcode := 0x0905, on := .mailbox, need := 1, most := 1, freeze := false } m (m.body.length < 416)
    (atContext m (fun t =>
      let c := opNat m 0
      let x := ctxAt t c
      let nonce := slice m.body 0 32
      let fail (st : Status) : State := refuse m st (bump ctrKeyFailures t)
      if x.tornDown then fail .contextTornDown
      else match x.mode with
        | .none => fail (noContext c)
        | .open_ => fail .contextNotConf
        | .confidential => fail .keyPresent
        | .pending =>
          if x.nonce ≠ some nonce then fail .keyNonce
          else match keyBlock t c nonce (slice m.body 32 384) with
            | none => fail .keyInvalid
            | some b =>
              let check := wordAt (sha256 (slice b 8 128)) 0
              let x := { x with mode := .confidential, nonce := none, kx := slice b 8 64, kl := slice b 72 32, ks := slice b 104 32,
                                keyCheck := check }
              respond m { args := check } (bump ctrKeysDelivered { t with contexts := Tab.put t.contexts c x }))) s)

/-- `FW_UPDATE` (R549): slot, byte offset, flags with bit 0 `COMMIT`; the piece is the body. -/
def execFwUpdate (m : Msg) (s : State) : Out :=
  .next (request { opcode := 0x0907, on := .mailbox, need := 3, most := 3, freeze := false } m
    (1 < opNat m 0 || 29360128 < opNat m 1 + m.body.length) (fun t =>
      let k := opNat m 0
      if t.sec.running == some k then refuse m .fwSlotRunning t
      else
        let l := placeBytes (fwSlot t k) (opNat m 1) m.body
        let put (l : List Byte) : State := { t with sec.slots := Tab.put t.sec.slots k l }
        if !bit (opWord m 2) 0 || fwPasses t l then refuse m .ok (put l) else refuse m .fwInvalid (put [])) s)

/-- `FW_COMMIT_VERSION` (R545, R550). -/
def execFwCommitVersion (m : Msg) (s : State) : Out :=
  .next (request { opcode := 0x0908, on := .mailbox, freeze := false } m false (fun t =>
    let v := fwVersion (fwRunning t)
    refuse m .ok (if rollback t < v then { t with sec.rollback := some v, sec.rpWrites := t.sec.rpWrites + 1 } else t)) s)

end Sys2Proof.Machine
end

