-- ==== Sys2Proof/Machine/Supplies.lean ====
section
/-!
DEFINITION. Supplies, reset, start-up, pads, heat, the test access port (chapters 18 and 19; R578, R579).
-/
namespace Sys2Proof.Machine

/-- What outlives a reset: supplies and pads, the package identity flash, the commands that wait and the record of what was sent (R656,
R659, log entries 2 and 12). -/
def wipe (s : State) : State :=
  { State.reset with
    pending := s.pending, out := s.out, draws := s.draws
    power := { s.power with vinMv := 0, vinMa := 0, inputW := 0 }
    sec := { slots := s.sec.slots, running := none, rollback := s.sec.rollback, rpWrites := s.sec.rpWrites } }

/-- Time 0 of start-up (R651, R656): the straps are latched and the cause of the reset is reported; what holds at its end is set now. -/
def startUp (s : State) : State :=
  let t := wipe s
  { t with power.phase := .starting, power.tapIr := 0xFF, power.strap := t.power.strapPins, power.resetCause := t.power.nextCause, power.startedAt := now s }

/-- A reset begins, with its cause (R655, R656, R658, R659); one that meets a reset under way changes nothing (the cause of the first
stands, log entry 18). -/
def resetBy (cause : Nat) (ph : Phase) (s : State) : State :=
  match s.power.phase with
  | .running | .starting => { wipe s with power.phase := ph, power.nextCause := cause }
  | _ => s

/-- Start-up begins if nothing holds the module (R651, R655). -/
def startIfFree (s : State) : State :=
  if s.power.vinGood && s.power.vioGood && s.power.resetHigh && s.power.phase == .held then startUp s else s

/-- VIN is no longer good: no part is powered (R648, R655). -/
def powerOff (s : State) : State := { wipe s with power.phase := .off, power.vinGood := false, power.nextCause := 0 }

/-- VIN becomes good (R645, R655, R656). -/
def powerOn (s : State) : State := startIfFree { wipe s with power.phase := .held, power.vinGood := true, power.overvolt := false, power.nextCause := 0 }

/-- `VIN_GOOD` (R645): VIN rises above 36.0 V. -/
def execVinGood (mv : Nat) (s : State) : Out :=
  .next (if 36000 < mv && !s.power.vinGood && !s.power.overvolt then powerOn s else s)

/-- `VIN_LOSS` (R645, R648): VIN falls below 34.0 V. -/
def execVinLoss (mv : Nat) (s : State) : Out :=
  .next (if mv < 34000 && (s.power.vinGood || s.power.overvolt) then
      let t := powerOff s
      { t with power.overvolt := false }
    else s)

/-- `VIN_OVERVOLTAGE` (R678): VIN above 48.0 V for 10 µs. -/
def execVinOvervoltage (mv : Nat) (s : State) : Out :=
  .next (if 48000 < mv && s.power.vinGood then
      let t := powerOff s
      { t with power.overvolt := true }
    else s)

/-- `VIN_OVERVOLTAGE_END` (R678): VIN falls below 47.0 V after an overvoltage stop. -/
def execVinOvervoltageEnd (mv : Nat) (s : State) : Out :=
  .next (if mv < 47000 && s.power.overvolt then (if 34000 ≤ mv then powerOn s else { s with power.overvolt := false }) else s)

/-- `VIO_LOSS` (R645, R647): VIO falls below 1.55 V. -/
def execVioLoss (mv : Nat) (s : State) : Out :=
  .next (if mv < 1550 && s.power.vioGood then
      let t := resetBy 2 .held s
      { t with power.vioGood := false }
    else s)

/-- `VIO_GOOD` (R645, R651): VIO rises above 1.62 V. -/
def execVioGood (mv : Nat) (s : State) : Out :=
  .next (if 1620 < mv && !s.power.vioGood then startIfFree { s with power.vioGood := true } else s)

/-- `RESET_ASSERT` (R655, R657, R658): the filter has taken RESET_L low. -/
def execResetAssert (s : State) : Out :=
  .next (if s.power.resetHigh then
      let t := resetBy 1 .held s
      { t with power.resetHigh := false }
    else s)

/-- `RESET_RELEASE` (R651, R657, R672): the filter has taken RESET_L high; it also ends a thermal shutdown. -/
def execResetRelease (s : State) : Out :=
  .next (if s.power.resetHigh then s
    else
      let t := { s with power.resetHigh := true }
      startIfFree (if t.power.phase == .shutDown && t.power.vinGood && t.power.vioGood then { t with power.phase := .held } else t))

/-- `STARTUP_COMPLETE` (R547, R548, R587, R594, R616, R651): a new epoch, the settings that the next start-up takes, Setup. -/
def execStartupComplete (s : State) : Out :=
  .next (if s.power.phase != .starting then s
    else
      let t := fwBoot s
      let (e, t) := draw t
      { t with
        power.phase := .running, mode := .setup, mgmt.epoch := e, mgmt.lastSeq := []
        dict.atlasEntries := rwVal t 0x2010 1 33554432
        dict.nvDepth := rwVal t 0x7000 3 256 })

/-- The threshold of a sensor in °C: domains 0 to 8, then stacks (R669). -/
def warnAt (s : State) (sensor : Nat) : Nat := if sensor < 9 then thermWarnMainCVal s else thermWarnStackCVal s

/-- Whether sensors report (R668): with the rails up. -/
def sensing (s : State) : Bool := s.power.phase == .running || s.power.phase == .starting

/-- `THERM_WARN` (R669): a sensor reaches its threshold. -/
def execThermWarn (sensor : Nat) (celsius : Int) (s : State) : Out :=
  .next (if sensing s && sensor < 17 && (warnAt s sensor : Int) ≤ celsius then
      let t := { s with pace.celsius := Tab.put s.pace.celsius sensor celsius }
      if t.pace.warning then t else bump ctrThermWarns { t with pace.warning := true }
    else s)

/-- Sensor readings put in place, sensors in order. -/
def readSensors (l : List Int) (s : State) : State :=
  { s with pace.celsius := ((List.range 17).zip l).foldl (fun t e => Tab.put t e.1 e.2) s.pace.celsius }

/-- `THERM_WARN_END` (R670): every sensor lies at least 3 °C below its threshold. -/
def execThermWarnEnd (celsius : List Int) (s : State) : Out :=
  .next (if sensing s && s.pace.warning && celsius.length == 17 &&
      ((List.range 17).zip celsius).all (fun e => decide (e.2 + 3 ≤ (warnAt s e.1 : Int))) then
      let t := readSensors celsius s
      { t with pace.warning := false }
    else s)

/-- `THERMAL_SHUTDOWN` (R671): a junction at 115 °C or a stack at 105 °C. -/
def execThermalShutdown (sensor : Nat) (celsius : Int) (s : State) : Out :=
  .next (if sensor < 17 && (if sensor < 9 then (115 : Int) else 105) ≤ celsius then resetBy 3 .shutDown s else s)

/-- Whether the test access port works (before R667). -/
def tapWorks (s : State) : Bool := s.power.vinGood && s.power.vioGood

/-- The instruction that a code selects at update-IR, and whether its condition fails (R578, R579). -/
def tapSelect (s : State) (code : Byte) : Byte × Bool :=
  let n := code.toNat
  if 2 ≤ n && n ≤ 5 then if confLive s = 0 then (code, false) else (0xFF, true)
  else if 0x80 ≤ n && n ≤ 0x8F then
    if debugEnableVal s == 1 && confLive s == 0 then (code, false) else (0xFF, true)
  else (0xFF, false)

/-- `TAP_UPDATE_IR` (R578, R579, R581). -/
def execTapUpdateIr (code : Byte) (s : State) : Out :=
  .next (if tapWorks s then
      let t := { s with power.tapIr := (tapSelect s code).1 }
      if (tapSelect s code).2 then bump ctrScanRefusals t else t
    else s)

/-- `TEST_LOGIC_RESET` (R578). -/
def execTestLogicReset (s : State) : Out := .next (if tapWorks s then { s with power.tapIr := 0xFF } else s)

/-- Whether ALERT_L is driven low (R635, R660). -/
def alertLow (s : State) : Bool :=
  s.power.vioGood && s.power.phase == .running && (s.csr.alert != 0 || s.mode == .fatal)

/-- Whether THERM_L is driven low (R660, R669, R671). -/
def thermLow (s : State) : Bool :=
  s.power.vioGood && (match s.power.phase with
    | .shutDown => true
    | .starting | .running => s.pace.warning
    | _ => false)

/-- Whether PCIE_PERST_L is released (R651, R660). -/
def perstHigh (s : State) : Bool := s.power.vioGood && s.power.phase == .running

end Sys2Proof.Machine
end

