-- ==== Sys2Proof/Machine/Pacing.lean ====
section
/-!
DEFINITION. The pace governor and its monitors (R38 to R49, R669, R670). Rates are in kHz: a period of p ns is a rate of 10⁶ / p.
-/
namespace Sys2Proof.Machine

/-- The set voltage of a domain in mV: 0.75 V from start-up (R651), though `VCORE_MV`'s default is 0 (log entry 61). -/
def setMv (s : State) (d : Nat) : Nat := Tab.get s.pace.mv d 750

/-- The monitor's rate of domain `d` at a voltage, as the readings report it. -/
def rateAt (r : PaceReadings) (d mv : Nat) : Nat := (r.rates.getD d []).getD ((mv - 680) / 5) 0

/-- Whether a rate is a period shorter than 0.42 ns (R40). -/
def tooFast (rate : Nat) : Bool := 100000000 < rate * 42

/-- The demand of a base-die domain: the greatest s · g of the layers its fielders serve for a step job that holds them (before R42). -/
def paceDemand (s : State) (d : Nat) : Nat :=
  ((s.merges.filter (fun e => !e.2.closing && ((Tab.find s.jobs e.2.job).map (jobHolds s e.2.job)).getD false && e.2.todo.any (fun u => u.fielder / 32 + 1 == d))).map (fun e =>
    let m := modelOf s (sessAt s e.2.index)
    (if m.kvFormat == 2 then 20 else 40) * m.group)).foldl max 0

/-- A base-die domain's target as a rate times 25,600: the greater of the rate of 0.70 ns and demand / 256 (before R42). -/
def paceTarget (s : State) (d : Nat) : Nat :=
  max 36571428572 (paceDemand s d * (100 + paceMarginPctVal s) * 1000000)

/-- The target of any domain; domain 0 takes the smaller of 0.55 ns and the shortest of the base dies' (R42). -/
def targetOf (s : State) (d : Nat) : Nat :=
  if d = 0 then ((List.range' 1 8).map (paceTarget s)).foldl max 46545454546 else paceTarget s d

/-- Whether a rate meets a target. -/
def meets (rate target : Nat) : Bool := target ≤ rate * 25600

/-- The governor's voltages, low to high (R39). -/
def paceSteps : List Nat := (List.range 33).map (fun k => 680 + 5 * k)

/-- The highest voltage at which a domain is no faster than 0.42 ns (R40). -/
def topMv (r : PaceReadings) (d : Nat) : Nat := ((paceSteps.reverse).find? (fun v => !tooFast (rateAt r d v))).getD 680

/-- The voltage that R42 or R43 asks for, within R40: the lowest that meets the target, or the highest there is. -/
def aimMv (s : State) (r : PaceReadings) (d : Nat) : Nat :=
  let v := if paceModeVal s = 1 then paceFixedMvVal s
    else (paceSteps.find? (fun v => meets (rateAt r d v) (targetOf s d))).getD 840
  min v (topMv r d)

/-- One step of 5 mV down (R40, R44, R669). -/
def stepDown (v : Nat) : Nat := max 680 (v - 5)

/-- A voltage moved toward `aim` no faster than 5 mV in each µs of an update interval (R39). -/
def slewTo (s : State) (v aim : Nat) : Nat :=
  let d := 5 * paceUpdateUsVal s
  if v ≤ aim then min aim (v + d) else max aim (v - d)

/-- Whether a domain's own sensor, or its stack, is at or above its threshold (R669). -/
def isHot (s : State) (d : Nat) : Bool :=
  (warnAt s d : Int) ≤ Tab.get s.pace.celsius d 0 || (1 ≤ d && (warnAt s (d + 8) : Int) ≤ Tab.get s.pace.celsius (d + 8) 0)

/-- The voltage that the governor sets in a domain at an update (R39 to R45, R669). -/
def nextMv (s : State) (r : PaceReadings) (d : Nat) : Nat :=
  let v := setMv s d
  if tooFast (rateAt r d v) || pacePowerCapWVal s < r.inputW || (s.pace.warning && isHot s d) then stepDown v
  else
    let a := slewTo s v (aimMv s r d)
    if s.pace.warning then min v a else a

/-- Note whether a domain misses its target (R46). -/
def noteLimit (d rate : Nat) (s : State) : State :=
  let miss := paceModeVal s == 0 && !meets rate (Tab.get s.pace.target d 0)
  let rest := s.pace.limited.filter (· ≠ d)
  { s with pace.limited := if miss then insertBy (fun a b => decide (a < b)) d rest else rest }

/-- `PACE_UPDATE` (R39, R42 to R46, R668, R669, R675): the end of an update interval, which is no sooner than `PACE_UPDATE_US` after the last. -/
def execPaceUpdate (r : PaceReadings) (s : State) : Out :=
  .next (if s.power.phase != .running || (s.pace.updatedAt.map (fun a => decide (now s < a + paceUpdateUsVal s * 1000))).getD false then s
    else
      let t := readSensors r.celsius { s with power.vinMv := r.vinMv, power.vinMa := r.vinMa, power.inputW := r.inputW }
      let low := (List.range 9).all (fun d => setMv t d == 680)
      let unmet := low && pacePowerCapWVal t < r.inputW
      let next := (List.range 9).map (fun d => (d, nextMv t r d))
      let t := { t with pace.mv := next, pace.target := (List.range 9).map (fun d => (d, targetOf t d)), pace.capUnmet := unmet, pace.updatedAt := some (now t) }
      let t := if unmet then bump ctrCapUnmetIntervals t else t
      next.foldl (fun t e => noteLimit e.1 (rateAt r e.1 e.2) t) t)

/-- `PACE_MONITOR_WINDOW` (R46, R47): handshakes counted in 10 µs. -/
def execPaceMonitorWindow (d count : Nat) (s : State) : Out :=
  .next (if s.power.phase != .running || 8 < d then s
    else
      let t := { s with pace.rate := Tab.put s.pace.rate d (count * 100 % 2 ^ 32) }
      if (Tab.find t.pace.target d).isSome then noteLimit d (count * 100) t else t)

end Sys2Proof.Machine
end

