-- ==== Sys2Proof/Machine/SurveyCmds.lean ====
section
/-!
DEFINITION. Survey commands and events: the freeze, the survey instant, what is captured, the NV module's answers outside a restore
(R509 to R533).
-/
namespace Sys2Proof.Machine

/-- The valid commit record with the higher `SURVEY_SEQ` (R513, R528). -/
def newestRecord (s : State) : Option CommitRec :=
  match Tab.find s.survey.records 0, Tab.find s.survey.records 1 with
  | some a, some b => some (if a.seq < b.seq then b else a)
  | some a, none => some a
  | none, b => b

/-- The slot that the next survey writes (R528). -/
def nextSlot (s : State) : Nat := match newestRecord s with | some r => 1 - r.slot | none => 0

/-- FREE frames of the module. -/
def allFree (s : State) : Nat := ((List.range 256).map (freeFrames s)).sum

/-- Whether a survey or restore, or a format, is in progress (R512, R525). -/
def surveyBusy (s : State) : Bool := s.survey.run.isSome || s.survey.restore.isSome || s.survey.format.isSome

/-- Whether the NV module is missing or too small (R512, R522). -/
def nvAbsent (s : State) : Bool := !s.survey.up || decide (s.survey.lbas < 62500000)

/-- What R512 judges of `SURVEY_START`, in its order. -/
def surveyCheck (s : State) (kind qp : Nat) : Status :=
  if surveyBusy s then .surveyBusy
  else if nvAbsent s then .nvAbsent
  else if !s.survey.labelled then .nvUnformatted
  else if kind = 2 && s.survey.baseSeq = 0 then .surveyNoBase
  else if qp ≠ 0 && !(512 ≤ qp && qpReady s qp && !(qpAt s qp).bound) then .surveyDrainQp
  else if allFree s < 8192 then .surveyNoFrame
  else .ok

/-- `SURVEY_START` (R509, R512, R513, R515, R528): kind, survey id, drain queue pair. The answer's operand word is the survey sequence. -/
def execSurveyStart (m : Msg) (s : State) : Out :=
  .next (request { opcode := 0x0801, on := .mailbox, need := 3, most := 3, setup := true } m (!(opNat m 0 == 1 || opNat m 0 == 2)) (fun t =>
    match surveyCheck t (opNat m 0) (opNat m 2) with
    | .ok =>
      let seq := ((newestRecord t).map (·.seq)).getD 0 + 1
      let r : SurveyRun := {
        record := { slot := nextSlot t, kind := opNat m 0, seq, id := opWord m 1, base := if opNat m 0 = 2 then t.survey.baseSeq else 0,
                    serial := moduleSerial }
        qp := opNat m 2, tag := m.tag, since := now t }
      respond m { ops := [word seq] } { t with survey.frozen := true, survey.quiet := [], survey.broken := false, survey.run := some r, survey.confirmed := 0 }
    | st => refuse m st t) s)

/-- Grammar stack segments from the top down. -/
def stackDown (s : State) : Nat → Nat → List (List Nat)
  | 0, _ => []
  | n + 1, k => let x := Tab.get s.segments k { owner := 0 }
                x.entries :: stackDown s n x.below

/-- The grammar stack that a W12 names, bottom first (R287). -/
def stackOf (s : State) (w : Word) : List (List Nat) :=
  if gOn w then (stackDown s (ceilDiv (gDepth w) 30) (gTop w)).reverse else []

/-- G1 of a page: layer, head, first and last global position (the grid reference table). -/
def pageG1 (s : State) (i k : Nat) : Word :=
  let h := sessShape s i
  let p := (sessAt s i).entry.partition
  let lp := keyPage h k * h.run
  word (at' (keyLayer h k) 56 8 + at' (keyHead h k) 48 8 + at' (globalPos s p lp) 24 24 + at' (globalPos s p (lp + h.run - 1)) 0 24)

/-- The handle by which a session's shards name it: the handle at the home (the grid reference table). -/
def gridHandle (s : State) (i : Nat) : Word :=
  match s.ringMap.find? (fun e => e.2 == i) with
  | some e => e.1
  | none => (sessAt s i).record.handle

/-- Where a page's entry alone puts it in a survey of a kind (R510): 2 a pool slot, 1 the BASE, 0 a PAGE shard. -/
def pageWhere (kind : Nat) (e : PageEntry) : Nat :=
  if e.homeValid && e.homeTier == 1 then 2 else if kind = 2 && !e.dirty then 1 else 0

/-- Whether an entry's frame is written for some session that names it (R518). -/
def frameWritten (s : State) (kind : Nat) (e : PageEntry) : Bool :=
  if e.tier = 0 then (frameUsers s e.frame).any (fun u => pageWhere kind (pageAt (sessAt s u.1) u.2) == 0) else pageWhere kind e == 0

/-- Rows of a page that a session held at the instant (R519): positions below `LENGTH`, and the row of a step whose append of the layer had
finished. -/
def heldRows (s : State) (i k : Nat) : List Nat :=
  let x := sessAt s i
  let h := sessShape s i
  let p := x.entry.partition
  let mid (g : Nat) : Bool := match x.step with
    | some st => g == st.len0 && keyLayer h k < st.layersAppended
    | none => false
  (List.range h.run).filter (fun j => let g := globalPos s p (keyPage h k * h.run + j); g < x.record.length || mid g)

/-- Whether a page holds the row of a step in flight. -/
def midPage (s : State) (i k : Nat) : Bool :=
  let x := sessAt s i
  match x.step with
  | some st => (heldRows s i k).any (fun j => globalPos s x.entry.partition (keyPage (sessShape s i) k * (sessShape s i).run + j) == st.len0)
  | none => false

/-- Ring parameters as a shard header has them. -/
def ringHead (s : State) (p : Nat) : Option (Nat × Nat × Nat) := (ringOf s p).map (fun r => (r.1, r.2.1, r.2.2.log2))

/-- The place of a page's data outside its frame, with the rows to take from there (R510). -/
def pageSource (s : State) (i k : Nat) (e : PageEntry) : Option (Nat × Nat) × Nat :=
  let h := sessShape s i
  if e.tier = 0 then
    if !filling s e then (none, 0)
    else
      match (frameUsers s e.frame).findSome? (fun u => ((sessAt s u.1).revive.bind (fun v => (Tab.find v.slots u.2).map (fun p => (u, v.length, p))))) with
      | some (u, len, place) =>
        (some place, ((List.range h.run).filter (fun j => globalPos s (sessAt s u.1).entry.partition (keyPage h k * h.run + j) < len)).length)
      | none => (none, 0)
  else (some (e.tier, e.homeSlot), h.run)

/-- A capture as it is laid out: stream offset so far, items, the offsets of frames already placed, pool slots referred to. -/
structure Plan where
  offset : Nat := 0
  items : List StreamItem := []
  placed : Tab Nat := []
  refs : List Nat := []

/-- Put a shard next in the stream. -/
def Plan.push (p : Plan) (it : StreamItem) : Plan :=
  { p with items := p.items ++ [{ it with offset := p.offset }], offset := p.offset + shardSize it.shard }

/-- The PAGE item of session `i`'s page `k` (R518, R519). -/
def pageItem (s : State) (r : CommitRec) (i k : Nat) (e : PageEntry) : StreamItem :=
  let x := sessAt s i
  let h := sessShape s i
  let names := if e.tier = 0 then frameUsers s e.frame else [(i, k)]
  let src := pageSource s i k e
  { shard := { kind := 4, enc := confOf s i, mid := names.any (fun u => midPage s u.1 u.2), seq := r.seq, stepSeq := x.record.stepSeq,
               length := x.record.length, g0 := gridHandle s i, g1 := pageG1 s i k, node := nodeIdVal s, ring := ringHead s x.entry.partition,
               body := .page (if e.tier = 0 then readBytes s (frameBase e.frame) 65536 else []) }
    offset := 0, fetch := src.1, rows := src.2, run := h.run, slices := h.slices
    keep := (List.range h.run).filter (fun j => names.any (fun u => (heldRows s u.1 u.2).contains j))
    names, frame := if e.tier = 0 then some e.frame else none }

/-- Lay out a session: its SESSION shard, then its PAGE shards in revival order (R510, R526). -/
def planSession (s : State) (r : CommitRec) (i : Nat) (p : Plan) : Plan :=
  let x := sessAt s i
  let pages := if x.entry.state == .faulted || x.entry.state == .tombstone then [] else x.pages.filter (fun e => e.2.tier != 3)
  let stack := stackOf s x.record.grammar
  let shell : Shard := { kind := 3, enc := confOf s i, seq := r.seq, stepSeq := x.record.stepSeq, length := x.record.length, g0 := gridHandle s i,
                         node := nodeIdVal s, ring := ringHead s x.entry.partition, body := .session x.record (pages.map (fun _ => ⟨0, 0, 0⟩)) stack }
  let written (e : Nat × PageEntry) : Bool := frameWritten s r.kind e.2
  let fresh := pages.filter (fun e => written e && !(e.2.tier == 0 && (Tab.find p.placed e.2.frame).isSome))
  let first := p.offset + shardSize shell
  let its := fresh.map (fun e => (e, pageItem s r i e.1 e.2))
  let offs := (its.foldl (fun (a : Nat × Tab Nat) e => (a.1 + shardSize e.2.shard, Tab.put a.2 e.1.1 a.1)) (first, [])).2
  let placed := its.foldl (fun t e => if e.1.2.tier = 0 then Tab.put t e.1.2.frame (Tab.get offs e.1.1 0) else t) p.placed
  let loc (e : Nat × PageEntry) : Locator :=
    let g1 := pageG1 s i e.1
    if written e then ⟨g1, 0, (Tab.find offs e.1).getD (Tab.get placed e.2.frame 0)⟩
    else if pageWhere r.kind e.2 = 2 then ⟨g1, 2, e.2.homeSlot⟩
    else ⟨g1, 1, 0⟩
  let refd := pages.filter (fun e => !written e)
  let session : StreamItem :=
    { shard := { shell with body := .session x.record (pages.map loc) stack }, offset := 0, refs := refd.length, names := refd.map (fun e => (i, e.1)) }
  let p := its.foldl (fun q e => q.push e.2) (p.push session)
  { p with placed, refs := p.refs ++ (refd.filter (fun e => pageWhere r.kind e.2 == 2)).map (fun e => e.2.homeSlot) }

/-- Lay out the STEP shard of a step in flight (R526). -/
def planStep (s : State) (r : CommitRec) (i : Nat) (p : Plan) : Plan :=
  let x := sessAt s i
  match x.step with
  | none => p
  | some st =>
    p.push { shard := { kind := 5, enc := confOf s i, mid := true, seq := r.seq, stepSeq := x.record.stepSeq, length := x.record.length,
                        g0 := gridHandle s i, node := nodeIdVal s, body := .step st ((mergeOf s i).map Prod.snd) (stackOf s st.grammar) }, offset := 0 }

/-- Frames of an index in the order of their ordinals. -/
def indexFrames (v : VIndex) : List Nat := v.centroidFrames ++ v.dirFrames ++ v.mapFrames ++ (v.lists.map (fun e => e.2.frames)).flatten

/-- The bytes of directory frame `j` of an index (the directory entry table). -/
def dirBytes (v : VIndex) (j : Nat) : List Byte :=
  wordsBytes ((List.range 4096).map (fun c =>
    let l := listAt v (4096 * j + c)
    [word (at' l.entries 32 32 + at' (match l.pool with | some (_, k) => k | none => l.frames.length) 0 32),
     match l.pool with
     | some (k, _) => word (2 ^ 63 + at' k 28 35)
     | none => word (at' (l.frames.headD 0) 24 24 + at' (l.frames.getLastD 0) 0 24)])).flatten

/-- Lay out the INDEX shards of an index (R510). -/
def planIndex (s : State) (r : CommitRec) (x : Nat) (v : VIndex) (p : Plan) : Plan :=
  let p := { p with refs := p.refs ++ (v.lists.map (fun e => poolSlotsOf e.2)).flatten }
  if r.kind = 2 && s.survey.baseSealed.contains x then p
  else
    (indexFrames v).zipIdx.foldl (fun q e =>
      let data := if v.dirFrames.contains e.1 then dirBytes v ((v.dirFrames.idxOf? e.1).getD 0) else readBytes s (frameBase e.1) 65536
      q.push { shard := { kind := 6, enc := if (ctxAt s v.context).mode == .confidential then some v.context else none, seq := r.seq,
                          g1 := word (at' x 56 8 + at' e.2 0 32), node := nodeIdVal s, body := .index data }, offset := 0 }) p

/-- What a CONTROL shard records (R510, R573): keys stay behind. -/
def controlImage (s : State) : ControlImage :=
  { contexts := Tab.mapVals s.contexts (fun c => { c with kx := [], kl := [], ks := [], nonce := none })
    entries := (s.sessions.filter (fun e => e.2.shadow.isNone && e.2.entry.generation != 0)).map (fun e => (e.1, e.2.entry))
    arriving := Tab.keysWhere s.sessions (fun x => match x.move with | some (.dest _) => true | _ => false)
    frames := s.frames
    qps := Tab.mapVals s.qps (fun q => { q with sndSalt := 0, rcvSalt := 0 })
    jobs := s.jobs
    parts := s.parts
    triggers := s.triggers
    poolRanges := s.poolRanges
    regions := s.regions
    indexes := Tab.mapVals s.indexes (fun v => { v with placing := none })
    vals := s.dict.vals
    run := s.dict.run }

/-- What a TABLES shard records (R510). -/
def tablesImage (s : State) : TablesImage :=
  { models := s.models, ropes := s.ropes, vocabs := s.vocabs, grammars := s.grammars, lists := s.lists
    escapes := s.contexts.map (fun e => (e.1, e.2.escapes)) }

/-- Lay out the whole stream in the writing order of R526. -/
def planSurvey (s : State) (r : CommitRec) : Plan :=
  let head (kind : Nat) (b : ShardBody) : StreamItem := { shard := { kind, seq := r.seq, node := nodeIdVal s, body := b }, offset := 0 }
  let p := (({} : Plan).push (head 1 (.control (controlImage s)))).push (head 2 (.tables (tablesImage s)))
  let mine := (s.sessions.filter (fun e => e.2.shadow.isNone && e.2.entry.state != .free)).map (fun e => (e.2.entry.partition, e.1))
  let order := (sortBy (fun a b => a.1 < b.1 || (a.1 == b.1 && a.2 < b.2)) mine).map Prod.snd
  let p := order.foldl (fun q i => planSession s r i q) p
  let p := order.foldl (fun q i => if (ringOf s (sessAt s i).entry.partition).isSome then q else planStep s r i q) p
  s.indexes.foldl (fun q e => planIndex s r e.1 e.2 q) p

/-- Whether every fielder stands at its quiet point and every catcher has accepted what was bound for it (R516). -/
def quiet (s : State) : Bool := s.fielders.all (fun e => e.2.emitter.isEmpty) && s.catchers.all (fun e => e.2.input.isEmpty)

/-- `SURVEY_INSTANT` (R515, R516, R518): units that wait for a tile are abandoned, the capture is laid out, the freeze ends. -/
def execSurveyInstant (s : State) : Out :=
  .next (engine s (match s.survey.run with
    | none => s
    | some r =>
      if r.stage != .freezing || !s.survey.frozen || !quiet s then s
      else
        let s := { s with fielders := (Tab.mapVals s.fielders (fun y => { y with waiting := none })).filter (fun e => e.2 != {}) }
        let c := { r.record with instant := now s }
        let p := planSurvey s c
        advanceSurvey (recount { s with
          survey.frozen := false
          survey.quiet := []
          survey.held := distinct (p.items.filterMap (·.frame))
          survey.slotRefs := Tab.put s.survey.slotRefs 2 p.refs
          survey.run := some { r with stage := .zeroing, record := c, items := p.items, refs := p.refs,
                                      sealed := Tab.keysWhere s.indexes (·.sealed) } })))

/-- `SURVEY_FREEZE_TIMEOUT` (R517, R529). -/
def execSurveyFreezeTimeout (s : State) : Out :=
  .next (engine s (match s.survey.run with
    | none => s
    | some r =>
      if s.survey.frozen && r.since + surveyFreezeMaxUsVal s * 1000 ≤ now s then failSurvey .surveyFreezeTimeout s else s))

/-- `SURVEY_ABORT` (R514): a survey whose commit record write is issued commits. With no survey in progress there is nothing to end. -/
def execSurveyAbort (m : Msg) (s : State) : Out :=
  .next (request { opcode := 0x0802, on := .mailbox, freeze := false } m false (fun t =>
    match t.survey.run with
    | none => refuse m .ok t
    | some r =>
      if r.stage == .commit || r.stage == .draining then refuse m .surveyCommitted t
      else failSurvey .surveyAborted (refuse m .ok t)) s)

/-- `SURVEY_DRAINED` (R530, R532): survey sequence, stream offset; all ones confirms the commit record's chunk. -/
def execSurveyDrained (m : Msg) (s : State) : Out :=
  .next (request { opcode := 0x0803, on := .mailbox, need := 2, most := 2, freeze := false } m false (fun t =>
    let t := refuse m .ok t
    match t.survey.run with
    | none => t
    | some r =>
      if r.record.seq ≠ opNat m 0 || r.qp = 0 then t
      else if opWord m 1 = allOnes then
        if r.stage != .draining then t
        else endSurvey r .ok true (if r.record.kind = 1 then { t with survey.baseSeq := r.record.seq, survey.baseSealed := r.sealed } else t)
      else advanceSurvey { t with survey.confirmed := max t.survey.confirmed (opNat m 1) }) s)

/-- Write the next part of a format: the label, LBAs 1 to 15, both commit records (R524, R525). -/
def formatNext (left : Nat) (s : State) : State :=
  let n := s.survey.lbas
  match left with
  | 4 => nvWrite (.format 4) false 0 (labelBytes n) s
  | 3 => nvWrite (.format 3) false 1 (List.replicate (15 * 4096) 0) s
  | 2 => nvWrite (.format 2) false (slotLba n 0) (List.replicate 4096 0) s
  | 1 => nvWrite (.format 1) false (slotLba n 1) (List.replicate 4096 0) s
  | _ => { s with survey.labelled := true, survey.format := none }

/-- `NV_FORMAT` (R524, R525). It is answered once the NV module has taken the writes. -/
def execNvFormat (m : Msg) (s : State) : Out :=
  .next (request { opcode := 0x0804, on := .mailbox } m false (fun t =>
    if surveyBusy t then refuse m .surveyBusy t
    else if nvAbsent t then refuse m .nvAbsent t
    else formatNext 4 { t with survey.labelled := false, survey.records := [], survey.slotRefs := [], survey.poolRefs := [],
                               survey.format := some m }) s)

/-- `NV_LINK_UP` (R522): namespace 1 is sized, and the label is read. -/
def execNvLinkUp (lbas : Nat) (s : State) : Out :=
  .next (if s.power.phase != .running || s.survey.up then s
    else
      let t := { s with survey.up := true, survey.lbas := lbas, survey.labelled := false, survey.records := [], survey.doing := none }
      if nvAbsent t then t else nvRead .label 0 1 t)

/-- `NV_LINK_DOWN` (R512): what is under way is not completed any more; a survey or restore that waits to issue its next command fails. -/
def execNvLinkDown (s : State) : Out :=
  .next { s with survey.up := false, survey.lbas := 0, survey.broken := s.survey.run.isSome }

end Sys2Proof.Machine
end

