-- ==== Sys2Proof/Machine/Placement.lean ====
section
/-!
DEFINITION. How a restore places what its captures hold (R535 steps 3 to 6, R536, R574).
-/
namespace Sys2Proof.Machine

/-- Whether a shard's payload passes its CRC, and its tag where it is sealed (R535, R574). -/
def shardOk (s : State) (c : Capture) (off : Nat) (sh : Shard) : Bool := crc32c (storedPayload s c.record off sh) == sh.crc

/-- The CONTROL and TABLES contents of a capture. -/
def capControl (s : State) (c : Capture) : Option ControlImage :=
  c.shards.findSome? (fun e => match e.2.body with
    | .control x => if shardOk s c e.1 e.2 then some x else none
    | _ => none)
def capTables (s : State) (c : Capture) : Option TablesImage :=
  c.shards.findSome? (fun e => match e.2.body with
    | .tables x => if shardOk s c e.1 e.2 then some x else none
    | _ => none)

/-- A SESSION shard as a candidate (R535 step 2): its capture, offset, header, record, locators, stack. -/
structure Candidate where
  cap : Capture
  off : Nat
  shard : Shard
  record : Record
  locators : List Locator
  stack : List (List Nat)

/-- The SESSION shards of a capture that name a handle. -/
def capSessions (c : Capture) (g0 : Word) : List Candidate :=
  c.shards.filterMap (fun e => match e.2.body with
    | .session r ls st => if e.2.g0 == g0 then some { cap := c, off := e.1, shard := e.2, record := r, locators := ls, stack := st } else none
    | _ => none)

/-- The candidates of a handle among captures of this module's surveys (`member` none) or a ring member's, in the order of R535 step 4. -/
def candidates (caps : List Capture) (member : Option Nat) (g0 : Word) : List Candidate :=
  sortBy (fun a b => b.shard.stepSeq < a.shard.stepSeq || (a.shard.stepSeq == b.shard.stepSeq && b.cap.record.seq < a.cap.record.seq))
    (((caps.filter (fun c => c.member == member)).map (fun c => capSessions c g0)).flatten)

/-- Where a page's data is: a PAGE shard of a capture, or a pool slot. -/
inductive PageSrc where
  | shard (member : Option Nat) (seq off : Nat) (sh : Shard)
  | pool (slot : Nat)
  deriving DecidableEq

/-- Resolve a locator of a capture (R526): a shard that passes its checks, or a pool slot. -/
def resolve (s : State) (caps : List Capture) (c : Capture) (g0 : Word) (l : Locator) : Option PageSrc :=
  let here (c : Capture) (l : Locator) : Option PageSrc :=
    if l.place = 2 then some (.pool l.at_)
    else if l.place = 0 then
      (Tab.find c.shards l.at_).bind (fun sh =>
        if sh.kind == 4 && sh.g1 == l.g1 && shardOk s c l.at_ sh then some (.shard c.member c.record.seq l.at_ sh) else none)
    else none
  if l.place ≠ 1 then here c l
  else
    (caps.find? (fun b => b.member == c.member && b.record.seq == c.record.base)).bind (fun b =>
      (capSessions b g0).findSome? (fun k => if shardOk s b k.off k.shard then (k.locators.find? (fun x => x.g1 == l.g1)).bind (here b) else none))

/-- First and last global position of a page. -/
def firstPos (g1 : Word) : Nat := bits g1 47 24
def lastPos (g1 : Word) : Nat := bits g1 23 0

/-- Whether a page's data holds every position that a candidate of length `len` held in it (R535 step 4). -/
def holdsAll (len : Nat) (g1 : Word) : PageSrc → Bool
  | .pool _ => true
  | .shard _ _ _ sh => min len (lastPos g1 + 1) ≤ max sh.length (firstPos g1)

/-- The pages of a candidate with their data, of those that hold a position below `len`; none where one does not resolve or holds too
little. `mid` keeps the page of position `len` as well. -/
def candPages (s : State) (caps : List Capture) (k : Candidate) (len : Nat) (mid : Bool) : Option (List (Word × PageSrc)) :=
  (k.locators.filter (fun l => firstPos l.g1 < len || (mid && firstPos l.g1 ≤ len))).foldl (fun (a : Option (List (Word × PageSrc))) l =>
    a.bind (fun a => (resolve s caps k.cap k.shard.g0 l).bind (fun p => if holdsAll len l.g1 p then some (a ++ [(l.g1, p)]) else none))) (some [])

/-- Every page that a candidate requires, over every member of a captured ring (R535 step 4). -/
def allPages (s : State) (caps : List Capture) (k : Candidate) (mid : Bool) : Option (List (Word × PageSrc)) :=
  if !shardOk s k.cap k.off k.shard then none
  else match candPages s caps k k.shard.length mid, k.shard.ring with
    | none, _ => none
    | some own, none => some own
    | some own, some (m, mu, _) =>
      ((List.range m).filter (· != mu)).foldl (fun (a : Option (List (Word × PageSrc))) j => a.bind (fun a =>
        ((candidates caps (some j) k.shard.g0).findSome? (fun c =>
          if k.shard.length ≤ c.shard.length && shardOk s c.cap c.off c.shard then candPages s caps c k.shard.length false else none)).map (a ++ ·)))
        (some own)

/-- What of a partition's shape R535 step 6 compares. -/
def shapeKey (s : State) (p : Nat) : List Nat :=
  [p, granulesVal s p, ringModeVal s p, ringSizeVal s p, ringMemberVal s p, ringSegmentLog2Val s p, nodeIdVal s]

/-- Whether a partition at the capture has the shape of its target partition. -/
def sameShape (s : State) (c : ControlImage) (p q : Nat) : Bool :=
  shapeKey { s with dict.vals := c.vals, dict.run := c.run } p == shapeKey s q

/-- The STEP shard of the chosen survey for a candidate (R535 step 6). -/
def stepShard (s : State) (k : Candidate) : Option (Step × Option Merge × List (List Nat)) :=
  k.cap.shards.findSome? (fun e => match e.2.body with
    | .step st m stack => if e.2.g0 == k.shard.g0 && e.2.stepSeq == k.shard.stepSeq && shardOk s k.cap e.1 e.2 then some (st, m, stack) else none
    | _ => none)

/-- The key of the page that holds global positions from `pos` on, for a session here; none where another ring member holds them. -/
def placeKey (s : State) (i : Nat) (g1 : Word) : Option Nat :=
  let h := sessShape s i
  let p := (sessAt s i).entry.partition
  if holdsPos s p (firstPos g1) then some (pageKey h (bits g1 63 56) (bits g1 55 48) (localPos s p (firstPos g1) / h.run)) else none

/-- Pages placed so far: member, survey, offset, then frame and the length up to which its rows are written. -/
abbrev Placed := List ((Option Nat × Nat × Nat) × Nat × Nat)

/-- Write a page's rows from a shard into a frame, those at positions from `len` on zero, but for the row at `len` of a resumed step. -/
def fillFrame (h : Shape) (f : Nat) (g1 : Word) (len : Nat) (mid : Bool) (d : List Byte) (s : State) : State :=
  let s := writeBytes (frameBase f) (slice d 0 65536) s
  foldRange h.run (fun t j =>
    let pos := firstPos g1 + j
    if pos < len || (mid && pos == len) then t else zeroRow h f j t) s

/-- The data of a PAGE shard. -/
def shardData (sh : Shard) : List Byte := match sh.body with | .page d => d | _ => []

/-- Put one page of a session into HBM (R536): a frame of its own, the frame of another session that names the same shard, or a FILLING
frame that will be fetched from its pool slot. None where no frame is FREE. -/
def placePage (i k len : Nat) (mid : Bool) (g1 : Word) (src : PageSrc) (a : Placed × State) : Option (Placed × State) :=
  let h := sessShape a.2 i
  let page (x : PageEntry) (t : State) : State := putPage i k { x with dirty := true } t
  match src with
  | .pool slot =>
    (allocPage i h (keyLayer h k) (keyHead h k) (keyPage h k) .filling a.2).map (fun t =>
      (a.1, page { pageAt (sessAt t i) k with homeValid := true, homeTier := 1, homeSlot := slot }
        { t with poolSlots := if t.poolSlots.contains slot then t.poolSlots else t.poolSlots ++ [slot] }))
  | .shard m q off sh =>
    match a.1.find? (fun e => e.1 == (m, q, off)) with
    | some (id, f, n) =>
      (ensureLeaf i h (keyLayer h k) (keyHead h k) (keyPage h k / 8192) a.2).map (fun t =>
        let t := if n < len then fillFrame h f g1 len mid (shardData sh) t else t
        (a.1.map (fun e => if e.1 == id then (id, f, max n len) else e), page { tier := 0, frame := f } (addRef f t)))
    | none =>
      (allocPage i h (keyLayer h k) (keyHead h k) (keyPage h k) .kv a.2).map (fun t =>
        let f := (pageAt (sessAt t i) k).frame
        (a.1 ++ [((m, q, off), f, len)], page (pageAt (sessAt t i) k) (fillFrame h f g1 len mid (shardData sh) t)))

/-- Put every page of a session into HBM. -/
def placePages (i len : Nat) (mid : Bool) (pages : List (Nat × Word × PageSrc)) (a : Placed × State) : Option (Placed × State) :=
  pages.foldl (fun a e => a.bind (placePage i e.1 len mid e.2.1 e.2.2)) (some a)

/-- Put one page of a PARKED session into its tier (R536): the pool slot it has, or a host slot that is written now; none without one. -/
def stowPage (i k len : Nat) (g1 : Word) (src : PageSrc) (s : State) : Option State :=
  let h := sessShape s i
  let leaf (t : State) : State := modSess i (fun x => { x with leaves := Tab.put x.leaves (k / 8192) 0 }) t
  match src with
  | .pool slot => some (leaf (putPage i k { tier := 2, dirty := true, homeValid := true, homeTier := 1, homeSlot := slot }
      { s with poolSlots := if s.poolSlots.contains slot then s.poolSlots else s.poolSlots ++ [slot] }))
  | .shard _ _ _ sh =>
    (allocHost 1 s).map (fun (slot, t) =>
      let c := (sessAt t i).record.context
      let d := ((List.range 16).map (fun j => ((List.range 16).map (fun r =>
        if firstPos g1 + 16 * (j / h.slices) + r < len then slice (shardData sh) (4096 * j + 256 * r) 256 else List.replicate 256 0)).flatten)).flatten
      let t := foldRange h.used (fun u j =>
        let a := tierAddr 1 slot (4096 * j)
        sendTile (fetchQp u j) { ptype := 4, addr := word a, payload := tierForm u c a (slice d (4096 * j) 4096) }
          (pmu { code := 0x19, priv := .context c, requester := some 0x130, addr := some a } (bump ctrTilesParked u))) t
      leaf (putPage i k { tier := 1, dirty := true, homeValid := true, homeTier := 0, homeSlot := slot } t))

/-- Put a PARKED session's pages and map image into their tiers; none without a host slot. -/
def stowPages (i len : Nat) (pages : List (Nat × Word × PageSrc)) (s : State) : Option State :=
  (pages.foldl (fun a e => a.bind (stowPage i e.1 len e.2.1 e.2.2)) (some s)).bind (fun t =>
    let x := sessAt t i
    let ks := Tab.keys x.leaves
    let img := rootBytes (fun r => (ks.idxOf? r).map (· + 1)) ++ (ks.map (leafBytes x.pages)).flatten
    (allocHost (img.length / 65536) t).map (fun (slot, t) =>
      let t := foldRange (img.length / 4096) (fun u j =>
        let a := tierAddr 1 (slot + j / 16) (4096 * (j % 16))
        sendTile (fetchQp u j) { ptype := 4, addr := word a, payload := tierForm u x.record.context a (slice img (4096 * j) 4096) } u) t
      modSess i (fun y => { y with
        mapHome := (List.range' slot (img.length / 65536)).map (fun k => (1, k))
        record.mapTier := 1
        record.mapAddr := slot * 65536 }) t))

/-- Give a session stack segments with the entries that a capture holds, bottom first: the numbers taken, and the top. -/
def placeStack (i : Nat) (l : List (List Nat)) (s : State) : List Nat × Nat × State :=
  l.foldl (fun (a : List Nat × Nat × State) e =>
    match freeSegment a.2.2 with
    | some k => (a.1 ++ [k], k, { a.2.2 with segments := Tab.put a.2.2.segments k { owner := i, entries := e, below := a.2.1 } })
    | none => a) ([], 0, s)

/-- Give a session its grammar stack again, with the segment it had reserved (R275, R288). -/
def placeGrammar (i : Nat) (w : Word) (stack : List (List Nat)) (s : State) : Word × List Nat × Option Nat × State :=
  let (ks, top, s) := placeStack i stack s
  let w := if gOn w then setBits w 28 9 top else w
  if gOn w && gReserved w then
    match freeSegment s with
    | some k => (w, ks ++ [k], some k, { s with segments := Tab.put s.segments k { owner := i } })
    | none => (w, ks, none, s)
  else (w, ks, none, s)

/-- The state in which a captured session is restored (the restore effects table), and whether its pages stay in slower tiers. -/
def restoredState (e : Entry) (r : Record) : SessState × Bool :=
  match e.state with
  | .active => (.ready, false)
  | .moving => (returnOf r.returnState, r.returnState == .parked)
  | .parked => (.parked, true)
  | .frozen => (.frozen, r.returnState == .parked)
  | st => (st, false)

/-- The Atlas index that a captured session takes (R536, R63), and the generation. -/
def restoredIndex (s : State) (h : Word) : Option (Nat × Nat) :=
  let i := handleIndex h
  if enabled s i && (sessAt s i).entry.state == .free && !(sessAt s i).withheld then some (i, handleGeneration h)
  else (allocIndex s).map (fun j =>
    let g := (sessAt s j).entry.generation
    (j, if g ≥ 8589934591 then 1 else g + 1))

/-- A session's timers after its restore (the restore effects table): deadlines stay; a state that a move returns to starts its own. -/
def restoredTimer (i : Nat) (e : Entry) (st : SessState) (s : State) : State :=
  if e.state == .moving then
    if st == .waiting then enterWaiting i none s else if st == .parked then startTtl i s else stopTimer i s
  else if st == .waiting || st == .parked || st == .frozen then modSess i (fun y => { y with timerOn := y.record.timerNs != 0 }) s
  else stopTimer i s

/-- The fetches of a restored session whose pages lie in pool slots (R260, R536). -/
def reviveRestored (i : Nat) (s : State) : State :=
  let x := sessAt s i
  let ks := (x.pages.filter (fun e => filling s e.2)).map Prod.fst
  if ks.isEmpty then s
  else
    let h := sessShape s i
    modSess i (fun y => { y with
      entry.reviving := true
      revive := some { length := y.record.length, order := s.reviveTurn, turn := 0, tier := 2, mapSlots := [],
                       slots := ks.map (fun k => (k, (2, (pageAt y k).homeSlot))), rootLeft := 0, leafLeft := (Tab.keys y.leaves).map (fun r => (r, 0))
                       todo := ((List.range h.layers).map (fun l => (ks.filter (fun k => keyLayer h k == l)).map (fun k => (2, k)))).flatten } })
      { s with reviveTurn := s.reviveTurn + 1 }

/-- What one handle's restore came to. -/
inductive Fate where
  | skipped | refused (st : Status) | restored (i : Nat)

/-- Put a resumed step back (R537): it waits for its queue pair; its open merge is kept aside. -/
def placeStep (i : Nat) (st : Step) (m : Option Merge) (stack : List (List Nat)) (old : List Nat) (s : State) : State :=
  let (w, ks, res, s) := placeGrammar i st.grammar stack s
  let st := { st with
    grammar := w, reserved := res, taken := ks, emptied := old, heldPhase := if st.phase == .appended then .ready else st.phase, phase := .held
    resumeBy := now s + resumeHoldMsVal s * 1000000, mirrorAt := 0 }
  modSess i (fun y => { y with entry.state := .active, step := some st })
    { s with survey.merges := match m with | some m => Tab.put s.survey.merges i m | none => s.survey.merges }

/-- Enter a restored session at index `i` with its record, its copy of the grammar stack and its place in the ring map (R536): the segments of a
step's own stack are what the list names. A step that the restore ends answers later queries with `STEP_RESTART` (R83). -/
def placeRecord (k : Candidate) (e : Entry) (q i g : Nat) (same lost stepped : Bool) (s : State) : List Nat × State :=
  let st := (restoredState e k.record).1
  let rec0 := { k.record with
    handle := handleOf q g i
    innings := if same then k.record.innings else (k.record.innings + 1) % 2 ^ 32
    flags := if lost then k.record.flags ||| 8 else k.record.flags
    mapTier := 0, mapAddr := 0, residentPages := 0, totalPages := 0 }
  let s := setSess i
    { entry := { state := st, partition := q, generation := g, conf := (ctxAt s rec0.context).mode == .confidential,
                 cancelPending := e.cancelPending && stepped, waitPending := e.waitPending && stepped }
      record := rec0, tombAt := now s, parkedAt := now s, inningsAt := if same then none else some (now s)
      ended := if lost then some .stepRestart else none } { s with freed := s.freed.erase i }
  let z := placeGrammar i rec0.grammar k.stack (if lost then bump ctrStepRestarts s else s)
  let s := modSess i (fun y => { y with record.grammar := z.1, reservedSeg := z.2.2.1 }) z.2.2.2
  (z.2.1, if k.shard.g0 != k.record.handle then { s with ringMap := s.ringMap ++ [(k.shard.g0, i)] } else s)

/-- A restored session whose pages are placed: its step, its timer, its partner's copy (R536, R537). -/
def finishPlace (k : Candidate) (e : Entry) (i : Nat) (step : Option (Step × Option Merge × List (List Nat))) (ks : List Nat) (s : State) : State :=
  let s := match step with
    | some (x, m, stack) => placeStep i x m stack ks s
    | none => s
  syncSession i (restoredTimer i e (restoredState e k.record).1 (reviveRestored i s))

/-- Place the pages of a restored session in HBM, or in the slow tiers where it stays parked (R536). -/
def placeContent (r : RestoreRun) (k : Candidate) (e : Entry) (i : Nat) (step : Option (Step × Option Merge × List (List Nat)))
    (ks : List Nat) (a : Placed × State) (s : State) : Fate × Placed × State :=
  match allPages s r.captures k (e.state == .active) with
  | none => (.refused .shardsIncomplete, a)
  | some pages =>
    let keyed := sortBy (fun x y => x.1 < y.1) (pages.filterMap (fun p => (placeKey s i p.1).map (fun n => (n, p.1, p.2))))
    if (restoredState e k.record).2 then
      match stowPages i k.record.length keyed s with
      | none => (.refused .tierUnreachable, a)
      | some t => (.restored i, a.1, finishPlace k e i step ks t)
    else
      match (allocRoot i s).bind (fun t => placePages i k.record.length step.isSome keyed (a.1, t)) with
      | none => (.refused .frameShortage, a)
      | some (p, t) => (.restored i, p, finishPlace k e i step ks t)

/-- Restore one session from a complete candidate (R536). -/
def placeSession (r : RestoreRun) (k : Candidate) (c : ControlImage) (e : Entry) (q : Nat) (a : Placed × State) : Fate × Placed × State :=
  let s := a.2
  match restoredIndex s k.record.handle with
  | none => (.refused .atlasFull, a)
  | some (i, g) =>
    let same := sameShape s c e.partition q
    let step := if e.state == .active && same && some k.cap.record.seq == r.chosen then stepShard s k else none
    let st := (restoredState e k.record).1
    let (ks, s) := placeRecord k e q i g same (e.state == .active && step.isNone) step.isSome s
    if st == .faulted || st == .tombstone then (.restored i, a.1, syncSession i s) else placeContent r k e i step ks a s

/-- Choose and restore the capture of one handle (R535 steps 4 and 5, R574). -/
def restoreHandle (r : RestoreRun) (g0 : Word) (a : Placed × State) : Fate × Placed × State :=
  let s := a.2
  let cs := candidates r.captures none g0
  let ready (k : Candidate) : Option (Candidate × ControlImage × Entry) :=
    (capControl s k.cap).bind (fun c => (Tab.find c.entries (handleIndex k.record.handle)).bind (fun e =>
      let still := e.state == .faulted || e.state == .tombstone
      if shardOk s k.cap k.off k.shard && (still || (allPages s r.captures k (e.state == .active)).isSome) then some (k, c, e) else none))
  let secret := cs.any (fun k => match capControl s k.cap with
    | some c => (Tab.get c.contexts k.record.context {}).mode == .confidential
    | none => k.shard.enc.isSome)
  let fail : Status := if secret then .contextKeyAbsent else .shardsIncomplete
  match cs.findSome? ready with
  | none => (.refused fail, a)
  | some (k, c, e) =>
    let q := r.map.getD e.partition 0xFF
    let x := Tab.get c.contexts k.record.context {}
    let y := ctxAt s k.record.context
    if q = 0xFF || c.arriving.contains (handleIndex k.record.handle) then (.skipped, a)
    else if x.mode == .confidential && !(y.mode == .confidential && y.keyCheck == x.keyCheck && y.partition == q) then (.refused .contextKeyAbsent, a)
    else match placeSession r k c e q a with
      | (.refused .shardsIncomplete, b) => (.refused fail, b)
      | z => z

/-- Place one Compass index (R312, R536): its frames in the target partition, its pool slots kept; left out where frames or data are wanting. -/
def placeIndex (r : RestoreRun) (x : Nat) (v : VIndex) (s : State) : State :=
  let q := r.map.getD v.partition 0xFF
  let data (o : Nat) : Option (List Byte) :=
    (r.captures.filter (fun c => c.member.isNone)).findSome? (fun c =>
      if some c.record.seq == r.chosen || (r.captures.any (fun d => some d.record.seq == r.chosen && d.record.base == c.record.seq)) then
        c.shards.findSome? (fun e => match e.2.body with
          | .index d => if bits e.2.g1 63 56 == x && bits e.2.g1 31 0 == o && shardOk s c e.1 e.2 then some d else none
          | _ => none)
      else none)
  let n := (indexFrames v).length
  if q = 0xFF || (Tab.find s.indexes x).isSome || !(List.range n).all (fun o => (data o).isSome) then s
  else
    let take (k j : Nat) (a : Option (List (List Nat) × State)) : Option (List (List Nat) × State) :=
      a.bind (fun a => (allocIndexFrames x v.context q j k a.2).map (fun b => (a.1 ++ [b.1], b.2)))
    let fixed := take v.mapFrames.length 0 (take v.dirFrames.length 0 (take v.centroidFrames.length 0 (some ([], s))))
    match v.lists.foldl (fun a e => take e.2.frames.length e.1 a) fixed with
    | none => s
    | some (fs, t) =>
      let lists : Tab VList := (v.lists.zip (fs.drop 3)).map (fun e => (e.1.1, { e.1.2 with frames := e.2 }))
      let w := { v with partition := q, centroidFrames := fs.getD 0 [], dirFrames := fs.getD 1 [], mapFrames := fs.getD 2 [], lists, placing := none }
      let t := (fs.flatten).zipIdx.foldl (fun u f => writeBytes (frameBase f.1) (slice ((data f.2).getD []) 0 65536) u) t
      let t := lists.foldl (fun u e => if e.2.pool.isSome then u else writeHeaders x e.1 w e.2 u) t
      let slots := (lists.map (fun e => poolSlotsOf e.2)).flatten
      setIndex x w { t with poolSlots := t.poolSlots ++ slots.filter (fun k => !t.poolSlots.contains k) }

/-- The generations of captured Atlas entries stay those of the entries: an entry allocated again is never taken for an ancestor (R61, R99). -/
def placeGenerations (entries : Tab Entry) (s : State) : State :=
  entries.foldl (fun u e =>
    if (sessAt u e.1).entry.generation < e.2.generation then
      { modSess e.1 (fun y => { y with entry.generation := e.2.generation }) u with freed := u.freed.filter (· != e.1) ++ [e.1] }
    else u) s

/-- Restore control state from the chosen survey (R535 step 3, the restore effects table, R574). -/
def placeControl (r : RestoreRun) (c : ControlImage) (t : TablesImage) (serial : Word) (s : State) : State :=
  let s := { s with models := t.models, ropes := t.ropes, vocabs := t.vocabs, grammars := t.grammars, lists := t.lists, triggers := c.triggers }
  let s := placeGenerations c.entries s
  let s := c.contexts.foldl (fun u e =>
    let q := r.map.getD e.2.partition 0xFF
    if e.2.mode == .open_ && (ctxAt u e.1).mode == .none && q ≠ 0xFF then
      { u with contexts := Tab.put u.contexts e.1 { mode := .open_, partition := q, tornDown := e.2.tornDown, escapes := Tab.get t.escapes e.1 [] } }
    else u) s
  let s := c.qps.foldl (fun u e =>
    if e.2.created && !(qpAt u e.1).created then
      setQp e.1 { created := true, kind := e.2.kind, bound := e.2.bound, context := e.2.context, tclass := e.2.tclass, port := e.2.port, enc := e.2.enc } u
    else u) s
  let s := c.regions.foldl (fun u e =>
    let slots := (e.2.root :: Tab.vals e.2.leaves ++ Tab.vals e.2.lineSlots).filter (fun k => !u.poolSlots.contains k)
    { u with regions := Tab.put u.regions e.1 { e.2 with lease := none }, poolSlots := u.poolSlots ++ distinct slots }) s
  let s := if serial == moduleSerial then
      (c.frames.filter (fun e => e.2.state == .retired)).foldl (fun u e =>
        if (frameAt u e.1).state == .free then setFrame e.1 { state := .retired } u else u) s
    else s
  c.indexes.foldl (fun u e => placeIndex r e.1 e.2 u) s

/-- Put back the jobs of resumed steps (R536, R537), their members the sessions that resume. -/
def placeJobs (c : ControlImage) (s : State) : State :=
  let held := s.sessions.filterMap (fun e => match e.2.step with | some st => if st.phase == .held then some (st.job, e.1) else none | none => none)
  c.jobs.foldl (fun u e =>
    let ms := (held.filter (fun h => h.1 == e.1)).map Prod.snd
    if ms.isEmpty then u
    else { u with jobs := Tab.put u.jobs e.1 { e.2 with members := ms, eligibleAt := none, heldAt := none, idleAt := none, cutting := false } }) s

/-- The handles that a restore's captures name, in the order of partition and index. -/
def capHandles (caps : List Capture) : List Word :=
  let l := ((caps.filter (fun c => c.member.isNone)).map (fun c => (c.entries.filter (fun e => e.1 == 3)).map (fun e => e.2.2.1))).flatten
  sortBy (fun a b => handlePartition a < handlePartition b || (handlePartition a == handlePartition b && handleIndex a < handleIndex b))
    (l.foldl (fun acc x => if acc.contains x then acc else acc ++ [x]) [])

/-- Restore each handle in turn, noting how it ended (R535 steps 4 to 6). -/
def placeAll (r : RestoreRun) (s : State) : State :=
  ((capHandles r.captures).foldl (fun (a : Placed × State) g0 =>
    match restoreHandle r g0 a with
    | (.skipped, b) => b
    | (.refused st, p, t) => (p, bump ctrRestoreSessionsFailed { t with survey.restored := t.survey.restored ++ [(g0, 0, st.code)] })
    | (.restored i, p, t) => (p, { t with survey.restored := t.survey.restored ++ [(g0, (sessAt t i).record.handle, Status.ok.code)] })) ([], s)).2

/-- How many shards of a restore's captures fail their CRC or tag (`SHARDS_REJECTED`). -/
def rejectedShards (s : State) (caps : List Capture) : Nat :=
  ((caps.map (fun c => (c.shards.filter (fun e => !shardOk s c e.1 e.2)).length))).sum

/-- Carry out a restore whose captures are gathered (R535): the dictionary's current values give the target shape (R534). -/
def carryRestore (r : RestoreRun) (s : State) : State :=
  let s := bumpBy ctrShardsRejected (rejectedShards s r.captures) { s with survey.restore := none, survey.restored := [] }
  match r.captures.find? (fun c => c.member.isNone && some c.record.seq == r.chosen) with
  | none => refuse r.msg .surveyNone s
  | some c => match capControl s c, capTables s c with
    | some x, some t =>
      let run := s.dict.run
      let s := placeControl r x t c.record.serial { s with dict.run := s.dict.vals, survey.baseSeq := 0, survey.baseSealed := [] }
      let s := placeJobs x (placeAll r s)
      refuse r.msg .ok { s with dict.run := run }
    | _, _ => refuse r.msg .surveyNone s

end Sys2Proof.Machine
end

