-- ==== Sys2Proof/Machine/Restores.lean ====
section
/-!
DEFINITION. Gathering a restore's captures from the NV module and the host, NVMe completions, steps that a restore resumes (R523, R534, R535,
R537).
-/
namespace Sys2Proof.Machine

/-- The state with `f` applied to the restore in progress. -/
def modRestore (f : RestoreRun → RestoreRun) (s : State) : State := { s with survey.restore := s.survey.restore.map f }

/-- The restore in progress ends with an answer that restored nothing. -/
def endRestore (st : Status) (s : State) : State :=
  match s.survey.restore with
  | none => s
  | some r => refuse r.msg st { s with survey.restore := none }

/-- Whether a survey's stream from an offset on is read from the NV module (R534): source 1 serves the survey chosen, and whatever the NV module
does not hold. -/
def fromNv (s : State) (r : RestoreRun) (c : CommitRec) (member : Option Nat) (off : Nat) : Bool :=
  member.isNone && s.survey.up && (Tab.vals s.survey.records).contains c && c.heldFrom ≤ off && (r.source = 0 || r.chosen != some c.seq)

/-- Whether the host may be asked for a survey's stream (R534). -/
def fromHost (s : State) (r : RestoreRun) (c : CommitRec) (member : Option Nat) : Bool :=
  r.source = 1 || (member.isNone && (Tab.vals s.survey.records).contains c)

/-- Where a read that starts at a stream offset must end: at `HELD_FROM`, where the log wraps, after the 65,536 blocks of one NVMe command, or
at the end of what is wanted (R524, R534). -/
def readEnd (s : State) (c : CommitRec) (off hi : Nat) : Nat :=
  let n := max (logBytes s.survey.lbas) 4096
  let hi := min (min hi ((off / n + 1) * n)) (off + 65536 * 4096)
  if off < c.heldFrom then min hi c.heldFrom else hi

/-- Send `SHARD_REQUEST` (R534): survey sequence, offset, length; `ARGS` names another ring member as its number plus 1 (log entry 47). -/
def shardRequest (r : RestoreRun) (seq : Nat) (member : Option Nat) (off : Word) (len : Nat) (s : State) : State :=
  notify 0 0xF00A r.msg.tag 0 .ok (match member with | some m => word (m + 1) | none => 0) [word seq, off, word len] []
    (modRestore (fun q => { q with asked := some (seq, off.toNat) }) s)

/-- Read stream bytes of a survey from wherever they come; false where nothing can give them. -/
def readStream (r : RestoreRun) (c : CommitRec) (member : Option Nat) (off hi : Nat) (s : State) : Option State :=
  let e := readEnd s c off hi
  if fromNv s r c member off then some (nvRead .restore (logLba s.survey.lbas c.slot off) (ceilDiv (e - off) 4096) s)
  else if fromHost s r c member then some (shardRequest r c.seq member (word off) (e - off) s)
  else none

/-- Try the next slot for the survey to restore, or end with `SURVEY_NONE` (R535 step 1). -/
def nextSource (s : State) : State :=
  match s.survey.restore with
  | none => s
  | some r => match r.slots.findSome? (fun k => Tab.find s.survey.records k) with
    | none => endRestore .surveyNone s
    | some c => modRestore (fun q => { q with slots := q.slots.filter (· ≠ c.slot), want := [.manifest c none], part := [], chosen := some c.seq }) s

/-- Ask for the first piece that something can give; with none wanted, the restore is carried out. -/
def askNext : Nat → State → State
  | 0, s => s
  | fuel + 1, s =>
    match s.survey.restore with
    | none => s
    | some r =>
      let skip : State := modRestore (fun q => { q with want := q.want.tail, part := [] }) s
      match r.want with
      | [] => carryRestore r s
      | .record seq member :: _ => if r.source = 1 then shardRequest r seq member allOnes 4096 s else askNext fuel skip
      | .manifest c member :: _ =>
        (readStream r c member (c.manifest + r.part.length) (c.manifest + c.manifestBytes) s).getD
          (if r.captures.isEmpty then askNext fuel (nextSource s) else askNext fuel skip)
      | .stream c member lo hi :: _ => if hi ≤ lo then askNext fuel skip else (readStream r c member lo hi s).getD (askNext fuel skip)

/-- Go on with a restore. -/
def pumpRestore (s : State) : State := askNext (((s.survey.restore.map (fun r => r.want.length)).getD 0) + 4) s

/-- Manifest entries as kind, offset, G0 and G1. -/
def manifestEntries (b : List Byte) : List (Nat × Nat × Word × Word) :=
  (List.range (bits (wordAt b 0) 31 0)).map (fun j =>
    let o := 64 + 32 * j
    (bits (wordAt b o) 63 56, bits (wordAt b o) 55 0, wordAt b (o + 8), wordAt b (o + 16)))

/-- What to gather once the manifest of a survey has passed (R535 step 2): its stream; of a DELTA its BASE; of the chosen survey the other
slot's. -/
def wantAfter (s : State) (r : RestoreRun) (c : CommitRec) (member : Option Nat) : List Sys2Proof.Piece :=
  let base : List Sys2Proof.Piece :=
    if c.base = 0 then []
    else match (Tab.vals s.survey.records).find? (fun b => b.seq == c.base && b.serial == c.serial && member.isNone) with
      | some b => [.manifest b none]
      | none => if r.source = 1 then [.record c.base member] else []
  let other : List Sys2Proof.Piece :=
    if r.captures.isEmpty then
      ((Tab.vals s.survey.records).filter (fun d => d.seq != c.seq && d.seq != c.base && d.serial == c.serial &&
        (if c.base = 0 then c.seq else c.base) < d.seq)).map (fun d => .manifest d none)
    else []
  .stream c member 0 c.manifest :: (base ++ other)

/-- The ring members whose surveys the chosen survey's stream calls for (R535 step 2). -/
def wantMembers (r : RestoreRun) : List Sys2Proof.Piece :=
  match r.captures.find? (fun c => c.member.isNone && some c.record.seq == r.chosen) with
  | none => []
  | some c =>
    let rings := c.shards.filterMap (fun e => e.2.ring)
    let ms := distinct ((rings.map (fun g => (List.range g.1).filter (· != g.2.1))).flatten)
    if r.source = 1 then ms.map (fun m => .record c.record.seq (some m)) else []

/-- The bytes of the first wanted piece have come, with the shards that they hold by stream offset (R535). -/
def pieceCame (data : List Byte) (shards : Tab Shard) (s : State) : State :=
  match s.survey.restore with
  | none => s
  | some r =>
    let s := modRestore (fun q => { q with asked := none }) s
    match r.want with
    | [] => s
    | .record seq member :: rest =>
      match parseRecord (bits (wordAt data 0) 15 8) data with
      | some c =>
        if member.isNone && r.chosen.isSome && c.seq ≠ seq then pumpRestore (modRestore (fun q => { q with want := rest }) s)
        else pumpRestore (modRestore (fun q => { q with
          want := .manifest c member :: rest, part := [], chosen := if q.chosen.isNone then some c.seq else q.chosen }) s)
      | none =>
        if r.captures.isEmpty then endRestore .surveyNone s else pumpRestore (modRestore (fun q => { q with want := rest }) s)
    | .manifest c member :: rest =>
      let b := r.part ++ slice data 0 (readEnd s c (c.manifest + r.part.length) (c.manifest + c.manifestBytes) - (c.manifest + r.part.length))
      if b.length < c.manifestBytes then pumpRestore (modRestore (fun q => { q with part := b }) s)
      else if sha256 b == c.sha then
        pumpRestore (modRestore (fun q => { q with
          part := [], want := wantAfter s r c member ++ rest
          captures := q.captures ++ [{ record := c, member, entries := manifestEntries b }] }) s)
      else if r.captures.isEmpty then pumpRestore (nextSource s)
      else pumpRestore (modRestore (fun q => { q with part := [], want := rest }) s)
    | .stream c member lo hi :: rest =>
      let e := readEnd s c lo hi
      let s := modRestore (fun q => { q with
        captures := q.captures.map (fun k =>
          if k.record == c && k.member == member then
            { k with shards := (shards.filter (fun x => lo ≤ x.1 && x.1 < e)).foldl (fun t x => Tab.put t x.1 x.2) k.shards }
          else k)
        want := if e < hi then .stream c member e hi :: rest else rest }) s
      let whole := hi ≤ e && member.isNone && r.chosen == some c.seq
      pumpRestore (modRestore (fun q => if whole then { q with want := q.want ++ wantMembers q } else q) s)

/-- `RESTORE` (R534, R535): source, and the partition map as 64 bytes of body. It is answered once the restore is carried out. -/
def execRestore (m : Msg) (s : State) : Out :=
  .next (request { opcode := 0x0805, on := .mailbox, need := 1, most := 1 } m
    (1 < opNat m 0 || m.body.length < 64 || (m.body.take 64).any (fun b => 63 < b.toNat && b.toNat ≠ 0xFF)) (fun t =>
    if surveyBusy t then refuse m .surveyBusy t
    else if t.mode != .setup || t.sessions.any (fun e => e.2.entry.state != .free) then refuse m .restoreState t
    else
      let slots := match newestRecord t with | some c => [c.slot, 1 - c.slot] | none => []
      let r : RestoreRun := { msg := m, source := opNat m 0, map := (m.body.take 64).map (·.toNat) }
      let t := { t with survey.restore := some r }
      if opNat m 0 = 1 then pumpRestore (modRestore (fun q => { q with want := [.record 0 none] }) t)
      else pumpRestore (nextSource (modRestore (fun q => { q with slots := slots }) t))) s)

/-- `SHARD_SUPPLY` (R534): survey sequence, stream offset, bytes, with the shards that they hold by stream offset. Bytes that no request asked
for have no effect. -/
def execShardSupply (m : Msg) (shards : Tab Shard) (s : State) : Out :=
  .next (request { opcode := 0x0806, on := .mailbox, need := 2, most := 2 } m false (fun t =>
    let t := refuse m .ok t
    match t.survey.restore with
    | some r => if r.asked == some (opNat m 0, opNat m 1) then pieceCame m.body shards t else t
    | none => t) s)

/-- `RESTORE_STATUS` (R535): from its first entry on, up to 512 sessions as captured handle, new handle, status. -/
def execRestoreStatus (m : Msg) (s : State) : Out :=
  .next (request { opcode := 0x0807, on := .mailbox, need := 1, most := 1 } m false (fun t =>
    let l := (t.survey.restored.drop (opNat m 0)).take 512
    respond m { body := wordsBytes (word l.length :: (l.map (fun e => [e.1, e.2.1, word e.2.2.toNat])).flatten) } t) s)

/-- An NVMe command has failed (R523): what issued it fails. A restore that has no survey yet tries the other slot (R535 step 1). -/
def nvFailed (op : NvOp) (s : State) : State :=
  let s := alert .nvError (bump ctrNvErrors s)
  match op with
  | .survey => failSurvey .surveyNvError s
  | .restore => if (s.survey.restore.map (fun r => r.captures.isEmpty)).getD false then pumpRestore (nextSource s) else endRestore .surveyNvError s
  | .format _ => match s.survey.format with
    | some m => refuse m .surveyNvError { s with survey.format := none }
    | none => s
  | _ => s

/-- `NV_COMMAND_DONE` (R519, R523 to R531, R535): the completion of the command under way; one for another command is late (R56). -/
def execNvCommandDone (d : NvDone) (s : State) : Out :=
  .next (engine s (match s.survey.doing with
    | none => bump ctrLateDiscards s
    | some (op, id, _) =>
      if id ≠ d.id then bump ctrLateDiscards s
      else
        let s := { s with survey.doing := none }
        if !d.ok then advanceSurvey (nvFailed op s)
        else match op with
          | .label => if labelOk s.survey.lbas d.data then nvRead (.record 0) (slotLba s.survey.lbas 0) 1 { s with survey.labelled := true } else s
          | .record k =>
            let s := match parseRecord k d.data with
              | some c => { s with survey.records := Tab.put s.survey.records k c }
              | none => s
            if k = 0 then nvRead (.record 1) (slotLba s.survey.lbas 1) 1 s else s
          | .format left =>
            let s := formatNext (left - 1) s
            if left = 1 then (match s.survey.format with | some m => refuse m .ok { s with survey.format := none } | none => s) else s
          | .survey => surveyWritten s
          | .restore => pieceCame d.data d.shards s
          | .stale => advanceSurvey s))

/-- `NV_TIMEOUT` (R523, R529, R533). -/
def execNvTimeout (s : State) : Out :=
  .next (engine s (match s.survey.doing with
    | none => s
    | some (op, _, due) => if now s < due then s else nvFailed op { s with survey.doing := none }))

/-- Put a resumed step's open merge back under a new tag (R537): every unit not accepted is issued again. None while no catcher has room. -/
def resumeMerge (i : Nat) (m : Merge) (s : State) : Option State :=
  match (m.catcher :: catcherOrder i).find? (fun c => m.reserve ≤ storeFree s c) with
  | none => none
  | some c =>
    let x := sessAt s i
    let todo := (mergeUnits s i m.layer (sessShape s i) m.blocks m.count).filter (fun u => !m.leaves.any (fun l => l.1 == u))
    let tag := (s.mergeTag + 1) % 2 ^ 32
    some (setMerge tag { m with
      catcher := c, index := i, innings := x.record.innings, todo, fielders := distinct (todo.map (fun u => u.fielder)), closing := false
      awaiting := [] } { s with mergeTag := tag })

/-- `STEP_RESUMED` (R537): the queue pair is READY, the host is told `STEP_SEQ` and the layer as operand words, and the step goes on. -/
def execStepResumed (i : Nat) (s : State) : Out :=
  .next (engineHeld s (match (sessAt s i).step with
    | none => s
    | some st =>
      if st.phase != .held || !qpReady s st.qp then s
      else
        let go (t : State) : State :=
          let x := sessAt t i
          let t := modSess i (fun y => { y with step := some { st with phase := st.heldPhase } }) { t with survey.merges := Tab.drop t.survey.merges i }
          touchJobs (notify st.qp 0xF00C st.tag x.record.handle .ok 0 [word x.record.stepSeq, word st.layer] [] (bump ctrStepsResumed t))
        match st.heldPhase, Tab.find s.survey.merges i with
        | .merging, some m => (match resumeMerge i m s with | some t => go t | none => s)
        | _, _ => go s))

/-- `RESUME_HOLD_TIMEOUT` (R537). -/
def execResumeHoldTimeout (i : Nat) (s : State) : Out :=
  .next (engineHeld s (match (sessAt s i).step with
    | none => s
    | some st =>
      if st.phase == .held && st.resumeBy ≤ now s && !qpReady s st.qp then
        settle (restartStep i .stepRestart { s with survey.merges := Tab.drop s.survey.merges i })
      else s))

end Sys2Proof.Machine
end

