-- ==== Sys2Proof/Machine/Window.lean ====
section
/-!
DEFINITION. The register window (chapter 17), `FRAME_READ` (R140) and PLCA's beacons (R624).
-/
namespace Sys2Proof.Machine

/-- Registers of the window as R630 decodes them. -/
inductive Reg where
  | id | format | scratch | pmuCtrl | alertStatus | none
  | ovfStatus (j : Nat) | ovfAlert (j : Nat) | counter (n : Nat) | config (n k : Nat) | filter (f k : Nat)
  deriving DecidableEq

/-- The register at a byte offset (R630, R631). -/
def regAt (o : Nat) : Reg :=
  let b := o / 65536 % 64
  let w := o / 4 % 1024
  if b = 0 then (if w = 0 then .id else if w = 1 then .format else if w = 2 then .scratch else if w = 4 then .pmuCtrl else .none)
  else if b = 1 then
    (if w = 0 then .alertStatus else if 64 ≤ w && w < 96 then .ovfStatus (w - 64) else if 128 ≤ w && w < 160 then .ovfAlert (w - 128) else .none)
  else if b = 8 then .counter w
  else if 9 ≤ b && b ≤ 12 then .config (256 * (b - 9) + w / 4) (w % 4)
  else if b = 13 && 4 ≤ w && w < 64 then .filter (w / 4) (w % 4)
  else .none

/-- Read one register (R633, R634): its value, and the state after what the read clears. -/
def readReg (o : Nat) (s : State) : BitVec 32 × State :=
  match regAt o with
  | .id => (0x47530960, s)
  | .format => (1, s)
  | .scratch => (s.csr.scratch, s)
  | .pmuCtrl => (if s.csr.freeze then 1 else 0, s)
  | .alertStatus => (s.csr.alert.setWidth 32, { s with csr.alert := 0 })
  | .ovfStatus j => (Tab.get s.csr.ovf j 0, { s with csr.ovf := Tab.drop s.csr.ovf j })
  | .ovfAlert j => (Tab.get s.csr.ovfAlert j 0, s)
  | .counter n => (Tab.get s.csr.counters n 0, s)
  | .config n k => (cfgWord s n k, s)
  | .filter f k => (Tab.get s.csr.filters (4 * f + k) 0, s)
  | .none => (0, s)

/-- The value of a masked register after a write (R632). -/
def masked (v w : BitVec 32) : BitVec 32 :=
  let m := w >>> 16
  (v &&& ~~~m) ||| (w &&& m &&& 0xFFFF)

/-- Write one register (R631, R632, R634, R636, R640); reserved bits stay zero. -/
def writeReg (o : Nat) (w : BitVec 32) (s : State) : State :=
  match regAt o with
  | .scratch => { s with csr.scratch := w }
  | .pmuCtrl =>
    let v := masked (if s.csr.freeze then 1 else 0) w
    let s := if v.getLsbD 1 then { s with csr.counters := [] } else s
    { s with csr.freeze := v.getLsbD 0 }
  | .ovfAlert j => { s with csr.ovfAlert := Tab.put s.csr.ovfAlert j w }
  | .counter n => { s with csr.counters := Tab.put s.csr.counters n w }
  | .config n k =>
    let v : BitVec 32 := if k = 0 then masked (cfgWord s n 0) w else if k = 1 then w &&& 0xFFFFFFF0 else if k = 2 then w &&& 0x8FFF0000 else 0
    { s with csr.cfg := Tab.put s.csr.cfg (4 * n + k) v }
  | .filter f k => { s with csr.filters := Tab.put s.csr.filters (4 * f + k) w }
  | _ => s

/-- Read `n` words from an offset on, ascending (R628). -/
def readRegs (o : Nat) : Nat → State → List (BitVec 32) × State
  | 0, s => ([], s)
  | n + 1, s =>
    let (v, s) := readReg o s
    let (l, s) := readRegs (o + 4) n s
    (v :: l, s)

/-- Write words from an offset on, ascending (R628). -/
def writeRegs (o : Nat) : List (BitVec 32) → State → State
  | [], s => s
  | w :: l, s => writeRegs (o + 4) l (writeReg o w s)

/-- `CSR_ACCESS` (R626 to R629): byte offset, word count, operation code. -/
def csrAccess (m : Msg) (s : State) : State :=
  let o := opNat m 0
  let n := opNat m 1
  request { opcode := 0x0A02, on := .mailbox, need := 3, most := 3, freeze := false } m
    (1 < opNat m 2 || (opNat m 2 == 1 && n ≤ 64 && m.body.length < 4 * n)) (fun t =>
    if o % 4 ≠ 0 then refuse m .csrAlign t
    else if n = 0 || 64 < n || 0x400000 < o + 4 * n then refuse m .csrRange t
    else if opNat m 2 = 0 then
      let (l, t) := readRegs o n t
      respond m { body := (l.map (fun v => leBytes 4 v.toNat)).flatten } t
    else refuse m .ok (writeRegs o ((chunks 4 n m.body).map (fun b => BitVec.ofNat 32 (leNat b))) t)) s

/-- `CSR_WRITE` (R626 to R632). -/
def execCsrWrite (m : Msg) (s : State) : Out := .next (csrAccess m s)

/-- `PMU_CLEAR` (R636). -/
def execPmuClear (m : Msg) (s : State) : Out := .next (csrAccess m s)

/-- `COUNTER_VALUE_WRITE` (R640). -/
def execCounterValueWrite (m : Msg) (s : State) : Out := .next (csrAccess m s)

/-- `ALERT_STATUS_READ` (R634, R635). -/
def execAlertStatusRead (m : Msg) (s : State) : Out := .next (csrAccess m s)

/-- `OVF_STATUS_READ` (R634). -/
def execOvfStatusRead (m : Msg) (s : State) : Out := .next (csrAccess m s)

/-- The bytes of a record frame: 256 records (R118). -/
def recordImage (s : State) (f : Nat) : List Byte :=
  ((List.range 256).map (fun k => wordsBytes (recordWords (sessAt s (recordIndexAt (frameBase f + 256 * k)))))).flatten

/-- The bytes of a MAP frame: a session's root with its leaves' frame numbers, or a leaf (R124). -/
def mapFrameImage (s : State) (f : Nat) : List Byte :=
  let x := sessAt s (frameAt s f).owner
  if x.root == some f then rootBytes (fun r => Tab.find x.leaves r)
  else match x.leaves.find? (fun e => e.2 == f) with
    | some e => leafBytes x.pages e.1
    | none => List.replicate 65536 0

/-- The bytes of a frame of an index; a directory frame's stand in the directory (chapter 09). -/
def indexFrameImage (s : State) (f : Nat) : List Byte :=
  match (Tab.find s.indexes (frameAt s f).owner).bind (fun v => (v.dirFrames.idxOf? f).map (dirBytes v)) with
  | some l => l
  | none => readBytes s (frameBase f) 65536

/-- The bytes of a frame as a fielder or the control complex would read them (R140). -/
def frameImage (s : State) (f : Nat) : List Byte :=
  match (frameAt s f).state with
  | .record => recordImage s f
  | .map => mapFrameImage s f
  | .index => indexFrameImage s f
  | _ => readBytes s (frameBase f) 65536

/-- Whether any confidential context is live (before R577). -/
def anyLive (s : State) : Bool := (Tab.keys s.contexts).any (liveConf s)

/-- `FRAME_READ` (R140, R385, R577): frame number. Whether the read meets an uncorrectable error, and at which byte, is a free value
(log entry 60). -/
def execFrameRead (m : Msg) (s : State) : Out :=
  .next (request { opcode := 0x0A03, on := .mailbox, need := 1, most := 1, freeze := false } m (2 ^ 24 ≤ opNat m 0) (fun t =>
    let f := opNat m 0
    let x := frameAt t f
    if x.state == .absent || x.state == .retired then refuse m .frameUnreadable t
    else if (if x.state == .record then anyLive t else x.state != .free && liveConf t x.context) then
      refuse m .confDenied (bump ctrConfRefusals t)
    else
      let (w, u) := draw t
      if bit w 0 then refuse m .frameUnreadable (scrubError (hbmAddr f (bits w 31 16)) u)
      else respond m { body := frameImage t f } u) s)

/-- `PLCA_BEACON` (R624). -/
def execPlcaBeacon (s : State) : Out :=
  .next (if s.power.phase == .running && plcaEnableVal s == 1 then { s with mgmt.plca := 1 } else s)

/-- `PLCA_BEACON_LOSS` (R624). -/
def execPlcaBeaconLoss (s : State) : Out :=
  .next (if s.power.phase == .running && plcaEnableVal s == 1 then { s with mgmt.plca := 2 } else s)

end Sys2Proof.Machine
end

