-- ==== Sys2Proof/Machine/DictRead.lean ====
section
/-!
DEFINITION. Reading and describing dictionary entries (R583 to R587, R601, R602) and the values of status entries (the chapters' entry tables).
-/
namespace Sys2Proof.Machine

/-- Bytes of a value (R584). -/
def typeSize : EntryType → Nat
  | .bool | .u8 => 1
  | .u16 => 2
  | .u32 | .i32 | .f32 => 4
  | .u64 => 8
  | .octets n | .string n => n

/-- Type codes (R584). -/
def typeCode : EntryType → Nat
  | .bool => 1 | .u8 => 2 | .u16 => 3 | .u32 => 4 | .u64 => 5 | .i32 => 6 | .f32 => 7 | .octets _ => 8 | .string _ => 9

/-- Access codes (R585). -/
def accessCode : Access → Nat
  | .ro => 1 | .rw => 2 | .wo => 3 | .rws => 4 | .const => 5

/-- Whether a type is numeric. -/
def isNumeric : EntryType → Bool
  | .octets _ | .string _ => false
  | _ => true

/-- The index at which an entry's row stands: of partition 0, of the host port (R623), of port 0's counters. -/
def baseIndex (i : Nat) : Nat :=
  if 0x3000 ≤ i ∧ i < 0x4000 then 0x3000 + i % 0x40
  else if 0x4000 ≤ i ∧ i < 0x4050 then 0x4000 + i % 0x10
  else if 0x50B0 ≤ i ∧ i ≤ 0x50B4 then 0x50B0
  else if 0x50D0 ≤ i ∧ i ≤ 0x50D4 then 0x50D0
  else i

/-- The partition or port whose entry an index names (R623). -/
def unitOf (i : Nat) : Nat :=
  if 0x3000 ≤ i ∧ i < 0x4000 then (i - 0x3000) / 0x40 else if 0x4000 ≤ i ∧ i < 0x4050 then (i - 0x4000) / 0x10 else 0

/-- The row of an entry, if it is implemented; subindex 0 gives the highest implemented subindex (R583). -/
def rowAt (index sub : Nat) : Option EntryRow :=
  let b := baseIndex index
  let rows := dictEntries.filter (fun r => r.index == b)
  if sub = 0 then
    if rows.isEmpty then none else some ⟨b, 0, 0, .u8, .const, (rows.map (fun r => r.last)).foldl max 0, false, 0, 255⟩
  else rows.find? (fun r => r.first ≤ sub && sub ≤ r.last)

/-- An entry's default (R587); a few rows stand for entries whose defaults differ (R227, R478, R508). -/
def defaultOf (r : EntryRow) (index sub : Nat) : Nat :=
  if r.index = 0x3000 ∧ r.access = .rws then (if unitOf index = 0 then 2 ^ 64 - 1 else 0)
  else if r.index = 0x4001 ∧ sub ≠ 0 then (if sub ≤ 6 then 16 else 0)
  else if r.index = 0x2090 ∧ sub ≠ 0 then (match sub with | 1 => 7 | 2 => 2 | 3 => 6 | _ => 1)
  else r.dflt

/-- How many sessions are in a state (`SESSIONS_IN_STATE`). -/
def sessionsIn (s : State) (st : SessState) : Nat := (s.sessions.filter (fun e => e.2.entry.state == st)).length

/-- Session states in the order of their codes. -/
def sessStates : List SessState := [.free, .ready, .active, .waiting, .parked, .moving, .frozen, .faulted, .tombstone]

/-- `SESSIONS_IN_STATE` of a code; enabled entries that are in no other state are FREE. -/
def sessionsCount (s : State) (code : Nat) : Nat :=
  if code = 0 then s.dict.atlasEntries - (s.sessions.filter (fun e => e.2.entry.state != .free)).length
  else sessionsIn s (sessStates.getD code .free)

/-- Frames of a state in the module. -/
def framesIn (s : State) (p : Frame → Bool) : Nat := (s.frames.filter (fun e => p e.2)).length

/-- Bits set for the keys of a table between `lo` and `lo + 63`. -/
def loadedBits {α : Type} (t : Tab α) (p : α → Bool) (lo : Nat) : Nat :=
  ((t.filter (fun e => lo ≤ e.1 && e.1 < lo + 64 && p e.2)).map (fun e => 2 ^ (e.1 - lo))).sum

/-- `TPRED_US` of a partition (the admission formulas, R253). -/
def tpredUs (s : State) (p : Nat) : Nat :=
  let rho := (partAt s p).rho
  if 100 ≤ rho then 0xFFFFFFFF
  else min 0xFFFFFFFF (countedBytes s p * 100 / ((partFielders s p).length * 40000 * (100 - rho)))

/-- Free host slots; every slot of a running sample ring counts as allocated (R503). -/
def hostFree (s : State) : Nat :=
  ((s.hostRanges.filter (fun e => s.sampler.range != some e.1)).map (fun e => e.2.slots)).sum - s.hostSlots.length

/-- Free slots of the pool range entries with `ALLOC` 1. -/
def poolFree (s : State) : Nat :=
  ((s.poolRanges.filter (fun e => e.2.valid && e.2.alloc)).map (fun e =>
    e.2.limit + 1 - e.2.base - (s.poolSlots.filter (fun k => e.2.base ≤ k && k ≤ e.2.limit)).length)).sum

/-- Queue pairs that are not in RESET: those that start-up makes READY, and the others. -/
def qpsInUse (s : State) : Nat :=
  257 + (s.qps.filter (fun e => 256 < e.1 && e.2.state != .reset)).length - (s.qps.filter (fun e => e.1 ≤ 256 && e.2.state == .reset)).length

/-- Port states in the order of `LINK_STATE`'s codes. -/
def linkCode : LinkState → Nat
  | .down => 0 | .train => 1 | .lock => 2 | .deskew => 3 | .credit => 4 | .up => 5

/-- `PAIR_STATE`. -/
def pairCode : PairState → Nat
  | .none => 0 | .syncing => 1 | .paired => 2 | .stalled => 3 | .takenOver => 4 | .detached => 5

/-- `SECURITY_STATE`. -/
def secCode : SecState → Nat
  | .notReady => 0 | .ready => 1 | .identityUnavailable => 2 | .recovery => 3

/-- `GATE_STATE` of a port (R495). -/
def gateState (s : State) (k : Nat) : Nat :=
  if gateEnableVal s k != 1 || !s.time.everValid then 0 else if (portAt s k).coming.isSome then 2 else 1

/-- `MODULE_STATE` (R594). -/
def moduleState : Mode → Nat
  | .setup => 1 | .run => 2 | .fatal => 3

/-- `SCAN_STATE` (R578). -/
def scanState (s : State) : Nat :=
  let n := s.power.tapIr.toNat
  if 2 ≤ n ∧ n ≤ 5 then 1 else if 0x80 ≤ n ∧ n ≤ 0x8F then 2 else 0

/-- Status entries of the machine itself: chapters 16, 18 and 02. -/
def statusMachine (s : State) (index sub : Nat) : Nat :=
  if index = 0xA000 then (match sub with
    | 1 => moduleState s.mode
    | 2 => if s.mgmt.key.all (· == 0) then 0 else 1
    | 3 => s.mgmt.epoch.toNat
    | 4 => s.dict.warmStarts
    | _ => s.mgmt.plca)
  else if index = 0xA110 then
    (if sub ≤ 9 then unsigned 32 (Tab.get s.pace.celsius (sub - 1) 0)
    else if sub ≤ 0x18 then unsigned 32 (Tab.get s.pace.celsius (sub - 8) 0)
    else match sub with
      | 0x20 => if s.pace.warning then 1 else 0
      | 0x21 => s.power.resetCause
      | 0x22 => s.power.vinMv
      | 0x23 => s.power.vinMa
      | _ => s.power.inputW)
  else
    (if sub ≤ 9 then Tab.get s.pace.rate (sub - 1) 0
    else if sub ≤ 0x19 then setMv s (sub - 0x11)
    else if sub = 0x20 then (s.pace.limited.map (fun d => 2 ^ d)).sum
    else if s.pace.capUnmet then 1 else 0)

/-- Status entries of sessions, frames, fielders, catchers, jobs: chapters 03 to 07. -/
def statusSessions (s : State) (index sub : Nat) : Nat :=
  if index = 0xA010 then sessionsCount s (sub - 1)
  else if index = 0xA020 then
    (if sub ≤ 8 then ((List.range 32).map (fun j => freeFrames s (32 * (sub - 1) + j))).sum
    else if sub = 9 then framesIn s (fun x => x.state == .retired)
    else framesIn s (fun x => x.state == .kv && 1 < x.refCount))
  else if index = 0xA030 then
    (if sub ≤ 4 then loadedBits s.models (fun m => m.layers != 0) (64 * (sub - 1))
    else loadedBits s.ropes (fun r => r.pairs != 0) 0)
  else if index = 0xA040 then (if sub ≤ 0x20 then storeFree s (sub - 1) else s.merges.length)
  else if index = 0xA060 then (partAt s (sub - 1)).rho
  else if index = 0xA061 then tpredUs s (sub - 1)
  else if sub = 1 then s.lastTeardown
  else (s.jobs.filter (fun e => !e.2.closed)).length

/-- Status entries of the token side, Compass and the tiers: chapters 08 to 10. -/
def statusStores (s : State) (index sub : Nat) : Nat :=
  if index = 0xA070 then (match sub with
    | 1 => loadedBits s.vocabs (fun _ => true) 0
    | 2 => loadedBits s.grammars (fun _ => true) 0
    | 3 => loadedBits s.lists (fun _ => true) 0
    | 4 => 1048576 - s.segments.length
    | 5 => s.masks.length
    | 6 => storeSize .vocab - (s.vocabs.map (fun e => e.2.bytes)).sum
    | 7 => storeSize .grammar - (s.grammars.map (fun e => e.2.bytes)).sum
    | _ => storeSize .list - (s.lists.map (fun e => e.2.total)).sum)
  else if index = 0xA080 then
    (if sub = 1 then loadedBits s.indexes (fun _ => true) 0
    else if sub ≤ 0x11 then ((Tab.find s.indexes (sub - 2)).map (fun v => v.live)).getD 0
    else s.searches.length + (s.searchWaits.filter (fun e => e.2.search)).length)
  else match sub with
    | 1 => hostFree s
    | 2 => poolFree s
    | 3 => s.regions.length
    | 4 => (s.regions.filter (fun e => e.2.lease.isSome)).length
    | 5 => s.fatal
    | 6 => s.hostId
    | _ => s.poolChannels

/-- Status entries of the link, peers, egress, surveys, security: chapters 11 to 15. -/
def statusLinks (s : State) (index sub : Nat) : Nat :=
  if index = 0xA0B0 then
    (if sub ≤ 5 then linkCode (portAt s (sub - 1)).state
    else match sub with
      | 6 => s.time.state
      | 7 => unsigned 32 s.time.offset
      | 8 => s.time.pathDelay
      | 9 => qpsInUse s
      | _ => (s.wrs.filter (fun e => !e.2.fired)).length)
  else if index = 0xA0C0 then (match sub with
    | 1 => pairCode s.pair.state
    | 2 => (s.pair.items.map (fun e => e.2)).sum
    | 3 => s.pair.adopted.getD 0xFF
    | _ => (s.pair.sync.filter (fun e => e.2.2)).length)
  else if index = 0xA0D0 then
    (if sub ≤ 5 then gateState s (sub - 1)
    else if sub ≤ 0x0A then gateMask s (sub - 6) (now s)
    else if sub = 0x0B then s.sampler.wr
    else sampleCapacity s)
  else if index = 0xA0E0 then (match sub with
    | 1 => surveyState s
    | 2 => ((Tab.find s.survey.records 0).map (fun c => c.seq)).getD 0
    | 3 => ((Tab.find s.survey.records 1).map (fun c => c.seq)).getD 0
    | 4 => s.survey.baseSeq
    | 5 => s.survey.lbas
    | _ => s.survey.confirmed)
  else match sub with
    | 1 => secCode s.sec.state
    | 2 => confLive s
    | 3 => fwVersion (fwRunning s)
    | 4 => rollback s
    | 5 => s.sec.running.getD 0
    | 6 => moduleSerial.toNat
    | _ => scanState s

/-- The value of a status entry (R610). -/
def statusVal (s : State) (index sub : Nat) : Nat :=
  if index = 0xA000 ∨ 0xA100 ≤ index then statusMachine s index sub
  else if index < 0xA070 then statusSessions s index sub
  else if index < 0xA0B0 then statusStores s index sub
  else statusLinks s index sub

/-- The value of a numeric entry as a read returns it (R585, R591). -/
def numVal (s : State) (r : EntryRow) (index sub : Nat) : Nat :=
  match r.access with
  | .const => if r.index = 0x1010 ∧ sub = 2 then s.power.strap + 1 else defaultOf r index sub
  | .wo => 0
  | .ro => if index < 0x6000 then Tab.get s.dict.counters (entryKey index sub) 0 else statusVal s index sub
  | .rw | .rws => Tab.get s.dict.vals (entryKey index sub) (defaultOf r index sub)

/-- The bytes of "Brexder Silicon", "Galpen" and "GSX-960". -/
def nameBytes (sub : Nat) : List Byte :=
  match sub with
  | 1 => [0x42, 0x72, 0x65, 0x78, 0x64, 0x65, 0x72, 0x20, 0x53, 0x69, 0x6C, 0x69, 0x63, 0x6F, 0x6E]
  | 2 => [0x47, 0x61, 0x6C, 0x70, 0x65, 0x6E]
  | _ => [0x47, 0x53, 0x58, 0x2D, 0x39, 0x36, 0x30]

/-- The module's MAC address in transmit order (R613). -/
def macAddress : List Byte := [0x02, 0x00] ++ beBytes 4 (moduleSerial.toNat % 2 ^ 32)

/-- An entry's value as bytes (R584). -/
def itemBytes (s : State) (r : EntryRow) (index sub : Nat) : List Byte :=
  match r.type with
  | .string n => slice (nameBytes sub) 0 n
  | .octets n =>
    if r.index = 0x1001 then slice identityRecord 0 n
    else if r.index = 0x1010 then slice macAddress 0 n
    else List.replicate n 0
  | _ => leBytes (typeSize r.type) (numVal s r index sub)

/-- Bytes that a READ returns (R601). -/
def readValue (s : State) (i : DictItem) : List Byte :=
  match rowAt i.index i.sub with
  | none => List.replicate (if i.length = 0 then 8 else i.length) 0
  | some r =>
    let l := itemBytes s r i.index i.sub
    if isNumeric r.type then l else (l.drop i.offset).take (if i.length = 0 then 1024 else i.length)

/-- The upper bound of an entry at a grant (R505, R602). -/
def upperBound (s : State) (r : EntryRow) (sub : Nat) : Nat := if r.index = 0x2091 ∧ sub = 6 then s.sampler.wr else r.hi

/-- Whether an entry's default is a strap's or the flash's (R587). -/
def unlistedDefault (r : EntryRow) (sub : Nat) : Bool := (r.index == 0x1010 && sub == 2) || (r.index == 0xA0F0 && sub == 6)

/-- The 32 bytes of a DESCRIBE value (R602). -/
def describeValue (s : State) (i : DictItem) : List Byte :=
  match rowAt i.index i.sub with
  | none => List.replicate 32 0
  | some r => wordsBytes [
      word (at' (typeCode r.type) 56 8 + at' (accessCode r.access) 48 8 + flagAt (isNumeric r.type) 47 + flagAt r.enum 46 +
        at' (typeSize r.type) 0 32),
      word (if isNumeric r.type && !unlistedDefault r i.sub then defaultOf r i.index i.sub else 0),
      word r.lo, word (upperBound s r i.sub)]

end Sys2Proof.Machine
end

