-- ==== Sys2Proof/Machine/DictWrite.lean ====
section
/-!
DEFINITION. Writing dictionary entries: effective values, the chapters' own rules for an entry, the module's states (R588 to R598, R697).
-/
namespace Sys2Proof.Machine

/-- The state with an entry's effective value set. -/
def setEntry (index sub v : Nat) (s : State) : State := { s with dict.vals := Tab.put s.dict.vals (entryKey index sub) v }

/-- A value brought into an entry's range (R588), or to its default if it names none of an enumeration's values (R589). -/
def inRange (r : EntryRow) (hi dflt v : Nat) : Nat :=
  if r.enum then (if r.lo ≤ v ∧ v ≤ hi then v else dflt) else min (max v r.lo) hi

/-- A partition's shares or granules as written: bits that `m` marks. -/
def withoutBits (v m : Nat) : Nat := v - (v &&& m)

/-- `GRANULES` (`sub` 1) or `CACHE_SHARES` (2) of a partition as last written. -/
def sharesOf (s : State) (sub p : Nat) : Nat :=
  Tab.get s.dict.vals (entryKey (0x3000 + 0x40 * p) sub) (if p = 0 then 2 ^ 64 - 1 else 0)

/-- Write a partition's granules or shares: those of lower partitions stay theirs, higher partitions lose what is named here (R229, R230). -/
def writeShares (p sub v : Nat) (s : State) : Nat × State :=
  let mine := foldRange p (fun v q => withoutBits v (sharesOf s sub q)) v
  let s := foldRange 64 (fun t q =>
    if p < q ∧ sharesOf t sub q &&& mine ≠ 0 then setEntry (0x3000 + 0x40 * q) sub (withoutBits (sharesOf t sub q) mine) t else t) s
  (mine, setEntry (0x3000 + 0x40 * p) sub mine s)

/-- The settings of chapter 07 that bound one another (R251 and its entry table). -/
def writeBound (index sub v : Nat) (s : State) : Nat × State :=
  let p := unitOf index
  let set (k x : Nat) (t : State) : State := setEntry index k x t
  match sub with
  | 5 => (v, set 5 v (if rolePrefillMaxPctVal s p < v then set 6 v s else s))
  | 6 => (v, set 6 v (if v < rolePrefillMinPctVal s p then set 5 v s else s))
  | 7 => (v, set 7 v (if frameHighWaterVal s p < v then set 8 v s else s))
  | 8 => (max v (frameLowWaterVal s p), set 8 (max v (frameLowWaterVal s p)) s)
  | _ => (v, set sub v s)

/-- A shaper's bucket starts full at its next evaluation (R491). -/
def refillShaper (k c : Nat) (s : State) : State := setPort k (setClass c { classAt (portAt s k) c with refill := true } (portAt s k)) s

/-- A meter's buckets are filled (R499). -/
def refillMeter (k c : Nat) (s : State) : State :=
  let p := portAt s k
  setPort k { p with meters := Tab.put p.meters c { Tab.get p.meters c {} with refill := true } } s

/-- Write a meter setting: 5 CIR, 6 CBS, 7 PIR, 8 PBS (R499). -/
def writeMeter (which k c v : Nat) (s : State) : Nat × State :=
  let v := if which = 7 ∧ v ≠ 0 then max v (meterCirMbpsVal s k c) else v
  let s := setEntry (0x4000 + 0x10 * k + which) (c + 1) v s
  let s := if which = 5 ∧ meterPirMbpsVal s k c ≠ 0 ∧ meterPirMbpsVal s k c < v then setEntry (0x4007 + 0x10 * k) (c + 1) v s else s
  (v, refillMeter k c s)

/-- Write `GATE_ENABLE` (R495): 0 discards a pending list and keeps the operational one. -/
def writeGateEnable (k v : Nat) (s : State) : State :=
  let s := setEntry (0x4004 + 0x10 * k) 2 v s
  if v = 0 then setPort k { portAt s k with coming := none } s else s

/-- A gate entry's fields as it holds them: its reserved bits read zero, its interval lies in its range (the gate entry table). -/
def gateEntry (v : Nat) : Nat := (v / 2 ^ 48 % 256) * 2 ^ 48 + max 32 (v % 2 ^ 32)

/-- The first time of the form base + n × cycle that is no earlier than `t` (R493). -/
def firstCycle (base cycle t : Nat) : Nat := if t ≤ base then base else base + ceilDiv (t - base) cycle * cycle

/-- Copy a port's administrative list into a pending list (R492, R493). -/
def commitGates (k : Nat) (s : State) : State :=
  let l : GateList := {
    entries := (List.range (gateCountVal s k)).map (fun c => (gateEntryVal s k c / 2 ^ 48 % 256, gateEntryVal s k c % 2 ^ 32))
    base := gateBaseNsVal s k, cycle := gateCycleNsVal s k, change := gateChangeNsVal s k }
  setPort k { portAt s k with coming := some (l, firstCycle l.base l.cycle (max l.change (now s))) } s

/-- Whether a host range is registered and none of its slots is allocated (R503). -/
def rangeIdle (s : State) (r : Nat) : Bool :=
  match Tab.find s.hostRanges r with
  | some e => e.slots != 0 && s.hostSlots.all (fun k => k < r * 2 ^ 29 || r * 2 ^ 29 + e.slots ≤ k)
  | none => false

/-- Write `SAMPLE_ENABLE` (R503); stopping writes the partial tile (R506). -/
def writeSampling (v : Nat) (s : State) : Nat × State :=
  if v = 0 then
    let s := flushSamples s
    (0, setEntry 0x2091 1 0 { s with sampler.range := none, sampler.tile := [] })
  else if s.sampler.range.isSome then (1, setEntry 0x2091 1 1 s)
  else if rangeIdle s (sampleRangeVal s) then (1, setEntry 0x2091 1 1 { s with sampler.range := some (sampleRangeVal s) })
  else (0, setEntry 0x2091 1 0 s)

/-- Write an RW or RWS entry whose value is in range: the chapters' own rules, then the effective value (R590, R591). A route
that `ROUTE_OVERRIDE` turns to a port that is not UP ends the steps that need it (R462). -/
def writeSetting (index sub v : Nat) (s : State) : Nat × State :=
  let b := baseIndex index
  let u := unitOf index
  let store (x : Nat) (t : State) : Nat × State := (x, setEntry index sub x t)
  if b = 0x2100 ∧ sub = 2 then store (v / 5 * 5) s
  else if b = 0x2010 then store (v / 1024 * 1024) s
  else if b = 0x2040 ∧ sub = 1 then store (p2 v) s
  else if b = 0x3000 then writeShares u sub v s
  else if b = 0x3018 then writeBound index sub v s
  else if b = 0x4002 ∨ b = 0x4003 then ((store v s).1, refillShaper u (sub - 1) (store v s).2)
  else if 0x4005 ≤ b ∧ b ≤ 0x4008 then writeMeter (b - 0x4000) u (sub - 1) v s
  else if b = 0x4004 ∧ sub = 2 then (v, writeGateEnable u v s)
  else if b = 0x400A then store (gateEntry v) s
  else if b = 0x2091 ∧ sub = 1 then writeSampling v s
  else if b = 0x2091 ∧ sub = 4 then store (v % 2 ^ 40) s
  else if b = 0x6000 then store (if 0 < confLive s then 0 else v) s
  else if b = 0x2081 then (v, settle (ringLost (setEntry index sub v s)))
  else if b = 0x1010 ∧ sub = 4 then store (max v (s.power.strap + 2)) s
  else store v s

/-- Enter Run (R592, R595): RWS values take effect (R143); ports left out go down (R446, R448), peers' queue pairs come up (R455), PLCA off reads 0. -/
def enterRun (s : State) : State :=
  let s := keepOwnWays { s with mode := .run, dict.run := s.dict.vals }
  let s := foldRange 5 (fun t k => if portUsed t k && portEnableVal t k == 1 then t else portDown k t) s
  let s := if plcaEnableVal s = 1 then s else { s with mgmt.plca := 0 }
  readyPeers s

/-- Whether the module may leave Run (R596). -/
def mayLeaveRun (s : State) : Bool :=
  s.sessions.all (fun e => e.2.entry.state == .free) && s.jobs.isEmpty && s.indexes.isEmpty && s.regions.isEmpty &&
  s.attachments.isEmpty && s.survey.run.isNone && s.survey.restore.isNone &&
  s.qps.all (fun e => e.1 < 512 || e.2.state == .reset)

/-- Apply `MODE_REQUEST` (R595). A warm start begins once the request is answered (R598). -/
def requestMode (v : Nat) (s : State) : Status × State :=
  match v, s.mode with
  | 1, .setup => (.ok, enterRun s)
  | 2, .run => if mayLeaveRun s then (.ok, { s with mode := .setup }) else (.moduleBusy, s)
  | 3, .setup => (.ok, { s with power.warm := true })
  | 3, .run => (.dictSetupOnly, s)
  | _, _ => (.ok, s)

/-- Apply a write of a numeric WO entry. -/
def writeOnly (index sub v : Nat) (s : State) : Status × State :=
  if index = 0x2000 then
    (if sub = 1 then requestMode v s else (.ok, if v = 1 then { s with dict.counters := [] } else s))
  else (.ok, if v = 1 then commitGates (unitOf index) s else s)

/-- Set the operator key: a new epoch, in which no station has sent anything (R616, R620). -/
def setMgmtKey (key : List Byte) (s : State) : State :=
  let (e, s) := draw s
  { s with mgmt.key := key, mgmt.epoch := e, mgmt.lastSeq := [] }

/-- Count a write applied (R591, R607). -/
def countWrite (clamped : Bool) (s : State) : State :=
  let s := bump ctrDictWrites s
  if clamped then bump ctrDictClamps s else s

/-- Refuse an item: its status, the entry's current value (R607). -/
def refuseItem (st : Status) (value : List Byte) (s : State) : (Status × List Byte) × State := ((st, value), bump ctrDictRefusals s)

/-- A value of zero bytes as a READ of an unimplemented entry returns it (R601). -/
def noValue (i : DictItem) : List Byte := List.replicate (if i.length = 0 then 8 else i.length) 0

/-- Apply a WRITE item (R585, R586, R588 to R593, R697): its status and value. -/
def writeItem (i : DictItem) (s : State) : (Status × List Byte) × State :=
  match rowAt i.index i.sub with
  | none => ((.ok, noValue i), countWrite false s)
  | some r =>
    let cur := itemBytes s r i.index i.sub
    let n := typeSize r.type
    if r.access = .ro ∨ r.access = .const then refuseItem .dictReadOnly cur s
    else if r.access = .rws ∧ s.mode ≠ .setup then refuseItem .dictSetupOnly cur s
    else if i.length ≠ n ∨ (!isNumeric r.type && i.offset != 0) = true then refuseItem .dictType cur s
    else if isNumeric r.type = false then ((.ok, List.replicate n 0), countWrite false (setMgmtKey (slice i.value 0 n) s))
    else
      let w := numAt i.value 0 n
      let v := inRange r (upperBound s r i.sub) (defaultOf r i.index i.sub) w
      if r.access = .wo then
        let (st, t) := writeOnly i.index i.sub v s
        if st = .ok then ((.ok, leBytes n v), countWrite (v != w) t) else refuseItem st (leBytes n v) t
      else
        let (e, t) := writeSetting i.index i.sub v s
        ((.ok, leBytes n e), countWrite (e != w) t)

/-- Whether the management path still serves an item in FATAL (R622). -/
def servedFatal (i : DictItem) : Bool := i.op != 2 && (i.index / 0x1000 == 1 || i.index / 0x1000 == 5 || i.index / 0x1000 == 0xA)

/-- Bytes of an item's value in the response (R601, R605). -/
def answerSize (i : DictItem) : Nat :=
  if i.op = 3 then 32
  else match rowAt i.index i.sub with
    | none => if i.length = 0 then 8 else i.length
    | some r =>
      if isNumeric r.type ∨ i.op = 2 then typeSize r.type
      else min (typeSize r.type - i.offset) (if i.length = 0 then 1024 else i.length)

/-- Apply one item (R603): its status and value. -/
def doItem (i : DictItem) (s : State) : (Status × List Byte) × State :=
  if s.mode = .fatal ∧ servedFatal i = false then refuseItem .moduleFatal (List.replicate (answerSize i) 0) s
  else if i.op = 2 then writeItem i s
  else ((.ok, if i.op = 3 then describeValue s i else readValue s i), bump ctrDictReads s)

end Sys2Proof.Machine
end

