-- ==== Sys2Proof/Machine/DictCmds.lean ====
section
/-!
DEFINITION. The dictionary PDU, its two paths, and the commands of chapter 16 (R598 to R622).
-/
namespace Sys2Proof.Machine

/-- Bytes padded with zero to a multiple of 8. -/
def pad8 (l : List Byte) : List Byte := l ++ List.replicate ((8 - l.length % 8) % 8) 0

/-- A PDU's header fields and items (R599). -/
structure Pdu where
  version : Nat := 1
  kind : Nat := 1
  station : Nat := 0
  count : Nat := 0
  bodyBytes : Nat := 0
  seq : Nat := 0
  target : Nat := 0
  epoch : Nat := 0
  deriving DecidableEq

/-- The header words P0 to P3 (R599). -/
def pduHeader (h : Pdu) (status : BitVec 16) : List Byte :=
  wordsBytes [word (at' h.version 56 8 + at' h.kind 54 2 + at' h.station 50 4 + at' status.toNat 34 16 + at' h.count 27 7 + at' h.bodyBytes 0 16),
    word h.seq, word h.target, word h.epoch]

/-- The header that bytes spell. -/
def readHeader (b : List Byte) : Pdu :=
  let p := wordAt b 0
  { version := bits p 63 56, kind := bits p 55 54, station := bits p 53 50, count := bits p 33 27, bodyBytes := bits p 15 0
    seq := numAt b 8 8, target := numAt b 16 8, epoch := numAt b 24 8 }

/-- An item's 16-byte header (R600). -/
def itemHeader (i : DictItem) (length : Nat) (st : BitVec 16) (type access : Nat) : List Byte :=
  wordsBytes [word (at' i.index 48 16 + at' i.sub 40 8 + at' i.op 36 4 + at' i.offset 16 16 + at' length 0 16),
    word (at' st.toNat 48 16 + at' type 40 8 + at' access 32 8)]

/-- A request item as bytes (R600). -/
def requestItem (i : DictItem) : List Byte :=
  itemHeader i i.length 0 0 0 ++ (if i.op = 2 then pad8 (slice i.value 0 i.length) else [])

/-- `n` items from the front of a body (R600), if they fill it exactly and each is well formed (R604). -/
def readItems : Nat → List Byte → Option (List DictItem)
  | 0, b => if b.isEmpty then some [] else none
  | n + 1, b =>
    let p := wordAt b 0
    let i : DictItem := { index := bits p 63 48, sub := bits p 47 40, op := bits p 39 36, offset := bits p 31 16, length := bits p 15 0 }
    let v := if i.op = 2 then i.length + (8 - i.length % 8) % 8 else 0
    if b.length < 16 + v ∨ i.op = 0 ∨ 3 < i.op ∨ 1024 < i.length then none
    else (readItems n (b.drop (16 + v))).map (fun l => { i with value := if i.op = 2 then slice b 16 i.length else [] } :: l)

/-- A response item as bytes (R600). -/
def answerItem (i : DictItem) (a : Status × List Byte) : List Byte :=
  let (t, c) := match rowAt i.index i.sub with
    | some r => (typeCode r.type, accessCode r.access)
    | none => (0, 0)
  itemHeader i a.2.length a.1.code t c ++ pad8 a.2

/-- Apply items in order (R603): the response's body. -/
def doItems : List DictItem → State → List Byte × State
  | [], s => ([], s)
  | i :: l, s =>
    let (a, s) := doItem i s
    let (b, s) := doItems l s
    (answerItem i a ++ b, s)

/-- Apply a PDU's items unless it is malformed (R604) or its response would be too large (R605): status, number of items, body. -/
def servePdu (limit : Nat) (items : Option (List DictItem)) (s : State) : (Status × Nat × List Byte) × State :=
  match items with
  | none => ((.dictMalformed, 0, []), s)
  | some l =>
    if limit < (l.map (fun i => 16 + (answerSize i + 7) / 8 * 8)).sum then ((.dictTooLarge, 0, []), s)
    else
      let (b, s) := doItems l s
      ((.ok, l.length, b), s)

/-- A response PDU (R606). -/
def answerPdu (h : Pdu) (seq epoch : Nat) (a : Status × Nat × List Byte) : List Byte :=
  pduHeader { h with version := 1, kind := 2, count := a.2.1, bodyBytes := a.2.2.length, seq, target := moduleSerial.toNat, epoch } a.1.code ++ a.2.2

/-- A warm start that has been answered begins (R598). -/
def beginWarm (s : State) : State :=
  if s.power.warm then
    let t := startUp { s with power.warm := false, power.nextCause := 4 }
    { t with dict.vals := s.dict.vals, dict.run := s.dict.run, dict.warmStarts := s.dict.warmStarts + 1, mgmt.key := s.mgmt.key }
  else s

/-- The header and items of a PDU that stands in bytes (R604). -/
def readPdu (b : List Byte) : Pdu × Option (List DictItem) :=
  let h := readHeader b
  (h, if h.version ≠ 1 ∨ h.kind ≠ 1 ∨ 64 < h.count ∨ b.length ≠ 32 + h.bodyBytes then none else readItems h.count (b.drop 32))

/-- `DICT_ACCESS` on the mailbox (R611); a body shorter than a PDU header is malformed as a message (R430). -/
def mailboxAccess (m : Msg) (s : State) : State :=
  request { opcode := 0x0A01, on := .mailbox, freeze := false } m (m.body.length < 32) (fun t =>
    let (h, items) := readPdu m.body
    let (a, t) := servePdu 65535 items t
    beginWarm (respond m { status := a.1, body := answerPdu { h with station := 0 } h.seq t.mgmt.epoch.toNat a } t)) s

/-- A request PDU of items. -/
def requestPdu (l : List DictItem) : List Byte :=
  let b := (l.map requestItem).flatten
  pduHeader { count := l.length, bodyBytes := b.length } 0 ++ b

/-- Whether the management port serves frames: not where only the ROM runs, which serves queue pair 0 alone (R548, R622). -/
def stationServes (s : State) : Bool := s.power.phase == .running && s.sec.state != .recovery

/-- Whether the operator key is all zero (R615). -/
def keyUnset (s : State) : Bool := s.mgmt.key.all (· == 0)

/-- One bit's turn of the Ethernet frame check sequence's register, reflected. -/
def fcsBit (c : Nat) : Nat := if c % 2 = 1 then (c / 2) ^^^ 0xEDB88320 else c / 2

/-- One byte's turn. -/
def fcsByte (c : Nat) (b : Byte) : Nat := fcsBit (fcsBit (fcsBit (fcsBit (fcsBit (fcsBit (fcsBit (fcsBit (c ^^^ b.toNat))))))))

/-- The frame check sequence of IEEE 802.3, as published, in transmit order. -/
def fcsBytes (l : List Byte) : List Byte := leBytes 4 ((l.foldl fcsByte 0xFFFFFFFF) ^^^ 0xFFFFFFFF)

/-- A management frame from the module to a station: addresses, EtherType, payload and frame check sequence (R6, R613, R614). -/
def managementFrame (dest payload : List Byte) : List Byte :=
  let f := slice dest 0 6 ++ macAddress ++ [0x88, 0xB5] ++ payload
  f ++ fcsBytes f

/-- Answer a station: the response tagged under the key that verified its request (R615, R620). -/
def answerStation (source key : List Byte) (p : List Byte) (s : State) : State :=
  emit (.frame (managementFrame source (p ++ hmac key p))) s

/-- A verified request with items (R618, R619), or one that is malformed (R604). -/
def stationRequest (source : List Byte) (h : Pdu) (items : Option (List DictItem)) (s : State) : State :=
  let key := s.mgmt.key
  let epoch := s.mgmt.epoch.toNat
  if h.epoch ≠ epoch then answerStation source key (answerPdu h h.seq epoch (.mgmtEpochStale, 0, [])) s
  else if h.seq ≤ Tab.get s.mgmt.lastSeq h.station 0 then bump ctrMgmtReplayDrops s
  else
    let s := { s with mgmt.lastSeq := Tab.put s.mgmt.lastSeq h.station h.seq }
    let (a, s) := servePdu 1436 items s
    beginWarm (answerStation source key (answerPdu h h.seq epoch a) s)

/-- A verified hello (R617). -/
def stationHello (source : List Byte) (h : Pdu) (s : State) : State :=
  answerStation source s.mgmt.key (answerPdu h (Tab.get s.mgmt.lastSeq h.station 0) s.mgmt.epoch.toNat (.ok, 0, [])) s

/-- Whether a frame is of the management EtherType, within a VLAN tag or without. -/
def mgmtType (f : List Byte) : Bool :=
  slice f 12 2 == [0x88, 0xB5] || (slice f 12 2 == [0x81, 0x00] && slice f 16 2 == [0x88, 0xB5])

/-- Whether a frame is accepted (R614). `f` runs from the destination address to the frame check sequence. -/
def frameAccepted (f : List Byte) : Bool :=
  let n := f.length - 4
  let p := (f.take n).drop 14
  let h := readHeader p
  78 ≤ n && f.drop n == fcsBytes (f.take n) && slice f 12 2 == [0x88, 0xB5] &&
  (f.take 6 == macAddress || (h.count == 0 && f.take 6 == List.replicate 6 0xFF)) &&
  p.length == 64 + h.bodyBytes &&
  (h.target == moduleSerial.toNat || (h.count == 0 && h.target == 0))

/-- A frame on the management segment (R614 to R622). -/
def stationFrame (f : List Byte) (s : State) : State :=
  if !stationServes s then s
  else if !frameAccepted f then (if mgmtType f then bump ctrMgmtFormatDrops s else s)
  else
    let p := (f.take (f.length - 4)).drop 14
    let b := p.take (p.length - 32)
    let source := slice f 6 6
    if keyUnset s || hmac s.mgmt.key b != p.drop (p.length - 32) then bump ctrMgmtAuthDrops s
    else
      let (h, items) := readPdu b
      if h.count ≠ 0 then stationRequest source h items s
      else if items.isSome then stationHello source h s
      else answerStation source s.mgmt.key (answerPdu h h.seq s.mgmt.epoch.toNat (.dictMalformed, 0, [])) s

/-- An item alone in its PDU: on the mailbox, or in a frame that R614 and R615 accept with the current epoch. -/
def oneItem (p : DictPath) (i : DictItem) (s : State) : State :=
  match p with
  | .mailbox tag => mailboxAccess { opcode := 0x0A01, tag, body := requestPdu [i] } s
  | .station source station seq =>
    let body := requestPdu [i]
    if !stationServes s then s
    else if keyUnset s then bump ctrMgmtAuthDrops s
    else
      let (h, items) := readPdu body
      stationRequest source { h with station := station % 16, seq := seq % 2 ^ 64, target := moduleSerial.toNat, epoch := s.mgmt.epoch.toNat } items s

/-- A WRITE item of a numeric entry. -/
def numItem (index sub size value : Nat) : DictItem := { index, sub, op := 2, length := size, value := leBytes size value }

/-- `DICT_READ_ITEM` (R601). -/
def execDictReadItem (p : DictPath) (i : DictItem) (s : State) : Out := .next (oneItem p { i with op := 1 } s)

/-- `DICT_WRITE_ITEM` (R591). -/
def execDictWriteItem (p : DictPath) (i : DictItem) (s : State) : Out := .next (oneItem p { i with op := 2 } s)

/-- `DICT_DESCRIBE_ITEM` (R602). -/
def execDictDescribeItem (p : DictPath) (i : DictItem) (s : State) : Out := .next (oneItem p { i with op := 3 } s)

/-- `MGMT_HELLO` (R617). -/
def execMgmtHello (f : List Byte) (s : State) : Out := .next (stationFrame f s)

/-- `MODE_REQUEST` 1 RUN (R595). -/
def execModeRun (p : DictPath) (s : State) : Out := .next (oneItem p (numItem 0x2000 1 1 1) s)

/-- `MODE_REQUEST` 2 SETUP (R596). -/
def execModeSetup (p : DictPath) (s : State) : Out := .next (oneItem p (numItem 0x2000 1 1 2) s)

/-- `MODE_REQUEST` 3 WARM_START (R598). -/
def execWarmStart (p : DictPath) (s : State) : Out := .next (oneItem p (numItem 0x2000 1 1 3) s)

/-- `CLEAR_COUNTERS` (R625). -/
def execClearCounters (p : DictPath) (value : Nat) (s : State) : Out := .next (oneItem p (numItem 0x2000 2 1 value) s)

/-- `GATE_COMMIT` (R492, R493). -/
def execGateCommit (p : DictPath) (port value : Nat) (s : State) : Out := .next (oneItem p (numItem (0x4004 + 0x10 * port) 7 1 value) s)

/-- `GATE_ENABLE` (R495). -/
def execGateEnable (p : DictPath) (port value : Nat) (s : State) : Out := .next (oneItem p (numItem (0x4004 + 0x10 * port) 2 1 value) s)

/-- `MGMT_KEY` (R620). -/
def execMgmtKey (p : DictPath) (key : List Byte) (s : State) : Out :=
  .next (oneItem p { index := 0x6010, sub := 1, op := 2, length := key.length, value := key } s)

/-- `SAMPLE_ENABLE` (R503). -/
def execSampleEnable (p : DictPath) (value : Nat) (s : State) : Out := .next (oneItem p (numItem 0x2091 1 1 value) s)

/-- `SAMPLE_RD` (R505). -/
def execSampleRd (p : DictPath) (value : Nat) (s : State) : Out := .next (oneItem p (numItem 0x2091 6 8 value) s)

/-- `DEBUG_ENABLE` (R580). -/
def execDebugEnable (p : DictPath) (value : Nat) (s : State) : Out := .next (oneItem p (numItem 0x6000 1 1 value) s)

/-- `SHAPE_RATE_MBPS` and `SHAPE_BURST_BYTES` (R491). -/
def execShapeRateMbps (p : DictPath) (port cls : Nat) (burst : Bool) (value : Nat) (s : State) : Out :=
  .next (oneItem p (numItem ((if burst then 0x4003 else 0x4002) + 0x10 * port) (cls + 1) 4 value) s)

/-- `METER_CIR_MBPS` and the other meter settings: `which` 0 CIR, 1 CBS, 2 PIR, 3 PBS (R499). -/
def execMeterCirMbps (p : DictPath) (port cls which value : Nat) (s : State) : Out :=
  .next (oneItem p (numItem (0x4005 + which + 0x10 * port) (cls + 1) 4 value) s)

/-- `TC_WEIGHT` (R488). -/
def execTcWeight (p : DictPath) (port cls value : Nat) (s : State) : Out := .next (oneItem p (numItem (0x4001 + 0x10 * port) (cls + 1) 1 value) s)

/-- `DICT_ACCESS` (R603, R611, R614). -/
def execDictAccess (r : DictRequest) (s : State) : Out :=
  .next (match r with
    | .mailbox m => mailboxAccess m s
    | .frame f => stationFrame f s)

end Sys2Proof.Machine
end

