-- ==== Sys2Proof/Machine/Dispatch.lean ====
section
/-!
DEFINITION. What each command does: one arm per constructor, each a direct call of its meaning.
-/
namespace Sys2Proof.Machine

/-- The meaning of a command. -/
def exec (i : Instr) (s : State) : Host.Outcome State Fault Refusal :=
  match i with
  | .admitSession m => Sys2Proof.Machine.execAdmitSession m s
  | .step m => Sys2Proof.Machine.execStep m s
  | .wait m => Sys2Proof.Machine.execWait m s
  | .resume m => Sys2Proof.Machine.execResume m s
  | .park m => Sys2Proof.Machine.execPark m s
  | .fork m => Sys2Proof.Machine.execFork m s
  | .cancel m => Sys2Proof.Machine.execCancel m s
  | .freeze m => Sys2Proof.Machine.execFreeze m s
  | .thaw m => Sys2Proof.Machine.execThaw m s
  | .migrate m => Sys2Proof.Machine.execMigrate m s
  | .sessionSet m => Sys2Proof.Machine.execSessionSet m s
  | .recordRead m => Sys2Proof.Machine.execRecordRead m s
  | .lineage m => Sys2Proof.Machine.execLineage m s
  | .layerIn m => Sys2Proof.Machine.execLayerIn m s
  | .queryBlock m => Sys2Proof.Machine.execQueryBlock m s
  | .kvExtend m => Sys2Proof.Machine.execKvExtend m s
  | .jobOpen m => Sys2Proof.Machine.execJobOpen m s
  | .jobAdd m => Sys2Proof.Machine.execJobAdd m s
  | .jobClose m => Sys2Proof.Machine.execJobClose m s
  | .modelLoad m => Sys2Proof.Machine.execModelLoad m s
  | .modelRead m => Sys2Proof.Machine.execModelRead m s
  | .ropeLoad m => Sys2Proof.Machine.execRopeLoad m s
  | .ropeLoadApply table => Sys2Proof.Machine.execRopeLoadApply table s
  | .ropeLoadTimeout table => Sys2Proof.Machine.execRopeLoadTimeout table s
  | .contextRearm m => Sys2Proof.Machine.execContextRearm m s
  | .vocabLoad m => Sys2Proof.Machine.execVocabLoad m s
  | .grammarLoad m => Sys2Proof.Machine.execGrammarLoad m s
  | .listLoad m => Sys2Proof.Machine.execListLoad m s
  | .loadPieceTimeout kind slot => Sys2Proof.Machine.execLoadPieceTimeout kind slot s
  | .tokenBind m => Sys2Proof.Machine.execTokenBind m s
  | .textIn m => Sys2Proof.Machine.execTextIn m s
  | .detokFlush m => Sys2Proof.Machine.execDetokFlush m s
  | .escapeSet m => Sys2Proof.Machine.execEscapeSet m s
  | .maskForm => Sys2Proof.Machine.execMaskForm s
  | .compassCreate m => Sys2Proof.Machine.execCompassCreate m s
  | .compassCentroids m => Sys2Proof.Machine.execCompassCentroids m s
  | .compassInsert m => Sys2Proof.Machine.execCompassInsert m s
  | .compassDelete m => Sys2Proof.Machine.execCompassDelete m s
  | .compassCompact m => Sys2Proof.Machine.execCompassCompact m s
  | .compassSeal m => Sys2Proof.Machine.execCompassSeal m s
  | .compassUnseal m => Sys2Proof.Machine.execCompassUnseal m s
  | .compassPlace m => Sys2Proof.Machine.execCompassPlace m s
  | .compassSearch m => Sys2Proof.Machine.execCompassSearch m s
  | .compassInfo m => Sys2Proof.Machine.execCompassInfo m s
  | .compassDrop m => Sys2Proof.Machine.execCompassDrop m s
  | .compassSliceIssue fielder => Sys2Proof.Machine.execCompassSliceIssue fielder s
  | .compassSliceDone fielder => Sys2Proof.Machine.execCompassSliceDone fielder s
  | .searchTimeout search => Sys2Proof.Machine.execSearchTimeout search s
  | .hostRangeAdd m => Sys2Proof.Machine.execHostRangeAdd m s
  | .hostRangeRemove m => Sys2Proof.Machine.execHostRangeRemove m s
  | .fmRangeSet m => Sys2Proof.Machine.execFmRangeSet m s
  | .fmIdentity m => Sys2Proof.Machine.execFmIdentity m s
  | .regionCreate m => Sys2Proof.Machine.execRegionCreate m s
  | .regionDrop m => Sys2Proof.Machine.execRegionDrop m s
  | .publishOpen m => Sys2Proof.Machine.execPublishOpen m s
  | .publishPut m => Sys2Proof.Machine.execPublishPut m s
  | .publishCommit m => Sys2Proof.Machine.execPublishCommit m s
  | .publishAbort m => Sys2Proof.Machine.execPublishAbort m s
  | .publishIdleTimeout publish => Sys2Proof.Machine.execPublishIdleTimeout publish s
  | .regionRetainExpiry => Sys2Proof.Machine.execRegionRetainExpiry s
  | .regionAttach m => Sys2Proof.Machine.execRegionAttach m s
  | .regionGather m => Sys2Proof.Machine.execRegionGather m s
  | .regionRead m => Sys2Proof.Machine.execRegionRead m s
  | .leaseTake m => Sys2Proof.Machine.execLeaseTake m s
  | .leaseBeat m => Sys2Proof.Machine.execLeaseBeat m s
  | .leaseRelease m => Sys2Proof.Machine.execLeaseRelease m s
  | .leaseQuery m => Sys2Proof.Machine.execLeaseQuery m s
  | .leaseDeadline region => Sys2Proof.Machine.execLeaseDeadline region s
  | .qpCreate m => Sys2Proof.Machine.execQpCreate m s
  | .qpModify m => Sys2Proof.Machine.execQpModify m s
  | .qpDestroy m => Sys2Proof.Machine.execQpDestroy m s
  | .qpQuery m => Sys2Proof.Machine.execQpQuery m s
  | .counterSet m => Sys2Proof.Machine.execCounterSet m s
  | .wrPost m => Sys2Proof.Machine.execWrPost m s
  | .wrCancel m => Sys2Proof.Machine.execWrCancel m s
  | .counterAdd m => Sys2Proof.Machine.execCounterAdd m s
  | .wrSignal m => Sys2Proof.Machine.execWrSignal m s
  | .tileWrite t => Sys2Proof.Machine.execTileWrite t s
  | .pairTakeover m => Sys2Proof.Machine.execPairTakeover m s
  | .pairDetach m => Sys2Proof.Machine.execPairDetach m s
  | .migrateResolve m => Sys2Proof.Machine.execMigrateResolve m s
  | .ringJoin m r => Sys2Proof.Machine.execRingJoin m r s
  | .ringCmd m r => Sys2Proof.Machine.execRingCmd m r s
  | .migrateOpen m o => Sys2Proof.Machine.execMigrateOpen m o s
  | .migrateCommit m => Sys2Proof.Machine.execMigrateCommit m s
  | .migrateAbort m => Sys2Proof.Machine.execMigrateAbort m s
  | .ringAppend m r => Sys2Proof.Machine.execRingAppend m r s
  | .ringQuery m r => Sys2Proof.Machine.execRingQuery m r s
  | .segPartial m p => Sys2Proof.Machine.execSegPartial m p s
  | .segFrontier m => Sys2Proof.Machine.execSegFrontier m s
  | .ringQblock m r => Sys2Proof.Machine.execRingQblock m r s
  | .ringOutput m r => Sys2Proof.Machine.execRingOutput m r s
  | .mirrorUpdate m it => Sys2Proof.Machine.execMirrorUpdate m it s
  | .mirrorMap m it => Sys2Proof.Machine.execMirrorMap m it s
  | .mirrorAppend m it => Sys2Proof.Machine.execMirrorAppend m it s
  | .mirrorStepEnd m it => Sys2Proof.Machine.execMirrorStepEnd m it s
  | .mirrorPage m it => Sys2Proof.Machine.execMirrorPage m it s
  | .mirrorAck m => Sys2Proof.Machine.execMirrorAck m s
  | .pairBeat m => Sys2Proof.Machine.execPairBeat m s
  | .pairBeatSend => Sys2Proof.Machine.execPairBeatSend s
  | .pairDeadline => Sys2Proof.Machine.execPairDeadline s
  | .partnerSignalLoss => Sys2Proof.Machine.execPartnerSignalLoss s
  | .peerSalt m => Sys2Proof.Machine.execPeerSalt m s
  | .surveyStart m => Sys2Proof.Machine.execSurveyStart m s
  | .surveyInstant => Sys2Proof.Machine.execSurveyInstant s
  | .surveyFreezeTimeout => Sys2Proof.Machine.execSurveyFreezeTimeout s
  | .surveyAbort m => Sys2Proof.Machine.execSurveyAbort m s
  | .surveyDrained m => Sys2Proof.Machine.execSurveyDrained m s
  | .nvCommandDone d => Sys2Proof.Machine.execNvCommandDone d s
  | .nvTimeout => Sys2Proof.Machine.execNvTimeout s
  | .nvFormat m => Sys2Proof.Machine.execNvFormat m s
  | .restore m => Sys2Proof.Machine.execRestore m s
  | .shardSupply m shards => Sys2Proof.Machine.execShardSupply m shards s
  | .restoreStatus m => Sys2Proof.Machine.execRestoreStatus m s
  | .stepResumed index => Sys2Proof.Machine.execStepResumed index s
  | .resumeHoldTimeout index => Sys2Proof.Machine.execResumeHoldTimeout index s
  | .contextCreate m => Sys2Proof.Machine.execContextCreate m s
  | .contextDestroy m => Sys2Proof.Machine.execContextDestroy m s
  | .contextTeardown m => Sys2Proof.Machine.execContextTeardown m s
  | .attest m => Sys2Proof.Machine.execAttest m s
  | .keyDeliver m => Sys2Proof.Machine.execKeyDeliver m s
  | .qpKeySet m => Sys2Proof.Machine.execQpKeySet m s
  | .fwUpdate m => Sys2Proof.Machine.execFwUpdate m s
  | .fwCommitVersion m => Sys2Proof.Machine.execFwCommitVersion m s
  | .frameRead m => Sys2Proof.Machine.execFrameRead m s
  | .dictReadItem p x => Sys2Proof.Machine.execDictReadItem p x s
  | .dictWriteItem p x => Sys2Proof.Machine.execDictWriteItem p x s
  | .dictDescribeItem p x => Sys2Proof.Machine.execDictDescribeItem p x s
  | .mgmtHello f => Sys2Proof.Machine.execMgmtHello f s
  | .modeRun p => Sys2Proof.Machine.execModeRun p s
  | .modeSetup p => Sys2Proof.Machine.execModeSetup p s
  | .warmStart p => Sys2Proof.Machine.execWarmStart p s
  | .clearCounters p value => Sys2Proof.Machine.execClearCounters p value s
  | .gateCommit p port value => Sys2Proof.Machine.execGateCommit p port value s
  | .gateEnable p port value => Sys2Proof.Machine.execGateEnable p port value s
  | .mgmtKey p key => Sys2Proof.Machine.execMgmtKey p key s
  | .sampleEnable p value => Sys2Proof.Machine.execSampleEnable p value s
  | .sampleRd p value => Sys2Proof.Machine.execSampleRd p value s
  | .debugEnable p value => Sys2Proof.Machine.execDebugEnable p value s
  | .shapeRateMbps p port cls burst value => Sys2Proof.Machine.execShapeRateMbps p port cls burst value s
  | .meterCirMbps p port cls which value => Sys2Proof.Machine.execMeterCirMbps p port cls which value s
  | .tcWeight p port cls value => Sys2Proof.Machine.execTcWeight p port cls value s
  | .csrWrite m => Sys2Proof.Machine.execCsrWrite m s
  | .pmuClear m => Sys2Proof.Machine.execPmuClear m s
  | .counterValueWrite m => Sys2Proof.Machine.execCounterValueWrite m s
  | .alertStatusRead m => Sys2Proof.Machine.execAlertStatusRead m s
  | .ovfStatusRead m => Sys2Proof.Machine.execOvfStatusRead m s
  | .tapUpdateIr code => Sys2Proof.Machine.execTapUpdateIr code s
  | .vinGood mv => Sys2Proof.Machine.execVinGood mv s
  | .vinLoss mv => Sys2Proof.Machine.execVinLoss mv s
  | .vinOvervoltage mv => Sys2Proof.Machine.execVinOvervoltage mv s
  | .vioLoss mv => Sys2Proof.Machine.execVioLoss mv s
  | .vioGood mv => Sys2Proof.Machine.execVioGood mv s
  | .resetAssert => Sys2Proof.Machine.execResetAssert s
  | .resetRelease => Sys2Proof.Machine.execResetRelease s
  | .startupComplete => Sys2Proof.Machine.execStartupComplete s
  | .securityReady => Sys2Proof.Machine.execSecurityReady s
  | .thermWarn sensor celsius => Sys2Proof.Machine.execThermWarn sensor celsius s
  | .thermWarnEnd celsius => Sys2Proof.Machine.execThermWarnEnd celsius s
  | .thermalShutdown sensor celsius => Sys2Proof.Machine.execThermalShutdown sensor celsius s
  | .portSignalDetect port => Sys2Proof.Machine.execPortSignalDetect port s
  | .portTrainDone port => Sys2Proof.Machine.execPortTrainDone port s
  | .portLock port => Sys2Proof.Machine.execPortLock port s
  | .portUp port => Sys2Proof.Machine.execPortUp port s
  | .portDown port => Sys2Proof.Machine.execPortDown port s
  | .codewordUncorrectable port lane => Sys2Proof.Machine.execCodewordUncorrectable port lane s
  | .packetRx port p => Sys2Proof.Machine.execPacketRx port p s
  | .ackRx port p => Sys2Proof.Machine.execAckRx port p s
  | .ackDelayExpiry qp => Sys2Proof.Machine.execAckDelayExpiry qp s
  | .creditRx port counts => Sys2Proof.Machine.execCreditRx port counts s
  | .creditSend port => Sys2Proof.Machine.execCreditSend port s
  | .repeatTimeout qp => Sys2Proof.Machine.execRepeatTimeout qp s
  | .responseTimeout wait => Sys2Proof.Machine.execResponseTimeout wait s
  | .timeBlockRx sentNs => Sys2Proof.Machine.execTimeBlockRx sentNs s
  | .delayReqSend => Sys2Proof.Machine.execDelayReqSend s
  | .delayRspRx gotNs => Sys2Proof.Machine.execDelayRspRx gotNs s
  | .timeHoldover => Sys2Proof.Machine.execTimeHoldover s
  | .timepulse => Sys2Proof.Machine.execTimepulse s
  | .egressPick port => Sys2Proof.Machine.execEgressPick port s
  | .gateSwitch port => Sys2Proof.Machine.execGateSwitch port s
  | .gateInterval port => Sys2Proof.Machine.execGateInterval port s
  | .queueSample => Sys2Proof.Machine.execQueueSample s
  | .sampleFlush => Sys2Proof.Machine.execSampleFlush s
  | .appendAck index => Sys2Proof.Machine.execAppendAck index s
  | .appendWaitTimeout index => Sys2Proof.Machine.execAppendWaitTimeout index s
  | .mergeOpen index => Sys2Proof.Machine.execMergeOpen index s
  | .unitComplete fielder => Sys2Proof.Machine.execUnitComplete fielder s
  | .partialAccept catcher => Sys2Proof.Machine.execPartialAccept catcher s
  | .withdrawAckRx mergeTag fielder => Sys2Proof.Machine.execWithdrawAckRx mergeTag fielder s
  | .outputRelease index => Sys2Proof.Machine.execOutputRelease index s
  | .jobGrant partition => Sys2Proof.Machine.execJobGrant partition s
  | .jobCut partition => Sys2Proof.Machine.execJobCut partition s
  | .jobIdleRelease partition => Sys2Proof.Machine.execJobIdleRelease partition s
  | .rolePeriod => Sys2Proof.Machine.execRolePeriod s
  | .paceUpdate r => Sys2Proof.Machine.execPaceUpdate r s
  | .paceMonitorWindow domain count => Sys2Proof.Machine.execPaceMonitorWindow domain count s
  | .demoteTimer index => Sys2Proof.Machine.execDemoteTimer index s
  | .ttlExpiry index => Sys2Proof.Machine.execTtlExpiry index s
  | .lastRef index => Sys2Proof.Machine.execLastRef index s
  | .preemptionStart partition => Sys2Proof.Machine.execPreemptionStart partition s
  | .parkTileWritten transfer r => Sys2Proof.Machine.execParkTileWritten transfer r s
  | .moveDone index => Sys2Proof.Machine.execMoveDone index s
  | .moveFail index => Sys2Proof.Machine.execMoveFail index s
  | .revivalFetchIssue => Sys2Proof.Machine.execRevivalFetchIssue s
  | .tileFetchDone transfer r => Sys2Proof.Machine.execTileFetchDone transfer r s
  | .fetchTimeout transfer => Sys2Proof.Machine.execFetchTimeout transfer s
  | .flatIdlePark index => Sys2Proof.Machine.execFlatIdlePark index s
  | .flatDemote index => Sys2Proof.Machine.execFlatDemote index s
  | .flatMigration index => Sys2Proof.Machine.execFlatMigration index s
  | .hbmUncorrectable frame offset index => Sys2Proof.Machine.execHbmUncorrectable frame offset index s
  | .recordUncorrectable index => Sys2Proof.Machine.execRecordUncorrectable index s
  | .scrubPass stack bad corrected => Sys2Proof.Machine.execScrubPass stack bad corrected s
  | .sramFatal which => Sys2Proof.Machine.execSramFatal which s
  | .keySlotError context => Sys2Proof.Machine.execKeySlotError context s
  | .lanesAligned skewNs => Sys2Proof.Machine.execLanesAligned skewNs s
  | .vinOvervoltageEnd mv => Sys2Proof.Machine.execVinOvervoltageEnd mv s
  | .nvLinkUp lbas => Sys2Proof.Machine.execNvLinkUp lbas s
  | .nvLinkDown => Sys2Proof.Machine.execNvLinkDown s
  | .testLogicReset => Sys2Proof.Machine.execTestLogicReset s
  | .plcaBeaconLoss => Sys2Proof.Machine.execPlcaBeaconLoss s
  | .plcaBeacon => Sys2Proof.Machine.execPlcaBeacon s
  | .inningsIncrement index => Sys2Proof.Machine.execInningsIncrement index s
  | .dictAccess r => Sys2Proof.Machine.execDictAccess r s

end Sys2Proof.Machine
end

