-- ==== Sys2Proof/Machine/Idle.lean ====
section
/-!
DEFINITION. What passes when no command waits: a nanosecond of network time, and what is counted by the time that passes (log entry 16).
-/
namespace Sys2Proof.Machine

/-- Whether a job of a kind of partition `p` is eligible or holds the fielder set (R250). -/
def kindBusy (s : State) (p : Nat) (k : JobKind) : Bool :=
  s.jobs.any (fun e => e.2.partition == p && e.2.kind == k && (e.2.eligibleAt.isSome || (partAt s p).holder == some e.1))

/-- Whether a PREFILL job holds the fielder set of partition `p` (R244 rule 2). -/
def prefillHolds (s : State) (p : Nat) : Bool :=
  match (partAt s p).holder.bind (Tab.find s.jobs) with
  | some j => j.kind == .prefill
  | none => false

/-- The role governor's times of partition `p` after `d` ns (R244, R250). -/
def countRole (d p : Nat) (s : State) : State :=
  modPart p (fun x => { x with
    wp := if kindBusy s p .prefill then x.wp + d else x.wp
    wd := if kindBusy s p .decode then x.wd + d else x.wd
    prefillHeld := if prefillHolds s p then x.prefillHeld + d else x.prefillHeld }) s

/-- Count the time that head packets of a port wait for credit (R641, event 0x17). -/
def countStalls (d k : Nat) (s : State) : State :=
  foldRange 8 (fun t c =>
    match (classAt (portAt t k) c).queue with
    | x :: _ => if hasCredit (portAt t k) c x then t else pmu { code := 0x17, weight := d, requester := some (0x130 + k), tclass := some c } t
    | [] => t) s

/-- What time counts in a module that runs: role times, credit stalls, microseconds of network time (R641, event 0x01). -/
def countTime (d : Nat) (us : Bool) (s : State) : State :=
  if s.power.phase != .running then s
  else
    let s := (distinct (s.jobs.map (fun e => e.2.partition))).foldl (fun t p => countRole d p t) s
    let s := (Tab.keys s.ports).foldl (fun t k => countStalls d k t) s
    if us then pmu { code := 0x01 } s else s

/-- Advance network time by one nanosecond, and by the slew of R406 where an offset is being removed: at most 200 ppm, which is one
nanosecond in 5,000. -/
def tick (s : State) : State :=
  let due := s.time.slew != 0 && s.time.now % 5000 == 0 && s.time.slewAt != some s.time.now
  let d : Int := if due then (if s.time.slew > 0 then 1 else -1) else 0
  let n := ((s.time.now : Int) + 1 + d).toNat % 2 ^ 64
  let s' := { s with time.now := n, time.slew := s.time.slew - d, time.slewAt := if due then some n else s.time.slewAt }
  countTime (n - s.time.now) (n / 1000 > s.time.now / 1000) s'

end Sys2Proof.Machine
end

