-- ==== Sys2Proof/WellFormed.lean ====
section
/-!
DEFINITION. Which terms of `Instr` are commands that the module's interfaces can carry: every field within the width that the manual gives it.
-/
namespace Sys2Proof

/-- A message (R428 to R430): a 16-bit queue pair number, at most 255 operand words, at most 67,108,864 bytes of payload. -/
def msgWf (m : Msg) : Bool := m.qp < 65536 && m.ops.length < 256 && 8 * m.ops.length + m.body.length ≤ 67108864

/-- The path of a dictionary command (R614): a station's six-byte address, a station number of 4 bits, a 64-bit `SEQ`. -/
def pathWf : DictPath → Bool
  | .mailbox _ => true
  | .station a n q => a.length == 6 && n < 16 && q < 2 ^ 64

/-- A dictionary item (R600): a 16-bit index, an 8-bit subindex, one of the operations 1 to 3, a 16-bit offset and length. -/
def itemWf (i : DictItem) : Bool := i.index < 65536 && i.sub < 256 && 1 ≤ i.op && i.op ≤ 3 && i.offset < 65536 && i.length < 65536

/-- What a tile's completion brings (R358): 4,096 bytes where there are any. -/
def tileWf : TileResult → Bool
  | .done d => d.isEmpty || d.length == 4096
  | .uncorrectable => true
  | .refused => true

/-- A dictionary request taken whole (R603). -/
def requestWf : DictRequest → Bool
  | .mailbox m => msgWf m && m.qp == 0
  | .frame f => 16 ≤ f.length

/-- Whether a command is well formed. -/
def Instr.wf : Instr → Bool
  | .admitSession m | .step m | .wait m | .resume m | .park m | .fork m | .cancel m | .freeze m | .thaw m | .migrate m => msgWf m
  | .sessionSet m | .recordRead m | .lineage m | .layerIn m | .queryBlock m | .kvExtend m | .jobOpen m | .jobAdd m | .jobClose m => msgWf m
  | .modelLoad m | .modelRead m | .ropeLoad m => msgWf m
  | .ropeLoadApply n | .ropeLoadTimeout n => n < 32
  | .contextRearm m | .vocabLoad m | .grammarLoad m | .listLoad m => msgWf m
  | .loadPieceTimeout _ n => n < 256
  | .tokenBind m | .textIn m | .detokFlush m | .escapeSet m => msgWf m
  | .maskForm => true
  | .compassCreate m | .compassCentroids m | .compassInsert m | .compassDelete m | .compassCompact m | .compassSeal m => msgWf m
  | .compassUnseal m | .compassPlace m | .compassSearch m | .compassInfo m | .compassDrop m => msgWf m
  | .compassSliceIssue n | .compassSliceDone n => n < 256
  | .searchTimeout n => n < 2 ^ 32
  | .hostRangeAdd m | .hostRangeRemove m | .fmRangeSet m | .fmIdentity m | .regionCreate m | .regionDrop m | .publishOpen m => msgWf m
  | .publishPut m | .publishCommit m | .publishAbort m => msgWf m
  | .publishIdleTimeout n => n < 2 ^ 32
  | .regionRetainExpiry => true
  | .regionAttach m | .regionGather m | .regionRead m | .leaseTake m | .leaseBeat m | .leaseRelease m | .leaseQuery m => msgWf m
  | .leaseDeadline n => n < 2 ^ 32
  | .qpCreate m | .qpModify m | .qpDestroy m | .qpQuery m | .counterSet m | .wrPost m | .wrCancel m | .counterAdd m | .wrSignal m => msgWf m
  | .tileWrite t => t.qp < 65536 && t.counter < 16384 && t.data.length == 4096
  | .pairTakeover m | .pairDetach m | .migrateResolve m => msgWf m
  | .ringJoin m r => msgWf m && r.context < 4096 && r.modelSlot < 256 && r.cls < 2
  | .ringCmd m r => msgWf m && r.ops.length < 256
  | .migrateOpen m o => msgWf m && o.partition < 64
  | .migrateCommit m | .migrateAbort m => msgWf m
  | .ringAppend m r => msgWf m && r.layer < 256 && r.position < 2 ^ 32
  | .ringQuery m r => msgWf m && r.layer < 256 && r.mergeTag < 2 ^ 32 && r.innings < 65536
  | .segPartial m p => msgWf m && p.mergeTag < 2 ^ 32 && p.innings < 65536 && p.layer < 256 && p.head < 256 && p.segment < 32768 && p.level < 16 && p.qoff < 512
  | .segFrontier m => msgWf m
  | .ringQblock m r => msgWf m && r.layer < 256 && r.mergeTag < 2 ^ 32 && r.innings < 65536
  | .ringOutput m r => msgWf m && r.layer < 256
  | .mirrorUpdate m i | .mirrorMap m i | .mirrorAppend m i | .mirrorStepEnd m i | .mirrorPage m i => msgWf m && i.index < 2 ^ 25
  | .mirrorAck m | .pairBeat m => msgWf m
  | .pairBeatSend | .pairDeadline | .partnerSignalLoss => true
  | .peerSalt m | .surveyStart m => msgWf m
  | .surveyInstant | .surveyFreezeTimeout => true
  | .surveyAbort m | .surveyDrained m => msgWf m
  | .nvCommandDone _ => true
  | .nvTimeout => true
  | .nvFormat m | .restore m => msgWf m
  | .shardSupply m x => msgWf m && Tab.rising x
  | .restoreStatus m => msgWf m
  | .stepResumed n | .resumeHoldTimeout n => n < 2 ^ 25
  | .contextCreate m | .contextDestroy m | .contextTeardown m | .attest m | .keyDeliver m | .qpKeySet m | .fwUpdate m => msgWf m
  | .fwCommitVersion m | .frameRead m => msgWf m
  | .dictReadItem p i | .dictWriteItem p i | .dictDescribeItem p i => pathWf p && itemWf i
  | .mgmtHello f => 16 ≤ f.length
  | .modeRun p | .modeSetup p | .warmStart p => pathWf p
  | .clearCounters p v => pathWf p && v < 2 ^ 64
  | .gateCommit p k v | .gateEnable p k v => pathWf p && k < 5 && v < 2 ^ 64
  | .mgmtKey p k => pathWf p && k.length == 32
  | .sampleEnable p v | .sampleRd p v | .debugEnable p v => pathWf p && v < 2 ^ 64
  | .shapeRateMbps p k c _ v => pathWf p && k < 5 && c < 8 && v < 2 ^ 64
  | .meterCirMbps p k c w v => pathWf p && k < 5 && c < 8 && w < 4 && v < 2 ^ 64
  | .tcWeight p k c v => pathWf p && k < 5 && c < 8 && v < 2 ^ 64
  | .csrWrite m | .pmuClear m | .counterValueWrite m | .alertStatusRead m | .ovfStatusRead m => msgWf m
  | .tapUpdateIr _ => true
  | .vinGood _ | .vinLoss _ | .vinOvervoltage _ | .vioLoss _ | .vioGood _ => true
  | .resetAssert | .resetRelease | .startupComplete | .securityReady => true
  | .thermWarn n _ => n < 17
  | .thermWarnEnd l => l.length == 17
  | .thermalShutdown n _ => n < 17
  | .portSignalDetect k | .portTrainDone k | .portLock k | .portUp k | .portDown k => k < 5
  | .codewordUncorrectable k l => k < 5 && l < 4
  | .packetRx k p | .ackRx k p => k < 5 && p.data.length % 32 == 0
  | .ackDelayExpiry n => n < 65536
  | .creditRx k l => k < 5 && l.length == 8
  | .creditSend k => k < 5
  | .repeatTimeout n => n < 65536
  | .responseTimeout n => n < 2 ^ 32
  | .timeBlockRx n => n < 2 ^ 64
  | .delayReqSend => true
  | .delayRspRx n => n < 2 ^ 64
  | .timeHoldover | .timepulse => true
  | .egressPick k | .gateSwitch k | .gateInterval k => k < 5
  | .queueSample | .sampleFlush => true
  | .appendAck n | .appendWaitTimeout n | .mergeOpen n => n < 2 ^ 25
  | .unitComplete n => n < 256
  | .partialAccept n => n < 32
  | .withdrawAckRx t f => t < 2 ^ 32 && f < 256
  | .outputRelease n => n < 2 ^ 25
  | .jobGrant n | .jobCut n | .jobIdleRelease n => n < 64
  | .rolePeriod => true
  | .paceUpdate r => r.celsius.length == 17 && r.rates.length == 9 && r.rates.all (fun l => l.length == 33)
  | .paceMonitorWindow d _ => d < 9
  | .demoteTimer n | .ttlExpiry n | .lastRef n => n < 2 ^ 25
  | .preemptionStart n => n < 64
  | .parkTileWritten n r => n < 2 ^ 32 && tileWf r
  | .moveDone n | .moveFail n => n < 2 ^ 25
  | .revivalFetchIssue => true
  | .tileFetchDone n r => n < 2 ^ 32 && tileWf r
  | .fetchTimeout n => n < 2 ^ 32
  | .flatIdlePark n | .flatDemote n | .flatMigration n => n < 2 ^ 25
  | .hbmUncorrectable f o i => f < 2 ^ 24 && o < 65536 && i < 2 ^ 25
  | .recordUncorrectable n => n < 2 ^ 25
  | .scrubPass n b c => n < 8 && b.all (· < 2 ^ 24) && c.all (· < 2 ^ 24)
  | .sramFatal w => w == 1 || w == 2
  | .keySlotError c => c < 4096
  | .lanesAligned _ => true
  | .vinOvervoltageEnd _ => true
  | .nvLinkUp _ => true
  | .nvLinkDown | .testLogicReset | .plcaBeaconLoss | .plcaBeacon => true
  | .inningsIncrement n => n < 2 ^ 25
  | .dictAccess r => requestWf r

end Sys2Proof
end

