-- ==== Sys2Proof/Safety.lean ====
section
/-!
DEFINITION. The terms in which statements about the module speak: when it takes a message, what answering leaves alone, what it means that a
command completes.
-/
namespace Sys2Proof.Machine

/-- The module takes a request whose command is accepted as `on` says: it runs and is not halted (R387), its queue pair is READY and of the
command's kind (R418, R433), its operand words are whole, it has firmware (R548), and no survey's freeze holds requests (R515). -/
structure Serves (on : On) (m : Msg) (s : State) : Prop where
  powered : s.power.phase = .running
  ready : qpReady s m.qp = true
  works : s.mode ≠ .fatal
  firmware : s.sec.state ≠ .recovery
  kind : onAllowed s m.qp on = true
  whole : m.cut = false
  unfrozen : s.survey.frozen = false

/-- A host's session command reaches session `i` in Run: the handle passes the checks of R69 on the message's queue pair, where `torn` is whether
R265 still applies the command to a context torn down, and the session is no shadow (R467). -/
structure Reaches (torn : Bool) (m : Msg) (i : Nat) (s : State) : Prop where
  serves : Serves .bound m s
  run : s.mode = .run
  found : lookup s m.qp m.handle torn = .at_ i
  own : (sessAt s i).shadow = none
  free : entryHeld s i = false

/-- A host's region command reaches region `x` in Run: it stands on a queue pair of the region's context, which is not torn down unless the
command is one that R265 still applies, `always`. -/
structure OnRegion (always : Bool) (m : Msg) (x : Region) (s : State) : Prop where
  serves : Serves .bound m s
  run : s.mode = .run
  whole : (ctxAt s (qpAt s m.qp).context).tornDown = true → always = true
  found : Tab.find s.regions (opNat m 0) = some x
  own : x.context = (qpAt s m.qp).context

/-- A host's command on an open publish `p` of region `x` reaches it in Run: as for a region, and under a lease only from its holder (R376). -/
structure OnPublish (m : Msg) (p : Publish) (x : Region) (s : State) : Prop where
  serves : Serves .bound m s
  run : s.mode = .run
  whole : (ctxAt s (qpAt s m.qp).context).tornDown = false
  found : Tab.find s.publishes (opNat m 0) = some p
  region : Tab.find s.regions p.region = some x
  own : p.context = (qpAt s m.qp).context
  holder : ∀ l, x.lease = some l → p.lease ≠ 0 → l.id = p.lease → l.qp = m.qp

/-- A granted command on a publish notes its time and moves the deadline of the lease it is under (R371, R376). -/
def noted (m : Msg) (p : Publish) (s : State) : State :=
  renewLease p.region p.lease { s with publishes := Tab.put s.publishes (opNat m 0) { p with at_ := now s } }

/-- The module's engines and timers act: it runs and is not halted. -/
def Live (s : State) : Prop := s.power.phase = .running ∧ s.mode ≠ .fatal

/-- Engines that need a grant act: no survey's freeze lasts (R515). -/
def Grants (s : State) : Prop := Live s ∧ s.survey.frozen = false

/-- A state without what answering, counting and tracing write: queue pairs, ports, ingress, the record of what was sent, the dictionary's and
the performance counters with their wrap bits and alert causes, the map cache, the count of free values drawn. -/
def bare (s : State) : State :=
  { s with
    qps := [], ports := [], ingress := [], out := [], mapCache := [], draws := 0, dict.counters := []
    csr.counters := [], csr.ovf := [], csr.alert := 0 }

/-- A state without what telling a partner or ring members writes beside that: the pair, response waits, requests' tags, releases held for
the partner, answers a ring home awaits. -/
def apart (s : State) : State :=
  { bare s with pair := {}, waits := [], tagCount := 0, held := [], ringWaits := [] }

/-- A state without what an event of one session may write: sessions and what they hold (frames, page bytes, slots, segments), and work under way
(jobs, merges, transfers, masks, a survey). -/
def aside (s : State) : State :=
  { apart s with
    sessions := [], freed := [], frames := [], hbm := [], fills := [], fielders := [], catchers := [], merges := [], mergeTag := 0
    jobs := [], parts := [], segments := [], masks := [], hostSlots := [], poolSlots := [], transfers := [], nextTile := 0, reviveTurn := 0, ringMap := []
    survey := {} }

/-- An event of session `i` keeps every other session's Atlas entry and all that `aside` shows, and takes nothing back that was sent. -/
structure Only (i : Nat) (s t : State) : Prop where
  others : ∀ j, j ≠ i → (sessAt t j).entry = (sessAt s j).entry
  aside : aside t = aside s
  sent : s.out <+: t.out

/-- The command completes from `s`: its effect is that of `e` but for what answering, counting and tracing write, and it sends `l`. -/
def Does (c : Instr) (s e : State) (l : List Sent) : Prop :=
  ∃ t, exec c s = .next t ∧ bare t = bare e ∧ t.out = s.out ++ l

/-- As `Does`, and `f` acts on what the command leaves: what follows an event of its kind. -/
def DoesThen (c : Instr) (f : State → State) (s e : State) (l : List Sent) : Prop :=
  ∃ u, exec c s = .next (f u) ∧ bare u = bare e ∧ u.out = s.out ++ l

/-- As `Does`, for a command that writes queue pairs: all but the answering one, `q`, are those of `e`. -/
def DoesQp (c : Instr) (q : Nat) (s e : State) (l : List Sent) : Prop :=
  ∃ t, exec c s = .next t ∧ bare t = bare e ∧ t.out = s.out ++ l ∧ ∀ k, k ≠ q → qpAt t k = qpAt e k

/-- As `Does`, for a command that may also tell a partner or ring members, before it sends `l`. -/
def DoesApart (c : Instr) (s e : State) (l : List Sent) : Prop := ∃ t r, exec c s = .next t ∧ apart t = apart e ∧ t.out = s.out ++ r ++ l

/-- As `DoesApart`, for a command that also issues tiles to the pool (R356): the transfers and their numbers are those that it leaves. -/
def DoesStoring (c : Instr) (s e : State) (l : List Sent) : Prop :=
  ∃ t r, exec c s = .next t ∧ apart t = apart { e with transfers := t.transfers, nextTile := t.nextTile } ∧ t.out = s.out ++ r ++ l

/-- The response to a request that carries a status alone (R431). -/
def answer (m : Msg) (st : Status) : Sent := .msg (response m { status := st })

/-- What a command on session `i` answers at once: `OK`, unless the ring's members are asked first (R458). -/
def ringDone (m : Msg) (i : Nat) (s : State) : List Sent :=
  if (ringMembers s (sessAt s i).entry.partition).isEmpty || (sessAt s i).ringHome.isSome then [answer m .ok] else []

/-- The state in which a session command's own meaning starts: its message has left ingress and its lookup has been traced. -/
def taken (m : Msg) (s : State) : State := traceLookup m.handle (takeMsg m s)

/-- A dictionary item alone in its PDU is taken on its path (R603, R611, R614 to R619): the module runs and is not halted, queue pair 0 is READY,
or an operator key is set and the station's sequence number is new. -/
def ItemTaken (p : DictPath) (s : State) : Prop :=
  s.power.phase = .running ∧ s.power.warm = false ∧ s.mode ≠ .fatal ∧ s.sec.state ≠ .recovery ∧
  match p with
  | .mailbox _ => qpReady s 0 = true
  | .station _ n seq => keyUnset s = false ∧ n ≤ 15 ∧ seq < 2 ^ 64 ∧ Tab.get s.mgmt.lastSeq n 0 < seq

/-- An item's fields fit their widths (R600), and its value is as long as it says. -/
def ItemFits (i : DictItem) : Prop :=
  i.index < 65536 ∧ i.sub < 256 ∧ i.offset < 65536 ∧ i.length ≤ 1024 ∧ i.value.length = i.length

/-- The state in which the item is applied: its station has sent its number (R619). -/
def sequenced (p : DictPath) (s : State) : State :=
  match p with
  | .mailbox _ => s
  | .station _ n seq => { s with mgmt.lastSeq := Tab.put s.mgmt.lastSeq n seq }

/-- The response to an item (R606, R611, R615, R620): to the mailbox with the epoch of the state `t` it leaves, to a station with the epoch and
under the key of the state `s` that it came in. -/
def itemReply (p : DictPath) (i : DictItem) (a : Status × List Byte) (s t : State) : Sent :=
  match p with
  | .mailbox tag =>
    .msg (response { opcode := 0x0A01, tag, body := requestPdu [i] } { body := answerPdu {} 0 t.mgmt.epoch.toNat (.ok, 1, answerItem i a) })
  | .station source n seq =>
    let b := answerPdu { station := n } seq s.mgmt.epoch.toNat (.ok, 1, answerItem i a)
    .frame (managementFrame source (b ++ hmac s.mgmt.key b))

/-- The command is the item `i` on path `p`: its effect is `e`, its response carries `a`, and `k` holds of what it leaves. -/
def DoesItem (c : Instr) (p : DictPath) (i : DictItem) (a : Status × List Byte) (e : State → State) (k : State → Prop) (s : State) : Prop :=
  ∃ t, exec c s = .next t ∧ bare t = bare (e (sequenced p s)) ∧ t.out = s.out ++ [itemReply p i a s (e s)] ∧ k t

/-- Nothing more is said of what a command leaves. -/
def anything (_ : State) : Prop := True

/-- Requests that Setup refuses (R597): on sessions, jobs, tokens, Compass, regions, leases and work requests. -/
def runRequests : List (Msg → Instr) := [
  .admitSession, .step, .wait, .resume, .park, .fork, .cancel, .freeze, .thaw, .migrate, .sessionSet, .recordRead, .lineage,
  .layerIn, .queryBlock, .kvExtend, .jobOpen, .jobAdd, .jobClose, .tokenBind, .textIn, .detokFlush, .escapeSet,
  .compassCreate, .compassCentroids, .compassInsert, .compassDelete, .compassCompact, .compassSeal, .compassUnseal, .compassPlace,
  .compassSearch, .compassInfo, .compassDrop,
  .regionCreate, .regionDrop, .publishOpen, .publishPut, .publishCommit, .publishAbort, .regionAttach, .regionGather, .regionRead,
  .leaseTake, .leaseRelease, .leaseQuery, .wrPost, .wrCancel, .counterAdd]

/-- Requests of Run that have no answer (R377, R431). -/
def silentRequests : List (Msg → Instr) := [.leaseBeat, .wrSignal]

/-- Requests that Setup accepts. -/
def setupRequests : List (Msg → Instr) := [
  .modelLoad, .modelRead, .ropeLoad, .contextRearm, .vocabLoad, .grammarLoad, .listLoad, .hostRangeAdd, .hostRangeRemove, .fmRangeSet, .fmIdentity,
  .qpCreate, .qpModify, .qpDestroy, .qpQuery, .qpKeySet, .counterSet, .pairTakeover, .pairDetach, .migrateResolve,
  .surveyAbort, .surveyDrained, .nvFormat, .restore, .restoreStatus, .contextCreate, .contextDestroy, .contextTeardown, .attest, .keyDeliver,
  .fwUpdate, .fwCommitVersion, .frameRead, .csrWrite, .pmuClear, .counterValueWrite, .alertStatusRead, .ovfStatusRead]

/-- What holds of every state that a step leaves: the HBM listing is canonical, and no warm start that was answered still waits to begin. -/
structure Sound (s : State) : Prop where
  memory : Memory.wf s.hbm = true
  warm : s.power.warm = false

/-- The commands that begin or end a reset of the whole module (R645 to R658, R671, R678). -/
def Resets (c : Instr) : Prop :=
  (∃ v, c = .vinGood v ∨ c = .vinLoss v ∨ c = .vinOvervoltage v ∨ c = .vinOvervoltageEnd v ∨ c = .vioLoss v ∨ c = .vioGood v) ∨
  c = .resetAssert ∨ c = .resetRelease ∨ c = .startupComplete ∨ ∃ n x, c = .thermalShutdown n x

end Sys2Proof.Machine
end

