-- ==== Sys2Proof/Certificates/Slice0/Obligations.lean ====
section
/-!
DEFINITION. What is stated of the module for the provers, by family of commands.
-/
open Sys2Proof Sys2Proof.Machine

/-- Host ranges (R342, R345): a range is registered as its command gives it, or `RANGE_INVALID` is answered and nothing changes; its registration ends
unless a slot of it is allocated or the sampler writes there. Pool management (R346, R347): taken on the queue pair named by `FM_QP` alone, applied at
once, checked against nothing of the pool. -/
def Obligations.RangesAreManaged : Prop :=
  (
    ∀ (m : Msg) (s : State), Serves .mailbox m s →
    (m.ops.length = 3 → opNat m 0 ≤ 63 → opNat m 1 % 65536 = 0 → 0 < opNat m 2 → opNat m 2 % 65536 = 0 → opNat m 2 / 65536 ≤ 2 ^ 29 →
      Tab.find s.hostRanges (opNat m 0) = none →
      Does (.hostRangeAdd m) s { s with hostRanges := Tab.put s.hostRanges (opNat m 0) { base := opNat m 1, slots := opNat m 2 / 65536 } }
        [answer m .ok]) ∧
    (m.ops.length = 3 → 63 < opNat m 0 ∨ opNat m 1 % 65536 ≠ 0 ∨ opNat m 2 = 0 ∨ opNat m 2 % 65536 ≠ 0 ∨ 2 ^ 29 < opNat m 2 / 65536 ∨
      (Tab.find s.hostRanges (opNat m 0)).isSome → Does (.hostRangeAdd m) s s [answer m .rangeInvalid]) ∧
    (m.ops.length = 1 → 63 < opNat m 0 ∨ Tab.find s.hostRanges (opNat m 0) = none → Does (.hostRangeRemove m) s s [answer m .rangeInvalid]) ∧
    (m.ops.length = 1 → opNat m 0 ≤ 63 → (Tab.find s.hostRanges (opNat m 0)).isSome → (∃ k ∈ s.hostSlots, k / 2 ^ 29 = opNat m 0) →
      Does (.hostRangeRemove m) s s [answer m .rangeBusy]) ∧
    (m.ops.length = 1 → opNat m 0 ≤ 63 → (Tab.find s.hostRanges (opNat m 0)).isSome → s.sampler.range = some (opNat m 0) →
      Does (.hostRangeRemove m) s s [answer m .rangeBusy]) ∧
    (m.ops.length = 1 → opNat m 0 ≤ 63 → (Tab.find s.hostRanges (opNat m 0)).isSome → (∀ k ∈ s.hostSlots, k / 2 ^ 29 ≠ opNat m 0) →
      s.sampler.range ≠ some (opNat m 0) →
      Does (.hostRangeRemove m) s { s with hostRanges := Tab.drop s.hostRanges (opNat m 0) } [answer m .ok])) ∧
  (
    (∀ (m : Msg) (s : State), Serves .fm m s → m.ops.length = 3 → opNat m 0 ≤ 255 →
      let e : PoolRange :=
        { valid := bit (opWord m 2) 63, access := bits (opWord m 2) 62 61, alloc := bit (opWord m 2) 60, allContexts := bit (opWord m 2) 59
          context := bits (opWord m 2) 58 47, hostId := bits (opWord m 2) 21 6
          base := bits (opWord m 2) 5 0 * 2 ^ 29 + bits (opWord m 1) 63 35, limit := bits (opWord m 1) 34 0 }
      Does (.fmRangeSet m) s { s with poolRanges := Tab.put s.poolRanges (opNat m 0) e } [answer m .ok]) ∧
    (∀ (m : Msg) (s : State), Serves .fm m s → m.ops.length = 2 → opNat m 0 ≤ 65535 → 1 ≤ opNat m 1 → opNat m 1 ≤ 64 →
      Does (.fmIdentity m) s { s with hostId := opNat m 0, poolChannels := opNat m 1 } [answer m .ok]) ∧
    (∀ (on : On) (m : Msg) (s : State), Serves on m s → m.qp ≠ fmQpVal s →
      Does (.fmRangeSet m) s s [answer m .opcodeDenied] ∧ Does (.fmIdentity m) s s [answer m .opcodeDenied]))

/-- Regions are created at version 0 with every line in a slot of its own, and dropped with all their slots (R364 to R366, R370). Region reads (R372
to R374): an attachment holds the region's version as it stands, or for another home what its descriptor is taken to hold (log entry 35); a read asks
for the lines that it names of the version it found, where the pool range table lets the context read their slots; a row number beyond the region
reads nothing, and an attachment whose version is gone is stale. -/
def Obligations.RegionsAreMadeAndRead : Prop :=
  (
    (∀ (m : Msg) (s v : State) (l : List Nat), Serves .bound m s → s.mode = .run → m.ops.length = 6 →
      let c := (qpAt s m.qp).context
      let owner := if opWord m 5 = allOnes then 0 else opWord m 5
      let range := Tab.get s.poolRanges (opNat m 4) {}
      let n := ceilDiv (opNat m 2) 8192
      opNat m 1 ≤ 1 → opNat m 4 ≤ 255 → (opNat m 1 = 1 → 1 ≤ opNat m 3 ∧ opNat m 3 ≤ 65536) → (ctxAt s c).mode ≠ .none → (ctxAt s c).tornDown = false →
      (owner ≠ 0 → ∃ i, lookup s m.qp owner false = .at_ i ∧ bit (sessAt s i).record.lease 63 = false) →
      opNat m 0 ≤ 16383 → Tab.find s.regions (opNat m 0) = none → 1 ≤ opNat m 2 → opNat m 2 ≤ 16777216 →
      range.valid = true → range.alloc = true → range.access = 2 → range.context = c →
      allocSlots (opNat m 4) c (1 + n + opNat m 2) s = some (l, v) →
      let x : Region :=
        { table := opNat m 1 = 1, context := c, range := opNat m 4, lines := opNat m 2
          rowBytesM1 := if opNat m 1 = 1 then opNat m 3 - 1 else 0, version := 0, root := l.headD 0, owner
          leaves := (List.range n).map (fun k => (k, l.getD (1 + k) 0))
          lineSlots := (List.range (opNat m 2)).map (fun k => (k, l.getD (1 + n + k) 0)) }
      DoesStoring (.regionCreate m) s
        (modOwner x (fun w => (word (2 ^ 63 + at' (opNat m 0) 32 14), w.2))
          { s with poolSlots := s.poolSlots ++ l, regions := Tab.put s.regions (opNat m 0) x }) [answer m .ok]) ∧
    (∀ (m : Msg) (x : Region) (s : State), OnRegion true m x s → m.ops.length = 1 →
      ∃ t r, exec (.regionDrop m) s = .next t ∧ t.out = s.out ++ r ++ [answer m .ok] ∧ Tab.find t.regions (opNat m 0) = none ∧
        (∀ k, k ≠ opNat m 0 → Tab.find t.regions k = Tab.find s.regions k) ∧ (∀ e ∈ t.publishes, e.2.region ≠ opNat m 0) ∧
        t.retained = s.retained.filter (fun e => e.region != opNat m 0))) ∧
  (
    (∀ (m : Msg) (x : Region) (s : State) (n : Nat), Serves .bound m s → s.mode = .run →
      (ctxAt s (qpAt s m.qp).context).tornDown = false → m.ops.length = 2 → opNat m 0 ≤ 63 → opNat m 0 = nodeIdVal s →
      Tab.find s.regions (opNat m 1) = some x → (x.context = (qpAt s m.qp).context ∨ (ctxAt s x.context).mode ≠ .confidential) →
      leastUnused (Tab.keys s.attachments) 0 4095 = some n → poolAllows s (qpAt s m.qp).context x.root false = true →
      let a : Attachment :=
        { home := opNat m 0, region := opNat m 1, context := (qpAt s m.qp).context, root := x.root, version := x.version, lines := x.lines
          rowBytesM1 := x.rowBytesM1, lineSlots := x.lineSlots }
      Does (.regionAttach m) s { s with attachments := Tab.put s.attachments n a } [.msg (response m { ops := [word (16384 + n)] })]) ∧
    (∀ (m : Msg) (s : State) (n : Nat), Serves .bound m s → s.mode = .run → (ctxAt s (qpAt s m.qp).context).tornDown = false →
      m.ops.length = 2 → opNat m 0 ≤ 63 → opNat m 0 ≠ nodeIdVal s → leastUnused (Tab.keys s.attachments) 0 4095 = some n →
      let a := (draw s).1
      let b := (draw (draw s).2).1
      poolAllows s (qpAt s m.qp).context (bits a 34 0) false = true →
      let x : Attachment :=
        { home := opNat m 0, region := opNat m 1, context := (qpAt s m.qp).context, root := bits a 34 0, version := bits b 31 0
          lines := bits a 58 35 + 1, rowBytesM1 := bits b 47 32, table := bit b 48, at_ := now s }
      Does (.regionAttach m) s { s with attachments := Tab.put s.attachments n x } [.msg (response m { ops := [word (16384 + n)] })]) ∧
    (∀ (m : Msg) (x : Region) (s : State), OnRegion false m x s → m.ops.length = 2 → opNat m 0 < 16384 → opNat m 1 < x.lines →
      poolAllows s x.context (Tab.get x.lineSlots (opNat m 1) 0) false = true →
      let n := (leastUnused (Tab.keys s.regionJobs) 0 (2 ^ 32)).getD 0
      ∃ t r j, exec (.regionRead m) s = .next t ∧ t.out = s.out ++ r ∧ Tab.find t.regionJobs n = some j ∧ j.msg = m ∧ j.version = x.version ∧
        j.want = [(opNat m 1, 0, 65536)] ∧ j.got = []) ∧
    (∀ (m : Msg) (a : Attachment) (s : State), Serves .bound m s → s.mode = .run → (ctxAt s (qpAt s m.qp).context).tornDown = false →
      m.ops.length = 2 → 16384 ≤ opNat m 0 → Tab.find s.attachments (opNat m 0 - 16384) = some a → a.home ≠ nodeIdVal s → a.stale = false →
      now s < a.at_ + regionRetainMsVal s * 1000000 → a.context = (qpAt s m.qp).context → opNat m 1 < a.lines →
      poolAllows s a.context a.root false = true → a.lineSlots = [] →
      let n := (leastUnused (Tab.keys s.regionJobs) 0 (2 ^ 32)).getD 0
      ∃ t r j, exec (.regionRead m) s = .next t ∧ t.out = s.out ++ r ∧ Tab.find t.regionJobs n = some j ∧ j.msg = m ∧ j.version = a.version ∧
        j.remote = some a.root ∧ j.want = [(opNat m 1, 0, 65536)] ∧ j.got = []) ∧
    (∀ (m : Msg) (x : Region) (s : State) (rows : List Nat), OnRegion false m x s → m.ops.length = 1 → opNat m 0 < 16384 →
      badCount 4096 m.body = false → (listWords m.body).map (List.map BitVec.toNat) = some rows → x.table = true → x.rowBytesM1 < 65536 →
      (∀ r ∈ rows, r < 65536 / (x.rowBytesM1 + 1) * x.lines) →
      (∀ r ∈ rows, poolAllows s x.context (Tab.get x.lineSlots (r / (65536 / (x.rowBytesM1 + 1))) 0) false = true) →
      let n := (leastUnused (Tab.keys s.regionJobs) 0 (2 ^ 32)).getD 0
      let per := 65536 / (x.rowBytesM1 + 1)
      ∃ t r j, exec (.regionGather m) s = .next t ∧ t.out = s.out ++ r ∧ Tab.find t.regionJobs n = some j ∧ j.msg = m ∧ j.version = x.version ∧
        j.want = rows.map (fun k => (k / per, k % per * (x.rowBytesM1 + 1), x.rowBytesM1 + 1)) ∧ j.got = []) ∧
    (∀ (m : Msg) (x : Region) (s : State), OnRegion false m x s → m.ops.length = 2 → opNat m 0 < 16384 → x.lines ≤ opNat m 1 →
      Does (.regionRead m) s s [answer m .messageMalformed]) ∧
    (∀ (m : Msg) (x : Region) (s : State) (rows : List Nat), OnRegion false m x s → m.ops.length = 1 → opNat m 0 < 16384 →
      badCount 4096 m.body = false → (listWords m.body).map (List.map BitVec.toNat) = some rows →
      (x.table = false ∨ ∃ r ∈ rows, 65536 / (x.rowBytesM1 + 1) * x.lines ≤ r) →
      Does (.regionGather m) s s [answer m .rowRange]) ∧
    (∀ (m : Msg) (a : Attachment) (s : State), Serves .bound m s → s.mode = .run → (ctxAt s (qpAt s m.qp).context).tornDown = false →
      16384 ≤ opNat m 0 → Tab.find s.attachments (opNat m 0 - 16384) = some a → a.home = nodeIdVal s →
      (∀ x, Tab.find s.regions a.region = some x → x.version ≠ a.version) →
      (∀ e ∈ s.retained, e.region = a.region → e.version ≠ a.version) →
      (m.ops.length = 2 → Does (.regionRead m) s s [answer m .versionStale]) ∧
      (m.ops.length = 1 → badCount 4096 m.body = false → (listWords m.body).isSome →
        Does (.regionGather m) s s [answer m .versionStale])))

/-- Publishes (R367, R368, R371): opened under a new id, a line staged and written to a slot of its own, committed as the region's next version where
lease and version stand, aborted by command or after `PUBLISH_IDLE_MS` with their staged slots freed. Leases (R375 to R379): taken on a region without
one under the next id, moved by a beat of the holder, answered, ended by the holder's release, and voided at the deadline with the region's flag and
alert. -/
def Obligations.PublishesAndLeasesAreHeld : Prop :=
  (
    (∀ (m : Msg) (x : Region) (s : State), OnRegion false m x s → m.ops.length = 3 → opNat m 1 < 2 ^ 32 →
      leaseJudge s m (opNat m 0) (opNat m 2) = .ok → s.publishes.length < 1024 →
      let p : Publish := { region := opNat m 0, context := x.context, expected := opNat m 1, lease := opNat m 2, qp := m.qp, at_ := now s }
      Does (.publishOpen m) s
        (renewLease (opNat m 0) (opNat m 2)
          { s with publishes := Tab.put s.publishes (s.publishCount + 1) p, publishCount := s.publishCount + 1 })
        [.msg (response m { ops := [word (s.publishCount + 1)] })]) ∧
    (∀ (m : Msg) (p : Publish) (x : Region) (s v : State) (k : Nat), OnPublish m p x s → m.ops.length = 2 → 65536 ≤ m.body.length →
      opNat m 1 < x.lines → Tab.find p.staged (opNat m 1) = none →
      allocPool x.range x.context 1 s = some (k, v) → poolAllows s x.context k true = true →
      DoesApart (.publishPut m) s
        (poolSlotWrite x.context k 0 (slice m.body 0 65536)
          { noted m p s with
            poolSlots := s.poolSlots ++ [k]
            publishes := Tab.put s.publishes (opNat m 0) { p with staged := Tab.put p.staged (opNat m 1) k, at_ := now s } })
        [answer m .ok]) ∧
    (∀ (m : Msg) (p : Publish) (x : Region) (s : State) (k : Nat), OnPublish m p x s → m.ops.length = 2 → 65536 ≤ m.body.length →
      opNat m 1 < x.lines → Tab.find p.staged (opNat m 1) = some k → poolAllows s x.context k true = true →
      DoesApart (.publishPut m) s
        (poolSlotWrite x.context k 0 (slice m.body 0 65536)
          { noted m p s with
            publishes := Tab.put s.publishes (opNat m 0) { p with staged := Tab.put p.staged (opNat m 1) k, at_ := now s } })
        [answer m .ok]) ∧
    (∀ (m : Msg) (p : Publish) (x : Region) (s v : State) (l : List Nat), OnPublish m p x s → m.ops.length = 1 → Tab.rising p.staged = true →
      (∀ q, x.lease = some q → q.id = p.lease) → (x.lease = none → p.lease = 0) → x.version = p.expected →
      allocSlots x.range x.context ((distinct ((Tab.keys p.staged).map (· / 8192))).length + 1) s = some (l, v) →
      ∃ t r y, exec (.publishCommit m) s = .next t ∧ t.out = s.out ++ r ++ [answer m .ok] ∧ Tab.find t.regions p.region = some y ∧
        y.version = (if x.version = 4294967295 then 1 else x.version + 1) ∧ y.root = l.headD 0 ∧ y.lines = x.lines ∧ y.owner = x.owner ∧
        (∀ n, Tab.find y.lineSlots n = (Tab.find p.staged n).or (Tab.find x.lineSlots n)) ∧
        Tab.find t.publishes (opNat m 0) = none ∧
        ∃ o, t.retained = s.retained ++ [o] ∧ o.region = p.region ∧ o.version = x.version ∧ o.at_ = now s ∧ x.root ∈ o.slots) ∧
    (∀ (m : Msg) (p : Publish) (x : Region) (s : State), OnPublish m p x s → m.ops.length = 1 →
      Does (.publishAbort m) s (freeSlots (Tab.vals p.staged) { noted m p s with publishes := Tab.drop (noted m p s).publishes (opNat m 0) })
        [answer m .ok]) ∧
    (∀ (k : Nat) (p : Publish) (s : State), Grants s → Tab.find s.publishes k = some p → p.at_ + publishIdleMsVal s * 1000000 ≤ now s →
      Does (.publishIdleTimeout k) s (freeSlots (Tab.vals p.staged) { s with publishes := Tab.drop s.publishes k }) []) ∧
    (∀ (s : State), Grants s →
      let due (e : Retained) : Bool := e.at_ + regionRetainMsVal s * 1000000 ≤ now s
      Does .regionRetainExpiry s
        (freeSlots ((s.retained.filter due).map (·.slots)).flatten { s with retained := s.retained.filter (fun e => !due e) }) [])) ∧
  (
    (∀ (m : Msg) (x : Region) (s : State), OnRegion false m x s → m.ops.length = 3 → x.lease = none →
      (opNat m 2 = 0 ∨ 10 ≤ opNat m 2 ∧ opNat m 2 ≤ 60000) →
      let id := s.leaseCount % 4294967295 + 1
      let ns := (if opNat m 2 = 0 then leaseTimeoutMsVal s else opNat m 2) * 1000000
      let y : Region := { x with lease := some { id, qp := m.qp, timeoutNs := ns, deadline := now s + ns } }
      DoesApart (.leaseTake m) s
        (modOwner y (fun w => (setBits (setBits w.1 62 62 1) 31 0 id, w.2))
          { s with leaseCount := id, regions := Tab.put s.regions (opNat m 0) y })
        [.msg (response m { ops := [word id] })]) ∧
    (∀ (m : Msg) (x : Region) (l : Lease) (s : State), OnRegion false m x s → m.ops.length = 3 → x.lease = some l →
      l.id = opNat m 1 → l.qp = m.qp →
      (l.id ≠ 0 → Does (.leaseBeat m) s
        { s with regions := Tab.put s.regions (opNat m 0) { x with lease := some { l with deadline := now s + l.timeoutNs } } } []) ∧
      DoesApart (.leaseRelease m) s (endLease (opNat m 0) x l s) [answer m .ok]) ∧
    (∀ (m : Msg) (x : Region) (s : State), OnRegion true m x s → m.ops.length = 3 →
      match x.lease with
      | none => Does (.leaseQuery m) s s [answer m .leaseVoid]
      | some l =>
        if l.id ≠ opNat m 1 then Does (.leaseQuery m) s s [answer m .leaseVoid]
        else if l.qp ≠ m.qp then Does (.leaseQuery m) s s [answer m .leaseDenied]
        else Does (.leaseQuery m) s s [.msg (response m { ops := [1, word l.deadline] })]) ∧
    (∀ (m : Msg) (x : Region) (s : State), OnRegion false m x s → m.ops.length = 3 → (∀ l, x.lease = some l → l.id ≠ opNat m 1) →
      Does (.leaseBeat m) s s [] ∧ Does (.leaseRelease m) s s [answer m .leaseVoid]) ∧
    (∀ (m : Msg) (x : Region) (l : Lease) (s : State), OnRegion false m x s → m.ops.length = 3 → x.lease = some l →
      l.id = opNat m 1 → l.qp ≠ m.qp →
      Does (.leaseBeat m) s s [] ∧ Does (.leaseRelease m) s s [answer m .leaseDenied]) ∧
    (∀ (r : Nat) (x : Region) (l : Lease) (s : State), Grants s → Tab.find s.regions r = some x → x.lease = some l → l.deadline ≤ now s →
      ∃ t y, exec (.leaseDeadline r) s = .next t ∧ Tab.find t.regions r = some y ∧ y = { x with lease := none } ∧
        (∀ e ∈ t.publishes, e.2.region = r → e.2.lease ≠ l.id) ∧ t.csr.alert.getLsbD 1 = true))

/-- Queue pairs are made, modified, destroyed and keyed by mailbox commands (R416, R417, R566, R567), and a peer's salt is taken (R571). A move to
ERROR is `qpError`, with what follows. -/
def Obligations.QueuePairsAreManaged : Prop :=
  (∀ (m : Msg) (s : State) (n : Nat), Serves .mailbox m s → m.ops.length = 4 → opNat m 1 ≤ 4 → opNat m 2 ≤ 7 → opNat m 3 ≤ 1 →
    (opWord m 0 = allOnes → opNat m 3 = 0) →
    (opWord m 0 ≠ allOnes → contextHeld s (opNat m 0) = false ∧ (ctxAt s (opNat m 0)).mode ≠ .none ∧ (opNat m 3 = 1 ↔ (ctxAt s (opNat m 0)).mode = .confidential)) →
    leastFrom (fun k => !(qpAt s k).created) 512 (s.qps.length + 1) = some n → n ≤ 65535 →
    let q : Qp :=
      { created := true, bound := opWord m 0 ≠ allOnes, context := if opWord m 0 ≠ allOnes then opNat m 0 else 0, port := opNat m 1
        tclass := opNat m 2, enc := opNat m 3 == 1 }
    DoesQp (.qpCreate m) m.qp s (setQp n q s) [.msg (response m { ops := [word n] })]) ∧
  (∀ (m : Msg) (s : State), Serves .mailbox m s → m.ops.length = 8 → madeQp s (opNat m 0) = true → readyOperandsBad m = false →
    (qpAt s (opNat m 0)).state = .reset → opNat m 1 = 1 → s.time.everValid = true →
    ((qpAt s (opNat m 0)).enc = true → (qpAt s (opNat m 0)).salted = true) →
    DoesQp (.qpModify m) m.qp s
      (setQp (opNat m 0) (readyQp (qpAt s (opNat m 0)) (opNat m 2) (opNat m 3) (opNat m 4) (opNat m 5) (opNat m 6)
        (if opNat m 7 = 0 then rtoUsVal s else opNat m 7)) s) [answer m .ok]) ∧
  (∀ (m : Msg) (s : State), Serves .mailbox m s → m.ops.length = 8 → madeQp s (opNat m 0) = true → (qpAt s (opNat m 0)).state ≠ .reset →
    opNat m 1 = 0 → DoesQp (.qpModify m) m.qp s (setQp (opNat m 0) (resetQp (qpAt s (opNat m 0))) s) [answer m .ok]) ∧
  (∀ (m : Msg) (s : State), Serves .mailbox m s → m.ops.length = 8 → madeQp s (opNat m 0) = true → (qpAt s (opNat m 0)).state = .ready →
    opNat m 1 = 2 → exec (.qpModify m) s = .next (refuse m .ok (settle (qpToError (opNat m 0) .qpErrorSet (takeMsg m s))))) ∧
  (∀ (m : Msg) (s : State), Serves .mailbox m s → m.ops.length = 8 → readyOperandsBad m = false →
    (madeQp s (opNat m 0) = false ∨ (qpAt s (opNat m 0)).state = .error ∧ opNat m 1 ≠ 0 ∨ (qpAt s (opNat m 0)).state = .reset ∧ opNat m 1 ≠ 1 ∨
      (qpAt s (opNat m 0)).state = .ready ∧ opNat m 1 ≠ 0 ∧ opNat m 1 ≠ 2) → Does (.qpModify m) s s [answer m .qpState]) ∧
  (∀ (m : Msg) (s : State), Serves .mailbox m s → m.ops.length = 1 → madeQp s (opNat m 0) = true → (qpAt s (opNat m 0)).state = .reset →
    DoesQp (.qpDestroy m) m.qp s { s with qps := Tab.drop s.qps (opNat m 0) } [answer m .ok]) ∧
  (∀ (m : Msg) (s : State), Serves .mailbox m s → m.ops.length = 1 → opNat m 0 ≤ 65535 →
    DoesQp (.qpQuery m) m.qp s s [.msg (response m { body := wordsBytes (qpWords s (opNat m 0)) })]) ∧
  (∀ (m : Msg) (s : State), Serves .mailbox m s → m.ops.length = 2 → s.sec.state ≠ .notReady → madeQp s (opNat m 0) = true →
    (qpAt s (opNat m 0)).state = .reset → (qpAt s (opNat m 0)).enc = true →
    let w := Config.freeWord s.draws
    DoesQp (.qpKeySet m) m.qp s (setQp (opNat m 0) { qpAt s (opNat m 0) with rcvSalt := opWord m 1, sndSalt := w, salted := true } s)
      [.msg (response m { args := w })]) ∧
  (∀ (m : Msg) (s : State), Serves .peer m s → m.ops.length = 1 →
    ∃ t, exec (.peerSalt m) s = .next t ∧ bare t = bare s ∧ t.out = s.out ∧ (qpAt t m.qp).rcvSalt = opWord m 0 ∧ (qpAt t m.qp).salted = true ∧
      ∀ k, k ≠ m.qp → qpAt t k = qpAt s k)

/-- Trigger counters and work requests (R440 to R442, R445): what a command posts, sets or adds, and then what has become ready fires. -/
def Obligations.TriggersFireWorkRequests : Prop :=
  (∀ (m : Msg) (s : State), Serves .mailbox m s → m.ops.length = 3 → 1 ≤ opNat m 0 → opNat m 0 ≤ 16383 → opNat m 2 < 2 ^ 32 →
    (ctxAt s (opNat m 1)).mode ≠ .none → (ctxAt s (opNat m 1)).tornDown = false →
    DoesThen (.counterSet m) fireReady s
      { s with triggers := Tab.put s.triggers (opNat m 0) { context := some (opNat m 1), value := BitVec.ofNat 32 (opNat m 2) } } [answer m .ok]) ∧
  (∀ (m : Msg) (s : State), Serves .mailbox m s → m.ops.length = 3 → opNat m 0 = 0 → opNat m 2 < 2 ^ 32 → (ctxAt s (opNat m 1)).mode ≠ .none →
    (ctxAt s (opNat m 1)).tornDown = false → Does (.counterSet m) s s [answer m .ok]) ∧
  (∀ (m : Msg) (s : State), Serves .bound m s → s.mode = .run → m.ops.length = 2 → opNat m 0 ≤ 16383 → opNat m 1 < 2 ^ 32 →
    let c := (qpAt s m.qp).context
    let k := counterAt s (opNat m 0)
    let k' : Trigger := { k with value := k.value + BitVec.ofNat 32 (opNat m 1) }
    (ctxAt s c).tornDown = false →
    (opNat m 0 ≠ 0 → k.context = some c →
      DoesThen (.counterAdd m) fireReady s { s with triggers := Tab.put s.triggers (opNat m 0) k' } [answer m .ok]) ∧
    (opNat m 0 = 0 → DoesThen (.counterAdd m) fireReady s s [answer m .ok]) ∧
    (opNat m 0 ≠ 0 → k.context ≠ some c → Does (.counterAdd m) s s [answer m .wrInvalid])) ∧
  (∀ (m : Msg) (s : State), Serves .bound m s → s.mode = .run → m.ops.length = 0 → m.body.length % 64 = 0 → 64 ≤ m.body.length →
    m.body.length ≤ 4096 →
    let c := (qpAt s m.qp).context
    let k := m.body.length / 64
    let ws : List WorkReq := (List.range k).map (fun j => { words := wordsAt m.body (64 * j) 8, context := c })
    (ctxAt s c).tornDown = false →
    (ws.all (wrOk s c) = true → (s.wrs.filter (fun e => !e.2.fired)).length + k ≤ 262144 →
      DoesThen (.wrPost m) fireReady s (ws.foldl (fun t w => postWr w t) s)
        [.msg (response m { body := wordsBytes (word k :: (List.range' s.wrCount k).map word) })]) ∧
    (ws.all (wrOk s c) = false → Does (.wrPost m) s s [answer m .wrInvalid]) ∧
    (ws.all (wrOk s c) = true → 262144 < (s.wrs.filter (fun e => !e.2.fired)).length + k → Does (.wrPost m) s s [answer m .wrLimit])) ∧
  (∀ (m : Msg) (s : State), Serves .bound m s → s.mode = .run → m.ops.length = 1 →
    let c := (qpAt s m.qp).context
    (ctxAt s c).tornDown = false →
    (∀ w, Tab.find s.wrs (opNat m 0) = some w → w.fired = false → w.context = c →
      Does (.wrCancel m) s { s with wrs := Tab.drop s.wrs (opNat m 0) } [answer m .ok]) ∧
    ((∀ w, Tab.find s.wrs (opNat m 0) = some w → w.fired = true ∨ w.context ≠ c) → Does (.wrCancel m) s s [answer m .wrUnknown])) ∧
  (∀ (m : Msg) (s : State), Serves .bound m s → s.mode = .run → m.ops.length = 0 →
    let hit := Tab.keysWhere s.wrs (fun w => !w.fired && wrTrigger w != 0 && wrQp w == m.qp && wrSignalTag w == m.tag.toNat)
    DoesThen (.wrSignal m) (fireList (2 * s.wrs.length * (s.wrs.length + 1) + 1) hit) s s []) ∧
  (∀ (n : Nat) (w : WorkReq) (s : State), s.wrs = [(n, w)] → w.fired = false → wrOp w = 3 →
    ∀ f, 2 ≤ f → bare (fireList f [n] s) = bare (addTrigger (wrDone w) 1 w.context
      { addTrigger (bits (wrWord w 3) 13 0) (bits (wrWord w 3) 63 32) w.context s with wrs := [] }))

/-- Model slots, rotary tables and re-arming (R148 to R150, R165, R166, R268): a load that passes its checks writes its slot at once, a rotary table
once no step in flight uses it, or is answered `ROPE_BUSY` at its deadline; steps that waited for it go on. Table loads (R271, R439): a piece is
staged from its offset and lengthens the image to its end, a commit installs an image that passes its checks, and a load without a piece for 10 s is
discarded. -/
def Obligations.TablesAndImagesAreLoaded : Prop :=
  (
    (∀ (m : Msg) (s : State), Serves .mailbox m s → m.ops.length = 1 → m.body.length = 4112 → opNat m 0 ≤ 255 →
      let x := parseModel m.body
      slotHeld s (opNat m 0) = false →
      (modelOk x (ropePairs s) = true → modelInUse s (opNat m 0) = false →
        Does (.modelLoad m) s { s with models := if x.layers = 0 then Tab.drop s.models (opNat m 0) else Tab.put s.models (opNat m 0) x }
          [answer m .ok]) ∧
      (modelOk x (ropePairs s) = true → modelInUse s (opNat m 0) = true → Does (.modelLoad m) s s [answer m .modelInUse]) ∧
      (modelOk x (ropePairs s) = false → Does (.modelLoad m) s s [answer m .modelInvalid])) ∧
    (∀ (m : Msg) (s : State), Serves .mailbox m s → m.ops.length = 1 → opNat m 0 ≤ 255 →
      Does (.modelRead m) s s [.msg (response m { body := modelImage (Tab.get s.models (opNat m 0) {}) })]) ∧
    (∀ (m : Msg) (s : State), Serves .mailbox m s → m.ops.length = 1 → m.body.length = 1032 →
      let x := parseRope m.body
      let small := s.models.any (fun e => (e.2.entries.take e.2.layers).any (fun l =>
        l.ropeOn && l.ropeTable == opNat m 0 && headDim e.2 < 2 * x.pairs))
      (opNat m 0 ≤ 31 → x.pairs ≤ 128 → small = false →
        let l : RopeLoad := { table := opNat m 0, image := x, qp := m.qp, tag := m.tag, order := s.ropeCount, deadline := now s + ropeLoadWaitMsVal s * 1000000 }
        Does (.ropeLoad m) s { s with ropeLoads := s.ropeLoads ++ [l], ropeCount := s.ropeCount + 1 } []) ∧
      (31 < opNat m 0 ∨ 128 < x.pairs ∨ small = true → Does (.ropeLoad m) s s [answer m .ropeInvalid])) ∧
    (∀ (k : Nat) (l : RopeLoad) (s : State), Grants s → s.ropeLoads.find? (fun l => l.table == k) = some l →
      let a : List Sent := if qpReady s l.qp then [.msg { qp := l.qp, opcode := 0x8212, status := 0, tag := l.tag }] else []
      (ropeUsed s l = false →
        DoesThen (.ropeLoadApply k) (fun u => touchJobs (retryRope u)) s
          { s with ropes := Tab.put s.ropes k l.image, ropeLoads := s.ropeLoads.erase l } a) ∧
      (ropeUsed s l = true → exec (.ropeLoadApply k) s = .next s)) ∧
    (∀ (k : Nat) (l : RopeLoad) (s : State), Live s → s.ropeLoads.find? (fun l => l.table == k && l.deadline ≤ now s) = some l →
      let a : List Sent := if qpReady s l.qp then [.msg { qp := l.qp, opcode := 0x8212, status := Status.ropeBusy.code, tag := l.tag }] else []
      DoesThen (.ropeLoadTimeout k) (fun u => touchJobs (retryRope u)) s { s with ropeLoads := s.ropeLoads.erase l } a) ∧
    (∀ (m : Msg) (s : State), Serves .mailbox m s → m.ops.length = 1 → (ctxAt s (opNat m 0)).mode ≠ .none →
      let live := s.sessions.any (fun e => e.2.record.context == opNat m 0 && e.2.entry.state != .free && e.2.entry.state != .tombstone)
      (live = false →
        Does (.contextRearm m) s { s with contexts := Tab.put s.contexts (opNat m 0) { ctxAt s (opNat m 0) with tornDown := false } } [answer m .ok]) ∧
      (live = true → Does (.contextRearm m) s s [answer m .contextBusy]))) ∧
  (
    (∀ (k : LoadKind) (m : Msg) (s : State), Serves .mailbox m s → m.ops.length = 3 → opNat m 0 < kindSlots k →
      let load : Instr := match k with | .vocab => .vocabLoad m | .grammar => .grammarLoad m | .list => .listLoad m
      let mine (g : Stage) : Bool := g.kind == k && g.slot == opNat m 0
      let old := (s.stages.find? mine).map (·.data)
      let data := placeBytes (old.getD []) (opNat m 1) m.body
      let rest := s.stages.filter (fun g => !mine g)
      (∀ g, s.stages.find? mine = some g → g.qp = m.qp) →
      (bit (opWord m 2) 0 = false →
        let g : Stage := { kind := k, slot := opNat m 0, qp := m.qp, data, at_ := now s }
        Does load s { s with stages := rest ++ [g] } [answer m .ok]) ∧
      (bit (opWord m 2) 0 = true → data = [] → slotInUse s k (opNat m 0) = false →
        Does load s (clearSlot k (opNat m 0) { s with stages := rest }) [answer m .ok]) ∧
      (bit (opWord m 2) 0 = true → data = [] → slotInUse s k (opNat m 0) = true → Does load s { s with stages := rest } [answer m (kindInUse k)])) ∧
    (∀ (m : Msg) (s : State) (v : Vocab), Serves .mailbox m s → m.ops.length = 3 → opNat m 0 < 8 → bit (opWord m 2) 0 = true → m.body ≠ [] →
      s.stages.find? (fun g => g.kind == .vocab && g.slot == opNat m 0) = none →
      parseVocab (placeBytes [] (opNat m 1) m.body) = some v → vocabOk v = true → storeUsed s .vocab (opNat m 0) + v.bytes ≤ 134217728 →
      slotInUse s .vocab (opNat m 0) = false →
      Does (.vocabLoad m) s
        { s with stages := s.stages.filter (fun g => !(g.kind == .vocab && g.slot == opNat m 0)), vocabs := Tab.put s.vocabs (opNat m 0) v }
        [answer m .ok]) ∧
    (∀ (m : Msg) (s : State), Serves .mailbox m s → m.ops.length = 3 → opNat m 0 < 64 → bit (opWord m 2) 0 = true → m.body ≠ [] →
      s.stages.find? (fun g => g.kind == .grammar && g.slot == opNat m 0) = none →
      parseGrammar (placeBytes [] (opNat m 1) m.body) = none →
      Does (.grammarLoad m) s { s with stages := s.stages.filter (fun g => !(g.kind == .grammar && g.slot == opNat m 0)) } [answer m .grammarInvalid]) ∧
    (∀ (m : Msg) (s : State) (x : SeqList), Serves .mailbox m s → m.ops.length = 3 → opNat m 0 < 64 → bit (opWord m 2) 0 = true → m.body ≠ [] →
      s.stages.find? (fun g => g.kind == .list && g.slot == opNat m 0) = none →
      parseList (placeBytes [] (opNat m 1) m.body) = some x → storeUsed s .list (opNat m 0) + x.total ≤ 16777216 →
      slotInUse s .list (opNat m 0) = false →
      Does (.listLoad m) s
        { s with stages := s.stages.filter (fun g => !(g.kind == .list && g.slot == opNat m 0)), lists := Tab.put s.lists (opNat m 0) x }
        [answer m .ok]) ∧
    (∀ (k : LoadKind) (slot : Nat) (s : State), Live s →
      Does (.loadPieceTimeout k slot) s
        { s with stages := s.stages.filter (fun g => !(g.kind == k && g.slot == slot && g.at_ + 10000000000 ≤ now s)) } []))

/-- The token side's commands (R273, R274, R277 to R285, R293): a bind writes W12, W13 and W16 and frees the session's stack segments, text is cut
into tokens and its unfinished end held, a flush returns the held bytes, an escape set is the context's. `MASK_FORM` (R294, R296): the oldest
request's mask is that of its session's token state, on the step's queue pair and tag, and it leaves the step formed. -/
def Obligations.TokenWordsAndMasksAreFormed : Prop :=
  (
    (∀ (m : Msg) (i : Nat) (s : State), Reaches false m i s → m.ops.length = 6 → opNat m 4 ≤ 2 → opNat m 5 ≤ 1 → bindCheck s m = .ok →
      let x := sessAt s i
      x.entry.state = .ready ∨ x.entry.state = .waiting ∨ x.entry.state = .parked →
      let w := bindWords s m
      let y : Session := { x with
        reservedSeg := none, record.grammar := w.1, record.tokenCarry := w.2.1, record.seqLists := w.2.2 }
      DoesApart (.tokenBind m) s
        { s with segments := s.segments.filter (fun e => e.2.owner != i), sessions := Tab.put s.sessions i y }
        (ringDone m i s)) ∧
    (∀ (m : Msg) (i : Nat) (v : Vocab) (s : State), Reaches false m i s → m.ops.length = 1 → m.body ≠ [] → m.body.length ≤ 65536 →
      textStatus (sessAt s i) = .ok → vocabOf s (sessAt s i).record.tokenCarry = some v →
      let x := sessAt s i
      let l := tkHeld x.record.tokenCarry ++ m.body
      let cut := judge (bit (opWord m 0) 0) l.length l
      let toks := (cutPieces v [] cut.1).1
      DoesApart (.textIn m) s
        { s with sessions := Tab.put s.sessions i { x with record.tokenCarry := setTk x.record.tokenCarry cut.2 } }
        [.msg (response m { body := wordsBytes (word toks.length :: toks.map word) })]) ∧
    (∀ (m : Msg) (i : Nat) (s : State), Reaches false m i s → m.ops.length = 0 → textStatus (sessAt s i) = .ok →
      let x := sessAt s i
      let text := ((dtHeld x.record.tokenCarry).map (fun _ => replacement)).flatten
      (x.step = none →
        ∃ t r, exec (.detokFlush m) s = .next t ∧
          apart t = apart { s with sessions := Tab.put s.sessions i { x with record.tokenCarry := setDt x.record.tokenCarry [] } } ∧
          t.out = s.out ++ [.msg { qp := m.qp, opcode := 0x8306, tag := m.tag, handle := x.record.handle, body := text }] ++ r) ∧
      (∀ st, x.step = some st →
        Does (.detokFlush m) s
          { s with sessions := Tab.put s.sessions i { x with step := some { st with flushes := st.flushes ++ [(m.qp, m.tag)] } } } [])) ∧
    (∀ (m : Msg) (s : State) (ids : List Word), Serves .bound m s → s.mode = .run → m.ops.length = 0 → listWords m.body = some ids → ids.length ≤ 16 →
      let c := (qpAt s m.qp).context
      (ctxAt s c).tornDown = false →
      let used := s.sessions.any (fun e => e.2.record.context == c && e.2.entry.state != .free && e.2.entry.state != .tombstone &&
        tokOn e.2.record.tokenCarry)
      (used = false →
        Does (.escapeSet m) s { s with contexts := Tab.put s.contexts c { ctxAt s c with escapes := ids.map BitVec.toNat } } [answer m .ok]) ∧
      (used = true → Does (.escapeSet m) s s [answer m .escapeInUse]))) ∧
  (
    ∀ (r : MaskReq) (rest : List MaskReq) (st : Step) (v : Vocab) (s : State), Grants s → s.masks = r :: rest → (sessAt s r.index).step = some st →
      vocabOf s st.tokenCarry = some v → qpReady s r.qp = true → st.ending = false →
      let u := (reserveSegment r.index (stepTok st) { s with masks := rest }).2
      let k := (reserveSegment r.index (stepTok st) { s with masks := rest }).1
      let f := formMask u r.index v k
      let bytes := maskBytes r.index r.seq v.size (maskMode st.tokenCarry) f.1
      ∃ t st', exec .maskForm s = .next t ∧ t.masks = rest ∧ (sessAt t r.index).step = some st' ∧ st'.masked = true ∧
        st'.deadEnd = (f.1 == .deadEnd) ∧ st'.layer = st.layer ∧ st'.phase = st.phase ∧
        t.out = s.out ++ [.msg { qp := r.qp, opcode := 0xF003, tag := r.tag, handle := (sessAt u r.index).record.handle, body := bytes }])

/-- Step jobs (R236 to R239, R241 to R250): opened under the lowest number free, extended, closed; the chosen job takes a free fielder set, a best-
effort or prefill job is cut at its limit while another is eligible, an idle one gives the set up, and each role period sets the shares. -/
def Obligations.JobsTakeTurns : Prop :=
  (∀ (m : Msg) (s : State) (hs : List Word) (l : List Nat) (n : Nat), Serves .bound m s → s.mode = .run → m.ops.length = 4 → opNat m 2 ≤ 1 →
    opNat m 3 ≤ 1 → listWords m.body = some hs → hs ≠ [] → hs.length ≤ 256 → (ctxAt s (opNat m 1)).mode ≠ .none →
    (ctxAt s (opNat m 1)).tornDown = false → s.jobs.length < 4096 → jobsIn s (opNat m 0) < 256 → (qpAt s m.qp).context = opNat m 1 →
    (ctxAt s (opNat m 1)).partition = opNat m 0 → judgeMembers s m.qp (opNat m 0) (opNat m 1) (opNat m 2) none hs = (.ok, l) →
    leastUnused (Tab.keys s.jobs) 1 65535 = some n →
    let j : Job :=
      { partition := opNat m 0, context := opNat m 1, cls := opNat m 2, kind := if opNat m 3 = 0 then .decode else .prefill, members := distinct l }
    DoesThen (.jobOpen m) settleJobs s (touchJobs { s with jobs := Tab.put s.jobs n j }) [.msg (response m { ops := [word n] })]) ∧
  (∀ (m : Msg) (s : State) (hs : List Word) (l : List Nat) (j : Job), Serves .bound m s → s.mode = .run → m.ops.length = 1 →
    listWords m.body = some hs → hs ≠ [] → (ctxAt s (qpAt s m.qp).context).tornDown = false → Tab.find s.jobs (opNat m 0) = some j →
    j.closed = false → (qpAt s m.qp).context = j.context →
    judgeMembers s m.qp j.partition j.context j.cls (some (opNat m 0)) hs = (.ok, l) → (distinct (j.members ++ l)).length ≤ 256 →
    Does (.jobAdd m) s (touchJobs { s with jobs := Tab.put s.jobs (opNat m 0) { j with members := distinct (j.members ++ l) } }) [answer m .ok]) ∧
  (∀ (m : Msg) (s : State) (j : Job), Serves .bound m s → s.mode = .run → m.ops.length = 1 → (ctxAt s (qpAt s m.qp).context).tornDown = false →
    Tab.find s.jobs (opNat m 0) = some j → (qpAt s m.qp).context = j.context →
    Does (.jobClose m) s (settleJobs { takeMsg m s with jobs := Tab.put s.jobs (opNat m 0) { j with closed := true } }) [answer m .ok]) ∧
  (∀ (p n : Nat) (j : Job) (s : State), Grants s → (partAt s p).holder = none → chooseJob s p = some (n, j) →
    Does (.jobGrant p) s
      (touchJobs (modPart p (fun x => { x with holder := some n, lastContext := j.context })
        { s with jobs := Tab.put s.jobs n { j with heldAt := some (now s), idleAt := none, cutting := false } })) []) ∧
  (∀ (p n us t0 : Nat) (j : Job) (s : State), Grants s → (partAt s p).holder = some n → Tab.find s.jobs n = some j → cutLimit s p j = some us →
    j.heldAt = some t0 → t0 + us * 1000 ≤ now s → (∃ e ∈ s.jobs, e.1 ≠ n ∧ e.2.partition = p ∧ e.2.eligibleAt.isSome) →
    Does (.jobCut p) s (touchJobs (abandonWaits p (releaseSet n s))) []) ∧
  (∀ (p n t0 : Nat) (s : State), Grants s → (partAt s p).holder = some n → (Tab.find s.jobs n).bind (·.idleAt) = some t0 →
    t0 + jobIdleUsVal s p * 1000 ≤ now s → Does (.jobIdleRelease p) s (touchJobs (releaseSet n s)) []) ∧
  (∀ (s : State), Live s → s.roleAt + 10000000 ≤ now s →
    ∃ t, exec .rolePeriod s = .next t ∧ t.roleAt = now s ∧ { t with parts := [], roleAt := 0 } = { s with parts := [], roleAt := 0 } ∧
      ∀ p, partAt t p = if p < 64 then { partAt s p with rho := nextRho s p, wp := 0, wd := 0, prefillHeld := 0 } else partAt s p)

/-- WAIT, RESUME, FREEZE and THAW (R72, R73, R76, R88, R92): the state each gives a session, and its timer. -/
def Obligations.SessionStatesFollowCommands : Prop :=
  (∀ (m : Msg) (i : Nat) (s : State), Reaches false m i s → m.ops.length ≤ 1 →
    let x := sessAt s i
    let ms := if opWord m 0 = allOnes then (if x.record.demoteMs = 0 then demoteMsVal s x.entry.partition else x.record.demoteMs) else opNat m 0
    (x.entry.state = .ready →
      let y : Session := { x with
        entry.state := .waiting, record.reason := .none, timerOn := ms ≠ 0, record.timerNs := if ms = 0 then 0 else now s + ms * 1000000 }
      DoesApart (.wait m) s { s with sessions := Tab.put s.sessions i y } [answer m .ok]) ∧
    (x.entry.state = .active →
      let y : Session := { x with
        entry.waitPending := true
        step := x.step.map (fun st => { st with waitMs := if opWord m 0 = allOnes then none else some (opNat m 0) }) }
      DoesApart (.wait m) s { s with sessions := Tab.put s.sessions i y } [answer m .ok]) ∧
    (x.entry.state = .waiting → Does (.wait m) s s [answer m .ok]) ∧
    (x.entry.state ≠ .ready → x.entry.state ≠ .active → x.entry.state ≠ .waiting → Does (.wait m) s s [answer m (stateStatus x)])) ∧
  (∀ (m : Msg) (i : Nat) (s : State), Reaches false m i s → m.ops.length = 0 →
    let x := sessAt s i
    (x.entry.state = .ready ∨ x.entry.state = .active → DoesApart (.resume m) s s (ringDone m i s)) ∧
    (x.entry.state = .waiting →
      let y : Session := { x with entry.state := .ready, timerOn := false, record.timerNs := 0 }
      DoesApart (.resume m) s { s with sessions := Tab.put s.sessions i y } (ringDone m i s)) ∧
    (∀ v w, x.entry.state = .parked → admissionHeld s x.entry.partition = false →
      admission x.entry.partition x.record.cls (stepBytes (modelOf s x) x.record.length) (reviveFrames i) (taken m s) = (some v, w) →
      ∃ t, exec (.resume m) s = .next t ∧ apart t = apart (revive i x v) ∧ (sessAt t i).entry.state = .ready ∧ (sessAt t i).record.reason = .none) ∧
    (∀ w, x.entry.state = .parked → admissionHeld s x.entry.partition = false →
      admission x.entry.partition x.record.cls (stepBytes (modelOf s x) x.record.length) (reviveFrames i) (taken m s) = (none, w) →
      Does (.resume m) s s [answer m .admitRefused]) ∧
    (∀ p, x.entry.state = .moving → x.move = some (.park p) →
      ∃ t, exec (.resume m) s = .next t ∧ (sessAt t i).entry.state = .ready ∧ (sessAt t i).move = none)) ∧
  (∀ (m : Msg) (i : Nat) (s : State), Reaches false m i s → m.ops.length = 0 →
    let x := sessAt s i
    (x.entry.state = .ready ∨ x.entry.state = .waiting ∨ x.entry.state = .parked →
      let y : Session := { x with
        entry.state := .frozen, record.returnState := returnOf x.entry.state, record.timerNs := (timerLeft s i).getD 0 }
      DoesApart (.freeze m) s { s with sessions := Tab.put s.sessions i y } (ringDone m i s)) ∧
    (x.entry.state = .frozen → DoesApart (.freeze m) s s (ringDone m i s)) ∧
    (x.entry.state = .frozen →
      let y : Session := { x with
        entry.state := x.record.returnState, record.timerNs := if x.timerOn then now s + x.record.timerNs else 0 }
      DoesApart (.thaw m) s { s with sessions := Tab.put s.sessions i y } (ringDone m i s)) ∧
    (x.entry.state ≠ .frozen → x.entry.state ≠ .faulted → x.entry.state ≠ .tombstone → Does (.thaw m) s s [answer m .sessionNotFrozen]))

/-- SESSION_SET and KV_EXTEND write the fields they name; RECORD_READ and LINEAGE answer and change nothing (R68, R70, R93, R98, R99, R438). -/
def Obligations.RecordsAreSetAndRead : Prop :=
  (∀ (m : Msg) (i : Nat) (s : State), Reaches false m i s → m.ops.length = 5 →
    let mask := opWord m 0
    let x := sessAt s i
    (bit mask 0 = true → opNat m 1 ≤ 1) → (bit mask 1 = true → opNat m 2 < 2 ^ 32) → (bit mask 2 = true → opNat m 3 < 2 ^ 32) →
    (x.entry.state ≠ .tombstone →
      let y : Session := { x with
        record.cls := if bit mask 0 then opNat m 1 else x.record.cls
        record.demoteMs := if bit mask 1 then opNat m 2 else x.record.demoteMs
        record.ttlS := if bit mask 2 then opNat m 3 else x.record.ttlS
        record.flags := if bit mask 3 then x.record.flags &&& ~~~(opWord m 4) else x.record.flags }
      DoesApart (.sessionSet m) s { s with sessions := Tab.put s.sessions i y } [answer m .ok]) ∧
    (x.entry.state = .tombstone → Does (.sessionSet m) s s [answer m (reasonStatus x.record.reason)])) ∧
  (∀ (m : Msg) (i : Nat) (s : State), Reaches false m i s → m.ops.length = 1 →
    let x := sessAt s i
    let len := x.record.length + opNat m 0
    let y : Session := { x with record.length := len }
    (x.entry.state = .ready → len ≤ maxLength s x.entry.partition (sessShape s i) →
      DoesApart (.kvExtend m) s { s with sessions := Tab.put s.sessions i y } (ringDone m i s)) ∧
    (x.entry.state = .ready → maxLength s x.entry.partition (sessShape s i) < len → Does (.kvExtend m) s s [answer m .lengthLimit]) ∧
    (x.entry.state ≠ .ready → tileStatus x ≠ .ok → Does (.kvExtend m) s s [answer m (tileStatus x)])) ∧
  (∀ (m : Msg) (i : Nat) (s : State), Reaches true m i s → m.ops.length = 0 →
    Does (.recordRead m) s s [.msg (response m { body := wordsBytes (recordWords (sessAt s i)) })] ∧
    (
      let l := lineage s 64 (sessAt s i).record.parent
      Does (.lineage m) s s [.msg (response m
        { ops := [word (if l.2 then 1 else 0)], body := wordsBytes (word l.1.length :: (l.1.map (fun a => [a.1, word (stateCode a.2)])).flatten) })]))

/-- CANCEL (R72, R84 to R86): a session without a step becomes TOMBSTONE; one with a step ends where no layer is on its way and is marked otherwise; a
tombstone answers with its reason. Tombstones (R86, R89, R97): a PARKED session expires at its deadline; an entry whose tombstone has been held and
that no child refers to becomes FREE, with its generation. -/
def Obligations.SessionsEndAsTombstones : Prop :=
  (
    ∀ (m : Msg) (i : Nat) (s : State), Reaches true m i s → m.ops.length = 0 →
    let x := sessAt s i
    let dead : Entry := { x.entry with state := .tombstone, cancelPending := false, waitPending := false, reviving := false }
    (x.entry.state ≠ .active → x.entry.state ≠ .tombstone → x.entry.state ≠ .free →
      ∃ t r, exec (.cancel m) s = .next t ∧ Only i s t ∧ t.out = s.out ++ r ++ ringDone m i s ∧ (sessAt t i).entry = dead ∧
        (sessAt t i).record.reason = .cancelled) ∧
    (∀ st, x.entry.state = .active → x.step = some st →
      let ph := if st.phase = .held then st.heldPhase else st.phase
      (st.ending = true ∨ ph = .idle ∨ ph = .waitFrame ∨ ph = .waitRope →
        ∃ t r, exec (.cancel m) s = .next t ∧ Only i s t ∧ t.out = s.out ++ r ++ ringDone m i s ∧ (sessAt t i).entry = dead ∧
          (sessAt t i).record.reason = .cancelled) ∧
      (st.ending = false → ph ≠ .idle → ph ≠ .waitFrame → ph ≠ .waitRope →
        ∃ t r, exec (.cancel m) s = .next t ∧ Only i s t ∧ t.out = s.out ++ r ++ ringDone m i s ∧
          (sessAt t i).entry = { x.entry with cancelPending := true })) ∧
    (x.entry.state = .tombstone →
      ∃ t r, exec (.cancel m) s = .next t ∧ Only i s t ∧ t.out = s.out ++ r ++ [answer m (reasonStatus x.record.reason)] ∧
        (sessAt t i).entry = x.entry)) ∧
  (
    (∀ (i : Nat) (s : State), Grants s → (sessAt s i).entry.state = .parked → timerDue s i = true →
      ∃ t, exec (.ttlExpiry i) s = .next t ∧ Only i s t ∧ (sessAt t i).record.reason = .expired ∧
        (sessAt t i).entry = { (sessAt s i).entry with state := .tombstone, cancelPending := false, waitPending := false, reviving := false }) ∧
    (∀ (i : Nat) (s : State), Grants s →
      let x := sessAt s i
      x.entry.state = .tombstone → x.shadow = none → x.record.childCount = 0 → x.tombAt + tombHoldMsVal s x.entry.partition * 1000000 ≤ now s →
      let y : Session := { entry := { generation := x.entry.generation }, record := x.record, withheld := x.withheld }
      DoesApart (.lastRef i) s
        { s with sessions := Tab.put s.sessions i y, freed := s.freed ++ [i], ringMap := s.ringMap.filter (fun e => e.2 != i) } []) ∧
    (∀ (c : Instr) (i : Nat) (s : State), Grants s →
      c = .ttlExpiry i ∧ ((sessAt s i).entry.state ≠ .parked ∨ timerDue s i = false) ∨
      c = .demoteTimer i ∧ ((sessAt s i).entry.state ≠ .waiting ∨ timerDue s i = false) ∨
      c = .lastRef i ∧ ((sessAt s i).entry.state ≠ .tombstone ∨ (sessAt s i).record.childCount ≠ 0) → Does c s s []))

/-- PARK and the parks that the module starts itself (R72, R73, R87, R256 to R258, R353, R361, R694): the session is MOVING, with the reason that its
park will leave. The ends of parks and migrations at their source (R74, R80, R89, R353, R354, R463, R464): PARKED with the park's reason and no page
in HBM, TOMBSTONE once all has reached the destination, and after a failure the state that the session left. -/
def Obligations.ParksBeginAndMovesEnd : Prop :=
  (
    let begun (i tier : Nat) (r : Reason) (cmd : Option (Nat × BitVec 32)) (s t : State) : Prop :=
      Only i s t ∧ (sessAt t i).entry = { (sessAt s i).entry with state := .moving, waitPending := false } ∧
        ∃ p, (sessAt t i).move = some (.park p) ∧ p.reason = r ∧ p.cmd = cmd ∧ p.tier = parkTier s (sessAt s i).entry.partition tier
    (∀ (m : Msg) (i : Nat) (s : State), Reaches false m i s → m.ops.length = 1 → (opNat m 0 = 1 ∨ opNat m 0 = 2) →
      let x := sessAt s i
      (x.entry.state = .ready ∨ x.entry.state = .waiting →
        ∃ t r, exec (.park m) s = .next t ∧ begun i (opNat m 0) .hostPark (some (m.qp, m.tag)) s t ∧ t.out = s.out ++ r ++ ringDone m i s) ∧
      (x.entry.state = .parked → DoesApart (.park m) s s (ringDone m i s)) ∧
      (x.entry.state ≠ .ready → x.entry.state ≠ .waiting → x.entry.state ≠ .parked → Does (.park m) s s [answer m (stateStatus x)])) ∧
    (∀ (i : Nat) (s : State), Grants s → (sessAt s i).entry.state = .waiting → timerDue s i = true →
      ∃ t, exec (.demoteTimer i) s = .next t ∧ begun i 1 .demoted none s t) ∧
    (∀ (p i : Nat) (s : State), Grants s → shortChannels s p ≠ [] → preemptions s p < 4 →
      chooseVictim (modPart p (fun x => { x with short := shortChannels s p }) s) p = some i →
      ∃ t, exec (.preemptionStart p) s = .next t ∧ begun i 1 .preempted none s t) ∧
    (∀ (i : Nat) (s : State), Grants s →
      let x := sessAt s i
      let p := x.entry.partition
      flatWindowVal s p = 1 → flatIdleParkSVal s p ≠ 0 → x.entry.state = .ready → x.shadow = none → jobOf s i = none →
      max x.record.lastStepNs x.record.createdNs + flatIdleParkSVal s p * 1000000000 ≤ now s →
      ∃ t, exec (.flatIdlePark i) s = .next t ∧ begun i 1 .demoted none s t)) ∧
  (
    (∀ (i : Nat) (p : ParkMove) (s : State), Grants s → (sessAt s i).move = some (.park p) → parkDone p = true →
      ∃ t, exec (.moveDone i) s = .next t ∧ Only i s t ∧ (sessAt t i).entry = { (sessAt s i).entry with state := .parked, reviving := false } ∧
        (sessAt t i).record.reason = p.reason ∧
        ∀ q tag, p.cmd = some (q, tag) → qpReady s q = true →
          .msg { qp := q, opcode := 0xF00D, tag, handle := (sessAt s i).record.handle } ∈ t.out.drop s.out.length) ∧
    (∀ (i : Nat) (v : SourceMove) (s : State), Grants s → (sessAt s i).move = some (.source v) → v.opened = true → v.todo = [] → v.failed = false →
      (∀ e ∈ s.transfers, servesSession i e.2 = false) → tilesOut s (migrateQp v.node) (handleIndex v.newHandle) = false →
      ∃ t, exec (.moveDone i) s = .next t ∧ Only i s t ∧ (sessAt t i).record.reason = .migrated ∧
        (sessAt t i).entry = { (sessAt s i).entry with state := .tombstone, cancelPending := false, waitPending := false, reviving := false }) ∧
    (∀ (i : Nat) (s : State), Grants s →
      (∃ p, (sessAt s i).move = some (.park p) ∧ p.failed = true) ∨ (∃ v, (sessAt s i).move = some (.source v) ∧ v.failed = true) →
      ∃ t, exec (.moveFail i) s = .next t ∧ Only i s t ∧ (sessAt t i).entry = { (sessAt s i).entry with state := (sessAt s i).record.returnState }))

/-- A waiting raise of a session's innings is applied after 100 µs (R100, R101), and the flat window moves what has lain in tier 1 beneath it, page by
page and the map image last: each is copied to slots of tier 2, then its entry names them and the old slots are free (R361 to R363). -/
def Obligations.InningsRiseAndFlatPagesSink : Prop :=
  (∀ (i : Nat) (s : State), Grants s →
    let x := sessAt s i
    x.inningsDue ≠ 0 → x.inningsAt.getD 0 + 100000 ≤ now s →
    let y : Session := { x with
      inningsDue := x.inningsDue - 1, inningsAt := some (now s), record.innings := (x.record.innings + 1) % 2 ^ 32 }
    DoesApart (.inningsIncrement i) s { s with sessions := Tab.put s.sessions i y } []) ∧
  (∀ (i k slot : Nat) (rest : List Nat) (u s : State), Grants s →
    let x := sessAt s i
    let p := x.entry.partition
    let begun (t : State) : Prop :=
      Only i s t ∧ sessAt t i = { x with
        beneath := rest, beneathMap := true, copy := some { key := some k, slots := [slot], left := (sessShape s i).used } } ∧
      t.poolSlots = u.poolSlots ∧
      ∀ j, j < (sessShape s i).used → ∃ e, Tab.find t.transfers (s.nextTile + j) = some e ∧ e.consumer = .beneath i ∧ e.write = false ∧
        e.tier = (pageAt x k).homeTier + 1 ∧ e.slot = (pageAt x k).homeSlot ∧ e.tile = j
    allocTier 2 p x.record.context 1 s = some (slot, u) → x.entry.state = .parked → x.copy = none →
    (flatWindowVal s p = 1 → flatDemoteSVal s p ≠ 0 → x.shadow = none → x.record.mapTier = 1 → x.beneathMap = false →
      x.parkedAt + flatDemoteSVal s p * 1000000000 ≤ now s → Tab.keysWhere x.pages (fun e => e.homeValid && e.homeTier == 0) = k :: rest →
      ∃ t, exec (.flatDemote i) s = .next t ∧ begun t) ∧
    (x.beneathMap = true → x.beneath = k :: rest → ∃ t, exec (.flatMigration i) s = .next t ∧ begun t)) ∧
  (∀ (i slot : Nat) (u s : State), Grants s →
    let x := sessAt s i
    let n := x.mapHome.length
    x.entry.state = .parked → x.copy = none → x.beneathMap = true → x.beneath = [] →
    allocTier 2 x.entry.partition x.record.context n s = some (slot, u) →
    ∃ t, exec (.flatMigration i) s = .next t ∧ Only i s t ∧
      sessAt t i = { x with copy := some { key := none, slots := List.range' slot n, left := 16 * n } } ∧
      ∀ j, j < 16 * n → ∃ e, Tab.find t.transfers (s.nextTile + j) = some e ∧ e.consumer = .beneathWrite i ∧ e.write = true ∧ e.tier = 2 ∧
        e.slot = slot + j / 16 ∧ e.tile = j % 16 ∧ e.data = slice (mapImage x 2) (4096 * j) 4096) ∧
  (∀ (i k slot : Nat) (s : State), Grants s →
    let x := sessAt s i
    let e := pageAt x k
    x.copy = some { key := some k, slots := [slot], left := 0 } → x.revive = none → e.homeValid = true → e.homeTier = 0 →
    ∃ t, exec (.flatMigration i) s = .next t ∧ Only i s t ∧ (sessAt t i).entry = x.entry ∧
      pageAt (sessAt t i) k = { e with homeTier := 1, homeSlot := slot, tier := if e.tier = 1 then 2 else e.tier } ∧
      (∀ q, q ≠ k → pageAt (sessAt t i) q = pageAt x q) ∧ t.hostSlots = s.hostSlots.erase e.homeSlot) ∧
  (∀ (i : Nat) (l : List Nat) (s : State), Grants s →
    let x := sessAt s i
    x.copy = some { key := none, slots := l, left := 0 } →
    ∃ t, exec (.flatMigration i) s = .next t ∧ Only i s t ∧ (sessAt t i).entry = x.entry ∧ (sessAt t i).beneathMap = false ∧
      (sessAt t i).record.mapTier = 2 ∧ (sessAt t i).record.mapAddr = l.headD 0 * 65536 ∧ (sessAt t i).mapHome = l.map (fun k => (2, k)) ∧
      (sessAt t i).copy = none ∧ (sessAt t i).pages = x.pages) ∧
  (∀ (i : Nat) (c : BeneathCopy) (s : State), Grants s → (sessAt s i).copy = some c → c.left ≠ 0 → Does (.flatMigration i) s s [])

/-- STEP (R26, R72, R129, R166, R239, R297 to R299, R434, R435, R462): a READY or WAITING session named by the job becomes ACTIVE with a step at layer
0, whose token side has taken the fed token; a token that its state refuses, or a ring member that is needed and lost (R462), ends the step at once,
without effect. LAYER_IN (R27, R83, R434): the step takes its next layer's query and rows and appends them; out of order it is refused. -/
def Obligations.StepsRunLayerByLayer : Prop :=
  (
    ∀ (m : Msg) (i : Nat) (s : State), Reaches false m i s → m.ops.length = 0 →
    let x := sessAt s i
    let md := modelOf s x
    let h := sessShape s i
    let held := s.ropeLoads.any (fun l => l.order < s.ropeCount && usesRope md l.table)
    (x.entry.state = .ready ∨ x.entry.state = .waiting →
      (jobCheck s m.job.toNat i = .ok → roomAt s x.entry.partition x.record.length h = true → queryBytes md + kvBytes h ≤ m.body.length →
        storeFull s m.job.toNat (queryBytes md) = false →
        let st : Step :=
          { qp := m.qp, tag := m.tag, outQp := m.qp, outTag := m.tag, job := m.job.toNat, seq0 := x.record.stepSeq, len0 := x.record.length
            query := slice m.body 0 (queryBytes md), kv := slice m.body (queryBytes md) (kvBytes h), grammar := x.record.grammar
            tokenCarry := x.record.tokenCarry, seqLists := x.record.seqLists, reserved := x.reservedSeg }
        let decode := match Tab.find s.jobs m.job.toNat with | some j => j.kind == .decode | none => false
        let f := if decode && tokOn st.tokenCarry then feedStep i (if argFedValid m then some (argFed m) else none) st (taken m s)
          else ({ st with masked := true }, true, taken m s)
        let lost := (stepNeeds s i st).any (nodeLost s)
        (f.2.1 = true → lost = false →
          ∃ t u, exec (.step m) s = .next t ∧ Only i s t ∧ (sessAt t i).record.length = x.record.length ∧
            (sessAt t i).record.stepSeq = x.record.stepSeq ∧ (sessAt t i).record.reason = .none ∧
            (sessAt t i).entry = { x.entry with state := .active, cancelPending := false, waitPending := false } ∧ (sessAt t i).step = some u ∧
            stepTok u = stepTok f.1 ∧ u.masked = f.1.masked ∧ u.qp = m.qp ∧ u.tag = m.tag ∧ u.job = m.job.toNat ∧ u.seq0 = x.record.stepSeq ∧
            u.len0 = x.record.length ∧ u.layer = 0 ∧ u.query = st.query ∧ u.kv = st.kv ∧
            (held = true → u.phase = .waitRope) ∧ (held = false → u.phase = .appended ∨ u.phase = .waitFrame)) ∧
        (∀ w, (f.2.1 = false ∧ w = Status.tokenRejected) ∨ (f.2.1 = true ∧ lost = true ∧ w = Status.stepRestart) → qpReady s m.qp = true →
          ∃ t, exec (.step m) s = .next t ∧ Only i s t ∧
            (sessAt t i).record.length = x.record.length ∧ (sessAt t i).record.stepSeq = x.record.stepSeq ∧
            (sessAt t i).entry = { x.entry with state := .ready, cancelPending := false, waitPending := false } ∧
            .msg { qp := m.qp, opcode := 0xF002, status := w.code, tag := m.tag, handle := x.record.handle
                   args := word (at' x.record.stepSeq 32 32 + at' x.record.length 0 32) } ∈ t.out.drop s.out.length)) ∧
      (jobCheck s m.job.toNat i ≠ .ok → Does (.step m) s s [answer m (jobCheck s m.job.toNat i)]) ∧
      (jobCheck s m.job.toNat i = .ok → roomAt s x.entry.partition x.record.length h = false → Does (.step m) s s [answer m .lengthLimit])) ∧
    (x.entry.state ≠ .ready → x.entry.state ≠ .waiting → Does (.step m) s s [answer m (stateStatus x)])) ∧
  (
    ∀ (m : Msg) (i : Nat) (s : State), Reaches false m i s → m.ops.length = 0 →
    let x := sessAt s i
    let md := modelOf s x
    let h := sessShape s i
    (∀ st, x.step = some st →
      (st.phase = .idle → st.ending = false → argLayer m = st.layer + 1 → queryBytes md + kvBytes h ≤ m.body.length →
        storeFull s st.job (queryBytes md) = false →
        ∃ t u, exec (.layerIn m) s = .next t ∧ Only i s t ∧ (sessAt t i).entry = x.entry ∧ (sessAt t i).step = some u ∧ u.layer = argLayer m ∧
          u.outQp = m.qp ∧ u.outTag = m.tag ∧ u.query = slice m.body 0 (queryBytes md) ∧ u.kv = slice m.body (queryBytes md) (kvBytes h) ∧
          u.len0 = st.len0 ∧ u.seq0 = st.seq0 ∧ (u.phase = .appended ∨ u.phase = .waitFrame)) ∧
      (st.phase ≠ .idle ∨ st.ending = true ∨ argLayer m ≠ st.layer + 1 → Does (.layerIn m) s s [answer m .layerOrder])) ∧
    (x.step = none → x.ended = some .stepRestart → Does (.layerIn m) s s [answer m .stepRestart]) ∧
    (x.step = none → x.ended ≠ some .stepRestart → stateStatus x = .ok → Does (.layerIn m) s s [answer m .layerOrder]))

/-- QUERY_BLOCK (R154, R239, R434): the block of query positions is the session's, or waits for the one before. Appends (R26, R130): an acknowledged
append frees its layer to issue; an append that has waited for a frame too long ends the step with `FRAME_SHORTAGE`, without effect. -/
def Obligations.BlocksAndAppendsAreTaken : Prop :=
  (
    ∀ (m : Msg) (i : Nat) (s : State), Reaches false m i s → m.ops.length = 1 →
    let x := sessAt s i
    let md := modelOf s x
    x.entry.state = .ready ∨ x.entry.state = .waiting → jobCheck s m.job.toNat i = .ok →
    (argLayer m < md.layers → opNat m 0 + argCount m ≤ x.record.length → argCount m * queryBytes md ≤ m.body.length →
      storeFull s m.job.toNat (argCount m * queryBytes md) = false →
      let b : QBlock :=
        { qp := m.qp, tag := m.tag, job := m.job.toNat, layer := argLayer m, first := opNat m 0, count := argCount m
          query := slice m.body 0 (argCount m * queryBytes md) }
      (x.qblock = none →
        ∃ t, exec (.queryBlock m) s = .next t ∧ Only i s t ∧ (sessAt t i).entry = x.entry ∧ (sessAt t i).qblock = some b ∧
          (sessAt t i).qwait = x.qwait) ∧
      (x.qblock.isSome → Does (.queryBlock m) s { s with sessions := Tab.put s.sessions i { x with qwait := x.qwait ++ [b] } } [])) ∧
    (md.layers ≤ argLayer m ∨ x.record.length < opNat m 0 + argCount m → Does (.queryBlock m) s s [answer m .queryRange])) ∧
  (
    (∀ (i : Nat) (st : Step) (s : State), Live s → (sessAt s i).step = some st → st.phase = .appended →
      Does (.appendAck i) s
        (touchJobs { s with sessions := Tab.put s.sessions i { sessAt s i with step := some { st with phase := .ready } } }) []) ∧
    (∀ (i w : Nat) (st : Step) (s : State), Grants s → (sessAt s i).step = some st → st.phase = .waitFrame → st.waitUntil = some w → w ≤ now s →
      (sessAt s i).entry.cancelPending = false → (sessAt s i).entry.waitPending = false → qpReady s st.qp = true →
      let x := sessAt s i
      ∃ t, exec (.appendWaitTimeout i) s = .next t ∧ Only i s t ∧ (sessAt t i).entry = { x.entry with state := .ready } ∧
        (sessAt t i).record.length = x.record.length ∧ (sessAt t i).record.stepSeq = x.record.stepSeq ∧
        .msg { qp := st.qp, opcode := 0xF002, status := Status.frameShortage.code, tag := st.tag, handle := x.record.handle
               args := word (at' st.seq0 32 32 + at' x.record.length 0 32) } ∈ t.out.drop s.out.length) ∧
    (∀ (i : Nat) (st : Step) (s : State), Grants s → (sessAt s i).step = some st → st.phase = .waitFrame →
      (∀ w, st.waitUntil = some w → now s < w) →
      Does (.appendWaitTimeout i) s s []))

/-- `MERGE_OPEN` (R204 to R207, R262): a ready layer's merge, or a query block's, is opened under the next tag on the first catcher with room; a
layer's waits where none has. `UNIT_COMPLETE` (R171, R184, R209, R215): a fielder's next unit leaves its merge's list and its partial goes towards the
merge's catcher; a unit whose tiles have not all arrived waits. -/
def Obligations.MergesOpenAndUnitsFinish : Prop :=
  (
    (∀ (i : Nat) (st : Step) (s : State), Grants s → mergeOf s i = none → (sessAt s i).step = some st → st.phase = .ready →
    jobIssues s st.job = true → layerThere s i st.layer = true →
    (∀ u g, openMerge i st.layer st.job false st.len0 [st.len0] st.query none s = some u → Tab.find u.merges u.mergeTag = some g →
      mergeComplete u g = false →
      ∃ t g', exec (.mergeOpen i) s = .next t ∧ Only i s t ∧ t.mergeTag = (s.mergeTag + 1) % 2 ^ 32 ∧
        (sessAt t i).step = some { st with phase := .merging, mergeWaited := false } ∧ Tab.find t.merges t.mergeTag = some g' ∧
        g'.index = i ∧ g'.catcher = g.catcher ∧ g'.layer = st.layer ∧ g'.job = st.job ∧ g'.todo = g.todo ∧ g'.leaves = [] ∧ g'.blocks = g.blocks ∧
        (∀ k, k ≠ t.mergeTag → Tab.find t.merges k = Tab.find s.merges k)) ∧
    (openMerge i st.layer st.job false st.len0 [st.len0] st.query none s = none →
      Does (.mergeOpen i) s
        (touchJobs { s with sessions := Tab.put s.sessions i { sessAt s i with step := some { st with mergeWaited := true } } }) [])) ∧
    (∀ (i : Nat) (b : QBlock) (u s : State), Grants s → mergeOf s i = none → (∀ st, (sessAt s i).step = some st → st.phase ≠ .ready) →
      (sessAt s i).qblock = some b → b.phase = .ready → jobIssues s b.job = true → layerThere s i b.layer = true →
      let offs := (List.range b.count).filter (fun o => holdsPos s (sessAt s i).entry.partition (b.first + o))
      let qb := queryBytes (modelOf s (sessAt s i))
      let query := (offs.map (fun o => slice b.query (o * qb) qb)).flatten
      offs ≠ [] → openMerge i b.layer b.job true b.first (offs.map (b.first + ·)) query none s = some u →
      Does (.mergeOpen i) s
        (touchJobs { u with sessions := Tab.put s.sessions i { sessAt s i with qblock := some { b with phase := .merging, mergeWaited := false } } }) [])) ∧
  (
    ∀ (f tag : Nat) (m : Merge) (u : WorkUnit) (s : State), Live s → s.mode ≠ .setup → (fielderAt s f).emitter.length < 4 → (fielderAt s f).slice = none →
    s.survey.quiet.contains f = false → nextUnit s f = some (tag, m, u) → Tab.rising s.fielders = true →
    let q := m.positions.getD u.qoff 0
    let x := sessAt s m.index
    (((unitTiles s m.index m.layer u.head u.block [q]).find? (fun a => !tileThere s a.1 a.2)) = none →
      let qb := queryBytes (modelOf s x)
      let v := unitPartial s m.index m.layer u.head u.block q (slice m.query (u.qoff * qb) qb)
      let p : Emitted :=
        { tag := partialTag m u q (modelOf s x).group v, catcher := m.catcher, index := m.index, innings := m.innings % 65536, layer := m.layer
          unit := u, value := v }
      ∃ t, exec (.unitComplete f) s = .next t ∧ Only m.index s t ∧ (sessAt t m.index).entry = x.entry ∧
        Tab.find t.merges tag = some { m with todo := m.todo.erase u } ∧
        p ∈ (fielderAt t f).emitter ++ (catcherAt t m.catcher).input ∧ t.out = s.out) ∧
    (∀ a, (unitTiles s m.index m.layer u.head u.block [q]).find? (fun a => !tileThere s a.1 a.2) = some a →
      (fielderAt s f).waiting ≠ some a →
      Does (.unitComplete f) s (setFielder f { fielderAt s f with waiting := some a } s) []))

/-- `PARTIAL_ACCEPT` (R196, R203, R213, R220, R223, R224): the oldest partial joins its merge, and with the last the layer is formed with the merge's
output; a partial without a merge, of a closing one or of other innings is dropped. `WITHDRAW_ACK_RX` (R221, R222): the closing merge awaits one
fielder less, and after the last its tag is free. `OUTPUT_RELEASE` (R81, R84, R203, R298, R434, R435, R470): a formed layer's OUTPUT is sent and the
step awaits the next layer; after the last the step ends with STEP_END, STEP_SEQ and LENGTH one more, and the session READY, WAITING where a wait is
pending, or MOVING at a dead end. -/
def Obligations.PartialsMergeAndOutputsLeave : Prop :=
  (
    ∀ (c : Nat) (p : Emitted) (rest : List Emitted) (s : State), Live s → (catcherAt s c).input = p :: rest →
    let u := pumpCatcher c 1088 (setCatcher c { input := rest } s)
    let found := u.merges.find? (fun e => e.2.index == p.index && e.2.catcher == c)
    (∀ tag m, found = some (tag, m) → m.closing = false → m.innings % 65536 = p.innings →
      let m' : Merge := { m with leaves := m.leaves ++ [(p.unit, p.value)] }
      (mergeComplete s m' = false →
        ∃ t g, exec (.partialAccept c) s = .next t ∧ Only p.index s t ∧ (sessAt t p.index).entry = (sessAt s p.index).entry ∧
          Tab.find t.merges tag = some g ∧ g.leaves = m'.leaves ∧ g.todo = m.todo ∧ g.blocks = m.blocks ∧ g.catcher = c) ∧
      (∀ st, mergeComplete s m' = true → m.home = none → m.prefill = false → (sessAt s p.index).step = some st →
        ∃ t, exec (.partialAccept c) s = .next t ∧ Only p.index s t ∧ Tab.find t.merges tag = none ∧
          (sessAt t p.index).step = some { st with phase := .formed, output := mergeOutput s m' })) ∧
    (found = none → Does (.partialAccept c) s u []) ∧
    (∀ tag m, found = some (tag, m) → m.closing = true ∨ m.innings % 65536 ≠ p.innings → Does (.partialAccept c) s u [])) ∧
  (
    ∀ (tag f : Nat) (m : Merge) (s : State), Live s → Tab.find s.merges tag = some m →
    (m.closing = true → m.awaiting.contains f = true →
      partialWaits s m f = false →
      (m.awaiting.erase f = [] → Does (.withdrawAckRx tag f) s (touchJobs { s with merges := Tab.drop s.merges tag }) []) ∧
      (m.awaiting.erase f ≠ [] →
        Does (.withdrawAckRx tag f) s { s with merges := Tab.put s.merges tag { m with awaiting := m.awaiting.erase f } } [])) ∧
    (m.closing = false → Does (.withdrawAckRx tag f) s s [])) ∧
  (
    (∀ (i : Nat) (st : Step) (s : State), Grants s → (sessAt s i).step = some st → st.phase = .formed → mirrorHeld s i st.mirrorAt = false →
      qpReady s st.outQp = true → qpReady s st.qp = true →
      let x := sessAt s i
      let out : Sent := .msg
        { qp := st.outQp, opcode := 0xF001, tag := st.outTag, handle := x.record.handle, args := word (at' st.layer 56 8 + at' 0 25 9)
          body := st.output }
      x.entry.cancelPending = false →
      (st.layer + 1 < (modelOf s x).layers →
        let y : Session := { x with step := some { st with phase := .idle, output := [], mirrorWaited := false, ending := false } }
        Does (.outputRelease i) s (touchJobs { s with sessions := Tab.put s.sessions i y }) [out]) ∧
      ((modelOf s x).layers ≤ st.layer + 1 → st.masked = true →
        ∃ t r, exec (.outputRelease i) s = .next t ∧ Only i s t ∧ t.out = s.out ++ [out] ++ r ∧
          (sessAt t i).record.stepSeq = (x.record.stepSeq + 1) % 2 ^ 32 ∧ (sessAt t i).record.length = x.record.length + 1 ∧
          (sessAt t i).entry.state = (if st.deadEnd then .moving else if x.entry.waitPending then .waiting else .ready) ∧
          (sessAt t i).entry.waitPending = false ∧
          (mirrors s i = false →
            .msg { qp := st.qp, opcode := 0xF002, status := (if st.deadEnd then Status.deadEnd else .ok).code, tag := st.tag, handle := x.record.handle
                   args := word (at' st.seq0 32 32 + at' (x.record.length + 1) 0 32) } ∈ r))) ∧
    (∀ (i : Nat) (st : Step) (s : State), Grants s → (sessAt s i).step = some st → st.phase = .formed → mirrorHeld s i st.mirrorAt = true →
      st.mirrorWaited = false →
      Does (.outputRelease i) s { s with sessions := Tab.put s.sessions i { sessAt s i with step := some { st with mirrorWaited := true } } } []) ∧
    (∀ (i : Nat) (b : QBlock) (s : State), Grants s → (sessAt s i).step = none → (sessAt s i).qblock = some b → b.phase = .formed →
      (sessAt s i).qwait = [] → qpReady s b.qp = true →
      ∃ t, exec (.outputRelease i) s = .next t ∧ Only i s t ∧ (sessAt t i).qblock = none ∧ (sessAt t i).entry = (sessAt s i).entry ∧
        t.out = s.out ++ [.msg
          { qp := b.qp, opcode := 0xF001, tag := b.tag, handle := (sessAt s i).record.handle
            args := word (at' b.layer 56 8 + at' (b.count - 1) 25 9), body := b.output }]))

/-- ADMIT and RING_JOIN (R61, R63, R78, R79, R125, R252 to R255, R457): the entry that R63 names is READY with the next generation and a fresh record
under its handle, and holds a root frame; in ring mode the answer waits for the members, a fork's part takes its parent's pages there; a failed check
is answered with its status and changes nothing. FORK (R79, R94 to R96, R132, R133, R275): the child is READY with the parent's prefix, its pages
shared and DIRTY, and the parent counts one child more; a prefix longer than the parent and a parent in another state are refused. -/
def Obligations.SessionsAreAdmittedAndForked : Prop :=
  (
    let fresh (s : State) (i p c slot cls len f : Nat) (ring : Option (Nat × Nat × Nat)) : Session :=
      let g := if (sessAt s i).entry.generation ≥ 8589934591 then 1 else (sessAt s i).entry.generation + 1
      { entry := { state := .ready, partition := p, generation := g, conf := (ctxAt s c).mode == .confidential }
        record :=
          { handle := handleOf p g i, context := c, cls, modelSlot := slot, innings := 1, length := len, prefixLen := len
            createdNs := now s, mapTier := 0, mapAddr := hbmAddr f 0 }
        root := some f, ringHome := ring }
    (∀ (m : Msg) (s : State), Serves .bound m s → s.mode = .run → 4 ≤ m.ops.length → m.ops.length ≤ 5 → opNat m 3 ≤ 1 →
      let p := opNat m 0
      let c := opNat m 1
      let slot := opNat m 2
      let budget := if opWord m 4 = allOnes then 0 else opNat m 4
      contextHeld s c = false → slotHeld s slot = false → admissionHeld s p = false →
      (admitCheck s m.qp p c slot = .ok → ∀ i, allocIndex s = some i →
        let r : Record := { context := c, cls := opNat m 3, modelSlot := slot, innings := 1 }
        (∀ u v, admission p (opNat m 3) (stepBytes (Tab.get s.models slot {}) budget) (fun u => allocRoot i (occupy i p .ready r u)) (takeMsg m s) =
            (some u, v) →
          ∃ t f, exec (.admitSession m) s = .next t ∧ Only i s t ∧ sessAt t i = fresh s i p c slot (opNat m 3) 0 f none ∧
            (ringMembers s p = [] → ∃ x, t.out = s.out ++ x ++ [.msg (response m { handle := some (sessAt t i).record.handle })]) ∧
            (ringMembers s p ≠ [] → ∃ w, t.ringWaits = s.ringWaits ++ [w] ∧ w.index = i ∧ w.qp = m.qp ∧ w.tag = m.tag ∧ w.opcode = m.opcode ∧
              w.left = (ringMembers s p).map Prod.fst ∧ w.got = [] ∧ w.refusal = none)) ∧
        (∀ v, admission p (opNat m 3) (stepBytes (Tab.get s.models slot {}) budget) (fun u => allocRoot i (occupy i p .ready r u)) (takeMsg m s) =
            (none, v) → Does (.admitSession m) s s [answer m .admitRefused])) ∧
      (admitCheck s m.qp p c slot ≠ .ok → Does (.admitSession m) s s [answer m (admitCheck s m.qp p c slot)])) ∧
    (∀ (m : Msg) (j : RingJoin) (s : State), Serves .peer m s → s.mode = .run → m.ops.length ≤ 255 → j.cls ≤ 1 →
      let p := handlePartition j.home
      (joinCheck s j = .ok → ∀ i, allocIndex s = some i →
        let r : Record :=
          { context := j.context, cls := j.cls, modelSlot := j.modelSlot, innings := 1, length := j.prefixLen, prefixLen := j.prefixLen }
        let g := if (sessAt s i).entry.generation ≥ 8589934591 then 1 else (sessAt s i).entry.generation + 1
        (∀ u v, admission p j.cls (stepBytes (Tab.get s.models j.modelSlot {}) j.prefixLen)
            (fun u => (allocRoot i (occupy i p .ready r u)).bind (joinFork i m.qp j)) (takeMsg m s) = (some u, v) →
          (∀ k, ringResolve s m.qp j.parent = some k → k ≠ i) →
          ∃ t x, exec (.ringJoin m j) s = .next t ∧ Only i s t ∧ (sessAt t i).entry.state = .ready ∧ (sessAt t i).entry.partition = p ∧
            (sessAt t i).record.handle = handleOf p g i ∧ (sessAt t i).record.length = j.prefixLen ∧
            (sessAt t i).ringHome = some (peerNodeOf m.qp, handleIndex j.home, handleGeneration j.home) ∧
            (j.parent = 0 → ∃ f, sessAt t i = fresh s i p j.context j.modelSlot j.cls j.prefixLen f (sessAt t i).ringHome) ∧
            t.ringMap = s.ringMap ++ [(j.home, i)] ∧ t.out = s.out ++ x ++ [.msg (response m { handle := some (sessAt t i).record.handle })])) ∧
      (joinCheck s j ≠ .ok → Does (.ringJoin m j) s s [answer m (joinCheck s j)]))) ∧
  (
    ∀ (m : Msg) (i : Nat) (s : State), Reaches false m i s → m.ops.length = 2 → opNat m 1 ≤ 1 →
    let x := sessAt s i
    let p := x.entry.partition
    let len := if opNat m 0 = 0 then x.record.length else opNat m 0
    let keys := prefixKeys s i len
    admissionHeld s p = false →
    (x.entry.state = .ready ∨ x.entry.state = .waiting → opNat m 0 ≤ x.record.length → nonFree s p < maxSessionsVal s p →
      (∀ k ∈ keys, (frameAt s (pageAt x k).frame).refCount < 65535) →
      ∀ c u v w z, allocIndex s = some c → c ≠ i →
      let r : Record :=
        { context := x.record.context, cls := opNat m 1, modelSlot := x.record.modelSlot, innings := 1, parent := x.record.handle, length := len
          prefixLen := len, grammar := x.record.grammar, tokenCarry := x.record.tokenCarry, seqLists := x.record.seqLists }
      admission p (opNat m 1) (stepBytes (modelOf s x) len) (fun u => allocRoot c (occupy c p .ready r u)) (taken m s) = (some u, v) →
      sharePages c x keys u = some w → copySegments c i w = some z →
      ∃ t, exec (.fork m) s = .next t ∧ Only c s t ∧ (sessAt t c).entry.state = .ready ∧ (sessAt t c).entry.partition = p ∧
        (sessAt t c).record.parent = x.record.handle ∧ (sessAt t c).record.length = len ∧ (sessAt t c).record.prefixLen = len ∧
        (sessAt t c).record.cls = opNat m 1 ∧ (sessAt t c).record.context = x.record.context ∧ (sessAt t c).record.childCount = 0 ∧
        (∀ k ∈ keys, pageAt (sessAt t c) k = { tier := 0, dirty := true, frame := (pageAt x k).frame }) ∧
        (sessAt t i).record.childCount = x.record.childCount + 1 ∧
        (ringMembers s p = [] → ∃ y, t.out = s.out ++ y ++ [.msg (response m { handle := some (sessAt t c).record.handle })]) ∧
        (ringMembers s p ≠ [] → ∃ w, t.ringWaits = s.ringWaits ++ [w] ∧ w.index = c ∧ w.qp = m.qp ∧ w.tag = m.tag ∧ w.opcode = m.opcode ∧
          w.left = (ringMembers s p).map Prod.fst ∧ w.got = [] ∧ w.refusal = none)) ∧
    (x.entry.state = .ready ∨ x.entry.state = .waiting → x.record.length < opNat m 0 → Does (.fork m) s s [answer m .prefixTooLong]) ∧
    (x.entry.state ≠ .ready → x.entry.state ≠ .waiting → Does (.fork m) s s [answer m (stateStatus x)]))

/-- Compass indexes (R309 to R313, R317, R318, R321, R322, R324): created in frames of their own, their centroids written, sealed and unsealed, read,
moved to the pool, compacted, dropped. COMPASS_INSERT and COMPASS_DELETE (R314, R316, R319, R320): a record joins the list of the centroid it names
and is LIVE; a record that is LIVE or DELETED already, and any record of a sealed index, is refused; a deleted record is DELETED and one that is not
LIVE is counted. -/
def Obligations.IndexesHoldRecords : Prop :=
  (
    (∀ (m : Msg) (s : State), Serves .bound m s → s.mode = .run → m.ops.length = 4 → m.opcode = 0x0401 → indexOf m ≤ 15 → compassBlocked s (indexOf m) false s.searchWaits = false →
      let x := indexOf m
      let c := (qpAt s m.qp).context
      let p := (ctxAt s c).partition
      let (b, n, k) := (opNat m 1, opNat m 2, opNat m 3)
      let shape := 128 ≤ b ∧ b ≤ 4096 ∧ b % 128 = 0 ∧ n ≠ 0 ∧ n ≤ 65536 ∧ k ≠ 0 ∧ k ≤ 1024 ∧ partFielders s p ≠ []
      let v : VIndex :=
        { context := c, partition := p, units := b / 128, centroids := n, maps := k, centroidFrames := [], dirFrames := [], mapFrames := [] }
      (ctxAt s c).mode ≠ .none → (ctxAt s c).tornDown = false → Tab.find s.indexes x = none →
      (∀ fc fd fm u1 u2 u3, shape → allocIndexFrames x c p 0 (ceilDiv n (codesPerFrame v)) (takeMsg m s) = some (fc, u1) →
        allocIndexFrames x c p 0 (ceilDiv n 4096) u1 = some (fd, u2) → allocIndexFrames x c p 0 k u2 = some (fm, u3) →
        DoesThen (.compassCreate m) settleCompass s (setIndex x { v with centroidFrames := fc, dirFrames := fd, mapFrames := fm } u3) [answer m .ok]) ∧
      (¬ shape → DoesThen (.compassCreate m) settleCompass s s [answer m .indexShape])) ∧
    (∀ (m : Msg) (v : VIndex) (s : State), Serves .bound m s → s.mode = .run → compassBlocked s (indexOf m) false s.searchWaits = false →
      Tab.find s.indexes (indexOf m) = some v → v.context = (qpAt s m.qp).context → v.faulted = false →
      (ctxAt s (qpAt s m.qp).context).tornDown = false →
      let x := indexOf m
      (∀ l, m.opcode = 0x0402 → m.ops.length = 2 → badCount 512 m.body = false → listItems (codeBytes v) m.body = some l → opNat m 1 + l.length ≤ v.centroids →
        (recordsHeld s v = false →
          DoesThen (.compassCentroids m) settleCompass s
            (foldRange l.length (fun t i =>
              let c := opNat m 1 + i
              writeBytes (frameBase (v.centroidFrames.getD (c / codesPerFrame v) 0) + c % codesPerFrame v * codeBytes v) (l.getD i []) t) s)
            [answer m .ok]) ∧
        (recordsHeld s v = true → DoesThen (.compassCentroids m) settleCompass s s [answer m .indexNotEmpty])) ∧
      (m.ops.length = 1 →
        (m.opcode = 0x0406 → DoesThen (.compassSeal m) settleCompass s (setIndex x { v with sealed := true } s) [answer m .ok]) ∧
        (m.opcode = 0x0407 → v.pool = false →
          DoesThen (.compassUnseal m) settleCompass s (noteUnsealed x (setIndex x { v with sealed := false } s)) [answer m .ok]) ∧
        (m.opcode = 0x0407 → v.pool = true → DoesThen (.compassUnseal m) settleCompass s s [answer m .indexInPool]) ∧
        (m.opcode = 0x040B → DoesThen (.compassDrop m) settleCompass s (dropIndex x s) [answer m .ok]) ∧
        Does (.compassInfo m) s s [.msg (response m { ops := descriptor v })]) ∧
      (m.opcode = 0x0405 → m.ops.length = 2 → opNat m 1 < v.centroids → opNat m 1 ≠ 0xFFFFFFFF →
        (∀ w u, v.sealed = false → compactList x (opNat m 1) v (takeMsg m s) = some (w, u) →
          DoesThen (.compassCompact m) settleCompass s (setIndex x w u) [answer m .ok] ∧
          (listAt w (opNat m 1)).entries = ((List.range (listAt v (opNat m 1)).entries).filter (fun e =>
            recordState s v (entryOf s v ((listAt v (opNat m 1)).frames.getD (e / entriesPerFrame v) 0) (e % entriesPerFrame v)).1 != 2)).length) ∧
        (v.sealed = true → DoesThen (.compassCompact m) settleCompass s s [answer m .indexSealed])) ∧
      (m.opcode = 0x0408 → m.ops.length = 2 → opNat m 1 = 0 ∨ opNat m 1 = 2 →
        (v.pool = (opNat m 1 == 2) → (opNat m 1 = 2 → v.sealed = true) → DoesThen (.compassPlace m) settleCompass s s [answer m .ok]) ∧
        (opNat m 1 = 2 → v.sealed = false → DoesThen (.compassPlace m) settleCompass s s [answer m .indexNotSealed]) ∧
        (∀ placed w, opNat m 1 = 2 → v.sealed = true → v.pool = false → placeOut v (takeMsg m s) = some (placed, w) → entriesPerFrame v ≠ 0 →
          (∃ e ∈ placed, e.2.entries ≠ 0) →
          ∃ u r y p, exec (.compassPlace m) s = .next (settleCompass u) ∧ u.out = s.out ++ r ∧ Tab.find u.indexes x = some y ∧ y.placing = some p ∧
            p.msg = m ∧ p.tier = 2 ∧ p.placed = placed ∧ { y with placing := none } = { v with placing := none })))) ∧
  (
    ∀ (m : Msg) (v : VIndex) (s : State), Serves .bound m s → s.mode = .run → m.ops.length = 1 →
    compassBlocked s (indexOf m) false s.searchWaits = false → Tab.find s.indexes (indexOf m) = some v → v.context = (qpAt s m.qp).context →
    v.faulted = false → (ctxAt s (qpAt s m.qp).context).tornDown = false →
    let x := indexOf m
    (∀ item, m.opcode = 0x0403 → badCount 256 m.body = false → listItems (codeBytes v + 16) m.body = some [item] →
      let id := numAt item 0 8
      let c := numAt item (8 + codeBytes v) 8
      let none' (st : Status) : Prop :=
        ∃ u, exec (.compassInsert m) s = .next (settleCompass u) ∧ Tab.find u.indexes x = some v ∧ u.hbm = s.hbm ∧ u.frames = s.frames ∧
          u.out = s.out ++ [.msg (response m { status := st, ops := [word 0] })]
      id < v.maps * 262144 → c < v.centroids →
      (recordState s v id = 0 → v.sealed = false → appendEntry x v c id (slice item 8 (codeBytes v)) (takeMsg m s) ≠ none →
        ∃ u w, exec (.compassInsert m) s = .next (settleCompass u) ∧ Tab.find u.indexes x = some w ∧ w.live = v.live + 1 ∧
          (listAt w c).entries = (listAt v c).entries + 1 ∧ (∀ d, d ≠ c → listAt w d = listAt v d) ∧ recordState u w id = 1 ∧
          u.out = s.out ++ [.msg (response m { ops := [word 1] })]) ∧
      (recordState s v id = 1 → none' .recordExists) ∧ (recordState s v id = 2 → none' .recordDeleted) ∧
      (recordState s v id = 0 → v.sealed = true → none' .indexSealed)) ∧
    (∀ id : Word, m.opcode = 0x0404 → badCount 4096 m.body = false → listWords m.body = some [id] →
      (id.toNat < v.maps * 262144 → recordState s v id.toNat = 1 →
        ∃ u w, exec (.compassDelete m) s = .next (settleCompass u) ∧ Tab.find u.indexes x = some w ∧ w = { v with live := v.live - 1 } ∧
          recordState u w id.toNat = 2 ∧ u.out = s.out ++ [.msg (response m { ops := [word 0] })]) ∧
      (v.maps * 262144 ≤ id.toNat ∨ recordState s v id.toNat ≠ 1 →
        ∃ u, exec (.compassDelete m) s = .next (settleCompass u) ∧ Tab.find u.indexes x = some v ∧ u.hbm = s.hbm ∧
          u.out = s.out ++ [.msg (response m { ops := [word 1] })])))

/-- Searches (R30, R325, R327, R329, R331 to R335): taken under the next number, queued behind a change of their index, refused where the queue is
full; their slices run on fielders that no step job holds and bring candidates in; a search that lasts too long is answered `SEARCH_TIMEOUT`. -/
def Obligations.SearchesRunInSlices : Prop :=
  (∀ (m : Msg) (v : VIndex) (s : State), Serves .bound m s → s.mode = .run → m.ops.length = 5 → Tab.find s.indexes (indexOf m) = some v →
    v.context = (qpAt s m.qp).context → v.faulted = false → (ctxAt s (qpAt s m.qp).context).tornDown = false → m.opcode = 0x0409 →
    let x := indexOf m
    let ok := 1 ≤ opNat m 2 ∧ opNat m 2 ≤ 256 ∧ 1 ≤ opNat m 3 ∧ opNat m 3 ≤ 1024 ∧ m.body.length = codeBytes v
    let n := codesPerFrame v
    let q : Search :=
      { msg := m, index := x, at_ := now s, query := m.body, probe := opNat m 2, count := opNat m 3, extend := bit (opWord m 4) 0
        todo := v.centroidFrames.zipIdx.map (fun f =>
          { coarse := true, list := 0, ord := f.2, frame := f.1, entries := min n (v.centroids - f.2 * n) }) }
    let waiting := (s.searchWaits.filter (fun w => w.2.search)).length
    let blocked := compassBlocked s x true s.searchWaits
    (blocked = false → ok →
      DoesThen (.compassSearch m) settleCompass s
        { s with searches := Tab.put s.searches s.searchCount q, searchCount := s.searchCount + 1 } []) ∧
    (blocked = false → ¬ ok → DoesThen (.compassSearch m) settleCompass s s [answer m .searchRange]) ∧
    (blocked = true → waiting < searchQueueMaxVal s →
      let w : SearchWait := { msg := m, index := x, at_ := now s, search := true }
      Does (.compassSearch m) s
        { s with searchWaits := Tab.put s.searchWaits s.searchCount w, searchCount := s.searchCount + 1 } []) ∧
    (blocked = true → searchQueueMaxVal s ≤ waiting → Does (.compassSearch m) s s [answer m .searchBusy])) ∧
  (∀ (f p k : Nat) (q : Search) (l : Slice) (s : State), Live s → partOfFielder s f = some p → s.survey.frozen = false → (partAt s p).holder = none →
    (fielderAt s f).slice = none →
    s.searches.findSome? (fun e => (e.2.todo.find? (fun l => frameFielder l.frame == f)).map (fun l => (e.1, e.2, l))) = some (k, q, l) →
    let q' : Search := { q with todo := q.todo.erase l, running := q.running + 1 }
    Does (.compassSliceIssue f) s
      (setFielder f { fielderAt s f with slice := some (k, l) } { s with searches := Tab.put s.searches k q' }) []) ∧
  (∀ (f k : Nat) (l : Slice) (q : Search) (v : VIndex) (s : State), Live s → (fielderAt s f).slice = some (k, l) → Tab.find s.searches k = some q →
    Tab.find s.indexes q.index = some v →
    let q' : Search := { q with running := q.running - 1 }
    let found := if l.coarse then scanCentroids s v q' l else { q' with found := Tab.put q'.found l.list (scanList s v q' l) }
    DoesThen (.compassSliceDone f) (fun u => settleCompass (advanceSearch k 1024 (freeStage k l u))) s
      { setFielder f { fielderAt s f with slice := none } s with searches := Tab.put s.searches k found } []) ∧
  (∀ (k : Nat) (s : State), Live s →
    (∀ q, Tab.find s.searches k = some q → q.at_ + searchTimeoutMsVal s * 1000000 ≤ now s → qpReady s q.msg.qp = true →
      DoesThen (.searchTimeout k) settleCompass s (endSearch k { status := .searchTimeout } s) [answer q.msg .searchTimeout]) ∧
    (∀ w, Tab.find s.searches k = none → Tab.find s.searchWaits k = some w → w.search = true → w.at_ + searchTimeoutMsVal s * 1000000 ≤ now s →
      qpReady s w.msg.qp = true →
      DoesThen (.searchTimeout k) settleCompass s { s with searchWaits := Tab.drop s.searchWaits k } [answer w.msg .searchTimeout]))

/-- TILE_WRITE (R138, R139, R141, R436, R437, R463): rows at or above the session's LENGTH are written into the page's own frame, zero beyond the head
dimension, and no other byte is; a tile for no session, for a state that takes none or outside the session's shape is answered with TILE_NAK; a halted
module answers `MODULE_FATAL`; until start-up completes a tile waits (R652). -/
def Obligations.TilesAreWritten : Prop :=
  ∀ (t : TileWrite) (s : State),
  (linkAlive s = false ∨ qpReady s t.qp = false → Does (.tileWrite t) s (takeTile t s) []) ∧
  (s.power.phase = .starting → qpReady s t.qp = true → Does (.tileWrite t) s (holdTile t s) []) ∧
  (s.power.phase = .running → qpReady s t.qp = true →
  let a := tileAddrOf t.addr
  let nak (st : Status) : Prop :=
    Does (.tileWrite t) s (takeTile t s) [.msg { qp := t.qp, opcode := 0xF006, ops := [t.addr, word st.code.toNat] }]
  (s.mode = .fatal → nak .moduleFatal) ∧
  (s.mode ≠ .fatal → s.survey.frozen = true → Does (.tileWrite t) s (holdTile t s) []) ∧
  (s.mode ≠ .fatal → s.survey.frozen = false → t.qp < 257 ∨ 384 < t.qp →
    (tileSession s t = none → nak .tileRange) ∧
    (∀ i, tileSession s t = some i →
      let x := sessAt s i
      let h := sessShape s i
      let fits := tileFits h a (h.nMax / 16)
      let want (lp : Nat) : Bool := x.record.length ≤ globalPos s x.entry.partition lp
      (x.shadow.isSome → nak .sessionShadow) ∧
      (x.shadow = none → x.entry.state ≠ .ready → nak (tileStatus x)) ∧
      (x.shadow = none → x.entry.state = .ready → ringOf s x.entry.partition = none →
        (fits = false → nak .tileRange) ∧
        (fits = true → writeTileRows i h a t.data want s = none → Does (.tileWrite t) s (holdTile t s) []) ∧
        (∀ u, fits = true → writeTileRows i h a t.data want s = some u →
          ∃ v, exec (.tileWrite t) s = .next v ∧ v.tileIngress = s.tileIngress.erase t ∧ (sessAt v i).entry = x.entry ∧
            (sessAt v i).record.length = x.record.length) ∧
        (fits = true →
          let e := pageAt x (pageKey h a.layer a.head (16 * a.group / h.run))
          let base := frameBase e.frame + (((16 * a.group) % h.run) / 16 * h.slices + a.slice) * 4096
          let row (r : Nat) : List Byte := rowMask h a.slice (slice t.data (256 * r) 256)
          e.tier = 0 → (frameAt s e.frame).refCount ≤ 1 → x.inherited.contains (pageKey h a.layer a.head (16 * a.group / h.run)) = false →
          ∃ v, exec (.tileWrite t) s = .next v ∧
            ∀ k, readByte v k =
              if base ≤ k ∧ k < base + 4096 ∧ x.record.length ≤ 16 * a.group + (k - base) / 256 then
                (row ((k - base) / 256)).getD ((k - base) % 256) 0
              else readByte s k)))) ∧
  (s.mode ≠ .fatal → s.survey.frozen = false → 321 ≤ t.qp → t.qp ≤ 384 →
    let x := sessAt s a.index
    let h := sessShape s a.index
    (∀ d, x.move = some (.dest d) → x.entry.state = .moving → d.node = peerNodeOf t.qp →
      (tileFits h a (h.nMax / 16) = true → ∀ u, writeTileRows a.index h a t.data (fun _ => true) s = some u →
        ∃ v, exec (.tileWrite t) s = .next v ∧ v.tileIngress = s.tileIngress.erase t ∧ (sessAt v a.index).entry = x.entry) ∧
      (tileFits h a (h.nMax / 16) = false → nak .tileRange)) ∧
    (x.entry.state ≠ .moving → nak .tileRange)))

/-- PAIR_TAKEOVER and PAIR_DETACH (R474 to R476): the partner's copied sessions are adopted, one that was ACTIVE is READY and restarts its step, what
had not been copied is discarded; a detached pair keeps its own sessions, unmirrored. -/
def Obligations.PairsAreTakenOverAndDetached : Prop :=
  ∀ (m : Msg) (s : State), Serves .fm m s → m.ops.length = 0 → Tab.rising s.sessions = true →
  (doublesEnableVal s = 1 → s.pair.state ≠ .takenOver → s.pair.state ≠ .detached →
    ∃ t r, exec (.pairTakeover m) s = .next t ∧ t.out = s.out ++ r ++ [answer m .ok] ∧
      t.pair = { s.pair with state := .takenOver, adopted := some (partnerNodeVal s), items := [], sync := [] } ∧ t.held = [] ∧
      ∀ i,
        let x := sessAt s i
        (x.shadow = none → sessAt t i = x) ∧
        (x.shadow = some { copied := false } → (sessAt t i).entry = { generation := x.entry.generation }) ∧
        (x.shadow = some { copied := true } → (sessAt t i).shadow = none ∧ (sessAt t i).record.handle = x.record.handle ∧
          (sessAt t i).record.length = x.record.length ∧
          (x.entry.state = .active → (sessAt t i).entry.state = .ready ∧ (sessAt t i).ended = some .stepRestart) ∧
          (x.entry.state = .moving → x.record.returnState = .waiting ∨ x.record.returnState = .parked →
            (sessAt t i).entry.state = x.record.returnState) ∧
          (x.entry.state ≠ .active → x.entry.state ≠ .moving → (sessAt t i).entry.state = x.entry.state))) ∧
  (doublesEnableVal s = 1 → s.pair.state ≠ .takenOver →
    ∃ t r, exec (.pairDetach m) s = .next t ∧ t.out = s.out ++ r ++ [answer m .ok] ∧
      t.pair = { s.pair with state := .detached, items := [], sync := [] } ∧ t.held = [] ∧
      ∀ i,
        let x := sessAt s i
        (x.shadow = none → sessAt t i = { x with entry.mirrored := false }) ∧
        (x.shadow.isSome → (sessAt t i).entry = { generation := x.entry.generation })) ∧
  (doublesEnableVal s ≠ 1 → Does (.pairTakeover m) s s [answer m .pairNotConfigured] ∧ Does (.pairDetach m) s s [answer m .pairNotConfigured])

/-- Beats and deadlines (R473): a beat is noted, one is sent each interval, a silent partner stalls the pair, and a partner's lost signal takes its
sessions over or stalls, as configured. The mirror stream (R469, R470, R472, R477): an item is applied to its shadow and acknowledged with its
sequence number, one that cannot be held is refused; an acknowledgement releases what waited for it and marks the sessions whose copy it completes. -/
def Obligations.MirrorsFollowThePrimary : Prop :=
  (
    (∀ (m : Msg) (s : State), Serves .peer m s → m.ops.length = 0 → fromPartner s m = true →
      (s.pair.state ≠ .none → Does (.pairBeat m) s { s with pair.heardAt := now s } []) ∧
      (s.pair.state = .none → (∀ e ∈ s.sessions, mirrors { s with pair.state := .syncing } e.1 = false) →
        Does (.pairBeat m) s { s with pair.heardAt := now s, pair.state := if s.pair.sync = [] then .paired else .syncing } [])) ∧
    (∀ s : State, Live s → doublesEnableVal s = 1 → s.pair.sentAt + pairBeatUsVal s * 1000 ≤ now s → qpReady s (ringQp (partnerNodeVal s)) = true →
      Does .pairBeatSend s { s with pair.sentAt := now s } [.peer (partnerNodeVal s) (ringQp (partnerNodeVal s)) 0 .pairBeat]) ∧
    (∀ s : State, Live s → pairLive s = true → s.pair.lostAt = none → s.pair.heardAt + pairDeadlineMsVal s * 1000000 ≤ now s →
      Does .pairDeadline s { s with pair.state := .stalled } []) ∧
    (∀ (s : State) (t0 : Nat), Live s → s.pair.lostAt = some t0 → doublesEnableVal s = 1 → pairLive s = true →
      t0 + pairDeadlineMsVal s * 1000000 ≤ now s →
      (failoverModeVal s ≠ 0 → Does .partnerSignalLoss s { s with pair.state := .stalled } []) ∧
      (failoverModeVal s = 0 →
        ∃ t, exec .partnerSignalLoss s = .next t ∧ s.out <+: t.out ∧ t.held = [] ∧
          t.pair = { s.pair with state := .takenOver, adopted := some (partnerNodeVal s), items := [], sync := [] })) ∧
    (∀ (m : Msg) (s : State), Serves .peer m s → m.ops.length = 0 → fromPartner s m = false → Does (.pairBeat m) s s [])) ∧
  (
    (∀ (c : Msg → MirrorItem → Instr) (m : Msg) (it : MirrorItem) (s : State),
      c = .mirrorUpdate ∨ c = .mirrorMap ∨ c = .mirrorAppend ∨ c = .mirrorStepEnd ∨ c = .mirrorPage → Serves .peer m s → m.ops.length ≤ 255 →
      fromPartner s m = true →
      let heard (u : State) : State := { u with pair.applied := max s.pair.applied it.seq, pair.heardAt := now s }
      let ack (r : Option Nat) : List Sent := [.peer (peerNodeOf m.qp) m.qp 0 (.mirrorAck it.seq r)]
      let i := it.index
      (s.pair.state ≠ .detached → s.pair.state ≠ .takenOver → shadowFits s i it.body = true →
        (∀ q n g w l, it.body = .stepEnd q n g w l → (sessAt s i).shadow.isSome →
          let x := sessAt s i
          let y : Session := { x with record := { x.record with stepSeq := q, length := n, grammar := g, tokenCarry := w, seqLists := l } }
          Does (c m it) s (heard { s with sessions := Tab.put s.sessions i y }) (ack none)) ∧
        (∀ e r tag im k, it.body = .update e r tag im k → e.state = .ready ∨ e.state = .waiting ∨ e.state = .active → (sessAt s i).root.isSome →
          (sessAt s i).shadow.isSome →
          ∃ t, exec (c m it) s = .next t ∧ (sessAt t i).entry = e ∧ (sessAt t i).record.handle = r.handle ∧ (sessAt t i).record.length = r.length ∧
            (sessAt t i).record.stepSeq = r.stepSeq ∧ (sessAt t i).shadow.isSome ∧ t.out = s.out ++ ack none) ∧
        (∀ u, applyItem i it.body (takeMsg m s) = some u → u.qps = s.qps →
          ∃ t, exec (c m it) s = .next t ∧ bare t = bare { u with pair.applied := max u.pair.applied it.seq, pair.heardAt := now u } ∧
            t.out = u.out ++ ack none)) ∧
      (s.pair.state ≠ .detached → s.pair.state ≠ .takenOver → shadowFits s i it.body = false → (sessAt s i).shadow = none →
        Does (c m it) s (heard s) (ack (some i))) ∧
      (s.pair.state = .takenOver ∨ s.pair.state = .detached → Does (c m it) s s [])) ∧
    (∀ (m : Msg) (s : State), Serves .peer m s → m.ops.length = 2 → opWord m 1 = allOnes → fromPartner s m = true →
      s.pair.state = .syncing ∨ s.pair.state = .paired →
      let n := max s.pair.acked (opNat m 0)
      let left := s.pair.sync.filter (fun e => n < e.2.1)
      ∃ t, exec (.mirrorAck m) s = .next t ∧ t.pair.acked = n ∧ t.pair.heardAt = now s ∧ t.held = s.held.filter (fun h => n < h.1) ∧
        t.pair.state = (if left = [] then .paired else s.pair.state) ∧
        (∀ i, (∃ e ∈ s.pair.sync, e.1 = i) → (∀ e ∈ left, e.1 ≠ i) → mirrors s i = true → (sessAt t i).entry = { (sessAt s i).entry with mirrored := true }) ∧
        (∀ i, (∀ e ∈ s.pair.sync, e.1 ≠ i) → sessAt t i = sessAt s i)))

/-- MIGRATE (R463, R696): the session is MOVING and its record is sent to the destination; in ring mode it returns at once; a destination that is no
other node is refused. A migration at its destination (R100, R348, R463 to R465): the entry opens MOVING under a handle of this module, a commit gives
it the state captured and one innings more, an abort frees it; MIGRATE_RESOLVE does either for a held entry. -/
def Obligations.MigrationsRun : Prop :=
  (
    ∀ (m : Msg) (i : Nat) (s : State), Reaches false m i s → m.ops.length = 2 → opNat m 1 ≤ 63 →
    let x := sessAt s i
    let node := opNat m 0
    (node ≠ nodeIdVal s → nodeInTopology s node = true → ringOf s x.entry.partition = none →
      (x.entry.state = .ready ∨ x.entry.state = .waiting ∨ x.entry.state = .parked ∨ x.entry.state = .active →
        ∃ t r, exec (.migrate m) s = .next t ∧ Only i s t ∧ t.out = s.out ++ r ++ [answer m .ok] ∧
          (sessAt t i).entry = { x.entry with state := .moving, waitPending := false, cancelPending := false } ∧
          (qpReady s (migrateQp node) = true →
            ∃ q o, .peer node (migrateQp node) q (.migrateOpen o) ∈ r ∧ o.partition = opNat m 1 ∧ o.record.handle = x.record.handle ∧
              o.record.length = x.record.length ∧ o.record.stepSeq = x.record.stepSeq)) ∧
      (x.entry.state = .moving ∨ x.entry.state = .frozen ∨ x.entry.state = .faulted ∨ x.entry.state = .tombstone →
        DoesThen (.migrate m) (fun u => refuse m (stateStatus x) (settle u)) s s [])) ∧
    (node ≠ nodeIdVal s → nodeInTopology s node = true → (ringOf s x.entry.partition).isSome →
      x.entry.state = .ready ∨ x.entry.state = .waiting ∨ x.entry.state = .parked ∨ x.entry.state = .active →
      ∃ t r, exec (.migrate m) s = .next t ∧ Only i s t ∧ t.out = s.out ++ r ++ [answer m .ok] ∧
        (sessAt t i).entry = { x.entry with state := returnOf x.entry.state, waitPending := false, cancelPending := false }) ∧
    (node = nodeIdVal s ∨ nodeInTopology s node = false → Does (.migrate m) s s [answer m .nodeInvalid])) ∧
  (
    (∀ (m : Msg) (o : MigrateOpen) (s : State), Serves .peer m s → s.mode = .run → m.ops.length ≤ 255 → o.partition ≤ 63 →
      (∀ i w v u, (migrateCheck s o).1 = .ok → allocIndex s = some i →
        admission o.partition o.record.cls (stepBytes (Tab.get s.models o.record.modelSlot {}) o.record.length)
          (fun u => (openEntry i (peerNodeOf m.qp) o u).bind (trialFrames i)) (takeMsg m s) = (some w, v) →
        openEntry i (peerNodeOf m.qp) o (takeMsg m s) = some u →
        ∃ t r, exec (.migrateOpen m o) s = .next t ∧ Only i s t ∧ (sessAt t i).entry.state = .moving ∧ (sessAt t i).entry.partition = o.partition ∧
          (sessAt t i).record.length = o.record.length ∧ (sessAt t i).record.stepSeq = o.record.stepSeq ∧ (sessAt t i).record.parent = 0 ∧
          (∃ d, (sessAt t i).move = some (.dest d) ∧ d.node = peerNodeOf m.qp ∧ d.back = o.record.returnState ∧ d.innings = o.record.innings) ∧
          (∀ e ∈ o.pages, e.2.homeSlot ∈ t.poolSlots) ∧ t.out = s.out ++ r ++ [.msg (response m { handle := some (sessAt t i).record.handle })]) ∧
      ((migrateCheck s o).1 ≠ .ok → Does (.migrateOpen m o) s s [answer m (migrateCheck s o).1])) ∧
    (∀ (c : Instr) (on : On) (m : Msg) (commit : Bool) (s : State), Serves on m s → s.mode = .run →
      c = .migrateCommit m ∧ on = .peer ∧ m.ops.length ≤ 255 ∧ commit = true ∨ c = .migrateAbort m ∧ on = .peer ∧ m.ops.length ≤ 255 ∧ commit = false ∨
        c = .migrateResolve m ∧ on = .mailbox ∧ m.ops.length = 1 ∧ opNat m 0 = (if commit then 1 else 0) →
      (∀ st i d, destOf s m.handle = (st, some (i, d)) →
        ∃ t r, exec c s = .next t ∧ Only i s t ∧ t.out = s.out ++ r ++ [answer m .ok] ∧
          (commit = true → (sessAt t i).entry = { (sessAt s i).entry with state := d.back, reviving := false } ∧
            (sessAt t i).record.innings = (d.innings + 1) % 2 ^ 32) ∧
          (commit = false → (sessAt t i).entry = { generation := (sessAt s i).entry.generation })) ∧
      (∀ st, destOf s m.handle = (st, none) → Does c s s [answer m st])))

/-- `RESPONSE_TIMEOUT` (R427, R458, R463, R464): the wait is over and counts as a failed answer to what it served. -/
def Obligations.ResponsesTimeOut : Prop :=
  ∀ (n : Nat) (w : Wait) (s : State), Live s → Tab.find s.waits n = some w →
  let done : State := { s with waits := Tab.drop s.waits n }
  (w.consumer = .none → Does (.responseTimeout n) s done []) ∧
  (∀ i v, w.consumer = .migrateOpen i → (sessAt s i).move = some (.source v) →
    let y : Session := { sessAt s i with move := some (.source { v with failed := true }) }
    Does (.responseTimeout n) s { done with sessions := Tab.put s.sessions i y } []) ∧
  (∀ i qp tag new, w.consumer = .migrateCommit i qp tag new → qpReady s qp = true →
    Does (.responseTimeout n) s done [.msg { qp, opcode := 0xF007, tag, handle := (sessAt s i).record.handle, ops := [new] }]) ∧
  (∀ i k v, w.consumer = .ring i k → s.ringWaits.find? (fun v => v.index == i && v.left.contains k) = some v → v.left = [k] → v.got = [] →
    qpReady s v.qp = true →
    (v.opcode ≠ 0x0101 → v.opcode ≠ 0x0106 →
    Does (.responseTimeout n) s { done with ringWaits := s.ringWaits.erase v }
      [.msg { qp := v.qp, opcode := v.opcode + 0x8000, status := Status.responseTimeout.code, tag := v.tag, handle := v.answer }]) ∧
    (v.opcode = 0x0101 ∨ v.opcode = 0x0106 →
      ∃ t, exec (.responseTimeout n) s = .next t ∧
        .msg { qp := v.qp, opcode := v.opcode + 0x8000, status := Status.admitRefused.code, tag := v.tag, handle := (sessAt s i).record.parent } ∈
          t.out.drop s.out.length))

/-- What a ring home asks of a member (R189, R457 to R461): commands applied to the member's part, a row appended at its position, work for a query or
a block, and rows that return to the home's block. Segments of a ring (R200, R212, R225, R226): a segment partial joins its merge, one that is stale
or aged is dropped, and a member notes the home's segment frontier. -/
def Obligations.RingsServeTheHome : Prop :=
  (
    (∀ (m : Msg) (r : RingCmd) (s : State), Serves .peer m s → s.mode = .run → m.ops.length ≤ 255 →
      (∀ i, ringResolve s m.qp r.home = some i → (ctxAt s (sessAt s i).record.context).tornDown = false →
        let x := sessAt s i
        (r.opcode = 0x0108 → x.entry.state = .ready →
          let y : Session := { x with
            entry.state := .frozen, record.length := r.length, record.returnState := .ready, record.timerNs := (timerLeft s i).getD 0 }
          DoesApart (.ringCmd m r) s { s with sessions := Tab.put s.sessions i y } [answer m .ok]) ∧
        (r.opcode = 0x0107 → x.entry.state ≠ .active → x.entry.state ≠ .tombstone → x.entry.state ≠ .free →
          ∃ t q, exec (.ringCmd m r) s = .next t ∧ Only i s t ∧ t.out = s.out ++ q ++ [answer m .ok] ∧ (sessAt t i).record.reason = .cancelled ∧
            (sessAt t i).entry = { x.entry with state := .tombstone, cancelPending := false, waitPending := false, reviving := false }) ∧
        (r.opcode = 0x0203 → x.entry.state = .ready →
          let n := (r.ops.getD 0 allOnes).toNat
          let y : Session := { x with record.length := r.length - n + n }
          r.length - n + n ≤ maxLength s x.entry.partition (sessShape s i) →
          DoesApart (.ringCmd m r) s { s with sessions := Tab.put s.sessions i y } [answer m .ok]) ∧
        (r.opcode = 0x0101 → Does (.ringCmd m r) s s [answer m .opcodeUnknown])) ∧
      (ringResolve s m.qp r.home = none → Does (.ringCmd m r) s s [answer m .handleStale])) ∧
    (∀ (m : Msg) (r : RingAppend) (i : Nat) (s : State), Serves .peer m s → m.ops.length ≤ 255 → ringResolve s m.qp r.home = some i →
      let x := sessAt s i
      let lp := localPos s x.entry.partition r.position
      let y : Session := { x with record.length := r.position }
      x.entry.state = .ready → r.layer < (sessShape s i).layers → holdsPos s x.entry.partition r.position = true →
      (∀ u, appendRow i r.layer lp lp r.kv (setSess i y (takeMsg m s)) = some u →
        ∃ t, exec (.ringAppend m r) s = .next t ∧ Only i s t ∧ (sessAt t i).entry = x.entry ∧ (sessAt t i).record.length = r.position) ∧
      (appendRow i r.layer lp lp r.kv (setSess i y (takeMsg m s)) = none → Does (.ringAppend m r) s s [])) ∧
    (∀ (m : Msg) (r : RingQuery) (i : Nat) (s : State), Serves .peer m s → m.ops.length ≤ 255 → ringResolve s m.qp r.home = some i →
      let x := sessAt s i
      let work (prefill : Bool) : RingWork :=
        { home := peerNodeOf m.qp - ringNodeBaseVal s x.entry.partition, mergeTag := r.mergeTag, innings := r.innings, layer := r.layer, prefill
          first := r.first, positions := r.positions, query := r.query }
      x.entry.state = .ready → r.layer < (sessShape s i).layers →
      (ringAppendWaits s m.qp r.home = false →
        Does (.ringQuery m r) s { s with sessions := Tab.put s.sessions i { x with ringWork := x.ringWork ++ [work false] } } []) ∧
      (∃ t, exec (.ringQblock m r) s = .next t ∧ Only i s t ∧ (sessAt t i).entry = x.entry ∧ (sessAt t i).record.length = r.length ∧
        ((ringOf s x.entry.partition).isSome → (sessAt t i).passLayer = some r.layer) ∧
        (sessAt t i).ringWork = if r.positions = [] then x.ringWork else x.ringWork ++ [work true])) ∧
    (∀ (m : Msg) (r : RingOutput) (i : Nat) (b : QBlock) (s : State), Serves .peer m s → m.ops.length ≤ 255 → lookupEntry s r.home = .at_ i →
      (sessAt s i).qblock = some b → b.layer = r.layer → b.phase = .merging →
      let rows := r.rows.foldl (fun t e => Tab.put t e.1 e.2) b.rows
      let ps := (List.range b.count).map (b.first + ·)
      let b' : QBlock :=
        if ps.all (fun p => (Tab.find rows p).isSome) then
          { b with rows, phase := .formed, output := (ps.map (fun p => Tab.get rows p [])).flatten }
        else { b with rows }
      Does (.ringOutput m r) s (touchJobs { s with sessions := Tab.put s.sessions i { sessAt s i with qblock := some b' } }) [])) ∧
  (
    (∀ (m : Msg) (p : SegPartial) (s : State), Serves .peer m s → m.ops.length ≤ 3 →
      (∀ g, Tab.find s.merges p.mergeTag = some g → g.closing = false → g.home = none → g.innings % 65536 = p.innings →
        (now s ≤ p.sentNs + segmentMaxAgeMsVal s * 1000000 → g.segNodes.any (fun e => e.1 == (p.head, p.segment, p.qoff)) = false →
          let g' : Merge := { g with segNodes := g.segNodes ++ [((p.head, p.segment, p.qoff), p.value)] }
          (mergeComplete s g' = false →
            ∃ t y, exec (.segPartial m p) s = .next t ∧ Only g.index s t ∧ (sessAt t g.index).entry = (sessAt s g.index).entry ∧
              Tab.find t.merges p.mergeTag = some y ∧ y.segNodes = g'.segNodes ∧ y.leaves = g.leaves ∧ y.todo = g.todo)) ∧
        (now s ≤ p.sentNs + segmentMaxAgeMsVal s * 1000000 → g.segNodes.any (fun e => e.1 == (p.head, p.segment, p.qoff)) = true →
          Does (.segPartial m p) s s []) ∧
        (p.sentNs + segmentMaxAgeMsVal s * 1000000 < now s → Does (.segPartial m p) s s [])) ∧
      (Tab.find s.merges p.mergeTag = none → Does (.segPartial m p) s s []) ∧
      (∀ g, Tab.find s.merges p.mergeTag = some g → g.closing = true ∨ g.home.isSome ∨ g.innings % 65536 ≠ p.innings →
        Does (.segPartial m p) s s [])) ∧
    (∀ (m : Msg) (s : State), Serves .peer m s → m.ops.length = 2 →
      let tag := bits (opWord m 0) 63 32
      let home (g : Merge) : Nat := peerNodeOf m.qp - ringNodeBaseVal s (sessAt s g.index).entry.partition
      let found := s.merges.find? (fun e => e.2.home == some (home e.2, tag) && e.2.innings % 65536 == bits (opWord m 0) 31 16)
      (∀ k g, found = some (k, g) → mergeComplete s g = false →
        ∃ t y, exec (.segFrontier m) s = .next t ∧ Only g.index s t ∧ (sessAt t g.index).entry = (sessAt s g.index).entry ∧
          Tab.find t.merges k = some y ∧ y.homeFrontier = bits (opWord m 1) 14 0 ∧ y.leaves = g.leaves ∧ y.todo = g.todo) ∧
      (found = none → Does (.segFrontier m) s s [])))

/-- Surveys (R509, R512 to R517, R520, R528 to R533): started with a freeze, frozen no longer once the instant is taken, ended by an abort, by the
freeze's limit or by the drain of a committed one; a check that fails is answered with its status. The NV module (R522 to R525, R527, R528, R533): its
label is read when the link comes up and written by a format, a completion carries on what was asked (a write that its log's end or an NVMe command's
length cuts goes on with its rest), one that nothing asked for is dropped, and a command without completion fails what issued it. -/
def Obligations.SurveysAndTheirCommandsEnd : Prop :=
  (
    let ended (r : SurveyRun) (st : Status) (drained : Nat) : Sent :=
      .msg { qp := 0, opcode := 0xF00B, status := st.code, tag := r.tag, args := word drained, ops := [word r.record.seq] }
    (∀ (m : Msg) (s : State), Serves .mailbox m s → s.mode = .run → m.ops.length = 3 → opNat m 0 = 1 ∨ opNat m 0 = 2 →
      (surveyCheck s (opNat m 0) (opNat m 2) = .ok →
        let seq := ((newestRecord s).map (·.seq)).getD 0 + 1
        let c : CommitRec :=
          { slot := nextSlot s, kind := opNat m 0, seq, id := opWord m 1, base := if opNat m 0 = 2 then s.survey.baseSeq else 0
            serial := moduleSerial }
        let v : Survey := { s.survey with
          frozen := true, quiet := [], broken := false, confirmed := 0, run := some { record := c, qp := opNat m 2, tag := m.tag, since := now s } }
        Does (.surveyStart m) s { s with survey := v } [.msg (response m { ops := [word seq] })]) ∧
      (surveyCheck s (opNat m 0) (opNat m 2) ≠ .ok → Does (.surveyStart m) s s [answer m (surveyCheck s (opNat m 0) (opNat m 2))])) ∧
    (∀ (r : SurveyRun) (s : State), Live s → s.survey.run = some r → r.stage = .freezing → s.survey.frozen = true → quiet s = true →
      nvIdle s = true → s.survey.broken = false →
      ∃ t q, exec .surveyInstant s = .next t ∧ t.survey.frozen = false ∧ t.survey.run = some q ∧ q.stage = .zeroing ∧
        q.record = { r.record with instant := now s } ∧ t.sessions = s.sessions ∧ t.hbm = s.hbm ∧ t.frames = s.frames ∧
        t.out = s.out ++ [.nvme (nvmeEntry s.survey.nextId 1 true (slotLba s.survey.lbas r.record.slot) 1) (List.replicate 4096 0)]) ∧
    (∀ (r : SurveyRun) (s : State), Live s → s.survey.run = some r → s.survey.frozen = true → r.since + surveyFreezeMaxUsVal s * 1000 ≤ now s →
      qpReady s 0 = true →
      ∃ t, exec .surveyFreezeTimeout s = .next t ∧ t.survey.run = none ∧ t.survey.frozen = false ∧ t.sessions = s.sessions ∧
        (r.record.kind = 1 → t.survey.baseSeq = 0) ∧ t.out = s.out ++ [ended r .surveyFreezeTimeout 0]) ∧
    (∀ (m : Msg) (s : State), Serves .mailbox m { s with survey.frozen := false } → m.ops.length = 0 →
      (s.survey.run = none → Does (.surveyAbort m) s s [answer m .ok]) ∧
      (∀ r, s.survey.run = some r → r.stage = .commit ∨ r.stage = .draining → Does (.surveyAbort m) s s [answer m .surveyCommitted]) ∧
      (∀ r, s.survey.run = some r → r.stage ≠ .commit → r.stage ≠ .draining →
        ∃ t, exec (.surveyAbort m) s = .next t ∧ t.survey.run = none ∧ t.survey.frozen = false ∧ t.sessions = s.sessions ∧
          t.out = s.out ++ [answer m .ok, ended r .surveyAborted 0])) ∧
    (∀ (m : Msg) (r : SurveyRun) (s : State), Serves .mailbox m { s with survey.frozen := false } → m.ops.length = 2 → s.survey.run = some r → r.record.seq = opNat m 0 → r.qp ≠ 0 →
      (opWord m 1 = allOnes → r.stage = .draining →
        ∃ t, exec (.surveyDrained m) s = .next t ∧ t.survey.run = none ∧ (r.record.kind = 1 → t.survey.baseSeq = r.record.seq) ∧
          t.out = s.out ++ [answer m .ok, ended r .ok 1]) ∧
      (opWord m 1 ≠ allOnes →
        DoesThen (.surveyDrained m) advanceSurvey s { s with survey.confirmed := max s.survey.confirmed (opNat m 1) } [answer m .ok]))) ∧
  (
    let asked (op : NvOp) (s : State) : Survey := { s.survey with
      doing := some (op, s.survey.nextId, now s + nvTimeoutMsVal s * 1000000), nextId := s.survey.nextId + 1 }
    (∀ (m : Msg) (s : State), Serves .mailbox m s → m.ops.length = 0 →
      (surveyBusy s = false → nvAbsent s = false →
        let v : Survey := { asked (.format 4) s with labelled := false, records := [], slotRefs := [], poolRefs := [], format := some m }
        Does (.nvFormat m) s { s with survey := v }
          [.nvme (nvmeEntry s.survey.nextId 1 false 0 ((labelBytes s.survey.lbas).length / 4096)) (labelBytes s.survey.lbas)]) ∧
      (surveyBusy s = true → Does (.nvFormat m) s s [answer m .surveyBusy]) ∧
      (surveyBusy s = false → nvAbsent s = true → Does (.nvFormat m) s s [answer m .nvAbsent])) ∧
    (∀ (lbas : Nat) (s : State), s.power.phase = .running → s.survey.up = false →
      (62500000 ≤ lbas →
        let v : Survey := { asked .label s with up := true, lbas, labelled := false, records := [] }
        Does (.nvLinkUp lbas) s { s with survey := v } [.nvme (nvmeEntry s.survey.nextId 2 false 0 1) []]) ∧
      (lbas < 62500000 →
        let v : Survey := { s.survey with up := true, lbas, labelled := false, records := [], doing := none }
        Does (.nvLinkUp lbas) s { s with survey := v } [])) ∧
    (∀ s : State, Does .nvLinkDown s { s with survey.up := false, survey.lbas := 0, survey.broken := s.survey.run.isSome } []) ∧
    (∀ (d : NvDone) (op : NvOp) (id due : Nat) (s : State), Live s → s.survey.doing = some (op, id, due) →
      (id ≠ d.id → Does (.nvCommandDone d) s s []) ∧
      (id = d.id → d.ok = true →
        (op = .label → labelOk s.survey.lbas d.data = true →
          let v : Survey := { asked (.record 0) s with labelled := true }
          Does (.nvCommandDone d) s { s with survey := v } [.nvme (nvmeEntry s.survey.nextId 2 false (slotLba s.survey.lbas 0) 1) []]) ∧
        (op = .label → labelOk s.survey.lbas d.data = false → Does (.nvCommandDone d) s { s with survey.doing := none } []) ∧
        (∀ c, op = .record 1 → parseRecord 1 d.data = some c →
          Does (.nvCommandDone d) s { s with survey.doing := none, survey.records := Tab.put s.survey.records 1 c } []) ∧
        (∀ r off data, op = .survey → s.survey.run = some r → r.rest = some (off, data) →
          let n := logBytes s.survey.lbas
          let k := min (n - off % n) (65536 * 4096)
          let v : Survey := { asked .survey s with run := some { r with rest := if data.length ≤ k then none else some (off + k, data.drop k) } }
          Does (.nvCommandDone d) s { s with survey := v }
            [.nvme (nvmeEntry s.survey.nextId 1 false (logLba s.survey.lbas r.record.slot off) ((data.take k).length / 4096)) (data.take k)]) ∧
        (∀ r, op = .survey → s.survey.run = some r → r.rest = none → r.stage = .zeroing →
          DoesThen (.nvCommandDone d) advanceSurvey s
            { s with
              survey.doing := none, survey.records := Tab.drop s.survey.records r.record.slot, survey.run := some { r with stage := .shards } } []) ∧
        (∀ r, op = .survey → s.survey.run = some r → r.rest = none → r.stage = .flush →
          let v : Survey := { asked .survey s with run := some { r with stage := .commit } }
          Does (.nvCommandDone d) s { s with survey := v }
            [.nvme (nvmeEntry s.survey.nextId 1 true (slotLba s.survey.lbas r.record.slot) ((recordBytes r.record).length / 4096)) (recordBytes r.record)]) ∧
        (∀ r, op = .survey → s.survey.run = some r → r.rest = none → r.stage = .commit → r.qp = 0 → qpReady s 0 = true →
          ∃ t, exec (.nvCommandDone d) s = .next t ∧ t.survey.run = none ∧ Tab.find t.survey.records r.record.slot = some r.record ∧
            t.out = s.out ++ [.msg { qp := 0, opcode := 0xF00B, tag := r.tag, ops := [word r.record.seq] }])) ∧
      (∀ r, op = .survey → due ≤ now s → s.survey.run = some r → qpReady s 0 = true →
        ∃ t, exec .nvTimeout s = .next t ∧ t.survey.run = none ∧ t.survey.doing = none ∧
          t.out = s.out ++ [.msg { qp := 0, opcode := 0xF00B, status := Status.surveyNvError.code, tag := r.tag, ops := [word r.record.seq] }]) ∧
      (now s < due → Does .nvTimeout s s [])))

/-- Restores (R534, R535, R537): taken in Setup with no session there, from the NV module or from the host's shards; afterwards each step held waits
for its queue pair, and is told to go on or restarts. -/
def Obligations.RestoresGatherAndResume : Prop :=
  (∀ (m : Msg) (s : State), Serves .mailbox m s → m.ops.length = 1 → opNat m 0 ≤ 1 → 64 ≤ m.body.length →
    (m.body.take 64).any (fun b => 63 < b.toNat && b.toNat ≠ 0xFF) = false →
    let free := s.sessions.any (fun e => e.2.entry.state != .free) = false
    let r : RestoreRun := { msg := m, source := opNat m 0, map := (m.body.take 64).map (·.toNat) }
    (surveyBusy s = true → Does (.restore m) s s [answer m .surveyBusy]) ∧
    (surveyBusy s = false → s.mode ≠ .setup ∨ ¬ free → Does (.restore m) s s [answer m .restoreState]) ∧
    (surveyBusy s = false → s.mode = .setup → free → opNat m 0 = 1 →
      Does (.restore m) s { s with survey.restore := some { r with want := [.record 0 none], asked := some (0, allOnes.toNat) } }
        [.msg { qp := 0, opcode := 0xF00A, tag := m.tag, ops := [0, allOnes, 4096] }]) ∧
    (surveyBusy s = false → s.mode = .setup → free → opNat m 0 = 0 → newestRecord s = none → Does (.restore m) s s [answer m .surveyNone]) ∧
    (∀ c, surveyBusy s = false → s.mode = .setup → free → opNat m 0 = 0 → newestRecord s = some c →
      Tab.find s.survey.records c.slot = some c → s.survey.up = true → c.heldFrom ≤ c.manifest →
      ∃ t q, exec (.restore m) s = .next t ∧ t.survey.restore = some q ∧ q.msg = m ∧ q.chosen = some c.seq ∧ q.want = [.manifest c none] ∧
        t.out = s.out ++ [.nvme (nvmeEntry s.survey.nextId 2 false (logLba s.survey.lbas c.slot c.manifest) (ceilDiv (readEnd s c c.manifest (c.manifest + c.manifestBytes) - c.manifest) 4096)) []])) ∧
  (∀ (m : Msg) (shards : Tab Shard) (s : State), Serves .mailbox m s → m.ops.length = 2 →
    (∀ r, s.survey.restore = some r → r.asked = some (opNat m 0, opNat m 1) →
      DoesThen (.shardSupply m shards) (pieceCame m.body shards) s s [answer m .ok]) ∧
    (s.survey.restore = none → Does (.shardSupply m shards) s s [answer m .ok])) ∧
  (∀ (m : Msg) (s : State), Serves .mailbox m s → m.ops.length = 1 →
    let l := (s.survey.restored.drop (opNat m 0)).take 512
    Does (.restoreStatus m) s s
      [.msg (response m { body := wordsBytes (word l.length :: (l.map (fun e => [e.1, e.2.1, word e.2.2.toNat])).flatten) })]) ∧
  (∀ (i : Nat) (st : Step) (s : State), Grants s → (sessAt s i).step = some st → st.phase = .held →
    (qpReady s st.qp = true → st.heldPhase ≠ .merging →
      let y : Session := { sessAt s i with step := some { st with phase := st.heldPhase } }
      Does (.stepResumed i) s
        (touchJobs { s with sessions := Tab.put s.sessions i y, survey.merges := Tab.drop s.survey.merges i })
        [.msg
          { qp := st.qp, opcode := 0xF00C, tag := st.tag, handle := (sessAt s i).record.handle
            ops := [word (sessAt s i).record.stepSeq, word st.layer] }]) ∧
    (qpReady s st.qp = false → Does (.stepResumed i) s s []) ∧
    (qpReady s st.qp = false → st.resumeBy ≤ now s → (sessAt s i).entry.cancelPending = false → (sessAt s i).entry.waitPending = false →
      ∃ t, exec (.resumeHoldTimeout i) s = .next t ∧ Only i s t ∧ (sessAt t i).entry = { (sessAt s i).entry with state := .ready } ∧
        (sessAt t i).record.length = (sessAt s i).record.length ∧ (sessAt t i).record.stepSeq = (sessAt s i).record.stepSeq) ∧
    (now s < st.resumeBy → Does (.resumeHoldTimeout i) s s []))

/-- Contexts and keys (R551, R552, R555, R558 to R561, R580): created OPEN or PENDING, destroyed once nothing belongs to them, attested under a nonce,
and keyed by a delivery that names that nonce; before the engine is ready each of these answers `SECURITY_NOT_READY`. Teardown (R265, R267, R556), by
CONTEXT_TEARDOWN or by an error in a key slot: the context is torn down, its sessions are FAULTED, its queue pairs are in ERROR, and the alert is
raised. -/
def Obligations.ContextsLiveAndAreTornDown : Prop :=
  (
    ∀ (m : Msg) (s : State), Serves .mailbox m { s with survey.frozen := false } →
    let c := opNat m 0
    let x := ctxAt s c
    (s.sec.state = .notReady → m.ops.length = 1 → Does (.contextDestroy m) s s [answer m .securityNotReady] ∧
      (32 ≤ m.body.length → Does (.attest m) s s [answer m .securityNotReady]) ∧
      (416 ≤ m.body.length → Does (.keyDeliver m) s s [answer m .securityNotReady])) ∧
    (s.sec.state ≠ .notReady → contextHeld s c = false →
      (m.ops.length = 3 →
        (c ≤ 4095 → opNat m 1 ≤ 63 → opNat m 2 ≤ 1 → (opNat m 2 = 1 → c ≠ 0) → x.tornDown = false →
          (x.mode = .none → opNat m 2 = 0 →
            Does (.contextCreate m) s { s with contexts := Tab.put s.contexts c { x with mode := .open_, partition := opNat m 1 } } [answer m .ok]) ∧
          (x.mode = .none → opNat m 2 = 1 → s.sec.state ≠ .identityUnavailable → debugOn s = false → scanOn s = false →
            Does (.contextCreate m) s { s with contexts := Tab.put s.contexts c { x with mode := .pending, partition := opNat m 1 } } [answer m .ok]) ∧
          (x.mode = .none → opNat m 2 = 1 → s.sec.state ≠ .identityUnavailable → debugOn s = true →
            Does (.contextCreate m) s s [answer m .debugActive]) ∧
          (x.mode ≠ .none → Does (.contextCreate m) s s [answer m .contextExists])) ∧
        (4095 < c ∨ 63 < opNat m 1 ∨ 1 < opNat m 2 ∨ opNat m 2 = 1 ∧ c = 0 → Does (.contextCreate m) s s [answer m .contextInvalid])) ∧
      (m.ops.length = 1 → c ≤ 4095 → x.mode ≠ .none →
        (contextBusy s c = false → Does (.contextDestroy m) s { s with contexts := Tab.drop s.contexts c } [answer m .ok]) ∧
        (contextBusy s c = true → Does (.contextDestroy m) s s [answer m .contextBusy])) ∧
      (m.ops.length = 1 → 32 ≤ m.body.length → s.sec.state ≠ .identityUnavailable → c ≤ 4095 →
        let nonce := slice m.body 0 32
        let body := reportBody s c nonce
        Does (.attest m) s { s with contexts := Tab.put s.contexts c { x with nonce := some nonce } }
          [.msg (response m
            { body := body ++ slice (Config.pssSign 1 s.draws body) 0 384 ++ slice s.sec.cert 0 1216 ++ slice identityRecord 0 896 })]) ∧
      (m.ops.length = 1 → 416 ≤ m.body.length → x.tornDown = false →
        let nonce := slice m.body 0 32
        (x.mode = .open_ → Does (.keyDeliver m) s s [answer m .contextNotConf]) ∧
        (x.mode = .confidential → Does (.keyDeliver m) s s [answer m .keyPresent]) ∧
        (x.mode = .pending → x.nonce ≠ some nonce → Does (.keyDeliver m) s s [answer m .keyNonce]) ∧
        (x.mode = .pending → x.nonce = some nonce →
          match keyBlock s c nonce (slice m.body 32 384) with
          | none => Does (.keyDeliver m) s s [answer m .keyInvalid]
          | some b =>
            let check := wordAt (sha256 (slice b 8 128)) 0
            let y : Context := { x with
              mode := .confidential, nonce := none, kx := slice b 8 64, kl := slice b 72 32, ks := slice b 104 32, keyCheck := check }
            Does (.keyDeliver m) s { s with contexts := Tab.put s.contexts c y } [.msg (response m { args := check })])))) ∧
  (
    let torn (c : Nat) (s t : State) : Prop :=
      (ctxAt t c).tornDown = true ∧ t.lastTeardown = c ∧ t.csr.alert.getLsbD (alertBit .teardown) = true ∧ s.out <+: t.out ∧
      (∀ i, (sessAt s i).record.context = c → (sessAt s i).entry.state ≠ .free → (sessAt s i).entry.state ≠ .tombstone →
        (sessAt t i).entry.state = .faulted) ∧
      (∀ n, (qpAt s n).created = true → (qpAt s n).bound = true → (qpAt s n).context = c → (qpAt t n).state = .error)
    (∀ (m : Msg) (s : State), Serves .mailbox m s → s.sec.state ≠ .notReady → m.ops.length = 1 → opNat m 0 ≤ 4095 →
      let c := opNat m 0
      ((ctxAt s c).mode ≠ .none → (ctxAt s c).tornDown = false → (qpAt s 0).bound = false →
        ∃ t r, exec (.contextTeardown m) s = .next t ∧ torn c s t ∧ t.out = s.out ++ r ++ [answer m .ok]) ∧
      ((ctxAt s c).mode ≠ .none → (ctxAt s c).tornDown = true → Does (.contextTeardown m) s s [answer m .ok]) ∧
      ((ctxAt s c).mode = .none → Does (.contextTeardown m) s s [answer m (noContext c)])) ∧
    (∀ (c : Nat) (s : State), Live s →
      ((ctxAt s c).mode = .confidential → (ctxAt s c).tornDown = false → ∃ t, exec (.keySlotError c) s = .next t ∧ torn c s t) ∧
      ((ctxAt s c).mode ≠ .confidential → Does (.keySlotError c) s s [])))

/-- Firmware (R545, R547 to R550): a piece goes into a slot that does not run, a committed image that does not pass leaves the slot empty, and the
anti-rollback counter rises to the running image's version and never falls; and the engine becomes ready with keys of its own (R542, R543). -/
def Obligations.FirmwareIsCheckedAndCounted : Prop :=
  (∀ (m : Msg) (s : State), Serves .mailbox m { s with survey.frozen := false, sec.state := .ready } → m.ops.length = 3 →
    opNat m 0 ≤ 1 → opNat m 1 + m.body.length ≤ 29360128 →
    let k := opNat m 0
    let l := placeBytes (fwSlot s k) (opNat m 1) m.body
    (s.sec.running = some k → Does (.fwUpdate m) s s [answer m .fwSlotRunning]) ∧
    (s.sec.running ≠ some k →
      if bit (opWord m 2) 0 = false ∨ fwPasses s l = true then
        Does (.fwUpdate m) s { s with sec.slots := Tab.put s.sec.slots k l } [answer m .ok]
      else Does (.fwUpdate m) s { s with sec.slots := Tab.put s.sec.slots k [] } [answer m .fwInvalid])) ∧
  (∀ (m : Msg) (s : State), Serves .mailbox m { s with survey.frozen := false } → m.ops.length = 0 →
    let v := fwVersion (fwRunning s)
    Does (.fwCommitVersion m) s
      (if rollback s < v then { s with sec.rollback := some v, sec.rpWrites := s.sec.rpWrites + 1 } else s) [answer m .ok]) ∧
  (∀ s : State, Live s →
    (s.sec.state ≠ .notReady → Does .securityReady s s []) ∧
    (s.sec.state = .notReady →
      let sign := slice (Config.freeBytes s.draws) 0 384
      let wrap := slice (Config.freeBytes (s.draws + 1)) 0 384
      let body := certBody s sign wrap
      let v : Sec := { s.sec with
        state := .ready, akSign := sign, akWrap := wrap, kr := slice (Config.freeBytes (s.draws + 2)) 0 64
        cert := body ++ slice (Config.pssSign 0 (s.draws + 3) body) 0 384 }
      if identitySigned && Config.dikUnwraps s.draws then Does .securityReady s { s with sec := v } []
      else Does .securityReady s { s with sec.state := .identityUnavailable } []))

/-- Dictionary items (R462, R585, R588 to R593, R597, R601 to R603, R607): a READ and a DESCRIBE change nothing and return what the entry holds or is;
a WRITE sets the effective value and returns it, or is refused with the entry's current value; one of `ROUTE_OVERRIDE` also ends the steps of ring
homes that need a member whose way it cuts (R462). A setting without a rule of its own holds its effective value (R591, R592): the value that a later
read returns. -/
def Obligations.ItemsAreReadWrittenAndReadBack : Prop :=
  (
    ∀ (p : DictPath) (i : DictItem) (s : State), ItemTaken p s → ItemFits i →
    let w : DictItem := { i with op := 2 }
    DoesItem (.dictReadItem p i) p { i with op := 1 } (.ok, readValue s i) id anything s ∧
    DoesItem (.dictDescribeItem p i) p { i with op := 3 } (.ok, describeValue s i) id anything s ∧
    (rowAt i.index i.sub = none → DoesItem (.dictWriteItem p i) p w (.ok, List.replicate (if i.length = 0 then 8 else i.length) 0) id anything s) ∧
    (∀ r, rowAt i.index i.sub = some r →
      let cur := itemBytes s r i.index i.sub
      let n := typeSize r.type
      let x := numAt i.value 0 n
      let v := if r.enum then (if r.lo ≤ x ∧ x ≤ upperBound s r i.sub then x else defaultOf r i.index i.sub) else min (max x r.lo) (upperBound s r i.sub)
      (r.access = .ro ∨ r.access = .const → DoesItem (.dictWriteItem p i) p w (.dictReadOnly, cur) id anything s) ∧
      (r.access = .rws → s.mode = .run → DoesItem (.dictWriteItem p i) p w (.dictSetupOnly, cur) id anything s) ∧
      (r.access = .rw ∨ r.access = .rws ∧ s.mode = .setup ∨ r.access = .wo →
        i.length ≠ n ∨ isNumeric r.type = false ∧ i.offset ≠ 0 → DoesItem (.dictWriteItem p i) p w (.dictType, cur) id anything s) ∧
      (r.access = .rw ∨ r.access = .rws ∧ s.mode = .setup → isNumeric r.type = true → i.length = n → i.index ≠ 0x2091 → i.index ≠ 0x2081 →
        DoesItem (.dictWriteItem p i) p w (.ok, leBytes n (writeSetting i.index i.sub v s).1)
          (fun u => (writeSetting i.index i.sub v u).2) anything s) ∧
      (i.index = 0x2081 → i.length = 1 → ∃ t q, exec (.dictWriteItem p i) s = .next t ∧ rwVal t 0x2081 i.sub 0 = v ∧
        t.out = s.out ++ q ++ [itemReply p w (.ok, leBytes 1 v) s s] ∧
        ∀ k st, (sessAt s k).step = some st → (sessAt s k).ringHome = none → (stepNeeds s k st).any (nodeLost (setEntry 0x2081 i.sub v s)) = true →
          (sessAt t k).step = none))) ∧
  (
    ∀ (p q : DictPath) (i j : DictItem) (r : EntryRow) (s : State), ItemTaken p s → ItemFits i → ItemFits j →
    rowAt i.index i.sub = some r → r.access = .rw ∨ r.access = .rws ∧ s.mode = .setup → isNumeric r.type = true → i.length = typeSize r.type →
    i.index ≠ 0x2091 → i.index ≠ 0x2081 → j.index = i.index → j.sub = i.sub →
    ∃ t v, exec (.dictWriteItem p i) s = .next t ∧ (ItemTaken q t →
      DoesItem (.dictReadItem q j) q { j with op := 1 } (.ok, v) id anything t) ∧
      t.out = s.out ++ [itemReply p { i with op := 2 } (.ok, v) s t])

/-- `MODE_REQUEST` (R594 to R596, R598): Setup and Run, and a warm start, which is answered first. -/
def Obligations.TheModuleChangesState : Prop :=
  ∀ (p : DictPath) (s : State), ItemTaken p s →
  let i (v : Nat) : DictItem := { index := 0x2000, sub := 1, op := 2, length := 1, value := leBytes 1 v }
  (s.mode = .setup → ∃ t, exec (.modeRun p) s = .next t ∧ t.mode = .run ∧ t.dict.run = s.dict.vals ∧ t.dict.vals = s.dict.vals ∧
    (∀ k, k < 5 → portUsed t k = false ∨ portEnableVal t k ≠ 1 → (portAt t k).state = .down) ∧
    (s.time.everValid = true → peerTopologyVal t ≠ 0 → ∀ n, 257 ≤ n → n ≤ 384 → (qpAt t n).state ≠ .reset) ∧ s.out <+: t.out) ∧
  (s.mode = .run → DoesItem (.modeRun p) p (i 1) (.ok, [1]) id anything s) ∧
  (s.mode = .setup → DoesItem (.modeSetup p) p (i 2) (.ok, [2]) id anything s) ∧
  (s.mode = .run → mayLeaveRun s = true → DoesItem (.modeSetup p) p (i 2) (.ok, [2]) (fun u => { u with mode := .setup }) anything s) ∧
  (s.mode = .run → mayLeaveRun s = false → DoesItem (.modeSetup p) p (i 2) (.moduleBusy, [2]) id anything s) ∧
  (s.mode = .run → DoesItem (.warmStart p) p (i 3) (.dictSetupOnly, [3]) id anything s) ∧
  (s.mode = .setup → ∃ t, exec (.warmStart p) s = .next t ∧ t.out = s.out ++ [itemReply p (i 3) (.ok, [3]) s s] ∧
    t.power.phase = .starting ∧ t.power.resetCause = 4 ∧ t.power.startedAt = s.time.now ∧ t.dict.vals = s.dict.vals ∧
    t.dict.run = s.dict.run ∧ t.dict.warmStarts = s.dict.warmStarts + 1 ∧ t.mgmt.key = s.mgmt.key ∧
    t.sessions = [] ∧ t.frames = [] ∧ t.hbm = [] ∧ t.contexts = [] ∧ t.regions = [] ∧ t.qps = [] ∧ t.dict.counters = [])

/-- `CLEAR_COUNTERS` (R625), `MGMT_KEY` (R616, R620) and `DEBUG_ENABLE` (R580). Traffic settings (R488, R491, R499): each holds its value within its
range; a shaper's bucket starts full at its next evaluation, and a meter's are filled; a peak rate other than 0 is no lower than the committed rate.
Gate lists (R492, R493, R495): a commit copies the administrative list into a pending one, replacing an earlier one, and `GATE_ENABLE` 0 discards it
and keeps the list in operation. The sampler's settings (R503, R505, R506): enabled only over a registered range with no allocated slot; the host's
position never passes the module's. -/
def Obligations.SettingsTakeEffect : Prop :=
  (
    ∀ (p : DictPath) (s : State), ItemTaken p s →
    (∀ v, v < 256 →
      let i : DictItem := { index := 0x2000, sub := 2, op := 2, length := 1, value := leBytes 1 v }
      DoesItem (.clearCounters p v) p i (.ok, leBytes 1 (if v = 1 then 1 else 0)) id
        (fun t => v = 1 → Tab.get t.dict.counters ctrDictWrites 0 = 1 ∧ Tab.get t.dict.counters ctrDictClamps 0 = 0) s) ∧
    (∀ key : List Byte, key.length = 32 →
      let i : DictItem := { index := 0x6010, sub := 1, op := 2, length := 32, value := key }
      DoesItem (.mgmtKey p key) p i (.ok, List.replicate 32 0)
        (fun u => { u with mgmt.key := key, mgmt.epoch := Config.freeWord s.draws, mgmt.lastSeq := [] }) anything s) ∧
    (∀ v, v < 256 →
      let i : DictItem := { index := 0x6000, sub := 1, op := 2, length := 1, value := leBytes 1 v }
      let w := if v = 1 ∧ confLive s = 0 then 1 else 0
      (s.mode = .setup → DoesItem (.debugEnable p v) p i (.ok, leBytes 1 w) (setEntry 0x6000 1 w) anything s) ∧
      (s.mode = .run → DoesItem (.debugEnable p v) p i (.dictSetupOnly, leBytes 1 (rwVal s 0x6000 1 0)) id anything s))) ∧
  (
    ∀ (p : DictPath) (k c v : Nat) (s : State), ItemTaken p s → k ≤ 4 → c ≤ 7 →
    let refilled (t : State) : Prop := (Tab.get (portAt t k).meters c {}).refill = true
    let num (index n : Nat) : DictItem := { index, sub := c + 1, op := 2, length := n, value := leBytes n v }
    let rate := min v 400000
    let burst := min (max v 4192) 16777216
    (v < 256 → DoesItem (.tcWeight p k c v) p (num (0x4001 + 0x10 * k) 1) (.ok, leBytes 1 v) (setEntry (0x4001 + 0x10 * k) (c + 1) v) anything s) ∧
    (v < 2 ^ 32 →
      DoesItem (.shapeRateMbps p k c false v) p (num (0x4002 + 0x10 * k) 4) (.ok, leBytes 4 rate) (setEntry (0x4002 + 0x10 * k) (c + 1) rate)
        (fun t => (classAt (portAt t k) c).refill = true) s ∧
      DoesItem (.shapeRateMbps p k c true v) p (num (0x4003 + 0x10 * k) 4) (.ok, leBytes 4 burst) (setEntry (0x4003 + 0x10 * k) (c + 1) burst)
        (fun t => (classAt (portAt t k) c).refill = true) s ∧
      DoesItem (.meterCirMbps p k c 0 v) p (num (0x4005 + 0x10 * k) 4) (.ok, leBytes 4 rate)
        (fun u =>
          let u := setEntry (0x4005 + 0x10 * k) (c + 1) rate u
          if meterPirMbpsVal s k c ≠ 0 ∧ meterPirMbpsVal s k c < rate then setEntry (0x4007 + 0x10 * k) (c + 1) rate u else u) refilled s ∧
      DoesItem (.meterCirMbps p k c 1 v) p (num (0x4006 + 0x10 * k) 4) (.ok, leBytes 4 burst) (setEntry (0x4006 + 0x10 * k) (c + 1) burst) refilled s ∧
      DoesItem (.meterCirMbps p k c 3 v) p (num (0x4008 + 0x10 * k) 4) (.ok, leBytes 4 burst) (setEntry (0x4008 + 0x10 * k) (c + 1) burst) refilled s ∧
      let peak := if rate = 0 then 0 else max rate (meterCirMbpsVal s k c)
      DoesItem (.meterCirMbps p k c 2 v) p (num (0x4007 + 0x10 * k) 4) (.ok, leBytes 4 peak) (setEntry (0x4007 + 0x10 * k) (c + 1) peak) refilled s)) ∧
  (
    ∀ (p : DictPath) (k v : Nat) (s : State), ItemTaken p s → k ≤ 4 → v < 256 →
    let item (sub : Nat) : DictItem := { index := 0x4004 + 0x10 * k, sub, op := 2, length := 1, value := leBytes 1 v }
    let l : GateList := {
      entries := (List.range (gateCountVal s k)).map (fun c => (gateEntryVal s k c / 2 ^ 48 % 256, gateEntryVal s k c % 2 ^ 32))
      base := gateBaseNsVal s k, cycle := gateCycleNsVal s k, change := gateChangeNsVal s k }
    let w := if v = 1 then 1 else 0
    DoesItem (.gateCommit p k v) p (item 7) (.ok, leBytes 1 w) id (fun t =>
      (portAt t k).running = (portAt s k).running ∧
      (v = 1 → ∃ at_, (portAt t k).coming = some (l, at_) ∧ (0 < l.cycle →
        l.base ≤ at_ ∧ l.change ≤ at_ ∧ s.time.now ≤ at_ ∧ (at_ - l.base) % l.cycle = 0 ∧
        at_ < max l.base (max l.change s.time.now) + l.cycle)) ∧
      (v ≠ 1 → (portAt t k).coming = (portAt s k).coming)) s ∧
    DoesItem (.gateEnable p k v) p (item 2) (.ok, leBytes 1 w) (setEntry (0x4004 + 0x10 * k) 2 w) (fun t =>
      (portAt t k).running = (portAt s k).running ∧ (v = 1 → (portAt t k).coming = (portAt s k).coming) ∧
      (v ≠ 1 → (portAt t k).coming = none ∧ gateMask t k t.time.now = 0xFF)) s) ∧
  (
    ∀ (p : DictPath) (v : Nat) (s : State), ItemTaken p s →
    let item (sub n : Nat) : DictItem := { index := 0x2091, sub, op := 2, length := n, value := leBytes n v }
    (v < 2 ^ 64 → DoesItem (.sampleRd p v) p (item 6 8) (.ok, leBytes 8 (min v s.sampler.wr)) (setEntry 0x2091 6 (min v s.sampler.wr)) anything s) ∧
    (v = 1 → s.sampler.range = none → rangeIdle s (sampleRangeVal s) = true →
      DoesItem (.sampleEnable p v) p (item 1 1) (.ok, [1])
        (fun u => setEntry 0x2091 1 1 { u with sampler.range := some (sampleRangeVal s) }) anything s) ∧
    (v = 1 → s.sampler.range = none → rangeIdle s (sampleRangeVal s) = false →
      DoesItem (.sampleEnable p v) p (item 1 1) (.ok, [0]) (setEntry 0x2091 1 0) anything s) ∧
    (v = 1 → s.sampler.range.isSome = true → DoesItem (.sampleEnable p v) p (item 1 1) (.ok, [1]) (setEntry 0x2091 1 1) anything s) ∧
    (v < 256 → v ≠ 1 → ∃ t r, exec (.sampleEnable p v) s = .next t ∧ t.sampler.range = none ∧ t.sampler.tile = [] ∧ sampleEnableVal t = 0 ∧
      t.out = s.out ++ r ∧ (s.sampler.tile = [] → r = [itemReply p (item 1 1) (.ok, [0]) s s])))

/-- What the management port does with a frame (R614 to R619): one that is not accepted is dropped, one whose tag does not verify changes nothing, a
hello is answered with the epoch and the station's last number, and one of a past epoch or number applies nothing. Requests taken whole on the mailbox
(R603 to R605, R611): malformed, too large, or its items applied in order, here of READ items. -/
def Obligations.DictionaryRequestsAreTakenWholeAndOnce : Prop :=
  (
    ∀ (f : List Byte) (s : State), stationServes s = true →
    let b := ((f.take (f.length - 4)).drop 14).take (f.length - 4 - 14 - 32)
    let tag := ((f.take (f.length - 4)).drop 14).drop (f.length - 4 - 14 - 32)
    let h := readHeader b
    let reply (p : List Byte) : Sent := .frame (managementFrame (slice f 6 6) (p ++ hmac s.mgmt.key p))
    let last := Tab.get s.mgmt.lastSeq h.station 0
    let bad := frameAccepted f = false ∨ keyUnset s = true ∨ hmac s.mgmt.key b ≠ tag
    (bad → Does (.mgmtHello f) s s [] ∧ Does (.dictAccess (.frame f)) s s []) ∧
    (¬ bad → (readPdu b).2 = some [] → h.count = 0 →
      Does (.mgmtHello f) s s [reply (answerPdu h last s.mgmt.epoch.toNat (.ok, 0, []))]) ∧
    (¬ bad → (readPdu b).2 = none → h.count = 0 →
      Does (.mgmtHello f) s s [reply (answerPdu h h.seq s.mgmt.epoch.toNat (.dictMalformed, 0, []))]) ∧
    (¬ bad → 0 < h.count → h.epoch ≠ s.mgmt.epoch.toNat →
      Does (.dictAccess (.frame f)) s s [reply (answerPdu h h.seq s.mgmt.epoch.toNat (.mgmtEpochStale, 0, []))]) ∧
    (¬ bad → 0 < h.count → h.epoch = s.mgmt.epoch.toNat → h.seq ≤ last → Does (.dictAccess (.frame f)) s s [])) ∧
  (
    ∀ (m : Msg) (l : List DictItem) (s : State), Serves .mailbox m { s with survey.frozen := false } → s.power.warm = false → m.ops.length = 0 →
    32 ≤ m.body.length →
    let h := readHeader m.body
    let reply (st : Status) (a : Status × Nat × List Byte) : Sent :=
      .msg (response m { status := st, body := answerPdu { h with station := 0 } h.seq s.mgmt.epoch.toNat a })
    ((readPdu m.body).2 = none → Does (.dictAccess (.mailbox m)) s s [reply .dictMalformed (.dictMalformed, 0, [])]) ∧
    ((readPdu m.body).2 = some l → 65535 < (l.map (fun i => 16 + (answerSize i + 7) / 8 * 8)).sum →
      Does (.dictAccess (.mailbox m)) s s [reply .dictTooLarge (.dictTooLarge, 0, [])]) ∧
    ((readPdu m.body).2 = some l → (l.map (fun i => 16 + (answerSize i + 7) / 8 * 8)).sum ≤ 65535 → (∀ i ∈ l, i.op = 1) →
      (∀ i ∈ l, i.index < 0x5000 ∨ 0x6000 ≤ i.index) →
      Does (.dictAccess (.mailbox m)) s s
        [reply .ok (.ok, l.length, (l.map (fun i => answerItem i (.ok, readValue s i))).flatten)]))

/-- Access to the register window (R626 to R629): an offset that is no multiple of 4 and a range outside the window are refused, nothing is written.
Writes of one word (R630 to R634, R636, R640): what each register holds before the response is sent; `OVF_STATUS` and the others that are only read
keep their values, and `PMU_CLEAR` zeroes the counters alone. Reads of one word (R633, R634): `ALERT_STATUS` and `OVF_STATUS` are cleared by the read
that returns them, nothing else is. -/
def Obligations.TheWindowIsReadAndWritten : Prop :=
  (
    ∀ (c : Msg → Instr) (m : Msg) (s : State), c ∈ [Instr.csrWrite, .pmuClear, .counterValueWrite, .alertStatusRead, .ovfStatusRead] →
    Serves .mailbox m { s with survey.frozen := false } → m.ops.length = 3 → opNat m 2 = 0 ∨ opNat m 2 = 1 ∧ 4 * opNat m 1 ≤ m.body.length →
    (opNat m 0 % 4 ≠ 0 → exec (c m) s = .next (refuse m .csrAlign (takeMsg m s))) ∧
    (opNat m 0 % 4 = 0 → opNat m 1 = 0 ∨ 64 < opNat m 1 ∨ 0x400000 < opNat m 0 + 4 * opNat m 1 →
      exec (c m) s = .next (refuse m .csrRange (takeMsg m s)))) ∧
  (
    ∀ (m : Msg) (s : State), Serves .mailbox m { s with survey.frozen := false } → m.ops.length = 3 → opNat m 1 = 1 → opNat m 2 = 1 →
    4 ≤ m.body.length →
    let o := opNat m 0
    let w := BitVec.ofNat 32 (numAt m.body 0 4)
    let writes (c : Instr) (f : State → State) : Prop := exec c s = .next (refuse m .ok (f (takeMsg m s)))
    (o = 0x8 → writes (.csrWrite m) (fun u => { u with csr.scratch := w })) ∧
    (o = 0x10 → writes (.pmuClear m) (fun u => { u with
      csr.freeze := if w.getLsbD 16 then w.getLsbD 0 else s.csr.freeze
      csr.counters := if w.getLsbD 17 ∧ w.getLsbD 1 then [] else s.csr.counters })) ∧
    (∀ n, n < 1024 → o = 0x80000 + 4 * n → writes (.counterValueWrite m) (fun u => { u with csr.counters := Tab.put s.csr.counters n w })) ∧
    (∀ j, j < 32 → o = 0x10200 + 4 * j → writes (.csrWrite m) (fun u => { u with csr.ovfAlert := Tab.put s.csr.ovfAlert j w })) ∧
    (∀ n, n < 1024 → o = 0x90000 + 0x10000 * (n / 256) + 16 * (n % 256) →
      ∃ v : BitVec 32, (∀ b, b < 16 → v.getLsbD b = if w.getLsbD (b + 16) then w.getLsbD b else (cfgWord s n 0).getLsbD b) ∧
        writes (.csrWrite m) (fun u => { u with csr.cfg := Tab.put s.csr.cfg (4 * n) v })) ∧
    (∀ f k, 1 ≤ f → f < 16 → k < 4 → o = 0xD0000 + 16 * f + 4 * k →
      writes (.csrWrite m) (fun u => { u with csr.filters := Tab.put s.csr.filters (4 * f + k) w })) ∧
    (o = 0 ∨ o = 4 ∨ o = 0x10000 ∨ (∃ j, j < 32 ∧ o = 0x10100 + 4 * j) → writes (.csrWrite m) id)) ∧
  (
    ∀ (m : Msg) (s : State), Serves .mailbox m { s with survey.frozen := false } → m.ops.length = 3 → opNat m 1 = 1 → opNat m 2 = 0 →
    let o := opNat m 0
    let reads (c : Instr) (v : BitVec 32) (f : State → State) : Prop :=
      exec c s = .next (respond m { body := leBytes 4 v.toNat } (f (takeMsg m s)))
    (o = 0x10000 → reads (.alertStatusRead m) (s.csr.alert.setWidth 32) (fun u => { u with csr.alert := 0 })) ∧
    (∀ j, j < 32 → o = 0x10100 + 4 * j → reads (.ovfStatusRead m) (Tab.get s.csr.ovf j 0) (fun u => { u with csr.ovf := Tab.drop s.csr.ovf j })) ∧
    (o = 0x0 → reads (.csrWrite m) 0x47530960 id) ∧ (o = 0x4 → reads (.csrWrite m) 1 id) ∧ (o = 0x8 → reads (.csrWrite m) s.csr.scratch id) ∧
    (o = 0x10 → reads (.csrWrite m) (if s.csr.freeze then 1 else 0) id) ∧
    (∀ n, n < 1024 → o = 0x80000 + 4 * n → reads (.csrWrite m) (Tab.get s.csr.counters n 0) id) ∧
    (∀ n k, n < 1024 → k < 4 → o = 0x90000 + 0x10000 * (n / 256) + 16 * (n % 256) + 4 * k → reads (.csrWrite m) (cfgWord s n k) id))

/-- Frames are read whole (R118, R124, R140, R577): by their bytes, a record frame by its 256 records; an absent or retired frame not at all, nor one
that belongs to a live confidential context; and a read that meets an uncorrectable error, which is free (log entry 60), is an error of R382. -/
def Obligations.FramesAreReadWhole : Prop :=
  ∀ (m : Msg) (s : State), Serves .mailbox m { s with survey.frozen := false } → m.ops.length = 1 →
  let f := opNat m 0
  let x := frameAt s f
  let w := Config.freeWord s.draws
  let gives (l : List Byte) : Prop :=
    if bit w 0 then exec (.frameRead m) s = .next (refuse m .frameUnreadable (scrubError (hbmAddr f (bits w 31 16)) (draw (takeMsg m s)).2))
    else Does (.frameRead m) s s [.msg (response m { body := l })]
  (2 ^ 24 ≤ f → Does (.frameRead m) s s [answer m .messageMalformed]) ∧
  (f < 2 ^ 24 →
    (x.state = .absent ∨ x.state = .retired → Does (.frameRead m) s s [answer m .frameUnreadable]) ∧
    (x.state = .record → (∃ c y, (c, y) ∈ s.contexts ∧ liveConf s c = true) → Does (.frameRead m) s s [answer m .confDenied]) ∧
    (x.state ≠ .absent → x.state ≠ .retired → x.state ≠ .record → x.state ≠ .free → liveConf s x.context = true →
      Does (.frameRead m) s s [answer m .confDenied]) ∧
    (x.state = .record → (∀ c, liveConf s c = false) →
      ∃ l, gives l ∧ l.length = 65536 ∧
        ∀ k, k < 256 → slice l (256 * k) 256 = wordsBytes (recordWords (sessAt s (recordIndexAt (65536 * f + 256 * k))))) ∧
    (x.state ≠ .absent → x.state ≠ .retired → x.state ≠ .record → x.state ≠ .map → x.state ≠ .index →
      x.state = .free ∨ liveConf s x.context = false →
      gives (readBytes s (65536 * f) 65536)) ∧
    (x.state = .map ∨ x.state = .index → liveConf s x.context = false →
      gives (frameImage s f)))

/-- Supplies and reset (R645, R648, R651, R655, R656, R658, R671, R678): what starts the module, what stops it, and that all but the package's own
flash, pads and supplies is as after reset; a reset that meets another under way changes nothing (the model's choice, log entry 18). -/
def Obligations.SuppliesStartAndStopTheModule : Prop :=
  ∀ (mv : Nat) (s : State),
  let p := s.power
  let blank : State := { State.reset with
    pending := s.pending, out := s.out, draws := s.draws
    sec := { slots := s.sec.slots, running := none, rollback := s.sec.rollback, rpWrites := s.sec.rpWrites } }
  let up := p.phase = .running ∨ p.phase = .starting
  let goes (c : Instr) (e : State) (k : Power → Prop) : Prop := ∃ t, exec c s = .next t ∧ { t with power := p } = { e with power := p } ∧ k t.power
  let powered (c : Instr) : Prop := goes c blank (fun q => q.vinGood = true ∧ q.overvolt = false ∧ q.vioGood = p.vioGood ∧
    q.resetHigh = p.resetHigh ∧ (p.vioGood = true ∧ p.resetHigh = true → q.phase = .starting ∧ q.strap = p.strapPins ∧ q.resetCause = 0) ∧
    (¬ (p.vioGood = true ∧ p.resetHigh = true) → q.phase = .held))
  let same (c : Instr) : Prop := exec c s = .next s
  (if 36000 < mv ∧ p.vinGood = false ∧ p.overvolt = false then powered (.vinGood mv) else same (.vinGood mv)) ∧
  (if mv < 34000 ∧ (p.vinGood = true ∨ p.overvolt = true) then
      goes (.vinLoss mv) blank (fun q => q.phase = .off ∧ q.vinGood = false ∧ q.overvolt = false)
    else same (.vinLoss mv)) ∧
  (if 48000 < mv ∧ p.vinGood = true then goes (.vinOvervoltage mv) blank (fun q => q.phase = .off ∧ q.vinGood = false ∧ q.overvolt = true)
    else same (.vinOvervoltage mv)) ∧
  (if mv < 47000 ∧ p.overvolt = true then
      (if 34000 ≤ mv then powered (.vinOvervoltageEnd mv)
        else exec (.vinOvervoltageEnd mv) s = .next { s with power.overvolt := false })
    else same (.vinOvervoltageEnd mv)) ∧
  (if mv < 1550 ∧ p.vioGood = true then
      (up → goes (.vioLoss mv) blank (fun q => q.phase = .held ∧ q.nextCause = 2 ∧ q.vioGood = false)) ∧
      (¬ up → exec (.vioLoss mv) s = .next { s with power.vioGood := false })
    else same (.vioLoss mv)) ∧
  (1620 < mv → p.vioGood = false → p.vinGood = true → p.resetHigh = true → p.phase = .held →
    goes (.vioGood mv) blank (fun q => q.phase = .starting ∧ q.strap = p.strapPins ∧ q.resetCause = p.nextCause)) ∧
  (1620 < mv → p.vioGood = false → ¬ (p.vinGood = true ∧ p.resetHigh = true ∧ p.phase = .held) →
    exec (.vioGood mv) s = .next { s with power.vioGood := true }) ∧
  (mv ≤ 1620 ∨ p.vioGood = true → same (.vioGood mv)) ∧
  (p.resetHigh = true → (up → goes .resetAssert blank (fun q => q.phase = .held ∧ q.nextCause = 1 ∧ q.resetHigh = false)) ∧
    (¬ up → exec .resetAssert s = .next { s with power.resetHigh := false })) ∧
  (p.resetHigh = false → same .resetAssert ∧
    (p.vinGood = true → p.vioGood = true → p.phase = .held ∨ p.phase = .shutDown →
      goes .resetRelease blank (fun q => q.phase = .starting ∧ q.strap = p.strapPins ∧ q.resetCause = p.nextCause ∧ q.resetHigh = true)) ∧
    (¬ (p.vinGood = true ∧ p.vioGood = true ∧ (p.phase = .held ∨ p.phase = .shutDown)) →
      exec .resetRelease s = .next { s with power.resetHigh := true })) ∧
  (p.resetHigh = true → same .resetRelease) ∧
  (∀ (n : Nat) (x : Int), up → n < 17 → (if n < 9 then (115 : Int) else 105) ≤ x →
    goes (.thermalShutdown n x) blank (fun q => q.phase = .shutDown ∧ q.nextCause = 3)) ∧
  (∀ (n : Nat) (x : Int), x < (if n < 9 then (115 : Int) else 105) → same (.thermalShutdown n x))

/-- The end of start-up (R547, R548, R594, R616): the module is in Setup under a new epoch, which no station has used, and runs the passing image of
the higher version, or only its ROM; network time has not been set. -/
def Obligations.StartUpEndsInSetup : Prop :=
  ∀ s : State,
  (s.power.phase ≠ .starting → Does .startupComplete s s []) ∧
  (s.power.phase = .starting → ∃ t, exec .startupComplete s = .next t ∧ t.power.phase = .running ∧ t.mode = .setup ∧
    t.mgmt.epoch = Config.freeWord s.draws ∧ t.mgmt.lastSeq = [] ∧ t.mgmt.key = s.mgmt.key ∧ t.dict.vals = s.dict.vals ∧
    t.out = s.out ∧ t.sessions = s.sessions ∧ t.hbm = s.hbm ∧
    (∀ k, t.sec.running = some k → k ≤ 1 ∧ fwPasses s (fwSlot s k) = true ∧
      ∀ j, j ≤ 1 → fwPasses s (fwSlot s j) = true → fwVersion (fwSlot s j) ≤ fwVersion (fwSlot s k)) ∧
    (t.sec.running = none → fwPasses s (fwSlot s 0) = false ∧ fwPasses s (fwSlot s 1) = false ∧ t.sec.state = .recovery))

/-- Heat (R669, R670), the test access port (R578, R579, R581) and PLCA (R624): a sensor at its threshold begins a warning, all sensors 3 °C below end
it; scan is refused while a context is confidential. -/
def Obligations.HeatScanAndBeacons : Prop :=
  ∀ s : State,
  (∀ (n : Nat) (x : Int), s.power.phase = .running → n < 17 →
    let y : Int := if n < 9 then thermWarnMainCVal s else thermWarnStackCVal s
    (y ≤ x → Does (.thermWarn n x) s { s with pace.celsius := Tab.put s.pace.celsius n x, pace.warning := true } []) ∧
    (x < y → Does (.thermWarn n x) s s [])) ∧
  (∀ l : List Int, s.power.phase = .running → s.pace.warning = true → l.length = 17 →
    let low (k : Nat) : Prop := l.getD k 0 + 3 ≤ (if k < 9 then thermWarnMainCVal s else thermWarnStackCVal s)
    ((∀ k, k < 17 → low k) → ∃ t, exec (.thermWarnEnd l) s = .next t ∧ t.pace.warning = false ∧ t = { s with pace := t.pace } ∧
      ∀ k, k < 17 → Tab.get t.pace.celsius k 0 = l.getD k 0) ∧
    ((∃ k, k < 17 ∧ ¬ low k) → Does (.thermWarnEnd l) s s [])) ∧
  (∀ code : Byte, s.power.vinGood = true → s.power.vioGood = true →
    let n := code.toNat
    let open_ := confLive s = 0
    Does .testLogicReset s { s with power.tapIr := 0xFF } [] ∧
    (2 ≤ n ∧ n ≤ 5 → Does (.tapUpdateIr code) s { s with power.tapIr := if open_ then code else 0xFF } []) ∧
    (0x80 ≤ n ∧ n ≤ 0x8F →
      Does (.tapUpdateIr code) s { s with power.tapIr := if debugEnableVal s = 1 ∧ open_ then code else 0xFF } []) ∧
    (¬ (2 ≤ n ∧ n ≤ 5) → ¬ (0x80 ≤ n ∧ n ≤ 0x8F) → Does (.tapUpdateIr code) s { s with power.tapIr := 0xFF } [])) ∧
  (s.power.phase = .running →
    (plcaEnableVal s = 1 → Does .plcaBeacon s { s with mgmt.plca := 1 } [] ∧ Does .plcaBeaconLoss s { s with mgmt.plca := 2 } []) ∧
    (plcaEnableVal s ≠ 1 → Does .plcaBeacon s s [] ∧ Does .plcaBeaconLoss s s []))

/-- Ports come up state by state and go down (R395 to R403, R446, R448): training, lock, the host port's deskew of at most 50 ns, credits both ways; a
count of uncorrectable codewords in one millisecond above `FEC_DOWN_COUNT` takes a port down. A ring home's step that needs a member whose way is cut
ends (R462): here because a port went down. -/
def Obligations.PortsComeUpAndStepsOfLostMembersEnd : Prop :=
  (
    ∀ (k : Nat) (s : State),
    let p := portAt s k
    let stays (c : Instr) : Prop := exec c s = .next s
    let becomes (c : Instr) (q : Port) : Prop := exec c s = .next (setPort k q s)
    let credit : Port := { p with state := .credit, creditSent := false, creditGot := false, credits := (List.range 8).map (fun c => (c, { freed := if k = 0 then 128 else 32 })) }
    (portEnabled s k = true → p.state = .down → ∃ t, exec (.portSignalDetect k) s = .next t ∧
      portAt t k = { p with state := .train, since := s.time.now } ∧ (∀ j, j ≠ k → portAt t j = portAt s j) ∧ bare { t with pair := {} } = bare { s with pair := {} } ∧
      t.out = s.out ∧ t.pair = if partnerPort s = some k then { s.pair with lostAt := none } else s.pair) ∧
    (portEnabled s k = false ∨ p.state ≠ .down → stays (.portSignalDetect k)) ∧
    (if p.state = .train then becomes (.portTrainDone k) { p with state := .lock } else stays (.portTrainDone k)) ∧
    (if p.state = .lock then becomes (.portLock k) (if k = 0 then { p with state := .deskew } else credit) else stays (.portLock k)) ∧
    (∀ skew, k = 0 → if p.state = .deskew ∧ skew ≤ 50 then becomes (.lanesAligned skew) credit else stays (.lanesAligned skew)) ∧
    (if p.state = .credit ∧ p.creditSent = true ∧ p.creditGot = true then becomes (.portUp k) { p with state := .up } else stays (.portUp k)) ∧
    (if p.state = .down then stays (.portDown k)
      else ∃ t, exec (.portDown k) s = .next t ∧ (portAt t k).state = .down ∧ (portAt t k).since = s.time.now ∧ (portAt t k).credits = [] ∧ s.out <+: t.out ∧
        (k = 0 → bare { t with pair := {} } = bare { s with pair := {} } ∧ t.out = s.out)) ∧
    (∀ lane,
      let recent := (Tab.get p.badCodewords lane []).filter (fun t => s.time.now < t + 1000000) ++ [s.time.now]
      (p.state = .down → stays (.codewordUncorrectable k lane)) ∧
      (p.state ≠ .down → recent.length ≤ fecDownCountVal s k → ∃ t, exec (.codewordUncorrectable k lane) s = .next t ∧
        portAt t k = { p with badCodewords := Tab.put p.badCodewords lane recent } ∧ bare t = bare s ∧ t.out = s.out) ∧
      (p.state ≠ .down → fecDownCountVal s k < recent.length →
        ∃ t, exec (.codewordUncorrectable k lane) s = .next t ∧ (portAt t k).state = .down ∧ s.out <+: t.out))) ∧
  (
    ∀ (k i : Nat) (st : Step) (s : State), 1 ≤ k → (portAt s k).state ≠ .down → (sessAt s i).step = some st → (sessAt s i).ringHome = none →
    (stepNeeds s i st).any (nodeLost (setPort k { portAt s k with state := .down } s)) = true →
    ∃ t, exec (.portDown k) s = .next t ∧ (sessAt t i).step = none ∧ s.out <+: t.out)

/-- Credits (R402, R403): an arriving CREDIT block sets the limits of the eight classes, and a sent one tells what has been freed, now counting each
buffer that neither ingress nor a forwarded packet of that port holds; until start-up completes the host port's ingress frees none (R652). -/
def Obligations.CreditsAreExchanged : Prop :=
  ∀ (k : Nat) (s : State),
  let p := portAt s k
  (p.state = .credit ∨ p.state = .up →
    (∀ l : List Nat, ∃ t, exec (.creditRx k l) s = .next t ∧ bare t = bare s ∧ t.out = s.out ∧ (portAt t k).state = p.state ∧ (portAt t k).creditGot = true ∧
      ∀ c, c < 8 → creditAt (portAt t k) c = { creditAt p c with limit := l.getD c 0 % 65536 }) ∧
    (∃ t l, exec (.creditSend k) s = .next t ∧ bare t = bare s ∧ t.out = s.out ++ [.credit k l] ∧ (portAt t k).creditSent = true ∧ (portAt t k).state = p.state ∧
      l.length = 8 ∧ ∀ c, c < 8 →
        let x := creditAt p c
        let holds := ingressHolds s k c || (k == 0 && s.power.phase == .starting)
        let n := x.inUse - forwardHeld s k c
        creditAt (portAt t k) c = (if holds then x else { x with inUse := x.inUse - n, freed := (x.freed + n) % 65536 }) ∧
        l.getD c 0 = (creditAt (portAt t k) c).freed)) ∧
  (p.state ≠ .credit → p.state ≠ .up → (∀ l, exec (.creditRx k l) s = .next s) ∧ exec (.creditSend k) s = .next s)

/-- What happens to a packet before its payload is looked at (R394, R410, R412 to R414, R418, R449 to R454, R500, R501): another block type's control
block changes nothing; dropped by its block type, its header check, its length, its meter's colour or for want of a route, forwarded to the port of
the first hop, or for this module. The sequence rules (R419 to R421) for an intact tile packet: the next number is delivered, a later one within the
window is held, any other is not taken; packets reach ingress in order and once. -/
def Obligations.PacketsAreCheckedRoutedAndOrdered : Prop :=
  (
    ∀ (k : Nat) (p : Packet) (s : State), linkAlive s = true → (portAt s k).state = .up →
    let dropped : Prop := Does (.packetRx k p) s s []
    if bits p.h0 7 0 ∈ [0x00, 0x60, 0x70, 0x78, 0x79, 0x7A] then exec (.packetRx k p) s = .next s
    else if bits p.h0 7 0 ≠ 0x50 ∨ hcrcOk p = false ∨ 5 < pktType p then dropped
    else if lengthOk p = false then dropped
    else if (meterKeep k p s).1 = false then dropped
    else if isLocal s k p = true then
      (qpReady s (pktDestQp p) = false → dropped) ∧ (openPayload s (pktDestQp p) p = none → dropped)
    else match firstHop s (pktDest p) with
      | none => dropped
      | some o =>
        if (portAt s o).state ≠ .up then dropped
        else if pktType p = 5 then Does (.packetRx k p) s s [.packet o p]
        else ∃ t, exec (.packetRx k p) s = .next t ∧ bare t = bare s ∧ t.out = s.out ∧
          (classAt (portAt t o) (pktClass p)).queue = (classAt (portAt s o) (pktClass p)).queue ++
            [{ packet := p, joined := s.time.now, entering := !sameDimension k o, cameBy := some k }] ∧
          (∀ c, c ≠ pktClass p → (classAt (portAt t o) c).queue = (classAt (portAt s o) c).queue) ∧
          ∀ j c, j ≠ o → (classAt (portAt t j) c).queue = (classAt (portAt s j) c).queue) ∧
  (
    ∀ (k : Nat) (p : Packet) (s : State), linkAlive s = true → (portAt s k).state = .up → bits p.h0 7 0 = 0x50 → pktType p = 1 → pktAckValid p = false →
    isLocal s k p = true → qpReady s (pktDestQp p) = true → (meterKeep k p s).1 = true → hcrcOk p = true → lengthOk p = true →
    let n := pktDestQp p
    let q := qpAt s n
    let d := (pktPsn p + 2 ^ 24 - q.rcvNxt) % 2 ^ 24
    let at_ := q.rcvNxt + 2 ^ 24 * q.rcvWraps
    match openPayload s n p with
    | none => Does (.packetRx k p) s s []
    | some data =>
      let tile : TileWrite := { qp := n, addr := p.h2, counter := bits p.h1 13 0, ringPass := bit p.h1 23, data, cameBy := some (k, pktClass p) }
      (d = 0 → q.stored = [] → ∃ t, exec (.packetRx k p) s = .next t ∧ t.tileIngress = s.tileIngress ++ [tile] ∧ t.ingress = s.ingress ∧
        (qpAt t n).rcvNxt = (q.rcvNxt + 1) % 2 ^ 24 ∧ (qpAt t n).stored = [] ∧ s.out <+: t.out) ∧
      (0 < d → d < 2 ^ 23 → d ≤ q.windowM1 → Tab.find q.stored at_ = none → Tab.find q.stored (at_ + d) = none →
        ∃ t o, exec (.packetRx k p) s = .next t ∧ t.tileIngress = s.tileIngress ∧ t.ingress = s.ingress ∧ (qpAt t n).rcvNxt = q.rcvNxt ∧
          (qpAt t n).stored = Tab.put q.stored (at_ + d) o ∧ o.payload = data ∧ o.addr = p.h2 ∧ s.out <+: t.out) ∧
      (q.windowM1 < d ∨ 2 ^ 23 ≤ d ∨ (Tab.find q.stored (at_ + d)).isSome = true →
        ∃ t, exec (.packetRx k p) s = .next t ∧ bare t = bare s ∧
          t.ingress = s.ingress ∧ (qpAt t n).rcvNxt = q.rcvNxt ∧ (qpAt t n).stored = q.stored))

/-- Acknowledgements (R56, R422 to R426): an ACK retires what it covers, or, once the repeat timer has won, may be late and discarded (which, a free
value tells: log entry 45); a receiver that has waited `ACK_DELAY_NS` sends one, and a sender whose timer has run out repeats all it has not had
acknowledged, or gives up. -/
def Obligations.PacketsAreAcknowledgedOrRepeated : Prop :=
  (∀ (k : Nat) (p : Packet) (s : State), pktType p ≠ 5 → exec (.ackRx k p) s = .next s) ∧
  (∀ (k : Nat) (p : Packet) (s : State), linkAlive s = true → (portAt s k).state = .up → bits p.h0 7 0 = 0x50 → pktType p = 5 → isLocal s k p = true →
    qpReady s (pktDestQp p) = true → (qpAt s (pktDestQp p)).backlog = [] → (∀ u ∈ (qpAt s (pktDestQp p)).unacked, u.what.wr = none) →
    let n := pktDestQp p
    let q := qpAt s n
    let d := (pktAckPsn p + 2 ^ 24 - q.sndUna) % 2 ^ 24
    let off (u : Unacked) : Nat := (u.psn + 2 ^ 24 - q.sndUna) % 2 ^ 24
    (hcrcOk p = false ∨ lengthOk p = false ∨ openPayload s n p = none → Does (.ackRx k p) s s []) ∧
    (∀ b, hcrcOk p = true → lengthOk p = true → openPayload s n p = some b →
      ∃ t, exec (.ackRx k p) s = .next t ∧ bare t = bare s ∧ t.out = s.out ∧
        (if (q.retries ≠ 0 ∧ bit (Config.freeWord s.draws) 0 = true) ∨ (q.sndNxt + 2 ^ 24 - q.sndUna) % 2 ^ 24 < d then (qpAt t n).unacked = q.unacked ∧ (qpAt t n).sndUna = q.sndUna
        else
          let left := q.unacked.filter (fun u => decide (d ≤ off u) && !(decide (d < off u) && (leNat b).testBit (off u - d - 1) && decide (off u - d - 1 < 8 * b.length)))
          (qpAt t n).unacked.map (fun u => u.psn) = left.map (fun u => u.psn) ∧
          (qpAt t n).sndUna = ((left.head?).map (fun u => u.psn)).getD q.sndNxt ∧
          (left.length < q.unacked.length → (qpAt t n).retries = 0)))) ∧
  (∀ (n : Nat) (s : State),
    let due := ∃ t, (qpAt s n).oldest = some t ∧ t + ackDelayNsVal s ≤ s.time.now ∧ qpReady s n = true
    (¬ due → exec (.ackDelayExpiry n) s = .next s) ∧
    (due → ∃ t, exec (.ackDelayExpiry n) s = .next t ∧ bare t = bare s ∧ (qpAt t n).oldest = none ∧ (qpAt t n).arrivals = 0 ∧
      t.out = s.out ++ (match qpPort s n with
        | some k => if (portAt s k).state = .up then [.packet k (formAck s n)] else []
        | none => []))) ∧
  (∀ (n : Nat) (s : State),
    let q := qpAt s n
    let due := ∃ t, q.timer = some t ∧ t ≤ s.time.now ∧ qpReady s n = true
    (¬ due → exec (.repeatTimeout n) s = .next s) ∧
    (due → q.retries < retryLimitVal s → ∃ t, exec (.repeatTimeout n) s = .next t ∧ bare t = bare s ∧ t.out = s.out ∧
      (qpAt t n).retries = q.retries + 1 ∧ (qpAt t n).unacked = q.unacked ∧ (qpAt t n).sndNxt = q.sndNxt ∧
      (qpAt t n).timer = some (s.time.now + min (q.rtoUs * 2 ^ (q.retries + 1)) (64 * q.rtoUs) * 1000) ∧
      ∀ k, qpPort s n = some k → k = 0 ∨ (portAt s k).state = .up → ∀ u ∈ q.unacked, ∃ c, ∃ x ∈ (classAt (portAt t k) c).queue,
        x.repeated = true ∧ x.packet = formPacket s n u.psn u.ext u.what) ∧
    (due → retryLimitVal s ≤ q.retries → ∃ t, exec (.repeatTimeout n) s = .next t ∧ (qpAt t n).state = .error ∧ s.out <+: t.out))

/-- Network time (R404 to R408, R455, R661): set by the adapter's time once two blocks and a path delay are known, stepped when it is off by more than
`TIME_STEP_NS`, else steered; lost after `TIME_HOLDOVER_MS`; the pulse rises at each whole second and lasts 100 ms. -/
def Obligations.NetworkTimeFollowsTheAdapter : Prop :=
  ∀ s : State,
  let linked := linkAlive s = true ∧ (portAt s 0).state = .up
  let x := s.time
  let same (c : Instr) : Prop := exec c s = .next s
  (¬ linked → (∀ sent, same (.timeBlockRx sent)) ∧ same .delayReqSend) ∧
  (linked → exec .delayReqSend s = .next { s with time.delayReqAt := some x.now, out := s.out ++ [.delayReq] } ∧
    (∀ sent : Nat,
      let off : Int := (sent : Int) + x.pathDelay - x.now
      let seen : Time := { x with blocks := x.blocks + 1, lastBlock := some (sent, x.now), offset := off }
      let n := (sent + x.pathDelay) % 2 ^ 64
      let stepped : Time := { seen with state := 1, now := n, slew := 0, slewAt := none, lastBlock := some (sent, n) }
      (x.state = 0 → x.haveDelay = false ∨ x.blocks = 0 → exec (.timeBlockRx sent) s = .next { s with time := seen }) ∧
      (x.state = 0 → x.haveDelay = true → 1 ≤ x.blocks → ∃ t, exec (.timeBlockRx sent) s = .next t ∧
        t.time.now = (sent + x.pathDelay) % 2 ^ 64 ∧ t.time.state = 1 ∧ t.time.everValid = true ∧ s.out <+: t.out ∧
        (peerTopologyVal s ≠ 0 → ∀ n, 257 ≤ n → n ≤ 384 → (qpAt t n).state ≠ .reset)) ∧
      (x.state ≠ 0 → off.natAbs ≤ timeStepNsVal s → exec (.timeBlockRx sent) s = .next { s with time := { seen with state := 1, slew := off } }) ∧
      (x.state ≠ 0 → timeStepNsVal s < off.natAbs → Does (.timeBlockRx sent) s { s with time := stepped } []))) ∧
  (∀ got : Nat,
    (∀ t3 t1 t2, x.delayReqAt = some t3 → x.lastBlock = some (t1, t2) →
      let d : Int := (((t2 : Int) - t1) + ((got : Int) - t3)) / 2
      let pd := d.toNat % 2 ^ 32
      (x.state ≠ 0 ∨ x.blocks < 2 → exec (.delayRspRx got) s = .next { s with time := { x with pathDelay := pd, haveDelay := true, delayReqAt := none } }) ∧
      (x.state = 0 → 2 ≤ x.blocks → ∃ t, exec (.delayRspRx got) s = .next t ∧ t.time.now = (t1 + pd + (x.now - t2)) % 2 ^ 64 ∧
        t.time.pathDelay = pd ∧ t.time.state = 1 ∧ t.time.everValid = true ∧ s.out <+: t.out)) ∧
    (x.delayReqAt = none ∨ x.lastBlock = none → same (.delayRspRx got))) ∧
  ((∃ a t, x.lastBlock = some (a, t) ∧ x.state = 1 ∧ t + timeHoldoverMsVal s * 1000000 ≤ x.now) →
    exec .timeHoldover s = .next { s with time.state := 2, time.slew := 0 }) ∧
  (¬ (∃ a t, x.lastBlock = some (a, t) ∧ x.state = 1 ∧ t + timeHoldoverMsVal s * 1000000 ≤ x.now) → same .timeHoldover) ∧
  (x.state ≠ 0 → linkAlive s = true →
    let second := x.now - x.now % 1000000000
    (x.pulse = false → x.now % 1000000000 < 100000000 → x.pulseAt ≠ second →
      exec .timepulse s = .next { s with time.pulse := true, time.pulseAt := second }) ∧
    (x.pulse = true → x.pulseAt + 100000000 ≤ x.now → exec .timepulse s = .next { s with time.pulse := false }) ∧
    (x.pulse = true → x.now < x.pulseAt + 100000000 → same .timepulse)) ∧
  (x.state = 0 → exec .timepulse s = .next { s with time.pulse := false })

/-- The scheduler (R485 to R487, R489, R497): nothing leaves while no class is eligible; the highest eligible strict class leaves first; without one
the weighted class whose turn it is goes on while its deficit lasts, then the next in order takes its turn and its quantum. What a class must have to
be eligible (R403, R485, R490, R494, R497): a head packet, the credit it needs, an open gate, and a shaper not below zero; and a queue pair whose
numbers are spent stops (R569). -/
def Obligations.ThePortSendsWhatIsDue : Prop :=
  (
    ∀ (k : Nat) (s : State), linkAlive s = true → (portAt s k).state = .up → exhausted s = [] →
    let p := evaluate s k (portAt s k)
    let can (c : Nat) : Prop := eligible s k p c = true
    let w (c : Nat) : Nat := tcWeightVal s k c
    let sends (c turn : Nat) (deficit : Int) : Prop := ∃ x rest t, (classAt (portAt s k) c).queue = x :: rest ∧ exec (.egressPick k) s = .next t ∧
      bare t = bare s ∧ t.out = s.out ++ [.packet k x.packet] ∧ (classAt (portAt t k) c).queue = rest ∧ (portAt t k).turn = turn ∧
      (creditAt (portAt t k) c).sent = ((creditAt (portAt s k) c).sent + 1) % 65536 ∧
      ((classAt (portAt t k) c).deficit : Int) = if rest.isEmpty then 0 else max 0 (deficit - (if w c = 0 then 0 else (framedLength x.packet : Int)))
    let held (c : Nat) : Int := ((classAt p c).deficit : Int)
    let fits (c : Nat) : Prop := ∃ x rest, (classAt (portAt s k) c).queue = x :: rest ∧ (framedLength x.packet : Int) ≤ held c
    let strict := ∃ c, c < 8 ∧ w c = 0 ∧ can c
    ((∀ c, c < 8 → ¬ can c) → p.turn < 8 → Does (.egressPick k) s s []) ∧
    (∀ c, c < 8 → w c = 0 → can c → (∀ d, c < d → d < 8 → w d = 0 → ¬ can d) → sends c p.turn (held c)) ∧
    (¬ strict → 0 < w p.turn → can p.turn → fits p.turn → sends p.turn p.turn (held p.turn)) ∧
    (¬ strict → ¬ (0 < w p.turn ∧ can p.turn ∧ fits p.turn) →
      ∀ n, n < 8 → (∀ m, m < n → ¬ (0 < w ((p.turn + m + 1) % 8) ∧ can ((p.turn + m + 1) % 8))) →
        let c := (p.turn + n + 1) % 8
        0 < w c → can c → sends c c (held c + w c * 4192))) ∧
  (
    (∀ (k c : Nat) (s : State),
      let p := evaluate s k (portAt s k)
      eligible s k p c = true ↔ ∃ x rest, (classAt p c).queue = x :: rest ∧
        (let d := ((creditAt (portAt s k) c).limit + 65536 - (creditAt (portAt s k) c).sent) % 65536;
          d < 32768 ∧ (if x.entering then 2 else 1) ≤ d) ∧
        (gateMask s k s.time.now).testBit c = true ∧
        (gateGuardVal s k = 1 → gateEnableVal s k = 1 → ∀ d, d * (if k = 0 then 400 else 100) < framedLength x.packet * 8 →
          (gateMask s k (s.time.now + d)).testBit c = true) ∧
        (shapeRateMbpsVal s k c ≠ 0 → 0 ≤ (classAt p c).shaper.t)) ∧
    (∀ (k n : Nat) (s : State), linkAlive s = true → n ∈ exhausted s →
      ∃ t, exec (.egressPick k) s = .next t ∧ (qpAt t n).state = .error ∧ s.out <+: t.out))

/-- Gates in time (R493, R494, R496): a pending list becomes operational at its time, and the interval is the one that network time gives. Queue
samples (R503 to R507): at each multiple of the interval one record of each selected queue; a full tile, or one held `SAMPLE_FLUSH_US`, goes to the
ring or is discarded for want of room or of a READY queue pair. -/
def Obligations.GatesAndSamplesFollowTime : Prop :=
  (
    ∀ (k : Nat) (s : State),
    let p := portAt s k
    (∀ l t, p.coming = some (l, t) → s.time.everValid = true → t ≤ s.time.now → ∃ u, exec (.gateSwitch k) s = .next u ∧ bare u = bare s ∧
      portAt u k = { p with running := some (l, t), coming := none, interval := 0 } ∧ (∀ j, j ≠ k → portAt u j = portAt s j) ∧ u.out = s.out) ∧
    (p.coming = none ∨ s.time.everValid = false ∨ (∃ l t, p.coming = some (l, t) ∧ s.time.now < t) → exec (.gateSwitch k) s = .next s) ∧
    (∀ l t, p.running = some (l, t) → gateEnableVal s k = 1 → 0 < l.cycle → ∃ u i, exec (.gateInterval k) s = .next u ∧
      u = setPort k { p with interval := i } s ∧
      let o := (((s.time.now : Int) - t) % (l.cycle : Int)).toNat
      (l.entries ≠ [] → i < l.entries.length ∧ ((l.entries.take i).map Prod.snd).sum ≤ o ∧
        (o < ((l.entries.take (i + 1)).map Prod.snd).sum ∨ i + 1 = l.entries.length))) ∧
    (p.running = none ∨ gateEnableVal s k ≠ 1 → exec (.gateInterval k) s = .next s)) ∧
  (
    ∀ s : State, Live s →
    let x := s.sampler
    let goes (l : List (List Byte)) (r : Nat) (t : State) : Prop :=
      t.sampler.tile = [] ∧
      let q := 1 + (x.wr / 128) % (max (fetchQpsVal s) 1)
      (sampleCapacity s < x.wr + 128 - sampleRdVal s ∨ qpReady s q = false → t.sampler.lost = true ∧ t.sampler.wr = x.wr ∧ t.out = s.out) ∧
      (x.wr + 128 - sampleRdVal s ≤ sampleCapacity s → qpReady s q = true →
        let l' := if x.lost then (match l with | a :: rest => markLost a :: rest | [] => []) else l
        t.sampler.lost = false ∧ t.sampler.wr = (x.wr + 128) % 2 ^ 64 ∧
        t.out = s.out ++ [.tile q 4 (word (2 ^ 62 + r * 2 ^ 29 * 65536 + (x.wr % sampleCapacity s) * 32)) 0 (slice l'.flatten 0 4096) none])
    let i := max (sampleIntervalUsVal s) 1 * 1000
    let at_ := s.time.now - s.time.now % i
    let records := ((List.range 40).filter (fun n => (sampleQueuesVal s).testBit n)).map (fun n => sampleRecord s at_ (n / 8) (n % 8))
    (x.range = none ∨ 1000 < s.time.now % i ∨ x.lastAt = at_ + 1 → Does .queueSample s s []) ∧
    (∀ r, x.range = some r → s.time.now % i ≤ 1000 → x.lastAt ≠ at_ + 1 →
      (x.tile.length + records.length < 128 → ∃ t, exec .queueSample s = .next t ∧ t.sampler.tile = x.tile ++ records ∧ t.sampler.lastAt = at_ + 1 ∧
        bare { t with sampler := x } = bare s ∧ t.out = s.out ∧
        ∀ n, n < 40 → (sampleQueuesVal s).testBit n = true →
          (classAt (portAt t (n / 8)) (n % 8)).sent = 0 ∧ (classAt (portAt t (n / 8)) (n % 8)).maxAge = 0) ∧
      (x.tile.length + records.length = 128 → records ≠ [] → ∃ t, exec .queueSample s = .next t ∧ goes (x.tile ++ records) r t)) ∧
    (x.tile = [] ∨ s.time.now < x.firstAt + sampleFlushUsVal s * 1000 → Does .sampleFlush s s []) ∧
    (∀ r, x.tile ≠ [] → x.range = some r → x.firstAt + sampleFlushUsVal s * 1000 ≤ s.time.now →
      ∃ t, exec .sampleFlush s = .next t ∧ goes x.tile r t))

/-- The pace governor (R39 to R46, R669): at each update, no sooner than an interval after the last, a domain that is too fast, above the input power
cap or hot goes one step of 5 mV down, never below 680 mV; any other moves toward its aim by at most 5 mV in each microsecond of the interval; the
readings are reported. -/
def Obligations.ThePaceIsGoverned : Prop :=
  ∀ (r : PaceReadings) (s : State),
  let due := ∀ a, s.pace.updatedAt = some a → a + paceUpdateUsVal s * 1000 ≤ s.time.now
  (s.power.phase ≠ .running ∨ ¬ due → exec (.paceUpdate r) s = .next s) ∧
  (s.power.phase = .running → due → r.celsius.length = 17 → ∃ t, exec (.paceUpdate r) s = .next t ∧ t.out = s.out ∧
    bare { t with pace := s.pace, power := s.power } = bare s ∧
    t.power = { s.power with vinMv := r.vinMv, vinMa := r.vinMa, inputW := r.inputW } ∧
    (∀ k, k < 17 → Tab.get t.pace.celsius k 0 = r.celsius.getD k 0) ∧
    (t.pace.capUnmet = true ↔ (∀ d, d < 9 → setMv s d = 680) ∧ pacePowerCapWVal s < r.inputW) ∧
    ∀ d, d < 9 →
      let v := setMv s d
      let w := setMv t d
      let fast := 100000000 < rateAt r d v * 42
      let hot := s.pace.warning = true ∧ ((warnAt s d : Int) ≤ r.celsius.getD d 0 ∨ 1 ≤ d ∧ (warnAt s (d + 8) : Int) ≤ r.celsius.getD (d + 8) 0)
      let down := fast ∨ pacePowerCapWVal s < r.inputW ∨ hot
      let aim := aimMv s r d
      let most := 5 * paceUpdateUsVal s
      (down → w = max 680 (v - 5)) ∧
      (¬ down → w ≤ v + most ∧ v ≤ w + most ∧ (s.pace.warning = true → w ≤ v) ∧
        (s.pace.warning = false → v ≤ aim + most → aim ≤ v + most → w = aim)) ∧
      (paceModeVal s ≠ 1 → ∀ u, u ∈ paceSteps → u < aim → meets (rateAt r d u) (targetOf s d) = false)) ∧
  (∀ d n, s.power.phase = .running → d ≤ 8 → ∃ t, exec (.paceMonitorWindow d n) s = .next t ∧ t.out = s.out ∧
    bare { t with pace := s.pace } = bare s ∧ Tab.get t.pace.rate d 0 = n * 100 % 2 ^ 32 ∧ t.pace.mv = s.pace.mv) ∧
  (∀ d n, s.power.phase ≠ .running ∨ 8 < d → exec (.paceMonitorWindow d n) s = .next s)

/-- Tiles in flight (R56, R348, R356, R357, R359, R427): a completion for a transfer that is no more is discarded; one overdue is repeated on the next
fetch queue pair under a new number, so that a completion of its first issue is late; it waits there where that queue pair has no room. A session
whose map or page cannot be fetched is FAULTED with the code of its cause (R264, R337, R349, R360, R388): here each way a fetch on its way can fail, a
repeat that no pool range entry covers any longer among them. -/
def Obligations.FetchesAreRepeatedOrFault : Prop :=
  (
    ∀ (n : Nat) (r : TileResult) (s : State), Live s →
    (Tab.find s.transfers n = none → Does (.tileFetchDone n r) s s [] ∧ Does (.parkTileWritten n r) s s [] ∧ Does (.fetchTimeout n) s s []) ∧
    (∀ t, Tab.find s.transfers n = some t →
      (t.write = true ∨ t.waits = true → Does (.tileFetchDone n r) s s []) ∧ (t.write = false ∨ t.waits = true → Does (.parkTileWritten n r) s s []) ∧
      (t.waits = true ∨ s.time.now < t.deadline → Does (.fetchTimeout n) s s []) ∧
      (t.waits = false → t.deadline ≤ s.time.now → t.repeats < fetchRetriesVal s → tierAllows s t.context t.tier t.slot t.write = true →
        let q := 1 + t.qp % max (fetchQpsVal s) 1
        let m := s.nextTile
        let a := tierAddr t.tier t.slot (t.tile * 4096)
        let w : Transfer := { t with repeats := t.repeats + 1, qp := q, waits := true }
        let e : State := { s with transfers := Tab.put (Tab.drop s.transfers n) m w, nextTile := m + 1 }
        (tileRoom e q = false → Does (.fetchTimeout n) s e []) ∧
        (tileRoom e q = true → ∃ u, exec (.fetchTimeout n) s = .next u ∧ bare { u with transfers := [] } = bare { e with transfers := [] } ∧
          Tab.find u.transfers m = some { w with waits := false, deadline := s.time.now + fetchTimeoutUsVal s * 1000 } ∧
          (∀ k, k ≠ n → k ≠ m → Tab.find u.transfers k = Tab.find s.transfers k) ∧ (n ≠ m → Tab.find u.transfers n = none) ∧
          u.out = s.out ++ if qpReady s q = true then
            [.tile q (if t.write then 4 else 2) (word a) 0 (if t.write then tierForm s t.context a t.data else [])
              (if t.tier = 2 then some (poolChannel s t.slot, poolHost s t.context t.slot t.write) else none)] else [])))) ∧
  (
    ∀ (n i : Nat) (t : Transfer) (s : State), Live s → Tab.find s.transfers n = some t → t.write = false → t.waits = false →
    t.consumer = .root i ∨ (∃ r, t.consumer = .leaf i r) ∨ (∃ k, t.consumer = .page i k) →
    (sessAt s i).entry.state ≠ .free → (sessAt s i).entry.state ≠ .faulted → (sessAt s i).entry.state ≠ .tombstone →
    let faults (c : Instr) (code : Nat) : Prop := ∃ u, exec c s = .next (pumpAll u) ∧ (sessAt u i).entry.state = .faulted ∧
      (sessAt u i).record.faultCode = code ∧ (∀ m v, (m, v) ∈ u.transfers → servesSession i v = false) ∧ s.out <+: u.out
    faults (.tileFetchDone n .uncorrectable) (t.tier * 65536 + 2) ∧
    faults (.tileFetchDone n .refused) (if t.tier = 2 then 0x20004 else 0x10002) ∧
    (t.deadline ≤ s.time.now → fetchRetriesVal s ≤ t.repeats → faults (.fetchTimeout n) (t.tier * 65536 + 1)) ∧
    (t.deadline ≤ s.time.now → t.repeats < fetchRetriesVal s → tierAllows s t.context t.tier t.slot false = false → faults (.fetchTimeout n) 0x20003))

/-- Tiles arrive and parks are written (R122, R353, R354, R358): a page's tile fills its rows below the revival's length; a park's last tile gives its
page its new home; a park whose tile cannot be written fails. -/
def Obligations.TilesArriveAndAreWritten : Prop :=
  (∀ (n i k : Nat) (t : Transfer) (data : List Byte) (s : State), Live s → Tab.find s.transfers n = some t → t.write = false → t.waits = false →
    t.consumer = .page i k → filling s (pageAt (sessAt s i) k) = true →
    let e := pageAt (sessAt s i) k
    let h := sessShape s i
    let got := Tab.get s.fills e.frame 0 ||| 2 ^ t.tile
    let len := match (sessAt s i).revive with | some v => localPos s (sessAt s i).entry.partition v.length | none => 0
    let first := keyPage h k * h.run + 16 * (t.tile / h.slices)
    let d := hbmForm s t.context (tierAddr t.tier t.slot (4096 * t.tile)) data
    got + 1 ≠ 2 ^ h.used →
    ∃ u, exec (.tileFetchDone n (.done data)) s = .next (pumpAll u) ∧ Tab.find u.transfers n = none ∧ Tab.get u.fills e.frame 0 = got ∧ s.out <+: u.out ∧
      ((sessAt s i).passTodo = [] → u.out = s.out) ∧
      (∀ r b, r < 16 → b < 256 → first + r < len → readByte u (hbmAddr e.frame (4096 * t.tile + 256 * r) + b) = d.getD (256 * r + b) 0) ∧
      ∀ a, a < hbmAddr e.frame (4096 * t.tile) ∨ hbmAddr e.frame (4096 * t.tile) + 4096 ≤ a → readByte u a = readByte s a) ∧
  (∀ (n i k slot : Nat) (t : Transfer) (p : ParkMove) (l : List Byte) (s : State), Live s → Tab.find s.transfers n = some t → t.write = true → t.waits = false →
    t.consumer = .park i k → (sessAt s i).move = some (.park p) →
    (Tab.find p.slots k = some slot → (p.flying.erase k).contains k = false → ∃ u, exec (.parkTileWritten n (.done l)) s = .next (pumpAll (pumpPark i u)) ∧
      Tab.find u.transfers n = none ∧ (let e := pageAt (sessAt u i) k; e.homeValid = true ∧ e.homeTier = p.tier - 1 ∧ e.homeSlot = slot) ∧
      ∀ j, j ≠ i → (sessAt u j).pages = (sessAt s j).pages) ∧
    (∃ u, exec (.parkTileWritten n .uncorrectable) s = .next (pumpAll u) ∧ (sessAt u i).move = some (.park { p with failed := true }) ∧
      (∀ m v, (m, v) ∈ u.transfers → servesSession i v = false) ∧ u.out = s.out)) ∧
  (∀ s : State, Live s →
    (reviveOrder s = [] → Does .revivalFetchIssue s s []) ∧
    (∀ i v rest, reviveOrder s = (i, v) :: rest →
      (mayIssue s v.issued = false → Does .revivalFetchIssue s s []) ∧
      (mayIssue s v.issued = true → Tab.rising s.sessions = true → ∀ kind k todo, v.todo = (kind, k) :: todo → tierAllows s (sessAt s i).record.context
            (if kind ≤ 1 then v.tier else (Tab.get v.slots k (0, 0)).1)
            (if kind = 0 then v.mapSlots.headD 0
              else if kind = 1 then v.mapSlots.getD (((Tab.keys (sessAt s i).leaves).idxOf k) + 1) 0 else (Tab.get v.slots k (0, 0)).2) false = true →
          let c := if kind ≤ 1 then 16 else (sessShape s i).used
          let who : Consumer := if kind = 0 then .root i else if kind = 1 then .leaf i k else .page i k
          ∃ t l, exec .revivalFetchIssue s = .next t ∧ t.out = s.out ++ l ∧ l.length ≤ c ∧ t.nextTile = s.nextTile + c ∧
            (∀ j, j < c → ∃ x, Tab.find t.transfers (s.nextTile + j) = some x ∧ x.consumer = who ∧ x.tile = j ∧ x.k = v.issued + j ∧ x.write = false) ∧
            (∀ j, j ≠ i → sessAt t j = sessAt s j) ∧
            (sessAt t i).revive = some { v with todo := todo, issued := v.issued + c, turn := v.turn + 1 })))

/-- Errors in memory (R121, R381 to R385, R387): the frame is RETIRED, the session that met the error is FAULTED, its context is torn down; a record's
entry is withheld; scrub passes a stack once in each `SCRUB_PERIOD_S`; an error in an SRAM table halts the module. -/
def Obligations.MemoryErrorsRetireAndFault : Prop :=
  let alive (x : Session) : Prop := x.entry.state ≠ .free ∧ x.entry.state ≠ .faulted ∧ x.entry.state ≠ .tombstone
  (∀ (f o i : Nat) (s : State), Live s →
    ((frameAt s f).state = .kv ∨ (frameAt s f).state = .filling ∨ (frameAt s f).state = .map →
      ∃ t, exec (.hbmUncorrectable f o i) s = .next t ∧ s.out <+: t.out ∧ (frameAt t f).state = .retired ∧
        (ctxAt t (sessAt s i).record.context).tornDown = true ∧ (alive (sessAt s i) → (sessAt t i).entry.state = .faulted)) ∧
    ((frameAt s f).state = .index →
      ∃ t, exec (.hbmUncorrectable f o i) s = .next t ∧ s.out <+: t.out ∧ (frameAt t f).state = .retired ∧
        (ctxAt t (frameAt s f).context).tornDown = true) ∧
    ((frameAt s f).state = .free → Does (.hbmUncorrectable f o i) s s [])) ∧
  (∀ (i : Nat) (s : State), Live s → enabled s i = true →
    ((sessAt s i).entry.state ≠ .free →
      ∃ t, exec (.recordUncorrectable i) s = .next t ∧ s.out <+: t.out ∧ (sessAt t i).withheld = true ∧
        (ctxAt t (sessAt s i).record.context).tornDown = true ∧ (alive (sessAt s i) → (sessAt t i).entry.state = .faulted)) ∧
    ((sessAt s i).entry.state = .free → (sessAt s i).withheld = false →
      Does (.recordUncorrectable i) s { s with sessions := Tab.put s.sessions i { sessAt s i with withheld := true } } [])) ∧
  (∀ (stack : Nat) (bad l : List Nat) (s : State), Live s →
    let due := stack ≤ 7 ∧ ∀ a, Tab.find s.scrubbedAt stack = some a → a + scrubPeriodSVal s * 1000000000 ≤ s.time.now
    let e : State := { s with scrubbedAt := Tab.put s.scrubbedAt stack s.time.now }
    (¬ due → Does (.scrubPass stack bad l) s s []) ∧
    (due → Does (.scrubPass stack [] l) s e [] ∧
      (∀ a, frameFielder (a / 65536) / 32 = stack →
        ((frameAt s (a / 65536)).state = .free ∨ (frameAt s (a / 65536)).state = .kv ∨ (frameAt s (a / 65536)).state = .map →
          ∃ t, exec (.scrubPass stack [a] l) s = .next t ∧ s.out <+: t.out ∧ (frameAt t (a / 65536)).state = .retired ∧
            ((frameAt s (a / 65536)).state ≠ .free → (ctxAt t (frameAt s (a / 65536)).context).tornDown = true)) ∧
        ((frameAt s (a / 65536)).state = .record → (sessAt s (recordIndexAt a)).entry.state = .free → (sessAt s (recordIndexAt a)).withheld = false →
          ∃ t, exec (.scrubPass stack [a] l) s = .next t ∧ t.frames = s.frames ∧ (sessAt t (recordIndexAt a)).withheld = true)) ∧
      (∀ a, frameFielder (a / 65536) / 32 ≠ stack → Does (.scrubPass stack [a] l) s e []))) ∧
  (∀ (k : Nat) (s : State), s.mode ≠ .fatal →
    (k = 1 ∨ k = 2 → Does (.sramFatal k) s { s with mode := .fatal, fatal := k } []) ∧ (k ≠ 1 → k ≠ 2 → Does (.sramFatal k) s s []))

/-- A step takes the command at the front of the queue and is that command's effect on the state with the queue's rest; on an empty queue a nanosecond
of network time passes, more or less than one only where an offset is being removed (R406), and only times and performance counters move (the model's
choice, log entry 16). -/
def Obligations.StepsTakeTheFront : Prop :=
  (∀ (c : Instr) (rest : List Instr) (s : State), step { s with pending := c :: rest } = exec c { s with pending := rest }) ∧
  (∀ s : State, s.pending = [] → ∃ t, step s = .next t ∧ t.out = s.out ∧ t.pending = [] ∧ t.ports = s.ports ∧ t.qps = s.qps ∧
    bare { t with time := s.time, parts := s.parts } = bare s ∧
    (s.time.slew = 0 → t.time = { s.time with now := (s.time.now + 1) % 2 ^ 64 }) ∧
    (0 < s.time.slew → t.time.now = (s.time.now + 1) % 2 ^ 64 ∧ t.time.slew = s.time.slew ∨
      t.time.now = (s.time.now + 2) % 2 ^ 64 ∧ t.time.slew = s.time.slew - 1 ∧ s.time.now % 5000 = 0) ∧
    (s.time.slew < 0 → t.time.now = (s.time.now + 1) % 2 ^ 64 ∧ t.time.slew = s.time.slew ∨
      t.time.now = s.time.now % 2 ^ 64 ∧ t.time.slew = s.time.slew + 1 ∧ s.time.now % 5000 = 0))

/-- What reset leaves (R400, R404, R416, R594, R634, R645): Setup, nothing in any table, ports down, network time not set, the mailbox and fetch pairs
READY, counters and settings clear; the values that the spec does not state are the model's (log entry 4). -/
def Obligations.ResetLeavesTheModuleInSetup : Prop :=
  let s := State.reset
  s.mode = .setup ∧ s.pending = [] ∧ s.sessions = [] ∧ s.frames = [] ∧ s.hbm = [] ∧ s.contexts = [] ∧ s.models = [] ∧ s.regions = [] ∧ s.jobs = [] ∧
  s.merges = [] ∧ s.indexes = [] ∧ s.hostRanges = [] ∧ s.poolRanges = [] ∧ s.dict.vals = [] ∧ s.dict.run = [] ∧ s.dict.counters = [] ∧
  s.csr.counters = [] ∧ s.csr.alert = 0 ∧ s.csr.freeze = false ∧ s.time.state = 0 ∧ s.time.everValid = false ∧ s.fatal = 0 ∧ s.sec.state = .notReady ∧
  (∀ k, (portAt s k).state = .down) ∧ (∀ n, n ≤ 256 → qpReady s n = true) ∧ (∀ n, 256 < n → (qpAt s n).state = .reset) ∧
  (∀ i, (sessAt s i).entry.state = .free) ∧ (∀ c, (ctxAt s c).mode = .none)

/-- Reset is sound. -/
def Obligations.ResetIsSound : Prop :=
  Sound State.reset

/-- Every step from a sound state leaves a sound one. -/
def Obligations.StepsKeepTheModuleSound : Prop :=
  ∀ s t : State, Sound s → step s = .next t → Sound t

/-- Commands are taken in order and what has been sent stays sent: a step removes the front of the queue alone and adds to what was sent at its end.
-/
def Obligations.NothingSentIsTakenBack : Prop :=
  ∀ s t : State, step s = .next t → t.pending = s.pending.tail ∧ s.out <+: t.out

/-- No command stops the module: each, on every state and whatever its operands, answers a next state, leaves the queue alone and adds to what was
sent at its end. -/
def Obligations.EveryCommandAnswersANextState : Prop :=
  ∀ (c : Instr) (s : State), ∃ t, exec c s = .next t ∧ t.pending = s.pending ∧ s.out <+: t.out

/-- The module's state and its counter of firmware versions (R387, R545, R594 to R596): only an SRAM error halts it, only a reset takes it out of
that, only a dictionary write or frame starts Run, and the anti-rollback counter never falls. -/
def Obligations.OnlyTheseCommandsChangeTheMode : Prop :=
  ∀ (c : Instr) (s t : State), s.power.warm = false → exec c s = .next t →
  (s.mode ≠ .fatal → t.mode = .fatal → ∃ w, c = .sramFatal w) ∧
  (s.mode = .fatal → t.mode ≠ .fatal → Resets c) ∧
  (s.mode ≠ .run → t.mode = .run → (∃ p, c = .modeRun p) ∨ (∃ p i, c = .dictWriteItem p i) ∨ (∃ r, c = .dictAccess r) ∨ ∃ f, c = .mgmtHello f) ∧
  rollback s ≤ rollback t

/-- Requests that are not served (R377, R387, R431, R515, R548, R597, R652): until start-up completes they wait; a halted module answers each with
`MODULE_FATAL`, one that has only its ROM with `FIRMWARE_ABSENT`; in Setup the requests of Run are refused, and those that have no answer dropped;
while a survey's freeze lasts requests wait; without a READY queue pair nothing is answered. -/
def Obligations.RequestsWaitOrAreTurnedAway : Prop :=
  (∀ c ∈ runRequests ++ setupRequests, ∀ (m : Msg) (s : State),
    (linkAlive s = false ∨ qpReady s m.qp = false → Does (c m) s s []) ∧
    (s.power.phase = .starting → qpReady s m.qp = true → ∃ t, exec (c m) s = .next t ∧ bare t = bare s ∧ t.out = s.out ∧ m ∈ t.ingress) ∧
    (s.power.phase = .running → qpReady s m.qp = true → s.mode = .fatal → Does (c m) s s [answer m .moduleFatal]) ∧
    (s.power.phase = .running → qpReady s m.qp = true → s.mode ≠ .fatal → s.sec.state = .recovery → m.qp ≠ 0 →
      Does (c m) s s [answer m .firmwareAbsent])) ∧
  (∀ c ∈ silentRequests, ∀ (m : Msg) (s : State),
    (linkAlive s = false ∨ qpReady s m.qp = false → Does (c m) s s []) ∧
    (s.power.phase = .starting → qpReady s m.qp = true → ∃ t, exec (c m) s = .next t ∧ bare t = bare s ∧ t.out = s.out ∧ m ∈ t.ingress) ∧
    (s.power.phase = .running → qpReady s m.qp = true → s.mode = .fatal → Does (c m) s s [answer m .moduleFatal]) ∧
    (s.power.phase = .running → qpReady s m.qp = true → s.mode = .setup → Does (c m) s s [])) ∧
  (∀ c ∈ runRequests, ∀ (m : Msg) (s : State), Serves .bound m { s with survey.frozen := false } →
    (s.mode = .setup → Does (c m) s s [answer m .moduleSetup] ∨ Does (c m) s s [answer m .messageMalformed]) ∧
    (s.mode = .run → s.survey.frozen = true → (∃ t, exec (c m) s = .next t ∧ bare t = bare s ∧ t.out = s.out ∧ m ∈ t.ingress) ∨
      Does (c m) s s [answer m .messageMalformed])) ∧
  (∀ c ∈ runRequests, ∀ (m : Msg) (on : On) (s : State), Serves on m { s with survey.frozen := false } → m.qp < 512 →
    Does (c m) s s [answer m .opcodeDenied])

/-- HBM reads back (R111): bytes stored are read at their addresses and no other address changes; zeroed bytes read zero; storing what an unlisted
address reads as leaves equal memories equal. -/
def Obligations.StoredBytesReadBack : Prop :=
  ∀ (a : Nat) (l : List Byte) (s : State),
  (∀ b, readByte (writeBytes a l s) b = if a ≤ b ∧ b < a + l.length then l.getD (b - a) 0 else readByte s b) ∧
  (∀ n b, readByte (zeroBytes a n s) b = if a ≤ b ∧ b < a + n then 0 else readByte s b) ∧
  (∀ t : State, Memory.wf s.hbm = true → Memory.wf t.hbm = true → (∀ b, readByte s b = readByte t b) → s.hbm = t.hbm)
end

