-- ==== Sys2Proof/Laws/Bare.lean ====
section
/-!
SUPPORT. What answering, counting and tracing leave alone: `bare` is the same before and after, and what each adds to the record of what was sent.
-/
namespace Sys2Proof.Machine

section
variable (s : State)

@[simp] theorem bare_emit (x : Sent) : bare (emit x s) = bare s := rfl
@[simp] theorem bare_bumpBy (k n : Nat) : bare (bumpBy k n s) = bare s := rfl
@[simp] theorem bare_bump (k : Nat) : bare (bump k s) = bare s := rfl
@[simp] theorem bare_alert (a : Alert) : bare (alert a s) = bare s := rfl
@[simp] theorem bare_setQp (n : Nat) (q : Qp) : bare (setQp n q s) = bare s := rfl
@[simp] theorem bare_setPort (k : Nat) (p : Port) : bare (setPort k p s) = bare s := rfl
@[simp] theorem bare_takeMsg (m : Msg) : bare (takeMsg m s) = bare s := rfl
@[simp] theorem bare_draw : bare (draw s).2 = bare s := rfl
@[simp] theorem bare_drawBytes (n : Nat) : bare (drawBytes n s).2 = bare s := rfl
@[simp] theorem bare_bare : bare (bare s) = bare s := rfl

@[simp] theorem out_bumpBy (k n : Nat) : (bumpBy k n s).out = s.out := rfl
@[simp] theorem out_bump (k : Nat) : (bump k s).out = s.out := rfl
@[simp] theorem out_alert (a : Alert) : (alert a s).out = s.out := rfl
@[simp] theorem out_setQp (n : Nat) (q : Qp) : (setQp n q s).out = s.out := rfl
@[simp] theorem out_setPort (k : Nat) (p : Port) : (setPort k p s).out = s.out := rfl
@[simp] theorem out_takeMsg (m : Msg) : (takeMsg m s).out = s.out := rfl

@[simp] theorem qpReady_bump (k n : Nat) : qpReady (bump k s) n = qpReady s n := rfl
@[simp] theorem qpReady_bumpBy (k j n : Nat) : qpReady (bumpBy k j s) n = qpReady s n := rfl
@[simp] theorem qpReady_takeMsg (m : Msg) (n : Nat) : qpReady (takeMsg m s) n = qpReady s n := rfl
end

/-- Counting in the performance counters writes nothing but their values, wrap bits and alert causes. -/
theorem pmuAdd_bare : ∀ (f n w : Nat) (s : State), bare (pmuAdd f n w s) = bare s ∧ (pmuAdd f n w s).out = s.out ∧ (pmuAdd f n w s).qps = s.qps
  | 0, _, _, _ => ⟨rfl, rfl, rfl⟩
  | f + 1, n, w, s => by
    simp only [pmuAdd]
    split
    · exact ⟨rfl, rfl, rfl⟩
    · split
      · split
        · exact pmuAdd_bare f _ _ _
        · exact ⟨rfl, rfl, rfl⟩
      · split
        · exact pmuAdd_bare f _ _ _
        · exact ⟨rfl, rfl, rfl⟩

theorem foldl_bare {α : Type} {f : State → α → State} (h : ∀ s a, bare (f s a) = bare s ∧ (f s a).out = s.out ∧ (f s a).qps = s.qps) :
    ∀ (l : List α) (s : State), bare (l.foldl f s) = bare s ∧ (l.foldl f s).out = s.out ∧ (l.foldl f s).qps = s.qps
  | [], _ => ⟨rfl, rfl, rfl⟩
  | a :: l, s => by
    obtain ⟨h1, h2, h3⟩ := h s a
    obtain ⟨g1, g2, g3⟩ := foldl_bare h l (f s a)
    exact ⟨g1.trans h1, g2.trans h2, g3.trans h3⟩

theorem pmu_bare_all (e : PmuEvent) (s : State) : bare (pmu e s) = bare s ∧ (pmu e s).out = s.out ∧ (pmu e s).qps = s.qps := by
  unfold pmu
  split
  · exact ⟨rfl, rfl, rfl⟩
  · refine foldl_bare (fun t n => ?_) _ _
    split
    · exact pmuAdd_bare ..
    · exact ⟨rfl, rfl, rfl⟩

@[simp] theorem bare_pmu (e : PmuEvent) (s : State) : bare (pmu e s) = bare s := (pmu_bare_all e s).1
@[simp] theorem out_pmu (e : PmuEvent) (s : State) : (pmu e s).out = s.out := (pmu_bare_all e s).2.1
@[simp] theorem qps_pmu (e : PmuEvent) (s : State) : (pmu e s).qps = s.qps := (pmu_bare_all e s).2.2

@[simp] theorem bare_joinQueue (k : Nat) (x : Queued) (s : State) : bare (joinQueue k x s) = bare s := by
  unfold joinQueue; dsimp only; split <;> rfl
@[simp] theorem out_joinQueue (k : Nat) (x : Queued) (s : State) : (joinQueue k x s).out = s.out := by
  unfold joinQueue; dsimp only; split <;> rfl
@[simp] theorem bare_queuePacket (n : Nat) (p : Packet) (r : Bool) (g : Option Nat) (s : State) : bare (queuePacket n p r g s) = bare s := by
  unfold queuePacket; split
  · rfl
  · exact bare_joinQueue ..
@[simp] theorem out_queuePacket (n : Nat) (p : Packet) (r : Bool) (g : Option Nat) (s : State) : (queuePacket n p r g s).out = s.out := by
  unfold queuePacket; split
  · rfl
  · exact out_joinQueue ..

@[simp] theorem bare_flushQp (n : Nat) : ∀ (f : Nat) (s : State), bare (flushQp n f s) = bare s
  | 0, _ => rfl
  | f + 1, s => by
    simp only [flushQp]
    split
    · rfl
    · split
      · rw [bare_flushQp n f, bare_queuePacket, bare_setQp]
      · rfl
@[simp] theorem out_flushQp (n : Nat) : ∀ (f : Nat) (s : State), (flushQp n f s).out = s.out
  | 0, _ => rfl
  | f + 1, s => by
    simp only [flushQp]
    split
    · rfl
    · split
      · rw [out_flushQp n f, out_queuePacket, out_setQp]
      · rfl

@[simp] theorem bare_sendPackets (n : Nat) (l : List Outgoing) (s : State) : bare (sendPackets n l s) = bare s := by
  unfold sendPackets; dsimp only; split
  · rfl
  · rw [bare_flushQp, bare_setQp]
@[simp] theorem out_sendPackets (n : Nat) (l : List Outgoing) (s : State) : (sendPackets n l s).out = s.out := by
  unfold sendPackets; dsimp only; split
  · rfl
  · rw [out_flushQp, out_setQp]

@[simp] theorem bare_sendMsg (m : Msg) (s : State) : bare (sendMsg m s) = bare s := by
  unfold sendMsg; split
  · rw [bare_sendPackets, bare_emit]
  · rfl
/-- A message on a READY queue pair is sent. -/
theorem out_sendMsg {m : Msg} {s : State} (h : qpReady s m.qp = true) : (sendMsg m s).out = s.out ++ [.msg m] := by
  unfold sendMsg; rw [if_pos h, out_sendPackets]; rfl
/-- On a queue pair that is not READY nothing is sent. -/
theorem sendMsg_idle {m : Msg} {s : State} (h : qpReady s m.qp = false) : sendMsg m s = s := by
  unfold sendMsg; rw [h]; rfl

@[simp] theorem bare_respond (m : Msg) (a : Answer) (s : State) : bare (respond m a s) = bare s := bare_sendMsg ..
@[simp] theorem bare_refuse (m : Msg) (st : Status) (s : State) : bare (refuse m st s) = bare s := bare_sendMsg ..
@[simp] theorem bare_deny (m : Msg) (st : Status) (s : State) : bare (deny m st s) = bare s := by
  unfold deny; dsimp only; split <;> simp
@[simp] theorem bare_notify (qp : Nat) (op : BitVec 16) (tag : BitVec 32) (h : Word) (st : Status) (a : Word) (ops : List Word) (b : List Byte)
    (s : State) : bare (notify qp op tag h st a ops b s) = bare s := bare_sendMsg ..
@[simp] theorem bare_sendTile (n : Nat) (o : Outgoing) (s : State) : bare (sendTile n o s) = bare s := by
  unfold sendTile; split
  · rw [bare_sendPackets, bare_emit]
  · rfl
@[simp] theorem bare_sendPeer (node qp : Nat) (tag : BitVec 32) (h : Word) (c : Option Nat) (p : PeerMsg) (s : State) :
    bare (sendPeer node qp tag h c p s) = bare s := by
  unfold sendPeer; split
  · rw [bare_sendPackets, bare_emit]
  · rfl

@[simp] theorem response_qp (m : Msg) (a : Answer) : (response m a).qp = m.qp := by unfold response; rfl

/-- A request on a READY queue pair is answered with the response that carries `a`. -/
theorem out_respond {m : Msg} {a : Answer} {s : State} (h : qpReady s m.qp = true) : (respond m a s).out = s.out ++ [.msg (response m a)] := by
  unfold respond; rw [out_sendMsg]; rw [response_qp]; exact h
theorem out_refuse {m : Msg} {st : Status} {s : State} (h : qpReady s m.qp = true) : (refuse m st s).out = s.out ++ [answer m st] := by
  unfold refuse; rw [out_respond h]; rfl

@[simp] theorem bare_touchLine (p line : Nat) (v : Priv) (s : State) : bare (touchLine p line v s) = bare s := by
  unfold touchLine
  dsimp only
  repeat' split
  all_goals first | exact bare_pmu .. | (rw [bare_pmu, bare_bump]; rfl)
@[simp] theorem out_touchLine (p line : Nat) (v : Priv) (s : State) : (touchLine p line v s).out = s.out := by
  unfold touchLine
  dsimp only
  repeat' split
  all_goals first | exact out_pmu .. | (rw [out_pmu, out_bump]; rfl)
@[simp] theorem qps_touchLine (p line : Nat) (v : Priv) (s : State) : (touchLine p line v s).qps = s.qps := by
  unfold touchLine
  dsimp only
  repeat' split
  all_goals first | exact qps_pmu .. | (rw [qps_pmu]; rfl)

@[simp] theorem bare_traceLookup (h : Word) (s : State) : bare (traceLookup h s) = bare s := by
  unfold traceLookup; split
  · exact bare_pmu ..
  · rw [bare_touchLine, bare_pmu]
@[simp] theorem out_traceLookup (h : Word) (s : State) : (traceLookup h s).out = s.out := by
  unfold traceLookup; split
  · exact out_pmu ..
  · rw [out_touchLine, out_pmu]
@[simp] theorem qps_traceLookup (h : Word) (s : State) : (traceLookup h s).qps = s.qps := by
  unfold traceLookup; split
  · exact qps_pmu ..
  · rw [qps_touchLine, qps_pmu]

end Sys2Proof.Machine
end

