-- ==== Sys2Proof/Laws/Serve.lean ====
section
/-!
SUPPORT. What a request does when the module takes it: its own meaning on a state that differs only in what answering and tracing write.
-/
namespace Sys2Proof.Machine

/-- States that differ only in what answering, counting and tracing write. -/
theorem exists_of_bare {t s : State} (h : bare t = bare s) : ∃ q p i o mc d k c v a,
    t = { s with qps := q, ports := p, ingress := i, out := o, mapCache := mc, draws := d, dict := { s.dict with counters := k },
                 csr := { s.csr with counters := c, ovf := v, alert := a } } := by
  refine ⟨t.qps, t.ports, t.ingress, t.out, t.mapCache, t.draws, t.dict.counters, t.csr.counters, t.csr.ovf, t.csr.alert, ?_⟩
  have g : { bare t with
      qps := t.qps, ports := t.ports, ingress := t.ingress, out := t.out, mapCache := t.mapCache, draws := t.draws
      dict := { (bare t).dict with counters := t.dict.counters }
      csr := { (bare t).csr with counters := t.csr.counters, ovf := t.csr.ovf, alert := t.csr.alert } } = t := rfl
  rw [h] at g
  exact g.symm

/-- Links work while the module runs (R651). -/
theorem linkAlive_running {s : State} (h : s.power.phase = .running) : linkAlive s = true := by simp [linkAlive, h]

/-- The gate lets a request through that the module takes. -/
theorem gate_serves {f : Form} {m : Msg} {s : State} (hs : Serves f.on m s) (need : f.need ≤ m.ops.length) (most : m.ops.length ≤ f.most)
    (run : f.setup = true → s.mode = .run) : gate f m false s = .pass := by
  obtain ⟨h1, h2, h3, h4, h5, h6, h7⟩ := hs
  unfold gate
  have e1 : linkAlive s = true := linkAlive_running h1
  have e3 : (s.mode == Mode.fatal) = false := by simpa using h3
  have e4 : (s.sec.state == SecState.recovery) = false := by simpa using h4
  have e5 : decide (m.ops.length < f.need) = false := by simpa using need
  have e6 : decide (f.most < m.ops.length) = false := by simpa using most
  simp only [e1, h1, h2, e3, e4, h5, h6, h7, e5, e6, bne_self_eq_false, Bool.not_true, Bool.or_self, Bool.false_and, Bool.false_eq_true, ↓reduceIte,
    Bool.and_false]
  split
  · rename_i h
    simp only [Bool.and_eq_true, beq_iff_eq] at h
    rw [run h.1] at h
    cases h.2
  · rfl

/-- A request that the module takes has its own effect. -/
theorem request_serves {f : Form} {m : Msg} {s : State} {h : State → State} (hs : Serves f.on m s) (need : f.need ≤ m.ops.length)
    (most : m.ops.length ≤ f.most) (run : f.setup = true → s.mode = .run) : request f m false h s = h (takeMsg m s) := by
  unfold request; rw [gate_serves hs need most run]

/-- A peer message that the module takes has its own effect. -/
theorem peerMessage_serves {f : Form} {m : Msg} {s : State} {h : State → State} (hs : Serves f.on m s) (need : f.need ≤ m.ops.length)
    (most : m.ops.length ≤ f.most) (run : f.setup = true → s.mode = .run) : peerMessage f m h s = h (takeMsg m s) := by
  unfold peerMessage; rw [gate_serves hs need most run]

theorem lookup_of_bare {t s : State} {n : Nat} {w : Word} {k : Bool} (h : bare t = bare s) (q : t.qps = s.qps) : lookup t n w k = lookup s n w k := by
  obtain ⟨q', p, i, o, mc, d, c, e, v, a, rfl⟩ := exists_of_bare h
  cases q
  rfl

theorem lookup_torn {s : State} {n i : Nat} {w : Word} (h : lookup s n w false = .at_ i) : lookup s n w true = .at_ i := by
  revert h
  unfold lookup
  split
  · exact id
  · dsimp only
    split
    · exact id
    · split
      · intro h; cases h
      · split
        · rename_i h' ; simp at h'
        · exact id

/-- A session command that reaches its session has its own effect there. -/
theorem sessionCmd_reaches {f : Form} {torn : Bool} {m : Msg} {i : Nat} {s : State} {h : Nat → State → State} (hr : Reaches torn m i s)
    (on : f.on = .bound) (need : f.need ≤ m.ops.length) (most : m.ops.length ≤ f.most) :
    bare (taken m s) = bare s ∧ (taken m s).out = s.out ∧ (taken m s).qps = s.qps ∧ sessionCmd f torn m false h s = h i (taken m s) := by
  refine ⟨by simp [taken], by simp [taken], by simp [taken, takeMsg], ?_⟩
  unfold sessionCmd
  rw [request_serves (by rw [on]; exact hr.serves) need most (fun _ => hr.run)]
  have hb : bare (traceLookup m.handle (takeMsg m s)) = bare s := by simp
  have hq : (traceLookup m.handle (takeMsg m s)).qps = s.qps := by simp [takeMsg]
  have hl : lookup (traceLookup m.handle (takeMsg m s)) m.qp m.handle torn = .at_ i := by
    rw [lookup_of_bare hb hq]
    exact hr.found
  have hsh : (sessAt (traceLookup m.handle (takeMsg m s)) i).shadow = none := by
    obtain ⟨q', p, j, o, mc, d, c, e, v, a, hu⟩ := exists_of_bare hb
    rw [hu]
    exact hr.own
  have hf : entryHeld (traceLookup m.handle (takeMsg m s)) i = false := by
    obtain ⟨q', p, j, o, mc, d, c, e, v, a, hu⟩ := exists_of_bare hb
    rw [hu]
    exact hr.free
  dsimp only
  rw [hl]
  dsimp only
  rw [hsh, hf]
  rfl

end Sys2Proof.Machine
end

