-- ==== Sys2Proof/Laws/Apart.lean ====
section
/-!
SUPPORT. What telling the partner and the ring members leaves alone: `apart` is the same before and after.
-/
namespace Sys2Proof.Machine

/-- What answering leaves alone, telling the partner leaves alone. -/
theorem apart_of_bare {t s : State} (h : bare t = bare s) : apart t = apart s := by unfold apart; rw [h]

@[simp] theorem apart_respond (m : Msg) (a : Answer) (s : State) : apart (respond m a s) = apart s := apart_of_bare (bare_respond ..)
@[simp] theorem apart_refuse (m : Msg) (st : Status) (s : State) : apart (refuse m st s) = apart s := apart_of_bare (bare_refuse ..)
@[simp] theorem apart_bump (k : Nat) (s : State) : apart (bump k s) = apart s := rfl
@[simp] theorem apart_bumpBy (k n : Nat) (s : State) : apart (bumpBy k n s) = apart s := rfl
@[simp] theorem apart_pmu (e : PmuEvent) (s : State) : apart (pmu e s) = apart s := apart_of_bare (bare_pmu ..)
@[simp] theorem apart_sendPeer (node qp : Nat) (tag : BitVec 32) (h : Word) (c : Option Nat) (p : PeerMsg) (s : State) :
    apart (sendPeer node qp tag h c p s) = apart s := apart_of_bare (bare_sendPeer ..)
@[simp] theorem apart_openWait (w : Wait) (s : State) : apart (openWait w s) = apart s := rfl
@[simp] theorem apart_nextTag (s : State) : apart (nextTag s).2 = apart s := rfl
@[simp] theorem apart_askPeer (node qp : Nat) (h : Word) (c : WaitFor) (p : PeerMsg) (s : State) : apart (askPeer node qp h c p s) = apart s := by
  unfold askPeer; simp
@[simp] theorem apart_syncOn (i : Nat) (page : Bool) (s : State) : apart (syncOn i page s) = apart s := by
  unfold syncOn; split <;> rfl
@[simp] theorem apart_mirrorItem (i : Nat) (b : MirrorBody) (s : State) : apart (mirrorItem i b s) = apart s := by
  unfold mirrorItem; split
  · rfl
  · simp only [apart_sendPeer, apart_pmu, apart_bump]; rfl
@[simp] theorem apart_mirrorUpdate (i : Nat) (s : State) : apart (mirrorUpdate i s) = apart s := by
  unfold mirrorUpdate; dsimp only; split
  · exact apart_mirrorItem ..
  · rw [apart_syncOn, apart_mirrorItem]

theorem apart_foldl {α : Type} {f : State → α → State} (h : ∀ s a, apart (f s a) = apart s) : ∀ (l : List α) (s : State),
    apart (l.foldl f s) = apart s
  | [], _ => rfl
  | a :: l, s => (apart_foldl h l (f s a)).trans (h s a)

@[simp] theorem apart_fanRing (i : Nat) (op : BitVec 16) (ops : List Word) (l : List (Nat × Nat)) (s : State) :
    apart (fanRing i op ops l s) = apart s := apart_foldl (fun _ _ => apart_askPeer ..) l s
@[simp] theorem apart_answerRing (i : Nat) (m : Msg) (a : Status) (s : State) : apart (answerRing i m a s) = apart s := by
  unfold answerRing; dsimp only; split
  · exact apart_refuse ..
  · exact apart_fanRing ..
@[simp] theorem apart_setSess (i : Nat) (x : Session) (s : State) : apart (setSess i x s) = setSess i x (apart s) := rfl
@[simp] theorem sessions_apart (s : State) : (apart s).sessions = s.sessions := rfl

/-- Sessions are the same where `apart` is. -/
theorem sessions_of_apart {t s : State} (h : apart t = apart s) : t.sessions = s.sessions := by
  have g := congrArg State.sessions h
  exact g
theorem sessAt_of_apart {t s : State} (h : apart t = apart s) (i : Nat) : sessAt t i = sessAt s i := by
  unfold sessAt; rw [sessions_of_apart h]
theorem sessAt_of_bare {t s : State} (h : bare t = bare s) (i : Nat) : sessAt t i = sessAt s i := sessAt_of_apart (apart_of_bare h) i
theorem apart_modSess (i : Nat) (f : Session → Session) (s : State) : apart (modSess i f s) = modSess i f (apart s) := rfl

end Sys2Proof.Machine
end

