-- ==== Sys2Proof/Laws/Ordinary.lean ====
section
/-!
SUPPORT. What a step can do to the parts that only a few commands write. `Ordinary s t` says that `t` has come from `s` by operations that
leave the queue, supplies, module state, security engine, management, settings, network time, pace and the counters' configuration alone, that
unsend nothing, that draw free values onward and keep the HBM listing canonical. `Follows` says the part of it that every command keeps.
-/
namespace Sys2Proof.Machine

/-- The rest of a table with rising keys has rising keys. -/
theorem Tab.rising_tail {α : Type} {e : Nat × α} {t : Tab α} (h : Tab.rising (e :: t) = true) : Tab.rising t = true := by
  cases t with
  | nil => rfl
  | cons b t => simp [Tab.rising] at h; exact h.2

/-- The keys that follow the first of a rising table are greater. -/
theorem Tab.rising_lt {α : Type} {i : Nat} {a : α} : ∀ {t : Tab α}, Tab.rising ((i, a) :: t) = true → ∀ e ∈ t, i < e.1
  | [], _, e, he => by cases he
  | (j, b) :: t, h, e, he => by
    simp only [Tab.rising, Bool.and_eq_true, decide_eq_true_eq] at h
    rcases List.mem_cons.1 he with rfl | he
    · exact h.1
    · exact Nat.lt_trans h.1 (Tab.rising_lt h.2 e he)

/-- A key below every listed one may be put first. -/
theorem Tab.rising_cons {α : Type} {i : Nat} {a : α} {t : Tab α} (h : Tab.rising t = true) (lt : ∀ e ∈ t, i < e.1) :
    Tab.rising ((i, a) :: t) = true := by
  cases t with
  | nil => rfl
  | cons b t =>
    obtain ⟨j, b⟩ := b
    simp only [Tab.rising, Bool.and_eq_true, decide_eq_true_eq]
    exact ⟨lt _ (List.mem_cons_self ..), h⟩

/-- Leaving entries out keeps keys rising. -/
theorem Tab.rising_filter {α : Type} (p : Nat × α → Bool) : ∀ {t : Tab α}, Tab.rising t = true → Tab.rising (t.filter p) = true
  | [], _ => rfl
  | (i, a) :: t, h => by
    have ht := Tab.rising_filter p (Tab.rising_tail h)
    rw [List.filter_cons]
    split
    · exact Tab.rising_cons ht (fun e he => Tab.rising_lt h e (List.mem_filter.1 he).1)
    · exact ht

/-- What a put can add to a table's members. -/
theorem Tab.mem_put {α : Type} {k : Nat} {a : α} : ∀ {t : Tab α} {e : Nat × α}, e ∈ Tab.put t k a → e = (k, a) ∨ e ∈ t
  | [], e, he => by simp [Tab.put] at he; exact .inl he
  | (i, b) :: t, e, he => by
    simp only [Tab.put] at he
    split at he
    · rcases List.mem_cons.1 he with h | h
      · exact .inl h
      · exact .inr (List.mem_cons_of_mem _ h)
    · split at he
      · rcases List.mem_cons.1 he with h | h
        · exact .inl h
        · exact .inr h
      · rcases List.mem_cons.1 he with h | h
        · exact .inr (h ▸ List.mem_cons_self ..)
        · rcases Tab.mem_put h with h | h
          · exact .inl h
          · exact .inr (List.mem_cons_of_mem _ h)

/-- A put keeps keys rising. -/
theorem Tab.rising_put {α : Type} {k : Nat} {a : α} : ∀ {t : Tab α}, Tab.rising t = true → Tab.rising (Tab.put t k a) = true
  | [], _ => rfl
  | (i, b) :: t, h => by
    simp only [Tab.put]
    split
    · rename_i e; subst e
      exact Tab.rising_cons (Tab.rising_tail h) (fun e he => Tab.rising_lt h e he)
    · split
      · rename_i hk
        exact Tab.rising_cons h (fun e he => by
          rcases List.mem_cons.1 he with rfl | he
          · exact hk
          · exact Nat.lt_trans hk (Tab.rising_lt h e he))
      · rename_i h1 h2
        exact Tab.rising_cons (Tab.rising_put (Tab.rising_tail h)) (fun e he => by
          rcases Tab.mem_put he with rfl | he
          · exact Nat.lt_of_le_of_ne (Nat.le_of_not_lt h2) h1
          · exact Tab.rising_lt h e he)

/-- Storing one byte keeps a listing canonical. -/
theorem memPut_wf {m : List Host.Cell} (a : Nat) (b : Byte) (h : Memory.wf m = true) : Memory.wf (memPut m a b) = true := by
  simp only [Memory.wf, Bool.and_eq_true, List.all_eq_true, bne_iff_ne, ne_eq] at h ⊢
  unfold memPut
  split
  · exact ⟨Tab.rising_filter _ h.1, fun e he => h.2 e (List.mem_filter.1 he).1⟩
  · rename_i hb
    refine ⟨Tab.rising_put h.1, fun e he => ?_⟩
    rcases Tab.mem_put he with rfl | he
    · exact hb
    · exact h.2 e he

/-- Storing bytes keeps a listing canonical. -/
theorem memPutAll_wf : ∀ (l : List Byte) (a : Nat) {m : List Host.Cell}, Memory.wf m = true → Memory.wf (memPutAll l a m) = true
  | [], _, _, h => h
  | b :: t, a, _, h => memPutAll_wf t (a + 1) (memPut_wf a b h)

/-- Zeroing bytes keeps a listing canonical. -/
theorem memZero_wf {m : List Host.Cell} (a n : Nat) (h : Memory.wf m = true) : Memory.wf (memZero m a n) = true := by
  simp only [Memory.wf, Bool.and_eq_true, List.all_eq_true, bne_iff_ne, ne_eq] at h ⊢
  exact ⟨Tab.rising_filter _ h.1, fun e he => h.2 e (List.mem_filter.1 he).1⟩

/-- What every command keeps, by the fields it depends on. -/
structure FollowsCore (s : State) (pending : List Instr) (out : List Sent) (draws : Nat) (hbm : List Host.Cell) : Prop where
  queue : pending = s.pending
  sent : s.out <+: out
  drawn : s.draws ≤ draws
  memory : Memory.wf s.hbm = true → Memory.wf hbm = true

/-- What every command keeps: the queue, what has been sent, the order of the free values, the form of the HBM listing. -/
def Follows (s t : State) : Prop := FollowsCore s t.pending t.out t.draws t.hbm

/-- What only system commands write, by field. -/
structure OrdinaryCore (s : State) (power : Power) (pace : Pace) (time : Time) (vals : Tab Nat) (mgmt : Mgmt) (mode : Mode) (fatal : Nat)
    (cfg filters : Tab (BitVec 32)) (freeze : Bool) (sec : Sec) : Prop where
  power : power = s.power
  pace : pace = s.pace
  time : time = s.time
  vals : vals = s.dict.vals
  mgmt : mgmt = s.mgmt
  mode : mode = s.mode
  fatal : fatal = s.fatal
  cfg : cfg = s.csr.cfg
  filters : filters = s.csr.filters
  freeze : freeze = s.csr.freeze
  sec : sec = s.sec

/-- `t` has come from `s` by ordinary operations. -/
def Ordinary (s t : State) : Prop :=
  FollowsCore s t.pending t.out t.draws t.hbm ∧
  OrdinaryCore s t.power t.pace t.time t.dict.vals t.mgmt t.mode t.fatal t.csr.cfg t.csr.filters t.csr.freeze t.sec

theorem Follows.refl (s : State) : Follows s s := ⟨rfl, List.prefix_refl _, Nat.le_refl _, id⟩

theorem Ordinary.refl (s : State) : Ordinary s s := ⟨Follows.refl s, rfl, rfl, rfl, rfl, rfl, rfl, rfl, rfl, rfl, rfl, rfl⟩

theorem Ordinary.follows {s t : State} (h : Ordinary s t) : Follows s t := h.1

theorem Follows.trans {s t u : State} (h : Follows s t) (g : Follows t u) : Follows s u :=
  ⟨g.queue.trans h.queue, h.sent.trans g.sent, Nat.le_trans h.drawn g.drawn, fun w => g.memory (h.memory w)⟩

theorem Ordinary.trans {s t u : State} (h : Ordinary s t) (g : Ordinary t u) : Ordinary s u :=
  ⟨Follows.trans h.1 g.1, g.2.power.trans h.2.power, g.2.pace.trans h.2.pace, g.2.time.trans h.2.time, g.2.vals.trans h.2.vals, g.2.mgmt.trans h.2.mgmt,
    g.2.mode.trans h.2.mode, g.2.fatal.trans h.2.fatal, g.2.cfg.trans h.2.cfg, g.2.filters.trans h.2.filters, g.2.freeze.trans h.2.freeze,
    g.2.sec.trans h.2.sec⟩

/-- A state of an optional result. -/
structure OrdO (s : State) (o : Option State) : Prop where
  at_ : ∀ t, o = some t → Ordinary s t

/-- The state beside an optional result. -/
structure OrdP {α : Type} (s : State) (o : Option (α × State)) : Prop where
  at_ : ∀ p, o = some p → Ordinary s p.2

/-- The next state of an outcome. -/
structure OrdN (s : State) (o : Out) : Prop where
  at_ : ∀ t, o = .next t → Ordinary s t

/-- The next state of an outcome, for a system command. -/
structure FolN (s : State) (o : Out) : Prop where
  at_ : ∀ t, o = .next t → Follows s t

/-- An admission: the candidate's state if there is one, and the state beside it. -/
structure OrdA (s : State) (r : Option State × State) : Prop where
  fst : ∀ t, r.1 = some t → Ordinary s t
  snd : Ordinary s r.2

section
variable {α β : Type} {s t : State}

theorem ord_pair {p : α × State} {a : α} (e : p = (a, t)) (h : Ordinary s p.2) : Ordinary s t := by subst e; exact h
theorem ord_triple {p : α × β × State} {a : α} {b : β} (e : p = (a, b, t)) (h : Ordinary s p.2.2) : Ordinary s t := by subst e; exact h
theorem ord_quad {γ : Type} {p : α × β × γ × State} {a : α} {b : β} {c : γ} (e : p = (a, b, c, t)) (h : Ordinary s p.2.2.2) : Ordinary s t := by
  subst e; exact h
theorem ord_pairF {p : State × α} {a : α} (e : p = (t, a)) (h : Ordinary s p.1) : Ordinary s t := by subst e; exact h
theorem ord_some {o : Option State} (e : o = some t) (h : OrdO s o) : Ordinary s t := h.at_ t e
theorem ord_someP {o : Option (α × State)} {a : α} (e : o = some (a, t)) (h : OrdP s o) : Ordinary s t := h.at_ _ e
theorem ord_somePair {o : Option (α × State)} {p : α × State} (e : o = some p) (h : OrdP s o) : Ordinary s p.2 := h.at_ _ e

theorem ord_admit {r : Option State × State} {u : State} (e : r = (some t, u)) (h : OrdA s r) : Ordinary s t := h.fst t (by rw [e])
theorem ord_admit2 {r : Option State × State} (h : OrdA s r) : Ordinary s r.2 := h.snd

theorem ord_getD {o : Option State} (ho : OrdO s o) (h : Ordinary s t) : Ordinary s (o.getD t) := by
  cases o with
  | none => exact h
  | some u => exact ho.at_ u rfl

theorem ordO_none : OrdO s none := ⟨fun _ e => by cases e⟩
theorem ordO_some (h : Ordinary s t) : OrdO s (some t) := ⟨fun _ e => by cases e; exact h⟩
theorem ordP_none : OrdP (α := α) s none := ⟨fun _ e => by cases e⟩
theorem ordP_some {p : α × State} (h : Ordinary s p.2) : OrdP s (some p) := ⟨fun _ e => by cases e; exact h⟩

theorem ordO_map {o : Option State} {f : State → State} (ho : OrdO s o) (hf : ∀ u, Ordinary s u → Ordinary s (f u)) : OrdO s (o.map f) := by
  refine ⟨fun t e => ?_⟩
  cases o with
  | none => cases e
  | some u => cases e; exact hf u (ho.at_ u rfl)
theorem ordO_mapP {o : Option (α × State)} {f : α × State → State} (ho : OrdP s o) (hf : ∀ p, Ordinary s p.2 → Ordinary s (f p)) :
    OrdO s (o.map f) := by
  refine ⟨fun t e => ?_⟩
  cases o with
  | none => cases e
  | some u => cases e; exact hf u (ho.at_ u rfl)
theorem ordP_map {o : Option State} {f : State → α × State} (ho : OrdO s o) (hf : ∀ u, Ordinary s u → Ordinary s (f u).2) :
    OrdP s (o.map f) := by
  refine ⟨fun t e => ?_⟩
  cases o with
  | none => cases e
  | some u => cases e; exact hf u (ho.at_ u rfl)
theorem ordP_mapP {o : Option (α × State)} {f : α × State → β × State} (ho : OrdP s o) (hf : ∀ p, Ordinary s p.2 → Ordinary s (f p).2) :
    OrdP s (o.map f) := by
  refine ⟨fun t e => ?_⟩
  cases o with
  | none => cases e
  | some u => cases e; exact hf u (ho.at_ u rfl)
theorem ordP_mapN {o : Option α} {f : α → β × State} (hf : ∀ a, Ordinary s (f a).2) : OrdP s (o.map f) := by
  refine ⟨fun t e => ?_⟩
  cases o with
  | none => cases e
  | some u => cases e; exact hf u
theorem ordO_mapN {o : Option α} {f : α → State} (hf : ∀ a, Ordinary s (f a)) : OrdO s (o.map f) := by
  refine ⟨fun t e => ?_⟩
  cases o with
  | none => cases e
  | some u => cases e; exact hf u
theorem ordO_bind {o : Option State} {f : State → Option State} (ho : OrdO s o) (hf : ∀ u, Ordinary s u → OrdO s (f u)) : OrdO s (o.bind f) := by
  refine ⟨fun t e => ?_⟩
  cases o with
  | none => cases e
  | some u => exact (hf u (ho.at_ u rfl)).at_ t e
theorem ordO_bindP {o : Option (α × State)} {f : α × State → Option State} (ho : OrdP s o) (hf : ∀ p, Ordinary s p.2 → OrdO s (f p)) :
    OrdO s (o.bind f) := by
  refine ⟨fun t e => ?_⟩
  cases o with
  | none => cases e
  | some u => exact (hf u (ho.at_ u rfl)).at_ t e
theorem ordP_bind {o : Option State} {f : State → Option (α × State)} (ho : OrdO s o) (hf : ∀ u, Ordinary s u → OrdP s (f u)) :
    OrdP s (o.bind f) := by
  refine ⟨fun t e => ?_⟩
  cases o with
  | none => cases e
  | some u => exact (hf u (ho.at_ u rfl)).at_ t e
theorem ordP_bindP {o : Option (α × State)} {f : α × State → Option (β × State)} (ho : OrdP s o) (hf : ∀ p, Ordinary s p.2 → OrdP s (f p)) :
    OrdP s (o.bind f) := by
  refine ⟨fun t e => ?_⟩
  cases o with
  | none => cases e
  | some u => exact (hf u (ho.at_ u rfl)).at_ t e
theorem ordO_bindN {o : Option α} {f : α → Option State} (hf : ∀ a, OrdO s (f a)) : OrdO s (o.bind f) := by
  refine ⟨fun t e => ?_⟩
  cases o with
  | none => cases e
  | some u => exact (hf u).at_ t e
theorem ordP_bindN {o : Option α} {f : α → Option (β × State)} (hf : ∀ a, OrdP s (f a)) : OrdP s (o.bind f) := by
  refine ⟨fun t e => ?_⟩
  cases o with
  | none => cases e
  | some u => exact (hf u).at_ t e

theorem ord_foldl {f : State → α → State} {l : List α} (hf : ∀ t a, Ordinary s t → Ordinary s (f t a)) (h : Ordinary s t) :
    Ordinary s (l.foldl f t) := by
  induction l generalizing t with
  | nil => exact h
  | cons a l ih => exact ih (hf t a h)
theorem ord_foldlP {f : β × State → α → β × State} {l : List α} {p : β × State} (hf : ∀ p a, Ordinary s p.2 → Ordinary s (f p a).2)
    (h : Ordinary s p.2) : Ordinary s (l.foldl f p).2 := by
  induction l generalizing p with
  | nil => exact h
  | cons a l ih => exact ih (hf p a h)
theorem ord_foldlT {γ : Type} {f : β × γ × State → α → β × γ × State} {l : List α} {p : β × γ × State}
    (hf : ∀ p a, Ordinary s p.2.2 → Ordinary s (f p a).2.2) (h : Ordinary s p.2.2) : Ordinary s (l.foldl f p).2.2 := by
  induction l generalizing p with
  | nil => exact h
  | cons a l ih => exact ih (hf p a h)
theorem ord_foldlF {f : State × β → α → State × β} {l : List α} {p : State × β} (hf : ∀ p a, Ordinary s p.1 → Ordinary s (f p a).1)
    (h : Ordinary s p.1) : Ordinary s (l.foldl f p).1 := by
  induction l generalizing p with
  | nil => exact h
  | cons a l ih => exact ih (hf p a h)
theorem ordO_foldl {f : Option State → α → Option State} {l : List α} {o : Option State} (hf : ∀ o a, OrdO s o → OrdO s (f o a))
    (h : OrdO s o) : OrdO s (l.foldl f o) := by
  induction l generalizing o with
  | nil => exact h
  | cons a l ih => exact ih (hf o a h)
theorem ordP_foldl {f : Option (β × State) → α → Option (β × State)} {l : List α} {o : Option (β × State)}
    (hf : ∀ o a, OrdP s o → OrdP s (f o a)) (h : OrdP s o) : OrdP s (l.foldl f o) := by
  induction l generalizing o with
  | nil => exact h
  | cons a l ih => exact ih (hf o a h)
theorem ord_foldRange {f : State → Nat → State} {n : Nat} (hf : ∀ t a, Ordinary s t → Ordinary s (f t a)) (h : Ordinary s t) :
    Ordinary s (foldRange n f t) := ord_foldl hf h
theorem ordO_foldRange {f : Option State → Nat → Option State} {n : Nat} {o : Option State} (hf : ∀ o a, OrdO s o → OrdO s (f o a))
    (h : OrdO s o) : OrdO s (foldRange n f o) := ordO_foldl hf h

theorem ordN_next {u : State} (h : Ordinary s u) : OrdN s (.next u) := ⟨fun _ e => by cases e; exact h⟩
theorem folN_next {u : State} (h : Follows s u) : FolN s (.next u) := ⟨fun _ e => by cases e; exact h⟩
theorem ord_trans' {u : State} (o : Ordinary t u) (h : Ordinary s t) : Ordinary s u := h.trans o
theorem fol_ord {u : State} (o : Ordinary t u) (h : Follows s t) : Follows s u := h.trans o.1
theorem fol_trans {u : State} (o : Follows t u) (h : Follows s t) : Follows s u := h.trans o
theorem fol_pair {p : α × State} {a : α} (e : p = (a, t)) (h : Follows s p.2) : Follows s t := by subst e; exact h
theorem fol_foldl {f : State → α → State} {l : List α} (hf : ∀ t a, Follows s t → Follows s (f t a)) (h : Follows s t) :
    Follows s (l.foldl f t) := by
  induction l generalizing t with
  | nil => exact h
  | cons a l ih => exact ih (hf t a h)
theorem fol_ite {c : Prop} [Decidable c] {a b : α × State} (h : Follows s a.2) (g : Follows s b.2) : Follows s (if c then a else b).2 := by
  split
  · exact h
  · exact g
theorem fol_quad {γ : Type} {p : α × β × γ × State} {a : α} {b : β} {c : γ} (e : p = (a, b, c, t)) (h : Follows s p.2.2.2) : Follows s t := by
  subst e; exact h
theorem fol_triple {p : α × β × State} {a : α} {b : β} (e : p = (a, b, t)) (h : Follows s p.2.2) : Follows s t := by subst e; exact h
theorem engine_ord {u : State} (h : Ordinary s t) (g : Ordinary s u) : Ordinary s (engine t u) := by
  unfold engine; split
  · exact g
  · exact h
theorem engineHeld_ord {u : State} (h : Ordinary s t) (g : Ordinary s u) : Ordinary s (engineHeld t u) := by
  unfold engineHeld; refine engine_ord h ?_; split
  · exact h
  · exact g
theorem engine_fol {u : State} (h : Follows s t) (g : Follows s u) : Follows s (engine t u) := by
  unfold engine; split
  · exact g
  · exact h
theorem engineHeld_fol {u : State} (h : Follows s t) (g : Follows s u) : Follows s (engineHeld t u) := by
  unfold engineHeld; refine engine_fol h ?_; split
  · exact h
  · exact g
end

/-- An update of the parts that ordinary operations write is ordinary. -/
theorem ord_upd {s t : State} {dict' : Dict} {scrubbedAt' : Tab Nat} {csr' : Csr} {sessions' : Tab Session} {freed' : List Nat} {frames' : Tab Frame} {fills' :
    Tab Nat} {mapCache' : Tab (Nat × Nat)} {models' : Tab Model} {ropes' : Tab Rope} {ropeLoads' : List RopeLoad} {ropeCount' : Nat} {fielders' : Tab
    Fielder} {catchers' : Tab Catcher} {merges' : Tab Merge} {mergeTag' : Nat} {jobs' : Tab Job} {parts' : Tab Part} {roleAt' : Nat}
    {contexts' : Tab Context} {lastTeardown' : Nat} {vocabs' : Tab Vocab} {grammars' : Tab Grammar} {lists' : Tab SeqList} {stages' :
    List Stage} {segments' : Tab Segment} {masks' : List MaskReq} {indexes' : Tab VIndex} {searches' : Tab Search} {searchWaits' : Tab
    SearchWait} {searchCount' : Nat} {hostSlots' : List Nat} {poolSlots' : List Nat} {hostRanges' : Tab HostRange} {poolRanges' : Tab
    PoolRange} {hostId' : Nat} {poolChannels' : Nat} {transfers' : Tab Transfer} {nextTile' : Nat} {reviveTurn' : Nat} {regions' : Tab Region} {leaseCount'
    : Nat} {publishes' : Tab Publish} {publishCount' : Nat} {retained' : List Retained} {attachments' : Tab Attachment} {regionJobs' :
    Tab RegionJob} {wrs' : Tab WorkReq} {wrCount' : Nat} {triggers' : Tab Trigger} {waits' : Tab Wait} {tagCount' : Nat} {held' : List
    (Nat × Msg)} {tileIngress' : List TileWrite} {ports' : Tab Port} {sampler' : Sampler} {qps' : Tab Qp} {ingress' : List Msg} {pair' :
    Pair} {ringMap' : List (Word × Nat)} {ringWaits' : List RingWait} {survey' : Survey}
    (e1 : dict'.vals = t.dict.vals) (e2 : csr'.cfg = t.csr.cfg) (e3 : csr'.filters = t.csr.filters)
    (e4 : csr'.freeze = t.csr.freeze) :
    Ordinary s (State.mk t.pending t.power t.pace t.time dict' t.mgmt t.mode t.fatal scrubbedAt' csr' sessions' freed' frames' t.hbm fills' mapCache'
    models' ropes' ropeLoads' ropeCount' fielders' catchers' merges' mergeTag' jobs' parts' roleAt' contexts' lastTeardown' vocabs' grammars' lists'
    stages' segments' masks' indexes' searches' searchWaits' searchCount' hostSlots' poolSlots' hostRanges' poolRanges' hostId'
    poolChannels' transfers' nextTile' reviveTurn' regions' leaseCount' publishes' publishCount' retained' attachments' regionJobs' wrs' wrCount'
    triggers' waits' tagCount' held' tileIngress' ports' sampler' qps' ingress' t.out pair' ringMap' ringWaits' survey' t.sec t.draws) ↔ Ordinary s t :=
  ⟨fun h => ⟨h.1, h.2.power, h.2.pace, h.2.time, e1.symm.trans h.2.vals, h.2.mgmt, h.2.mode, h.2.fatal, e2.symm.trans h.2.cfg,
      e3.symm.trans h.2.filters, e4.symm.trans h.2.freeze, h.2.sec⟩,
    fun h => ⟨h.1, h.2.power, h.2.pace, h.2.time, e1.trans h.2.vals, h.2.mgmt, h.2.mode, h.2.fatal, e2.trans h.2.cfg, e3.trans h.2.filters,
      e4.trans h.2.freeze, h.2.sec⟩⟩

/-- An update of anything but what every command keeps follows. -/
theorem fol_upd {s t : State} {power' : Power} {pace' : Pace} {time' : Time} {dict' : Dict} {mgmt' : Mgmt} {mode' : Mode} {fatal' : Nat}
    {scrubbedAt' : Tab Nat} {csr' : Csr} {sessions' : Tab Session} {freed' : List Nat} {frames' : Tab Frame} {fills' : Tab Nat} {mapCache' : Tab
    (Nat × Nat)} {models' : Tab Model} {ropes' : Tab Rope} {ropeLoads' : List RopeLoad} {ropeCount' : Nat} {fielders' : Tab Fielder} {catchers'
    : Tab Catcher}
    {merges' : Tab Merge} {mergeTag' : Nat} {jobs' : Tab Job} {parts' : Tab Part} {roleAt' : Nat} {contexts' : Tab Context}
    {lastTeardown' : Nat} {vocabs' : Tab Vocab} {grammars' : Tab Grammar} {lists' : Tab SeqList} {stages' : List Stage} {segments' : Tab
    Segment} {masks' : List MaskReq} {indexes' : Tab VIndex} {searches' : Tab Search} {searchWaits' : Tab SearchWait} {searchCount' :
    Nat} {hostSlots' : List Nat} {poolSlots' : List Nat} {hostRanges' : Tab HostRange} {poolRanges' : Tab PoolRange} {hostId' : Nat}
    {poolChannels' : Nat} {transfers' : Tab Transfer} {nextTile' : Nat} {reviveTurn' : Nat} {regions' : Tab Region} {leaseCount' : Nat} {publishes' : Tab
    Publish} {publishCount' : Nat} {retained' : List Retained} {attachments' : Tab Attachment} {regionJobs' : Tab RegionJob} {wrs' : Tab
    WorkReq} {wrCount' : Nat} {triggers' : Tab Trigger} {waits' : Tab Wait} {tagCount' : Nat} {held' : List (Nat × Msg)} {tileIngress' :
    List TileWrite} {ports' : Tab Port} {sampler' : Sampler} {qps' : Tab Qp} {ingress' : List Msg} {pair' : Pair} {ringMap' : List (Word
    × Nat)} {ringWaits' : List RingWait} {survey' : Survey} {sec' : Sec}
    :
    Follows s (State.mk t.pending power' pace' time' dict' mgmt' mode' fatal' scrubbedAt' csr' sessions' freed' frames' t.hbm fills' mapCache'
    models' ropes' ropeLoads' ropeCount' fielders' catchers' merges' mergeTag' jobs' parts' roleAt' contexts' lastTeardown' vocabs' grammars' lists'
    stages' segments' masks' indexes' searches' searchWaits' searchCount' hostSlots' poolSlots' hostRanges' poolRanges' hostId'
    poolChannels' transfers' nextTile' reviveTurn' regions' leaseCount' publishes' publishCount' retained' attachments' regionJobs' wrs' wrCount'
    triggers' waits' tagCount' held' tileIngress' ports' sampler' qps' ingress' t.out pair' ringMap' ringWaits' survey' sec' t.draws) ↔ Follows s t := Iff.rfl

theorem writeBytes_ord {s t : State} (h : Ordinary s t) (a : Nat) (l : List Byte) : Ordinary s (writeBytes a l t) :=
  ⟨⟨h.1.queue, h.1.sent, h.1.drawn, fun w => memPutAll_wf l a (h.1.memory w)⟩, h.2⟩
theorem zeroBytes_ord {s t : State} (h : Ordinary s t) (a n : Nat) : Ordinary s (zeroBytes a n t) :=
  ⟨⟨h.1.queue, h.1.sent, h.1.drawn, fun w => memZero_wf a n (h.1.memory w)⟩, h.2⟩
theorem emit_ord {s t : State} (h : Ordinary s t) (x : Sent) : Ordinary s (emit x t) :=
  ⟨⟨h.1.queue, h.1.sent.trans (List.prefix_append ..), h.1.drawn, h.1.memory⟩, h.2⟩
theorem draw_ord {s t : State} (h : Ordinary s t) : Ordinary s (draw t).2 :=
  ⟨⟨h.1.queue, h.1.sent, Nat.le_succ_of_le h.1.drawn, h.1.memory⟩, h.2⟩
theorem drawBytes_ord {s t : State} (h : Ordinary s t) (n : Nat) : Ordinary s (drawBytes n t).2 :=
  ⟨⟨h.1.queue, h.1.sent, Nat.le_succ_of_le h.1.drawn, h.1.memory⟩, h.2⟩

end Sys2Proof.Machine
end

