-- ==== Sys2Proof/Laws/OrdFlags.lean ====
section
/-!
SUPPORT. The operations of Machine/Flags.lean are ordinary.
-/
namespace Sys2Proof.Machine

theorem bumpBy_ord {s₀ s : State} {key : Nat} {n : Nat} (h₀ : Ordinary s₀ s) :
    Ordinary s₀ (bumpBy key n s) := by
  unfold bumpBy
  repeat' (first | with_reducible assumption | simp only [ord_upd])

theorem bump_ord {s₀ s : State} {key : Nat} (h₀ : Ordinary s₀ s) :
    Ordinary s₀ (bump key s) := by
  unfold bump
  repeat' (first | with_reducible assumption | with_reducible (apply bumpBy_ord))

theorem alert_ord {s₀ s : State} {a : Alert} (h₀ : Ordinary s₀ s) :
    Ordinary s₀ (alert a s) := by
  unfold alert
  repeat' (first | with_reducible assumption | simp only [ord_upd])

theorem pmuAdd_ord {s₀ t : State} {x0 : Nat} {x1 : Nat} {x2 : Nat} (h₀ : Ordinary s₀ t) :
    Ordinary s₀ (pmuAdd x0 x1 x2 t) := by
  induction x0 generalizing t x1 x2 with
  | zero => (try simp only [pmuAdd]); repeat' (first | with_reducible assumption | simp only [ord_upd] | with_reducible (apply alert_ord) | (with_reducible refine ord_getD ?_ ?_))
  | succ n ih =>
    simp only [pmuAdd]
    repeat' (first | with_reducible assumption | simp only [ord_upd] | with_reducible (apply ih) | with_reducible (apply alert_ord) | split)

theorem pmu_ord {s₀ s : State} {e : PmuEvent} (h₀ : Ordinary s₀ s) :
    Ordinary s₀ (pmu e s) := by
  unfold pmu
  repeat' (first | with_reducible assumption | with_reducible (apply pmuAdd_ord) | (refine ord_foldl (fun _ _ _ => ?_) ?_) | split)

theorem laneBusy_ord {s₀ s : State} {f : Nat} {hs : Nat} {priv : Priv} {svc : Option Nat} (h₀ : Ordinary s₀ s) :
    Ordinary s₀ (laneBusy f hs priv svc s) := by
  unfold laneBusy
  repeat' (first | with_reducible assumption | simp only [ord_upd] | dsimp only | with_reducible (apply pmu_ord) | (refine ord_foldRange (fun _ _ _ => ?_) ?_) | (refine ordO_foldRange (fun _ _ _ => ?_) ?_) | exact ordO_none | exact ordP_none | apply ordO_some | apply ordP_some | (with_reducible refine ord_getD ?_ ?_) | (refine ord_admit (by assumption) ?_) | (refine ord_pair (by assumption) ?_) | (refine ord_triple (by assumption) ?_) | (refine ord_quad (by assumption) ?_) | (refine ord_some (by assumption) ?_) | (refine ord_someP (by assumption) ?_) | (refine ord_somePair (by assumption) ?_) | split)

end Sys2Proof.Machine
end

