-- ==== Sys2Proof/Laws/OrdLink.lean ====
section
/-!
SUPPORT. The operations of Machine/Link.lean are ordinary.
-/
namespace Sys2Proof.Machine

theorem setQp_ord {s₀ s : State} {n : Nat} {q : Qp} (h₀ : Ordinary s₀ s) :
    Ordinary s₀ (setQp n q s) := by
  unfold setQp
  repeat' (first | with_reducible assumption | simp only [ord_upd])

theorem setPort_ord {s₀ s : State} {k : Nat} {p : Port} (h₀ : Ordinary s₀ s) :
    Ordinary s₀ (setPort k p s) := by
  unfold setPort
  repeat' (first | with_reducible assumption | simp only [ord_upd])

theorem joinQueue_ord {s₀ s : State} {k : Nat} {x : Queued} (h₀ : Ordinary s₀ s) :
    Ordinary s₀ (joinQueue k x s) := by
  unfold joinQueue
  repeat' (first | with_reducible assumption | simp only [ord_upd] | with_reducible (apply bump_ord) | with_reducible (apply setPort_ord) | split)

theorem queuePacket_ord {s₀ s : State} {n : Nat} {p : Packet} {repeated : Bool} {grant : Option Nat} (h₀ : Ordinary s₀ s) :
    Ordinary s₀ (queuePacket n p repeated grant s) := by
  unfold queuePacket
  repeat' (first | with_reducible assumption | with_reducible (apply bump_ord) | with_reducible (apply joinQueue_ord) | split)

theorem flushQp_ord {s₀ t : State} {n : Nat} {x0 : Nat} (h₀ : Ordinary s₀ t) :
    Ordinary s₀ (flushQp n x0 t) := by
  induction x0 generalizing t with
  | zero => (try simp only [flushQp]); repeat' (first | with_reducible assumption | with_reducible (apply queuePacket_ord) | with_reducible (apply setQp_ord) | exact ordO_none)
  | succ n ih =>
    simp only [flushQp]
    repeat' (first | with_reducible assumption | with_reducible (apply ih) | with_reducible (apply queuePacket_ord) | with_reducible (apply setQp_ord) | split)

theorem sendPackets_ord {s₀ s : State} {n : Nat} {l : List Outgoing} (h₀ : Ordinary s₀ s) :
    Ordinary s₀ (sendPackets n l s) := by
  unfold sendPackets
  repeat' (first | with_reducible assumption | simp only [ord_upd] | with_reducible (apply flushQp_ord) | with_reducible (apply setQp_ord) | split)

theorem sendMsg_ord {s₀ s : State} {m : Msg} (h₀ : Ordinary s₀ s) :
    Ordinary s₀ (sendMsg m s) := by
  unfold sendMsg
  repeat' (first | with_reducible assumption | with_reducible (apply sendPackets_ord) | with_reducible (apply emit_ord) | split)

theorem respond_ord {s₀ s : State} {m : Msg} {a : Answer} (h₀ : Ordinary s₀ s) :
    Ordinary s₀ (respond m a s) := by
  unfold respond
  repeat' (first | with_reducible assumption | with_reducible (apply sendMsg_ord))

theorem refuse_ord {s₀ s : State} {m : Msg} {st : Status} (h₀ : Ordinary s₀ s) :
    Ordinary s₀ (refuse m st s) := by
  unfold refuse
  repeat' (first | with_reducible assumption | with_reducible (apply respond_ord))

theorem notify_ord {s₀ s : State} {qp : Nat} {opcode : BitVec 16} {tag : BitVec 32} {handle : Word} {st : Status} {args : Word} {ops : List Word} {body : List Byte} (h₀ : Ordinary s₀ s) :
    Ordinary s₀ (notify qp opcode tag handle st args ops body s) := by
  unfold notify
  repeat' (first | with_reducible assumption | with_reducible (apply sendMsg_ord))

theorem sendMask_ord {s₀ s : State} {t : Nat} {m : Msg} (h₀ : Ordinary s₀ s) :
    Ordinary s₀ (sendMask t m s) := by
  unfold sendMask
  repeat' (first | with_reducible assumption | with_reducible (apply sendPackets_ord) | with_reducible (apply emit_ord) | split)

theorem sendTile_ord {s₀ s : State} {n : Nat} {o : Outgoing} (h₀ : Ordinary s₀ s) :
    Ordinary s₀ (sendTile n o s) := by
  unfold sendTile
  repeat' (first | with_reducible assumption | with_reducible (apply sendPackets_ord) | with_reducible (apply emit_ord) | split)

theorem sendPeer_ord {s₀ s : State} {node : Nat} {qp : Nat} {tag : BitVec 32} {handle : Word} {conf : Option Nat} {p : PeerMsg} (h₀ : Ordinary s₀ s) :
    Ordinary s₀ (sendPeer node qp tag handle conf p s) := by
  unfold sendPeer
  repeat' (first | with_reducible assumption | simp only [ord_upd] | with_reducible (apply sendPackets_ord) | with_reducible (apply emit_ord) | split)

end Sys2Proof.Machine
end

