-- ==== Sys2Proof/Laws/OrdOperands.lean ====
section
/-!
SUPPORT. The operations of Machine/Operands.lean are ordinary.
-/
namespace Sys2Proof.Machine

theorem takeMsg_ord {s₀ s : State} {m : Msg} (h₀ : Ordinary s₀ s) :
    Ordinary s₀ (takeMsg m s) := by
  unfold takeMsg
  repeat' (first | with_reducible assumption | simp only [ord_upd])

theorem request_ord {s₀ s : State} {f : Form} {m : Msg} {bad : Bool} {h : State → State} (h₀ : Ordinary s₀ s)
    (hf : ∀ t, Ordinary s₀ t → Ordinary s₀ (h t)) : Ordinary s₀ (request f m bad h s) := by
  unfold request
  split
  · exact takeMsg_ord h₀
  · split
    · exact h₀
    · simp only [ord_upd]; exact h₀
  · exact refuse_ord (takeMsg_ord h₀)
  · exact hf _ (takeMsg_ord h₀)

theorem request_fol {s₀ s : State} {f : Form} {m : Msg} {bad : Bool} {h : State → State} (h₀ : Follows s₀ s)
    (hf : ∀ t, Follows s₀ t → Follows s₀ (h t)) : Follows s₀ (request f m bad h s) := by
  unfold request
  split
  · exact fol_ord (takeMsg_ord (Ordinary.refl _)) h₀
  · split
    · exact h₀
    · simp only [fol_upd]; exact h₀
  · exact fol_ord (refuse_ord (takeMsg_ord (Ordinary.refl _))) h₀
  · exact hf _ (fol_ord (takeMsg_ord (Ordinary.refl _)) h₀)

theorem peerMessage_ord {s₀ s : State} {f : Form} {m : Msg} {h : State → State} (h₀ : Ordinary s₀ s) (hf : ∀ (t : State), Ordinary s₀ t → Ordinary s₀ (h t)) :
    Ordinary s₀ (peerMessage f m h s) := by
  unfold peerMessage
  repeat' (first | with_reducible assumption | simp only [ord_upd] | with_reducible (apply refuse_ord) | with_reducible (apply takeMsg_ord) | with_reducible (apply hf) | split)

end Sys2Proof.Machine
end

