-- ==== Sys2Proof/Laws/OrdOps.lean ====
section
/-!
SUPPORT. The operations of Machine/Ops.lean are ordinary.
-/
namespace Sys2Proof.Machine

theorem setFrame_ord {s₀ s : State} {f : Nat} {x : Frame} (h₀ : Ordinary s₀ s) :
    Ordinary s₀ (setFrame f x s) := by
  unfold setFrame
  repeat' (first | with_reducible assumption | simp only [ord_upd])

theorem allocFrame_ord {s₀ s : State} {fielder : Nat} {x : Frame} (h₀ : Ordinary s₀ s) :
    OrdP s₀ (allocFrame fielder x s) := by
  unfold allocFrame
  repeat' (first | with_reducible assumption | simp only [ord_upd] | with_reducible (apply zeroBytes_ord) | with_reducible (apply setFrame_ord) | (refine ordP_mapN (fun _ => ?_)))

theorem sealFrame_ord {s₀ s : State} {f : Nat} {kx : List Byte} (h₀ : Ordinary s₀ s) :
    Ordinary s₀ (sealFrame f kx s) := by
  unfold sealFrame
  repeat' (first | with_reducible assumption | simp only [ord_upd] | with_reducible (apply writeBytes_ord) | (refine ord_foldRange (fun _ _ _ => ?_) ?_))

theorem turnFrame_ord {s₀ s : State} {f : Nat} {st : FrameState} (h₀ : Ordinary s₀ s) :
    Ordinary s₀ (turnFrame f st s) := by
  unfold turnFrame
  repeat' (first | with_reducible assumption | simp only [ord_upd] | with_reducible (apply setFrame_ord) | split)

theorem freeFrame_ord {s₀ s : State} {f : Nat} (h₀ : Ordinary s₀ s) :
    Ordinary s₀ (freeFrame f s) := by
  unfold freeFrame
  repeat' (first | with_reducible assumption | simp only [ord_upd] | with_reducible (apply sealFrame_ord) | with_reducible (apply setFrame_ord) | split)

theorem dropRef_ord {s₀ s : State} {f : Nat} (h₀ : Ordinary s₀ s) :
    Ordinary s₀ (dropRef f s) := by
  unfold dropRef
  repeat' (first | with_reducible assumption | simp only [ord_upd] | with_reducible (apply setFrame_ord) | with_reducible (apply freeFrame_ord) | split)

theorem addRef_ord {s₀ s : State} {f : Nat} (h₀ : Ordinary s₀ s) :
    Ordinary s₀ (addRef f s) := by
  unfold addRef
  repeat' (first | with_reducible assumption | simp only [ord_upd] | with_reducible (apply setFrame_ord))

theorem retireFrame_ord {s₀ s : State} {f : Nat} (h₀ : Ordinary s₀ s) :
    Ordinary s₀ (retireFrame f s) := by
  unfold retireFrame
  repeat' (first | with_reducible assumption | simp only [ord_upd] | with_reducible (apply setFrame_ord))

theorem keepOwnWays_ord {s₀ s : State} (h₀ : Ordinary s₀ s) :
    Ordinary s₀ (keepOwnWays s) := by
  unfold keepOwnWays
  repeat' (first | with_reducible assumption | simp only [ord_upd])

theorem touchLine_ord {s₀ s : State} {p : Nat} {line : Nat} {priv : Priv} (h₀ : Ordinary s₀ s) :
    Ordinary s₀ (touchLine p line priv s) := by
  unfold touchLine
  repeat' (first | with_reducible assumption | simp only [ord_upd] | with_reducible (apply pmu_ord) | with_reducible (apply bump_ord) | with_reducible (apply draw_ord) | split)

theorem setSess_ord {s₀ s : State} {i : Nat} {x : Session} (h₀ : Ordinary s₀ s) :
    Ordinary s₀ (setSess i x s) := by
  unfold setSess
  repeat' (first | with_reducible assumption | simp only [ord_upd])

theorem modSess_ord {s₀ s : State} {i : Nat} {f : Session → Session} (h₀ : Ordinary s₀ s) :
    Ordinary s₀ (modSess i f s) := by
  unfold modSess
  repeat' (first | with_reducible assumption | with_reducible (apply setSess_ord))

theorem modPart_ord {s₀ s : State} {p : Nat} {f : Part → Part} (h₀ : Ordinary s₀ s) :
    Ordinary s₀ (modPart p f s) := by
  unfold modPart
  repeat' (first | with_reducible assumption | simp only [ord_upd])

end Sys2Proof.Machine
end

