-- ==== Sys2Proof/Laws/OrdPages.lean ====
section
/-!
SUPPORT. The operations of Machine/Pages.lean are ordinary.
-/
namespace Sys2Proof.Machine

theorem allocMapFrame_ord {s₀ s : State} {i : Nat} {start : Nat} (h₀ : Ordinary s₀ s) :
    OrdP s₀ (allocMapFrame i start s) := by
  unfold allocMapFrame
  repeat' (first | with_reducible assumption | simp only [ord_upd] | with_reducible (apply allocFrame_ord) | (refine ordP_bindN (fun _ => ?_)))

theorem mirrorItem_ord {s₀ s : State} {i : Nat} {b : MirrorBody} (h₀ : Ordinary s₀ s) :
    Ordinary s₀ (mirrorItem i b s) := by
  unfold mirrorItem
  repeat' (first | with_reducible assumption | simp only [ord_upd] | with_reducible (apply pmu_ord) | with_reducible (apply bump_ord) | with_reducible (apply sendPeer_ord) | split)

theorem mirrorRows_ord {s₀ s : State} {i : Nat} {k : Nat} {h : Shape} {whole : Bool} {want : Nat → Bool} (h₀ : Ordinary s₀ s) :
    Ordinary s₀ (mirrorRows i k h whole want s) := by
  unfold mirrorRows
  repeat' (first | with_reducible assumption | simp only [ord_upd] | with_reducible (apply mirrorItem_ord))

theorem syncOn_ord {s₀ s : State} {i : Nat} {page : Bool} (h₀ : Ordinary s₀ s) :
    Ordinary s₀ (syncOn i page s) := by
  unfold syncOn
  repeat' (first | with_reducible assumption | simp only [ord_upd] | split)

theorem mirrorUpdate_ord {s₀ s : State} {i : Nat} (h₀ : Ordinary s₀ s) :
    Ordinary s₀ (mirrorUpdate i s) := by
  unfold mirrorUpdate
  repeat' (first | with_reducible assumption | simp only [ord_upd] | with_reducible (apply mirrorItem_ord) | with_reducible (apply syncOn_ord) | split)

theorem syncSession_ord {s₀ s : State} {i : Nat} (h₀ : Ordinary s₀ s) :
    Ordinary s₀ (syncSession i s) := by
  unfold syncSession
  repeat' (first | with_reducible assumption | simp only [ord_upd] | with_reducible (apply mirrorUpdate_ord) | with_reducible (apply mirrorItem_ord) | with_reducible (apply syncOn_ord) | (refine ord_foldl (fun _ _ _ => ?_) ?_) | split)

theorem freeHome_ord {s₀ s : State} {tier : Nat} {slot : Nat} (h₀ : Ordinary s₀ s) :
    Ordinary s₀ (freeHome tier slot s) := by
  unfold freeHome
  repeat' (first | with_reducible assumption | simp only [ord_upd] | with_reducible (apply bump_ord) | split)

theorem putPage_ord {s₀ s : State} {i : Nat} {k : Nat} {e : PageEntry} (h₀ : Ordinary s₀ s) :
    Ordinary s₀ (putPage i k e s) := by
  unfold putPage
  repeat' (first | with_reducible assumption | simp only [ord_upd] | with_reducible (apply setSess_ord) | with_reducible (apply mirrorItem_ord) | split)

theorem dropHome_ord {s₀ s : State} {i : Nat} {k : Nat} (h₀ : Ordinary s₀ s) :
    Ordinary s₀ (dropHome i k s) := by
  unfold dropHome
  repeat' (first | with_reducible assumption | simp only [ord_upd] | with_reducible (apply putPage_ord) | with_reducible (apply freeHome_ord) | split)

theorem ensureLeaf_ord {s₀ s : State} {i : Nat} {h : Shape} {layer : Nat} {head : Nat} {k : Nat} (h₀ : Ordinary s₀ s) :
    OrdO s₀ (ensureLeaf i h layer head k s) := by
  unfold ensureLeaf
  repeat' (first | with_reducible assumption | simp only [ord_upd] | with_reducible (apply allocMapFrame_ord) | with_reducible (apply modSess_ord) | (refine ordO_mapP ?_ (fun _ _ => ?_)) | apply ordO_some | split)

theorem allocPage_ord {s₀ s : State} {i : Nat} {h : Shape} {layer : Nat} {head : Nat} {n : Nat} {st : FrameState} (h₀ : Ordinary s₀ s) :
    OrdO s₀ (allocPage i h layer head n st s) := by
  unfold allocPage
  repeat' (first | with_reducible assumption | simp only [ord_upd] | with_reducible (apply allocFrame_ord) | with_reducible (apply ensureLeaf_ord) | with_reducible (apply putPage_ord) | (refine ordO_map ?_ (fun _ _ => ?_)) | (refine ordO_bindP ?_ (fun _ _ => ?_)) | (refine ordO_bindN (fun _ => ?_)))

theorem writeRow_ord {s₀ s : State} {h : Shape} {f : Nat} {p : Nat} {k : List Byte} {v : List Byte} (h₀ : Ordinary s₀ s) :
    Ordinary s₀ (writeRow h f p k v s) := by
  unfold writeRow
  repeat' (first | with_reducible assumption | with_reducible (apply writeBytes_ord) | (refine ord_foldRange (fun _ _ _ => ?_) ?_))

theorem zeroRow_ord {s₀ s : State} {h : Shape} {f : Nat} {p : Nat} (h₀ : Ordinary s₀ s) :
    Ordinary s₀ (zeroRow h f p s) := by
  unfold zeroRow
  repeat' (first | with_reducible assumption | with_reducible (apply zeroBytes_ord) | (refine ord_foldRange (fun _ _ _ => ?_) ?_))

theorem zeroRows_ord {s₀ s : State} {h : Shape} {f : Nat} {first : Nat} {len : Nat} (h₀ : Ordinary s₀ s) :
    Ordinary s₀ (zeroRows h f first len s) := by
  unfold zeroRows
  repeat' (first | with_reducible assumption | with_reducible (apply zeroRow_ord) | (refine ord_foldRange (fun _ _ _ => ?_) ?_) | split)

theorem copyFrame_ord {s₀ s : State} {h : Shape} {src : Nat} {dst : Nat} {first : Nat} {len : Nat} (h₀ : Ordinary s₀ s) :
    Ordinary s₀ (copyFrame h src dst first len s) := by
  unfold copyFrame
  repeat' (first | with_reducible assumption | with_reducible (apply zeroRows_ord) | with_reducible (apply writeBytes_ord))

theorem ownPage_ord {s₀ s : State} {i : Nat} {k : Nat} {h : Shape} {first : Nat} {len : Nat} (h₀ : Ordinary s₀ s) :
    Ordinary s₀ (ownPage i k h first len s) := by
  unfold ownPage
  repeat' (first | with_reducible assumption | simp only [ord_upd] | with_reducible (apply zeroRows_ord) | with_reducible (apply setSess_ord) | split)

theorem writablePage_ord {s₀ s : State} {i : Nat} {h : Shape} {layer : Nat} {head : Nat} {n : Nat} {len : Nat} (h₀ : Ordinary s₀ s) :
    OrdO s₀ (writablePage i h layer head n len s) := by
  unfold writablePage
  repeat' (first | with_reducible assumption | simp only [ord_upd] | with_reducible (apply allocPage_ord) | with_reducible (apply ownPage_ord) | with_reducible (apply allocFrame_ord) | with_reducible (apply copyFrame_ord) | with_reducible (apply putPage_ord) | with_reducible (apply dropRef_ord) | with_reducible (apply pmu_ord) | with_reducible (apply bump_ord) | (refine ordO_mapP ?_ (fun _ _ => ?_)) | exact ordO_none | apply ordO_some | split)

theorem dirtyPage_ord {s₀ s : State} {i : Nat} {k : Nat} (h₀ : Ordinary s₀ s) :
    Ordinary s₀ (dirtyPage i k s) := by
  unfold dirtyPage
  repeat' (first | with_reducible assumption | simp only [ord_upd] | with_reducible (apply dropHome_ord) | with_reducible (apply putPage_ord))

theorem touchMap_ord {s₀ s : State} {i : Nat} {k : Nat} (h₀ : Ordinary s₀ s) :
    Ordinary s₀ (touchMap i k s) := by
  unfold touchMap
  repeat' (first | with_reducible assumption | simp only [ord_upd] | with_reducible (apply touchLine_ord) | split)

theorem appendHeads_ord {s₀ t : State} {i : Nat} {h : Shape} {layer : Nat} {p : Nat} {len : Nat} {kv : List Byte} {x0 : Nat} (h₀ : Ordinary s₀ t) :
    OrdO s₀ (appendHeads i h layer p len kv x0 t) := by
  induction x0 generalizing t with
  | zero => (try simp only [appendHeads]); repeat' (first | with_reducible assumption | with_reducible (apply writablePage_ord) | with_reducible (apply writeRow_ord) | with_reducible (apply touchMap_ord) | with_reducible (apply pmu_ord) | with_reducible (apply dirtyPage_ord) | (refine ordO_map ?_ (fun _ _ => ?_)) | (refine ordO_mapP ?_ (fun _ _ => ?_)) | (refine ordO_bindP ?_ (fun _ _ => ?_)) | apply ordO_some)
  | succ n ih =>
    simp only [appendHeads]
    repeat' (first | with_reducible assumption | with_reducible (apply ih) | with_reducible (apply writablePage_ord) | with_reducible (apply writeRow_ord) | with_reducible (apply touchMap_ord) | with_reducible (apply pmu_ord) | with_reducible (apply dirtyPage_ord) | (refine ordO_map ?_ (fun _ _ => ?_)) | (refine ordO_bind ?_ (fun _ _ => ?_)) | exact ordP_none)

theorem appendRow_ord {s₀ s : State} {i : Nat} {layer : Nat} {p : Nat} {len : Nat} {kv : List Byte} (h₀ : Ordinary s₀ s) :
    OrdO s₀ (appendRow i layer p len kv s) := by
  unfold appendRow
  repeat' (first | with_reducible assumption | simp only [ord_upd] | with_reducible (apply appendHeads_ord) | with_reducible (apply mirrorItem_ord) | (refine ordO_map ?_ (fun _ _ => ?_)))

theorem releasePages_ord {s₀ s : State} {i : Nat} (h₀ : Ordinary s₀ s) :
    Ordinary s₀ (releasePages i s) := by
  unfold releasePages
  repeat' (first | with_reducible assumption | simp only [ord_upd] | with_reducible (apply dropRef_ord) | with_reducible (apply modSess_ord) | (refine ord_foldl (fun _ _ _ => ?_) ?_) | split)

theorem releaseHomes_ord {s₀ s : State} {i : Nat} (h₀ : Ordinary s₀ s) :
    Ordinary s₀ (releaseHomes i s) := by
  unfold releaseHomes
  repeat' (first | with_reducible assumption | simp only [ord_upd] | dsimp only | with_reducible (apply freeHome_ord) | with_reducible (apply modSess_ord) | (refine ord_foldl (fun _ _ _ => ?_) ?_) | (refine ord_foldlP (fun _ _ _ => ?_) ?_) | (refine ord_foldlT (fun _ _ _ => ?_) ?_) | (refine ord_foldlF (fun _ _ _ => ?_) ?_) | (refine ordO_foldl (fun _ _ _ => ?_) ?_) | (refine ordP_foldl (fun _ _ _ => ?_) ?_) | exact ordO_none | exact ordP_none | apply ordO_some | apply ordP_some | (with_reducible refine ord_getD ?_ ?_) | (refine ord_admit (by assumption) ?_) | (refine ord_pair (by assumption) ?_) | (refine ord_triple (by assumption) ?_) | (refine ord_quad (by assumption) ?_) | (refine ord_some (by assumption) ?_) | (refine ord_someP (by assumption) ?_) | (refine ord_somePair (by assumption) ?_) | split)

theorem releaseMap_ord {s₀ s : State} {i : Nat} (h₀ : Ordinary s₀ s) :
    Ordinary s₀ (releaseMap i s) := by
  unfold releaseMap
  repeat' (first | with_reducible assumption | simp only [ord_upd] | dsimp only | with_reducible (apply freeFrame_ord) | with_reducible (apply modSess_ord) | (refine ord_foldl (fun _ _ _ => ?_) ?_) | (refine ord_foldlP (fun _ _ _ => ?_) ?_) | (refine ord_foldlT (fun _ _ _ => ?_) ?_) | (refine ord_foldlF (fun _ _ _ => ?_) ?_) | (refine ordO_foldl (fun _ _ _ => ?_) ?_) | (refine ordP_foldl (fun _ _ _ => ?_) ?_) | exact ordO_none | exact ordP_none | apply ordO_some | apply ordP_some | (with_reducible refine ord_getD ?_ ?_) | (refine ord_admit (by assumption) ?_) | (refine ord_pair (by assumption) ?_) | (refine ord_triple (by assumption) ?_) | (refine ord_quad (by assumption) ?_) | (refine ord_some (by assumption) ?_) | (refine ord_someP (by assumption) ?_) | (refine ord_somePair (by assumption) ?_) | split)

end Sys2Proof.Machine
end

