-- ==== Sys2Proof/Laws/OrdAttn.lean ====
section
/-!
SUPPORT. The operations of Machine/Attn.lean are ordinary.
-/
namespace Sys2Proof.Machine

theorem discardAppends_ord {s₀ s : State} {i : Nat} {st : Step} (h₀ : Ordinary s₀ s) :
    Ordinary s₀ (discardAppends i st s) := by
  unfold discardAppends
  repeat' (first | with_reducible assumption | simp only [ord_upd] | with_reducible (apply dropRef_ord) | with_reducible (apply putPage_ord) | with_reducible (apply zeroRow_ord) | (refine ord_foldRange (fun _ _ _ => ?_) ?_) | split)

end Sys2Proof.Machine
end

