-- ==== Sys2Proof/Laws/OrdMerges.lean ====
section
/-!
SUPPORT. The operations of Machine/Merges.lean are ordinary.
-/
namespace Sys2Proof.Machine

theorem touchJobs_ord {s₀ s : State} (h₀ : Ordinary s₀ s) :
    Ordinary s₀ (touchJobs s) := by
  unfold touchJobs
  repeat' (first | with_reducible assumption | simp only [ord_upd])

theorem releaseSet_ord {s₀ s : State} {n : Nat} (h₀ : Ordinary s₀ s) :
    Ordinary s₀ (releaseSet n s) := by
  unfold releaseSet
  repeat' (first | with_reducible assumption | simp only [ord_upd] | with_reducible (apply modPart_ord) | split)

theorem endJob_ord {s₀ s : State} {n : Nat} (h₀ : Ordinary s₀ s) :
    Ordinary s₀ (endJob n s) := by
  unfold endJob
  repeat' (first | with_reducible assumption | simp only [ord_upd] | with_reducible (apply releaseSet_ord))

theorem reapJobs_ord {s₀ s : State} (h₀ : Ordinary s₀ s) :
    Ordinary s₀ (reapJobs s) := by
  unfold reapJobs
  repeat' (first | with_reducible assumption | with_reducible (apply touchJobs_ord) | with_reducible (apply endJob_ord) | (refine ord_foldl (fun _ _ _ => ?_) ?_))

theorem setMerge_ord {s₀ s : State} {t : Nat} {m : Merge} (h₀ : Ordinary s₀ s) :
    Ordinary s₀ (setMerge t m s) := by
  unfold setMerge
  repeat' (first | with_reducible assumption | simp only [ord_upd])

theorem openMerge_ord {s₀ s : State} {i : Nat} {layer : Nat} {job : Nat} {prefill : Bool} {first : Nat} {qs : List Nat} {query : List Byte} {home : Option (Nat × Nat)} (h₀ : Ordinary s₀ s) :
    OrdO s₀ (openMerge i layer job prefill first qs query home s) := by
  unfold openMerge
  repeat' (first | with_reducible assumption | simp only [ord_upd] | with_reducible (apply setMerge_ord) | exact ordO_none | apply ordO_some | split)

theorem setFielder_ord {s₀ s : State} {f : Nat} {x : Fielder} (h₀ : Ordinary s₀ s) :
    Ordinary s₀ (setFielder f x s) := by
  unfold setFielder
  repeat' (first | with_reducible assumption | simp only [ord_upd])

theorem setCatcher_ord {s₀ s : State} {c : Nat} {x : Catcher} (h₀ : Ordinary s₀ s) :
    Ordinary s₀ (setCatcher c x s) := by
  unfold setCatcher
  repeat' (first | with_reducible assumption | simp only [ord_upd])

theorem pumpCatcher_ord {s₀ t : State} {c : Nat} {x0 : Nat} (h₀ : Ordinary s₀ t) :
    Ordinary s₀ (pumpCatcher c x0 t) := by
  induction x0 generalizing t with
  | zero => (try simp only [pumpCatcher]); repeat' (first | with_reducible assumption | with_reducible (apply setCatcher_ord) | with_reducible (apply setFielder_ord) | exact ordO_none)
  | succ n ih =>
    simp only [pumpCatcher]
    repeat' (first | with_reducible assumption | with_reducible (apply ih) | with_reducible (apply setCatcher_ord) | with_reducible (apply setFielder_ord) | split)

theorem emitPartial_ord {s₀ s : State} {f : Nat} {p : Emitted} (h₀ : Ordinary s₀ s) :
    Ordinary s₀ (emitPartial f p s) := by
  unfold emitPartial
  repeat' (first | with_reducible assumption | simp only [ord_upd] | with_reducible (apply setFielder_ord) | with_reducible (apply pmu_ord) | with_reducible (apply bump_ord) | with_reducible (apply pumpCatcher_ord))

theorem withdraw_ord {s₀ s : State} {t : Nat} (h₀ : Ordinary s₀ s) :
    Ordinary s₀ (withdraw t s) := by
  unfold withdraw
  repeat' (first | with_reducible assumption | simp only [ord_upd] | with_reducible (apply bumpBy_ord) | with_reducible (apply setMerge_ord) | split)

theorem withdrawSess_ord {s₀ s : State} {i : Nat} {hit : Merge → Bool} (h₀ : Ordinary s₀ s) :
    Ordinary s₀ (withdrawSess i hit s) := by
  unfold withdrawSess
  repeat' (first | with_reducible assumption | with_reducible (apply withdraw_ord) | (refine ord_foldl (fun _ _ _ => ?_) ?_))

theorem discardPartial_ord {s₀ s : State} {p : Emitted} {key : Nat} (h₀ : Ordinary s₀ s) :
    Ordinary s₀ (discardPartial p key s) := by
  unfold discardPartial
  repeat' (first | with_reducible assumption | with_reducible (apply pmu_ord) | with_reducible (apply bump_ord))

end Sys2Proof.Machine
end

