-- ==== Sys2Proof/Laws/OrdParks.lean ====
section
/-!
SUPPORT. The operations of Machine/Parks.lean are ordinary.
-/
namespace Sys2Proof.Machine

theorem allocHost_ord {s₀ s : State} {n : Nat} (h₀ : Ordinary s₀ s) :
    OrdP s₀ (allocHost n s) := by
  unfold allocHost
  repeat' (first | with_reducible assumption | simp only [ord_upd] | (refine ordP_mapN (fun _ => ?_)))

theorem allocPool_ord {s₀ s : State} {range : Nat} {c : Nat} {n : Nat} (h₀ : Ordinary s₀ s) :
    OrdP s₀ (allocPool range c n s) := by
  unfold allocPool
  repeat' (first | with_reducible assumption | simp only [ord_upd] | (refine ordP_mapN (fun _ => ?_)) | exact ordP_none | split)

theorem allocTier_ord {s₀ s : State} {tier : Nat} {p : Nat} {c : Nat} {n : Nat} (h₀ : Ordinary s₀ s) :
    OrdP s₀ (allocTier tier p c n s) := by
  unfold allocTier
  repeat' (first | with_reducible assumption | with_reducible (apply allocHost_ord) | with_reducible (apply allocPool_ord) | split)

theorem launch_ord {s₀ s : State} {n : Nat} {t : Transfer} (h₀ : Ordinary s₀ s) :
    Ordinary s₀ (launch n t s) := by
  unfold launch
  repeat' (first | with_reducible assumption | simp only [ord_upd] | with_reducible (apply sendTile_ord))

theorem issueTile_ord {s₀ s : State} {c : Consumer} {k : Nat} {tier : Nat} {slot : Nat} {tile : Nat} {context : Nat} {addr : Nat} {write : Bool} {data : List Byte} (h₀ : Ordinary s₀ s) :
    Ordinary s₀ (issueTile c k tier slot tile context addr write data s) := by
  unfold issueTile
  repeat' (first | with_reducible assumption | simp only [ord_upd] | with_reducible (apply launch_ord) | split)

theorem dropTransfers_ord {s₀ s : State} {i : Nat} (h₀ : Ordinary s₀ s) :
    Ordinary s₀ (dropTransfers i s) := by
  unfold dropTransfers
  repeat' (first | with_reducible assumption | simp only [ord_upd])

theorem dropCopy_ord {s₀ s : State} {i : Nat} (h₀ : Ordinary s₀ s) :
    Ordinary s₀ (dropCopy i s) := by
  unfold dropCopy
  repeat' (first | with_reducible assumption | simp only [ord_upd] | with_reducible (apply freeHome_ord) | with_reducible (apply modSess_ord) | (refine ord_foldl (fun _ _ _ => ?_) ?_) | split)

theorem modPark_ord {s₀ s : State} {i : Nat} {f : ParkMove → ParkMove} (h₀ : Ordinary s₀ s) :
    Ordinary s₀ (modPark i f s) := by
  unfold modPark
  repeat' (first | with_reducible assumption | with_reducible (apply modSess_ord))

theorem modRevive_ord {s₀ s : State} {i : Nat} {f : Revive → Revive} (h₀ : Ordinary s₀ s) :
    Ordinary s₀ (modRevive i f s) := by
  unfold modRevive
  repeat' (first | with_reducible assumption | with_reducible (apply modSess_ord))

theorem issuePage_ord {s₀ s : State} {i : Nat} {k : Nat} {slot : Nat} {p : ParkMove} (h₀ : Ordinary s₀ s) :
    Ordinary s₀ (issuePage i k slot p s) := by
  unfold issuePage
  repeat' (first | with_reducible assumption | simp only [ord_upd] | with_reducible (apply issueTile_ord) | (refine ord_foldRange (fun _ _ _ => ?_) ?_))

theorem issuePark_ord {s₀ t : State} {i : Nat} {x0 : Nat} (h₀ : Ordinary s₀ t) :
    Ordinary s₀ (issuePark i x0 t) := by
  induction x0 generalizing t with
  | zero => (try simp only [issuePark]); repeat' (first | with_reducible assumption | with_reducible (apply modPark_ord) | with_reducible (apply allocTier_ord) | with_reducible (apply bump_ord) | with_reducible (apply issuePage_ord) | with_reducible (apply issueTile_ord) | (refine ord_foldRange (fun _ _ _ => ?_) ?_) | (refine ordO_foldRange (fun _ _ _ => ?_) ?_) | (refine ord_somePair (by assumption) ?_))
  | succ n ih =>
    simp only [issuePark]
    repeat' (first | with_reducible assumption | with_reducible (apply ih) | with_reducible (apply modPark_ord) | with_reducible (apply allocTier_ord) | with_reducible (apply bump_ord) | with_reducible (apply issuePage_ord) | with_reducible (apply issueTile_ord) | (refine ord_foldRange (fun _ _ _ => ?_) ?_) | (refine ord_someP (by assumption) ?_) | split)

theorem pumpPark_ord {s₀ s : State} {i : Nat} (h₀ : Ordinary s₀ s) :
    Ordinary s₀ (pumpPark i s) := by
  unfold pumpPark
  repeat' (first | with_reducible assumption | with_reducible (apply issuePark_ord))

theorem freeParkSlots_ord {s₀ s : State} {p : ParkMove} (h₀ : Ordinary s₀ s) :
    Ordinary s₀ (freeParkSlots p s) := by
  unfold freeParkSlots
  repeat' (first | with_reducible assumption | with_reducible (apply freeHome_ord) | (refine ord_foldl (fun _ _ _ => ?_) ?_))

theorem countFetchFailure_ord {s₀ s : State} (h₀ : Ordinary s₀ s) :
    Ordinary s₀ (countFetchFailure s) := by
  unfold countFetchFailure
  repeat' (first | with_reducible assumption | with_reducible (apply bump_ord))

end Sys2Proof.Machine
end

