-- ==== Sys2Proof/Laws/OrdSearch.lean ====
section
/-!
SUPPORT. The operations of Machine/Search.lean are ordinary.
-/
namespace Sys2Proof.Machine

theorem setIndex_ord {s₀ s : State} {x : Nat} {v : VIndex} (h₀ : Ordinary s₀ s) :
    Ordinary s₀ (setIndex x v s) := by
  unfold setIndex
  repeat' (first | with_reducible assumption | simp only [ord_upd])

theorem modIndex_ord {s₀ s : State} {x : Nat} {f : VIndex → VIndex} (h₀ : Ordinary s₀ s) :
    Ordinary s₀ (modIndex x f s) := by
  unfold modIndex
  repeat' (first | with_reducible assumption | simp only [ord_upd])

theorem allocIndexFrame_ord {s₀ s : State} {x : Nat} {c : Nat} {p : Nat} {j : Nat} {st : FrameState} (h₀ : Ordinary s₀ s) :
    OrdP s₀ (allocIndexFrame x c p j st s) := by
  unfold allocIndexFrame
  repeat' (first | with_reducible assumption | simp only [ord_upd] | with_reducible (apply allocFrame_ord) | exact ordP_none | split)

theorem allocIndexFrames_ord {s₀ t : State} {x : Nat} {c : Nat} {p : Nat} {j : Nat} {x0 : Nat} (h₀ : Ordinary s₀ t) :
    OrdP s₀ (allocIndexFrames x c p j x0 t) := by
  induction x0 generalizing t with
  | zero => (try simp only [allocIndexFrames]); repeat' (first | with_reducible assumption | with_reducible (apply allocIndexFrame_ord) | (refine ordO_map ?_ (fun _ _ => ?_)) | (refine ordO_mapN (fun _ => ?_)) | (refine ordO_bindN (fun _ => ?_)) | apply ordP_some)
  | succ n ih =>
    simp only [allocIndexFrames]
    repeat' (first | with_reducible assumption | with_reducible (apply ih) | with_reducible (apply allocIndexFrame_ord) | (refine ordP_mapP ?_ (fun _ _ => ?_)) | (refine ordP_bindP ?_ (fun _ _ => ?_)) | apply ordO_some)

theorem setRecordState_ord {s₀ s : State} {v : VIndex} {r : Nat} {st : Nat} (h₀ : Ordinary s₀ s) :
    Ordinary s₀ (setRecordState v r st s) := by
  unfold setRecordState
  repeat' (first | with_reducible assumption | simp only [ord_upd] | with_reducible (apply writeBytes_ord))

theorem writeHeaders_ord {s₀ s : State} {x : Nat} {c : Nat} {v : VIndex} {l : VList} (h₀ : Ordinary s₀ s) :
    Ordinary s₀ (writeHeaders x c v l s) := by
  unfold writeHeaders
  repeat' (first | with_reducible assumption | with_reducible (apply writeBytes_ord) | (refine ord_foldRange (fun _ _ _ => ?_) ?_))

theorem writeEntry_ord {s₀ s : State} {v : VIndex} {f : Nat} {e : Nat} {id : Nat} {code : List Byte} (h₀ : Ordinary s₀ s) :
    Ordinary s₀ (writeEntry v f e id code s) := by
  unfold writeEntry
  repeat' (first | with_reducible assumption | with_reducible (apply writeBytes_ord))

theorem freeList_ord {s₀ s : State} {l : VList} (h₀ : Ordinary s₀ s) :
    Ordinary s₀ (freeList l s) := by
  unfold freeList
  repeat' (first | with_reducible assumption | with_reducible (apply freeHome_ord) | with_reducible (apply freeFrame_ord) | (refine ord_foldl (fun _ _ _ => ?_) ?_))

theorem noteUnsealed_ord {s₀ s : State} {x : Nat} (h₀ : Ordinary s₀ s) :
    Ordinary s₀ (noteUnsealed x s) := by
  unfold noteUnsealed
  repeat' (first | with_reducible assumption | simp only [ord_upd])

theorem dropIndex_ord {s₀ s : State} {x : Nat} (h₀ : Ordinary s₀ s) :
    Ordinary s₀ (dropIndex x s) := by
  unfold dropIndex
  repeat' (first | with_reducible assumption | simp only [ord_upd] | with_reducible (apply freeFrame_ord) | with_reducible (apply freeList_ord) | with_reducible (apply noteUnsealed_ord) | (refine ord_foldl (fun _ _ _ => ?_) ?_) | split)

theorem endSearch_ord {s₀ s : State} {k : Nat} {a : Answer} (h₀ : Ordinary s₀ s) :
    Ordinary s₀ (endSearch k a s) := by
  unfold endSearch
  repeat' (first | with_reducible assumption | simp only [ord_upd] | with_reducible (apply respond_ord) | with_reducible (apply freeFrame_ord) | (refine ord_foldl (fun _ _ _ => ?_) ?_) | split)

theorem failPlace_ord {s₀ s : State} {x : Nat} {st : Status} (h₀ : Ordinary s₀ s) :
    Ordinary s₀ (failPlace x st s) := by
  unfold failPlace
  repeat' (first | with_reducible assumption | simp only [ord_upd] | with_reducible (apply freeList_ord) | with_reducible (apply refuse_ord) | with_reducible (apply modIndex_ord) | (refine ord_foldl (fun _ _ _ => ?_) ?_) | split)

theorem faultIndex_ord {s₀ s : State} {x : Nat} {f : Nat} (h₀ : Ordinary s₀ s) :
    Ordinary s₀ (faultIndex x f s) := by
  unfold faultIndex
  repeat' (first | with_reducible assumption | simp only [ord_upd] | with_reducible (apply modIndex_ord) | with_reducible (apply endSearch_ord) | with_reducible (apply failPlace_ord) | (refine ord_foldl (fun _ _ _ => ?_) ?_) | split)

theorem tearCompass_ord {s₀ s : State} {c : Nat} (h₀ : Ordinary s₀ s) :
    Ordinary s₀ (tearCompass c s) := by
  unfold tearCompass
  repeat' (first | with_reducible assumption | simp only [ord_upd] | with_reducible (apply endSearch_ord) | with_reducible (apply failPlace_ord) | with_reducible (apply respond_ord) | with_reducible (apply dropIndex_ord) | with_reducible (apply refuse_ord) | (refine ord_foldl (fun _ _ _ => ?_) ?_) | split)

end Sys2Proof.Machine
end

