-- ==== Sys2Proof/Laws/OrdTokens.lean ====
section
/-!
SUPPORT. The operations of Machine/Tokens.lean are ordinary.
-/
namespace Sys2Proof.Machine

theorem reserveSegment_ord {s₀ s : State} {i : Nat} {t : Tok} (h₀ : Ordinary s₀ s) :
    Ordinary s₀ (reserveSegment i t s).2 := by
  unfold reserveSegment
  repeat' (first | with_reducible assumption | simp only [ord_upd] | with_reducible (apply bump_ord) | split)

theorem advanceGrammar_ord {s₀ s : State} {g : Grammar} {i : Nat} {tok : Nat} {t : Tok} (h₀ : Ordinary s₀ s) :
    Ordinary s₀ (advanceGrammar g i tok t s).2 := by
  unfold advanceGrammar
  repeat' (first | with_reducible assumption | simp only [ord_upd] | split)

theorem advanceLists_ord {s₀ s : State} {tok : Nat} {t : Tok} (h₀ : Ordinary s₀ s) :
    Ordinary s₀ (advanceLists tok t s).2 := by
  unfold advanceLists
  repeat' (first | with_reducible assumption | simp only [ord_upd] | with_reducible (apply bump_ord) | split)

theorem dropSegments_ord {s₀ s : State} {l : List Nat} (h₀ : Ordinary s₀ s) :
    Ordinary s₀ (dropSegments l s) := by
  unfold dropSegments
  repeat' (first | with_reducible assumption | simp only [ord_upd] | (refine ord_foldl (fun _ _ _ => ?_) ?_))

theorem keepTok_ord {s₀ s : State} {i : Nat} {st : Step} (h₀ : Ordinary s₀ s) :
    Ordinary s₀ (keepTok i st s) := by
  unfold keepTok
  repeat' (first | with_reducible assumption | simp only [ord_upd] | with_reducible (apply dropSegments_ord) | with_reducible (apply modSess_ord))

theorem dropTok_ord {s₀ s : State} {st : Step} (h₀ : Ordinary s₀ s) :
    Ordinary s₀ (dropTok st s) := by
  unfold dropTok
  repeat' (first | with_reducible assumption | with_reducible (apply dropSegments_ord))

theorem releaseSegments_ord {s₀ s : State} {i : Nat} (h₀ : Ordinary s₀ s) :
    Ordinary s₀ (releaseSegments i s) := by
  unfold releaseSegments
  repeat' (first | with_reducible assumption | simp only [ord_upd] | with_reducible (apply modSess_ord))

end Sys2Proof.Machine
end

