-- ==== Sys2Proof/Laws/OrdLookup.lean ====
section
/-!
SUPPORT. The operations of Machine/Lookup.lean are ordinary.
-/
namespace Sys2Proof.Machine

theorem deny_ord {s₀ s : State} {m : Msg} {st : Status} (h₀ : Ordinary s₀ s) :
    Ordinary s₀ (deny m st s) := by
  unfold deny
  repeat' (first | with_reducible assumption | simp only [ord_upd] | with_reducible (apply bump_ord) | with_reducible (apply refuse_ord) | split)

theorem traceLookup_ord {s₀ s : State} {h : Word} (h₀ : Ordinary s₀ s) :
    Ordinary s₀ (traceLookup h s) := by
  unfold traceLookup
  repeat' (first | with_reducible assumption | simp only [ord_upd] | with_reducible (apply pmu_ord) | with_reducible (apply touchLine_ord) | split)

theorem holdMsg_ord {s₀ s : State} {m : Msg} (h₀ : Ordinary s₀ s) :
    Ordinary s₀ (holdMsg m s) := by
  unfold holdMsg
  repeat' (first | with_reducible assumption | simp only [ord_upd])

theorem occupy_ord {s₀ s : State} {i : Nat} {p : Nat} {st : SessState} {r : Record} (h₀ : Ordinary s₀ s) :
    Ordinary s₀ (occupy i p st r s) := by
  unfold occupy
  repeat' (first | with_reducible assumption | simp only [ord_upd] | with_reducible (apply setSess_ord))

theorem startTimer_ord {s₀ s : State} {i : Nat} {ns : Option Nat} (h₀ : Ordinary s₀ s) :
    Ordinary s₀ (startTimer i ns s) := by
  unfold startTimer
  repeat' (first | with_reducible assumption | simp only [ord_upd] | with_reducible (apply modSess_ord))

theorem stopTimer_ord {s₀ s : State} {i : Nat} (h₀ : Ordinary s₀ s) :
    Ordinary s₀ (stopTimer i s) := by
  unfold stopTimer
  repeat' (first | with_reducible assumption | with_reducible (apply startTimer_ord))

theorem enterWaiting_ord {s₀ s : State} {i : Nat} {ms : Option Nat} (h₀ : Ordinary s₀ s) :
    Ordinary s₀ (enterWaiting i ms s) := by
  unfold enterWaiting
  repeat' (first | with_reducible assumption | simp only [ord_upd] | with_reducible (apply startTimer_ord) | with_reducible (apply modSess_ord))

theorem admission_ord {s₀ s : State} {p cls bytes : Nat} {alloc : State → Option State} (h₀ : Ordinary s₀ s)
    (hf : ∀ t, Ordinary s₀ t → OrdO s₀ (alloc t)) : OrdA s₀ (admission p cls bytes alloc s) := by
  unfold admission
  split
  · exact ⟨fun _ e => (by cases e), bump_ord h₀⟩
  · split
    · rename_i e
      split
      · exact ⟨fun _ e' => by cases e'; exact (hf s h₀).at_ _ e, h₀⟩
      · exact ⟨fun _ e => (by cases e), bump_ord h₀⟩
    · exact ⟨fun _ e => (by cases e), bump_ord h₀⟩

theorem allocRoot_ord {s₀ s : State} {i : Nat} (h₀ : Ordinary s₀ s) :
    OrdO s₀ (allocRoot i s) := by
  unfold allocRoot
  repeat' (first | with_reducible assumption | simp only [ord_upd] | with_reducible (apply allocMapFrame_ord) | with_reducible (apply modSess_ord) | (refine ordO_mapP ?_ (fun _ _ => ?_)))

end Sys2Proof.Machine
end

