-- ==== Sys2Proof/Laws/OrdLife.lean ====
section
/-!
SUPPORT. The operations of Machine/Life.lean are ordinary.
-/
namespace Sys2Proof.Machine

theorem release_ord {s₀ s : State} {i : Nat} {seq : Nat} {m : Msg} (h₀ : Ordinary s₀ s) :
    Ordinary s₀ (release i seq m s) := by
  unfold release
  repeat' (first | with_reducible assumption | simp only [ord_upd] | with_reducible (apply bump_ord) | with_reducible (apply sendMsg_ord) | split)

theorem flushDetok_ord {s₀ s : State} {i : Nat} {qp : Nat} {tag : BitVec 32} (h₀ : Ordinary s₀ s) :
    Ordinary s₀ (flushDetok i qp tag s) := by
  unfold flushDetok
  repeat' (first | with_reducible assumption | simp only [ord_upd] | with_reducible (apply modSess_ord) | with_reducible (apply sendMsg_ord) | with_reducible (apply bumpBy_ord))

theorem dropMask_ord {s₀ s : State} {i : Nat} (h₀ : Ordinary s₀ s) :
    Ordinary s₀ (dropMask i s) := by
  unfold dropMask
  repeat' (first | with_reducible assumption | simp only [ord_upd])

theorem pmuDispatch_ord {s₀ s : State} {code : Nat} {i : Nat} (h₀ : Ordinary s₀ s) :
    Ordinary s₀ (pmuDispatch code i s) := by
  unfold pmuDispatch
  repeat' (first | with_reducible assumption | simp only [ord_upd] | with_reducible (apply pmu_ord))

theorem closeStep_ord {s₀ s : State} {i : Nat} {st : Step} {status : Status} (h₀ : Ordinary s₀ s) :
    Ordinary s₀ (closeStep i st status s) := by
  unfold closeStep
  repeat' (first | with_reducible assumption | simp only [ord_upd] | with_reducible (apply modSess_ord) | with_reducible (apply pmuDispatch_ord) | with_reducible (apply dropMask_ord) | with_reducible (apply flushDetok_ord) | (refine ord_foldl (fun _ _ _ => ?_) ?_))

theorem voidStep_ord {s₀ s : State} {i : Nat} {status : Status} (h₀ : Ordinary s₀ s) :
    Ordinary s₀ (voidStep i status s) := by
  unfold voidStep
  repeat' (first | with_reducible assumption | simp only [ord_upd] | with_reducible (apply discardAppends_ord) | with_reducible (apply withdrawSess_ord) | with_reducible (apply dropTok_ord) | with_reducible (apply bump_ord) | with_reducible (apply modSess_ord) | with_reducible (apply closeStep_ord) | with_reducible (apply sendMsg_ord) | split)

theorem dropPass_ord {s₀ s : State} {i : Nat} {drop : Nat → Bool} (h₀ : Ordinary s₀ s) :
    Ordinary s₀ (dropPass i drop s) := by
  unfold dropPass
  repeat' (first | with_reducible assumption | simp only [ord_upd] | with_reducible (apply dropRef_ord) | with_reducible (apply modSess_ord) | (refine ord_foldl (fun _ _ _ => ?_) ?_))

theorem dropBlock_ord {s₀ s : State} {i : Nat} (h₀ : Ordinary s₀ s) :
    Ordinary s₀ (dropBlock i s) := by
  unfold dropBlock
  repeat' (first | with_reducible assumption | simp only [ord_upd] | with_reducible (apply withdrawSess_ord) | with_reducible (apply dropPass_ord) | with_reducible (apply modSess_ord) | split)

theorem parkNotice_ord {s₀ s : State} {i : Nat} {p : ParkMove} {status : Status} (h₀ : Ordinary s₀ s) :
    Ordinary s₀ (parkNotice i p status s) := by
  unfold parkNotice
  repeat' (first | with_reducible assumption | with_reducible (apply notify_ord) | split)

theorem migrateNotice_ord {s₀ s : State} {i : Nat} {m : SourceMove} {status : Status} {new : Word} (h₀ : Ordinary s₀ s) :
    Ordinary s₀ (migrateNotice i m status new s) := by
  unfold migrateNotice
  repeat' (first | with_reducible assumption | with_reducible (apply notify_ord))

theorem nextTag_ord {s₀ s : State} (h₀ : Ordinary s₀ s) :
    Ordinary s₀ (nextTag s).2 := by
  unfold nextTag
  repeat' (first | with_reducible assumption | simp only [ord_upd])

theorem openWait_ord {s₀ s : State} {w : Wait} (h₀ : Ordinary s₀ s) :
    Ordinary s₀ (openWait w s) := by
  unfold openWait
  repeat' (first | with_reducible assumption | simp only [ord_upd])

theorem askPeer_ord {s₀ s : State} {node : Nat} {qp : Nat} {handle : Word} {c : WaitFor} {p : PeerMsg} (h₀ : Ordinary s₀ s) :
    Ordinary s₀ (askPeer node qp handle c p s) := by
  unfold askPeer
  repeat' (first | with_reducible assumption | simp only [ord_upd] | with_reducible (apply nextTag_ord) | with_reducible (apply openWait_ord) | with_reducible (apply sendPeer_ord))

theorem failMigration_ord {s₀ s : State} {i : Nat} {m : SourceMove} (h₀ : Ordinary s₀ s) :
    Ordinary s₀ (failMigration i m s) := by
  unfold failMigration
  repeat' (first | with_reducible assumption | simp only [ord_upd] | with_reducible (apply askPeer_ord) | with_reducible (apply migrateNotice_ord) | with_reducible (apply bump_ord) | split)

theorem abandonMove_ord {s₀ s : State} {i : Nat} {status : Status} (h₀ : Ordinary s₀ s) :
    Ordinary s₀ (abandonMove i status s) := by
  unfold abandonMove
  repeat' (first | with_reducible assumption | simp only [ord_upd] | with_reducible (apply freeParkSlots_ord) | with_reducible (apply dropTransfers_ord) | with_reducible (apply parkNotice_ord) | with_reducible (apply modSess_ord) | with_reducible (apply failMigration_ord) | split)

theorem dropRevive_ord {s₀ s : State} {i : Nat} (h₀ : Ordinary s₀ s) :
    Ordinary s₀ (dropRevive i s) := by
  unfold dropRevive
  repeat' (first | with_reducible assumption | simp only [ord_upd] | with_reducible (apply freeHome_ord) | with_reducible (apply modSess_ord) | (refine ord_foldl (fun _ _ _ => ?_) ?_) | split)

theorem markTombstone_ord {s₀ s : State} {i : Nat} {r : Reason} (h₀ : Ordinary s₀ s) :
    Ordinary s₀ (markTombstone i r s) := by
  unfold markTombstone
  repeat' (first | with_reducible assumption | simp only [ord_upd] | with_reducible (apply stopTimer_ord) | with_reducible (apply setSess_ord))

theorem leaveParent_ord {s₀ s : State} {i : Nat} (h₀ : Ordinary s₀ s) :
    Ordinary s₀ (leaveParent i s) := by
  unfold leaveParent
  repeat' (first | with_reducible assumption | simp only [ord_upd] | with_reducible (apply modSess_ord) | split)

theorem toTombstone_ord {s₀ s : State} {i : Nat} {r : Reason} (h₀ : Ordinary s₀ s) :
    Ordinary s₀ (toTombstone i r s) := by
  unfold toTombstone
  repeat' (first | with_reducible assumption | simp only [ord_upd] | with_reducible (apply dropCopy_ord) | with_reducible (apply dropRevive_ord) | with_reducible (apply dropBlock_ord) | with_reducible (apply dropTransfers_ord) | with_reducible (apply releaseSegments_ord) | with_reducible (apply releaseMap_ord) | with_reducible (apply releasePages_ord) | with_reducible (apply releaseHomes_ord) | with_reducible (apply mirrorUpdate_ord) | with_reducible (apply leaveParent_ord) | with_reducible (apply markTombstone_ord))

theorem startPark_ord {s₀ s : State} {i : Nat} {want : Nat} {r : Reason} {cmd : Option (Nat × BitVec 32)} (h₀ : Ordinary s₀ s) :
    Ordinary s₀ (startPark i want r cmd s) := by
  unfold startPark
  repeat' (first | with_reducible assumption | simp only [ord_upd] | with_reducible (apply stopTimer_ord) | with_reducible (apply setSess_ord) | with_reducible (apply pumpPark_ord) | with_reducible (apply mirrorUpdate_ord))

theorem settleJobs_ord {s₀ s : State} (h₀ : Ordinary s₀ s) :
    Ordinary s₀ (settleJobs s) := by
  unfold settleJobs
  repeat' (first | with_reducible assumption | with_reducible (apply reapJobs_ord))

theorem finishStep_ord {s₀ s : State} {i : Nat} (h₀ : Ordinary s₀ s) :
    Ordinary s₀ (finishStep i s) := by
  unfold finishStep
  repeat' (first | with_reducible assumption | simp only [ord_upd] | with_reducible (apply bump_ord) | with_reducible (apply dropTok_ord) | with_reducible (apply keepTok_ord) | with_reducible (apply modSess_ord) | with_reducible (apply mirrorItem_ord) | with_reducible (apply closeStep_ord) | with_reducible (apply release_ord) | with_reducible (apply toTombstone_ord) | with_reducible (apply startPark_ord) | with_reducible (apply mirrorUpdate_ord) | with_reducible (apply enterWaiting_ord) | split)

theorem tryEnd_ord {s₀ s : State} {i : Nat} (h₀ : Ordinary s₀ s) :
    Ordinary s₀ (tryEnd i s) := by
  unfold tryEnd
  repeat' (first | with_reducible assumption | simp only [ord_upd] | dsimp only | with_reducible (apply settleJobs_ord) | with_reducible (apply finishStep_ord) | exact ordO_none | exact ordP_none | apply ordO_some | apply ordP_some | (with_reducible refine ord_getD ?_ ?_) | (refine ord_admit (by assumption) ?_) | (refine ord_pair (by assumption) ?_) | (refine ord_triple (by assumption) ?_) | (refine ord_quad (by assumption) ?_) | (refine ord_some (by assumption) ?_) | (refine ord_someP (by assumption) ?_) | (refine ord_somePair (by assumption) ?_) | split)

theorem restartStep_ord {s₀ s : State} {i : Nat} {status : Status} (h₀ : Ordinary s₀ s) :
    Ordinary s₀ (restartStep i status s) := by
  unfold restartStep
  repeat' (first | with_reducible assumption | simp only [ord_upd] | dsimp only | with_reducible (apply voidStep_ord) | with_reducible (apply bump_ord) | with_reducible (apply toTombstone_ord) | with_reducible (apply mirrorUpdate_ord) | with_reducible (apply enterWaiting_ord) | with_reducible (apply modSess_ord) | with_reducible (apply settleJobs_ord) | exact ordO_none | exact ordP_none | apply ordO_some | apply ordP_some | (with_reducible refine ord_getD ?_ ?_) | (refine ord_admit (by assumption) ?_) | (refine ord_pair (by assumption) ?_) | (refine ord_triple (by assumption) ?_) | (refine ord_quad (by assumption) ?_) | (refine ord_some (by assumption) ?_) | (refine ord_someP (by assumption) ?_) | (refine ord_somePair (by assumption) ?_) | split)

theorem ringLost_ord {s₀ s : State} (h₀ : Ordinary s₀ s) :
    Ordinary s₀ (ringLost s) := by
  unfold ringLost
  repeat' (first | with_reducible assumption | simp only [ord_upd] | with_reducible (apply restartStep_ord) | with_reducible (apply bump_ord) | (refine ord_foldl (fun _ _ _ => ?_) ?_))

theorem faultSession_ord {s₀ s : State} {i : Nat} {code : Nat} (h₀ : Ordinary s₀ s) :
    Ordinary s₀ (faultSession i code s) := by
  unfold faultSession
  repeat' (first | with_reducible assumption | simp only [ord_upd] | dsimp only | with_reducible (apply voidStep_ord) | with_reducible (apply dropBlock_ord) | with_reducible (apply dropCopy_ord) | with_reducible (apply dropRevive_ord) | with_reducible (apply dropTransfers_ord) | with_reducible (apply abandonMove_ord) | with_reducible (apply stopTimer_ord) | with_reducible (apply modSess_ord) | with_reducible (apply mirrorUpdate_ord) | with_reducible (apply bump_ord) | (with_reducible refine ord_getD ?_ ?_) | (refine ord_admit (by assumption) ?_) | (refine ord_pair (by assumption) ?_) | (refine ord_triple (by assumption) ?_) | (refine ord_quad (by assumption) ?_) | (refine ord_some (by assumption) ?_) | (refine ord_someP (by assumption) ?_) | (refine ord_somePair (by assumption) ?_) | split)

theorem freeWr_ord {s₀ s : State} {n : Nat} (h₀ : Ordinary s₀ s) :
    Ordinary s₀ (freeWr n s) := by
  unfold freeWr
  repeat' (first | with_reducible assumption | simp only [ord_upd] | dsimp only | (with_reducible refine ord_getD ?_ ?_) | (refine ord_admit (by assumption) ?_) | (refine ord_pair (by assumption) ?_) | (refine ord_triple (by assumption) ?_) | (refine ord_quad (by assumption) ?_) | (refine ord_some (by assumption) ?_) | (refine ord_someP (by assumption) ?_) | (refine ord_somePair (by assumption) ?_) | split)

theorem qpToError_ord {s₀ s : State} {n : Nat} {st : Status} (h₀ : Ordinary s₀ s) :
    Ordinary s₀ (qpToError n st s) := by
  unfold qpToError
  repeat' (first | with_reducible assumption | simp only [ord_upd] | dsimp only | with_reducible (apply setQp_ord) | with_reducible (apply restartStep_ord) | with_reducible (apply dropBlock_ord) | with_reducible (apply notify_ord) | with_reducible (apply bump_ord) | (refine ord_foldl (fun _ _ _ => ?_) ?_) | (refine ord_foldlP (fun _ _ _ => ?_) ?_) | (refine ord_foldlT (fun _ _ _ => ?_) ?_) | (refine ord_foldlF (fun _ _ _ => ?_) ?_) | (refine ordO_foldl (fun _ _ _ => ?_) ?_) | (refine ordP_foldl (fun _ _ _ => ?_) ?_) | exact ordO_none | exact ordP_none | apply ordO_some | apply ordP_some | (with_reducible refine ord_getD ?_ ?_) | (refine ord_admit (by assumption) ?_) | (refine ord_pair (by assumption) ?_) | (refine ord_triple (by assumption) ?_) | (refine ord_quad (by assumption) ?_) | (refine ord_some (by assumption) ?_) | (refine ord_someP (by assumption) ?_) | (refine ord_somePair (by assumption) ?_) | split)

theorem teardown_ord {s₀ s : State} {c : Nat} (h₀ : Ordinary s₀ s) :
    Ordinary s₀ (teardown c s) := by
  unfold teardown
  repeat' (first | with_reducible assumption | simp only [ord_upd] | dsimp only | with_reducible (apply alert_ord) | with_reducible (apply bump_ord) | with_reducible (apply voidStep_ord) | with_reducible (apply dropBlock_ord) | with_reducible (apply endJob_ord) | with_reducible (apply tearCompass_ord) | with_reducible (apply qpToError_ord) | with_reducible (apply settleJobs_ord) | with_reducible (apply faultSession_ord) | (refine ord_foldl (fun _ _ _ => ?_) ?_) | (refine ord_foldlP (fun _ _ _ => ?_) ?_) | (refine ord_foldlT (fun _ _ _ => ?_) ?_) | (refine ord_foldlF (fun _ _ _ => ?_) ?_) | (refine ordO_foldl (fun _ _ _ => ?_) ?_) | (refine ordP_foldl (fun _ _ _ => ?_) ?_) | exact ordO_none | exact ordP_none | apply ordO_some | apply ordP_some | (with_reducible refine ord_getD ?_ ?_) | (refine ord_admit (by assumption) ?_) | (refine ord_pair (by assumption) ?_) | (refine ord_triple (by assumption) ?_) | (refine ord_quad (by assumption) ?_) | (refine ord_some (by assumption) ?_) | (refine ord_someP (by assumption) ?_) | (refine ord_somePair (by assumption) ?_) | split)

theorem appendLayer_ord {s₀ s : State} {i : Nat} (h₀ : Ordinary s₀ s) :
    Ordinary s₀ (appendLayer i s) := by
  unfold appendLayer
  repeat' (first | with_reducible assumption | simp only [ord_upd] | dsimp only | with_reducible (apply modSess_ord) | with_reducible (apply sendPeer_ord) | with_reducible (apply appendRow_ord) | exact ordO_none | exact ordP_none | apply ordO_some | apply ordP_some | (with_reducible refine ord_getD ?_ ?_) | (refine ord_admit (by assumption) ?_) | (refine ord_pair (by assumption) ?_) | (refine ord_triple (by assumption) ?_) | (refine ord_quad (by assumption) ?_) | (refine ord_some (by assumption) ?_) | (refine ord_someP (by assumption) ?_) | (refine ord_somePair (by assumption) ?_) | split)

theorem retryAppends_ord {s₀ s : State} (h₀ : Ordinary s₀ s) :
    Ordinary s₀ (retryAppends s) := by
  unfold retryAppends
  repeat' (first | with_reducible assumption | simp only [ord_upd] | dsimp only | with_reducible (apply appendLayer_ord) | (refine ord_foldl (fun _ _ _ => ?_) ?_) | (refine ord_foldlP (fun _ _ _ => ?_) ?_) | (refine ord_foldlT (fun _ _ _ => ?_) ?_) | (refine ord_foldlF (fun _ _ _ => ?_) ?_) | (refine ordO_foldl (fun _ _ _ => ?_) ?_) | (refine ordP_foldl (fun _ _ _ => ?_) ?_) | exact ordO_none | exact ordP_none | apply ordO_some | apply ordP_some | (with_reducible refine ord_getD ?_ ?_) | (refine ord_admit (by assumption) ?_) | (refine ord_pair (by assumption) ?_) | (refine ord_triple (by assumption) ?_) | (refine ord_quad (by assumption) ?_) | (refine ord_some (by assumption) ?_) | (refine ord_someP (by assumption) ?_) | (refine ord_somePair (by assumption) ?_) | split)

theorem retryRope_ord {s₀ s : State} (h₀ : Ordinary s₀ s) :
    Ordinary s₀ (retryRope s) := by
  unfold retryRope
  repeat' (first | with_reducible assumption | simp only [ord_upd] | dsimp only | with_reducible (apply appendLayer_ord) | (refine ord_foldl (fun _ _ _ => ?_) ?_) | (refine ord_foldlP (fun _ _ _ => ?_) ?_) | (refine ord_foldlT (fun _ _ _ => ?_) ?_) | (refine ord_foldlF (fun _ _ _ => ?_) ?_) | (refine ordO_foldl (fun _ _ _ => ?_) ?_) | (refine ordP_foldl (fun _ _ _ => ?_) ?_) | exact ordO_none | exact ordP_none | apply ordO_some | apply ordP_some | (with_reducible refine ord_getD ?_ ?_) | (refine ord_admit (by assumption) ?_) | (refine ord_pair (by assumption) ?_) | (refine ord_triple (by assumption) ?_) | (refine ord_quad (by assumption) ?_) | (refine ord_some (by assumption) ?_) | (refine ord_someP (by assumption) ?_) | (refine ord_somePair (by assumption) ?_) | split)

theorem settle_ord {s₀ s : State} (h₀ : Ordinary s₀ s) :
    Ordinary s₀ (settle s) := by
  unfold settle
  repeat' (first | with_reducible assumption | simp only [ord_upd] | dsimp only | with_reducible (apply settleJobs_ord) | with_reducible (apply retryAppends_ord) | (with_reducible refine ord_getD ?_ ?_) | (refine ord_admit (by assumption) ?_) | (refine ord_pair (by assumption) ?_) | (refine ord_triple (by assumption) ?_) | (refine ord_quad (by assumption) ?_) | (refine ord_some (by assumption) ?_) | (refine ord_someP (by assumption) ?_) | (refine ord_somePair (by assumption) ?_) | split)

end Sys2Proof.Machine
end

