-- ==== Sys2Proof/Laws/OrdSessionCmds.lean ====
section
/-!
SUPPORT. The operations of Machine/SessionCmds.lean are ordinary.
-/
namespace Sys2Proof.Machine

theorem sessionCmd_ord {s₀ s : State} {f : Form} {tornOk : Bool} {m : Msg} {bad : Bool} {h : Nat → State → State} (h₀ : Ordinary s₀ s) (hf : ∀ (y0 : Nat) (t : State), Ordinary s₀ t → Ordinary s₀ (h y0 t)) :
    Ordinary s₀ (sessionCmd f tornOk m bad h s) := by
  unfold sessionCmd
  repeat' (first | with_reducible assumption | simp only [ord_upd] | (with_reducible refine request_ord ?_ (fun _ _ => ?_)) | with_reducible (apply traceLookup_ord) | with_reducible (apply deny_ord) | with_reducible (apply refuse_ord) | with_reducible (apply holdMsg_ord) | with_reducible (apply hf) | split)

theorem fanRing_ord {s₀ s : State} {i : Nat} {op : BitVec 16} {ops : List Word} {members : List (Nat × Nat)} (h₀ : Ordinary s₀ s) :
    Ordinary s₀ (fanRing i op ops members s) := by
  unfold fanRing
  repeat' (first | with_reducible assumption | with_reducible (apply askPeer_ord) | (refine ord_foldl (fun _ _ _ => ?_) ?_))

theorem answerRing_ord {s₀ s : State} {i : Nat} {m : Msg} {a : Status} (h₀ : Ordinary s₀ s) :
    Ordinary s₀ (answerRing i m a s) := by
  unfold answerRing
  repeat' (first | with_reducible assumption | simp only [ord_upd] | with_reducible (apply refuse_ord) | with_reducible (apply fanRing_ord) | split)

theorem applyWait_ord {s₀ s : State} {i : Nat} {ms : Option Nat} (h₀ : Ordinary s₀ s) :
    Ordinary s₀ (applyWait i ms s).2 := by
  unfold applyWait
  repeat' (first | with_reducible assumption | simp only [ord_upd] | with_reducible (apply mirrorUpdate_ord) | with_reducible (apply enterWaiting_ord) | with_reducible (apply modSess_ord) | split)

theorem reviveFrames_ord {s₀ s : State} {i : Nat} (h₀ : Ordinary s₀ s) :
    OrdO s₀ (reviveFrames i s) := by
  unfold reviveFrames
  repeat' (first | with_reducible assumption | simp only [ord_upd] | with_reducible (apply allocMapFrame_ord) | with_reducible (apply modSess_ord) | with_reducible (apply allocFrame_ord) | with_reducible (apply putPage_ord) | with_reducible (apply allocRoot_ord) | (refine ordO_foldl (fun _ _ _ => ?_) ?_) | (refine ordO_mapP ?_ (fun _ _ => ?_)) | (refine ordO_bind ?_ (fun _ _ => ?_)) | (refine ordO_bindN (fun _ => ?_)) | apply ordO_some | split)

theorem revive_ord {s₀ t : State} {i : Nat} {x : Session} (h₀ : Ordinary s₀ t) :
    Ordinary s₀ (revive i x t) := by
  unfold revive
  repeat' (first | with_reducible assumption | simp only [ord_upd] | with_reducible (apply dropCopy_ord) | with_reducible (apply stopTimer_ord) | with_reducible (apply modSess_ord) | split)

theorem applyResume_ord {s₀ s : State} {i : Nat} (h₀ : Ordinary s₀ s) :
    Ordinary s₀ (applyResume i s).2 := by
  unfold applyResume
  repeat' (first | with_reducible assumption | simp only [ord_upd] | with_reducible (apply mirrorUpdate_ord) | with_reducible (apply stopTimer_ord) | with_reducible (apply modSess_ord) | with_reducible (apply reviveFrames_ord) | with_reducible (apply revive_ord) | with_reducible (apply abandonMove_ord) | with_reducible (apply bump_ord) | (refine admission_ord ?_ (fun _ _ => ?_)) | apply ord_admit2 | (refine ord_admit (by assumption) ?_) | (refine ord_pair (by assumption) ?_) | split)

theorem applyPark_ord {s₀ s : State} {i : Nat} {tier : Nat} {cmd : Option (Nat × BitVec 32)} (h₀ : Ordinary s₀ s) :
    Ordinary s₀ (applyPark i tier cmd s).2 := by
  unfold applyPark
  repeat' (first | with_reducible assumption | simp only [ord_upd] | with_reducible (apply startPark_ord) | split)

theorem applyCancel_ord {s₀ s : State} {i : Nat} (h₀ : Ordinary s₀ s) :
    Ordinary s₀ (applyCancel i s).2 := by
  unfold applyCancel
  repeat' (first | with_reducible assumption | simp only [ord_upd] | with_reducible (apply mirrorUpdate_ord) | with_reducible (apply modSess_ord) | with_reducible (apply finishStep_ord) | with_reducible (apply bump_ord) | with_reducible (apply toTombstone_ord) | with_reducible (apply abandonMove_ord) | split)

theorem applyFreeze_ord {s₀ s : State} {i : Nat} (h₀ : Ordinary s₀ s) :
    Ordinary s₀ (applyFreeze i s).2 := by
  unfold applyFreeze
  repeat' (first | with_reducible assumption | simp only [ord_upd] | with_reducible (apply mirrorUpdate_ord) | with_reducible (apply modSess_ord) | split)

theorem applyThaw_ord {s₀ s : State} {i : Nat} (h₀ : Ordinary s₀ s) :
    Ordinary s₀ (applyThaw i s).2 := by
  unfold applyThaw
  repeat' (first | with_reducible assumption | simp only [ord_upd] | with_reducible (apply mirrorUpdate_ord) | with_reducible (apply modSess_ord) | split)

theorem returnSource_ord {s₀ s : State} {i : Nat} {m : SourceMove} (h₀ : Ordinary s₀ s) :
    Ordinary s₀ (returnSource i m s) := by
  unfold returnSource
  repeat' (first | with_reducible assumption | simp only [ord_upd] | with_reducible (apply failMigration_ord) | with_reducible (apply dropTransfers_ord) | with_reducible (apply modSess_ord) | with_reducible (apply mirrorUpdate_ord) | with_reducible (apply enterWaiting_ord) | with_reducible (apply startTimer_ord) | split)

theorem applyMigrate_ord {s₀ s : State} {i : Nat} {node : Nat} {part : Nat} {qp : Nat} {tag : BitVec 32} (h₀ : Ordinary s₀ s) :
    Ordinary s₀ (applyMigrate i node part qp tag s).2 := by
  unfold applyMigrate
  repeat' (first | with_reducible assumption | simp only [ord_upd] | dsimp only | with_reducible (apply stopTimer_ord) | with_reducible (apply modSess_ord) | with_reducible (apply returnSource_ord) | with_reducible (apply mirrorUpdate_ord) | with_reducible (apply askPeer_ord) | with_reducible (apply dropBlock_ord) | with_reducible (apply voidStep_ord) | exact ordO_none | exact ordP_none | apply ordO_some | apply ordP_some | (with_reducible refine ord_getD ?_ ?_) | (refine ord_admit (by assumption) ?_) | (refine ord_pair (by assumption) ?_) | (refine ord_triple (by assumption) ?_) | (refine ord_quad (by assumption) ?_) | (refine ord_some (by assumption) ?_) | (refine ord_someP (by assumption) ?_) | (refine ord_somePair (by assumption) ?_) | split)

theorem execWait_ord {s₀ s : State} {m : Msg} (h₀ : Ordinary s₀ s) :
    OrdN s₀ (execWait m s) := by
  unfold execWait
  repeat' (first | apply ordN_next | with_reducible assumption | simp only [ord_upd] | dsimp only | (with_reducible refine sessionCmd_ord ?_ (fun _ _ _ => ?_)) | with_reducible (apply applyWait_ord) | with_reducible (apply refuse_ord) | exact ordO_none | exact ordP_none | apply ordO_some | apply ordP_some | (with_reducible refine ord_getD ?_ ?_) | (refine ord_admit (by assumption) ?_) | (refine ord_pair (by assumption) ?_) | (refine ord_triple (by assumption) ?_) | (refine ord_quad (by assumption) ?_) | (refine ord_some (by assumption) ?_) | (refine ord_someP (by assumption) ?_) | (refine ord_somePair (by assumption) ?_) | split)

theorem execResume_ord {s₀ s : State} {m : Msg} (h₀ : Ordinary s₀ s) :
    OrdN s₀ (execResume m s) := by
  unfold execResume
  repeat' (first | apply ordN_next | with_reducible assumption | simp only [ord_upd] | dsimp only | (with_reducible refine sessionCmd_ord ?_ (fun _ _ _ => ?_)) | with_reducible (apply holdMsg_ord) | with_reducible (apply applyResume_ord) | with_reducible (apply answerRing_ord) | (refine admission_ord ?_ (fun _ _ => ?_)) | apply ord_admit2 | (with_reducible refine ord_getD ?_ ?_) | (refine ord_admit (by assumption) ?_) | (refine ord_pair (by assumption) ?_) | (refine ord_triple (by assumption) ?_) | (refine ord_quad (by assumption) ?_) | (refine ord_some (by assumption) ?_) | (refine ord_someP (by assumption) ?_) | (refine ord_somePair (by assumption) ?_) | split)

theorem execPark_ord {s₀ s : State} {m : Msg} (h₀ : Ordinary s₀ s) :
    OrdN s₀ (execPark m s) := by
  unfold execPark
  repeat' (first | apply ordN_next | with_reducible assumption | simp only [ord_upd] | dsimp only | (with_reducible refine sessionCmd_ord ?_ (fun _ _ _ => ?_)) | with_reducible (apply applyPark_ord) | with_reducible (apply answerRing_ord) | exact ordO_none | exact ordP_none | apply ordO_some | apply ordP_some | (with_reducible refine ord_getD ?_ ?_) | (refine ord_admit (by assumption) ?_) | (refine ord_pair (by assumption) ?_) | (refine ord_triple (by assumption) ?_) | (refine ord_quad (by assumption) ?_) | (refine ord_some (by assumption) ?_) | (refine ord_someP (by assumption) ?_) | (refine ord_somePair (by assumption) ?_) | split)

theorem execCancel_ord {s₀ s : State} {m : Msg} (h₀ : Ordinary s₀ s) :
    OrdN s₀ (execCancel m s) := by
  unfold execCancel
  repeat' (first | apply ordN_next | with_reducible assumption | simp only [ord_upd] | dsimp only | (with_reducible refine sessionCmd_ord ?_ (fun _ _ _ => ?_)) | with_reducible (apply applyCancel_ord) | with_reducible (apply answerRing_ord) | with_reducible (apply settle_ord) | (with_reducible refine ord_getD ?_ ?_) | (refine ord_admit (by assumption) ?_) | (refine ord_pair (by assumption) ?_) | (refine ord_triple (by assumption) ?_) | (refine ord_quad (by assumption) ?_) | (refine ord_some (by assumption) ?_) | (refine ord_someP (by assumption) ?_) | (refine ord_somePair (by assumption) ?_) | split)

theorem execFreeze_ord {s₀ s : State} {m : Msg} (h₀ : Ordinary s₀ s) :
    OrdN s₀ (execFreeze m s) := by
  unfold execFreeze
  repeat' (first | apply ordN_next | with_reducible assumption | simp only [ord_upd] | dsimp only | (with_reducible refine sessionCmd_ord ?_ (fun _ _ _ => ?_)) | with_reducible (apply applyFreeze_ord) | with_reducible (apply answerRing_ord) | (with_reducible refine ord_getD ?_ ?_) | (refine ord_admit (by assumption) ?_) | (refine ord_pair (by assumption) ?_) | (refine ord_triple (by assumption) ?_) | (refine ord_quad (by assumption) ?_) | (refine ord_some (by assumption) ?_) | (refine ord_someP (by assumption) ?_) | (refine ord_somePair (by assumption) ?_) | split)

theorem execThaw_ord {s₀ s : State} {m : Msg} (h₀ : Ordinary s₀ s) :
    OrdN s₀ (execThaw m s) := by
  unfold execThaw
  repeat' (first | apply ordN_next | with_reducible assumption | simp only [ord_upd] | dsimp only | (with_reducible refine sessionCmd_ord ?_ (fun _ _ _ => ?_)) | with_reducible (apply applyThaw_ord) | with_reducible (apply answerRing_ord) | (with_reducible refine ord_getD ?_ ?_) | (refine ord_admit (by assumption) ?_) | (refine ord_pair (by assumption) ?_) | (refine ord_triple (by assumption) ?_) | (refine ord_quad (by assumption) ?_) | (refine ord_some (by assumption) ?_) | (refine ord_someP (by assumption) ?_) | (refine ord_somePair (by assumption) ?_) | split)

theorem execMigrate_ord {s₀ s : State} {m : Msg} (h₀ : Ordinary s₀ s) :
    OrdN s₀ (execMigrate m s) := by
  unfold execMigrate
  repeat' (first | apply ordN_next | with_reducible assumption | simp only [ord_upd] | dsimp only | (with_reducible refine sessionCmd_ord ?_ (fun _ _ _ => ?_)) | with_reducible (apply refuse_ord) | with_reducible (apply applyMigrate_ord) | with_reducible (apply settle_ord) | (with_reducible refine ord_getD ?_ ?_) | (refine ord_admit (by assumption) ?_) | (refine ord_pair (by assumption) ?_) | (refine ord_triple (by assumption) ?_) | (refine ord_quad (by assumption) ?_) | (refine ord_some (by assumption) ?_) | (refine ord_someP (by assumption) ?_) | (refine ord_somePair (by assumption) ?_) | split)

theorem execSessionSet_ord {s₀ s : State} {m : Msg} (h₀ : Ordinary s₀ s) :
    OrdN s₀ (execSessionSet m s) := by
  unfold execSessionSet
  repeat' (first | apply ordN_next | with_reducible assumption | simp only [ord_upd] | dsimp only | (with_reducible refine sessionCmd_ord ?_ (fun _ _ _ => ?_)) | with_reducible (apply refuse_ord) | with_reducible (apply mirrorUpdate_ord) | with_reducible (apply setSess_ord) | (with_reducible refine ord_getD ?_ ?_) | (refine ord_admit (by assumption) ?_) | (refine ord_pair (by assumption) ?_) | (refine ord_triple (by assumption) ?_) | (refine ord_quad (by assumption) ?_) | (refine ord_some (by assumption) ?_) | (refine ord_someP (by assumption) ?_) | (refine ord_somePair (by assumption) ?_) | split)

theorem execRecordRead_ord {s₀ s : State} {m : Msg} (h₀ : Ordinary s₀ s) :
    OrdN s₀ (execRecordRead m s) := by
  unfold execRecordRead
  repeat' (first | apply ordN_next | with_reducible assumption | simp only [ord_upd] | dsimp only | (with_reducible refine sessionCmd_ord ?_ (fun _ _ _ => ?_)) | with_reducible (apply respond_ord) | (with_reducible refine ord_getD ?_ ?_) | (refine ord_admit (by assumption) ?_) | (refine ord_pair (by assumption) ?_) | (refine ord_triple (by assumption) ?_) | (refine ord_quad (by assumption) ?_) | (refine ord_some (by assumption) ?_) | (refine ord_someP (by assumption) ?_) | (refine ord_somePair (by assumption) ?_) | split)

theorem execLineage_ord {s₀ s : State} {m : Msg} (h₀ : Ordinary s₀ s) :
    OrdN s₀ (execLineage m s) := by
  unfold execLineage
  repeat' (first | apply ordN_next | with_reducible assumption | simp only [ord_upd] | dsimp only | (with_reducible refine sessionCmd_ord ?_ (fun _ _ _ => ?_)) | with_reducible (apply bump_ord) | with_reducible (apply respond_ord) | exact ordO_none | exact ordP_none | apply ordO_some | apply ordP_some | (with_reducible refine ord_getD ?_ ?_) | (refine ord_admit (by assumption) ?_) | (refine ord_pair (by assumption) ?_) | (refine ord_triple (by assumption) ?_) | (refine ord_quad (by assumption) ?_) | (refine ord_some (by assumption) ?_) | (refine ord_someP (by assumption) ?_) | (refine ord_somePair (by assumption) ?_) | split)

theorem joinRing_ord {s₀ s : State} {i : Nat} {m : Msg} {parent : Word} {len : Nat} {refusal : Option (BitVec 16)} (h₀ : Ordinary s₀ s) :
    Ordinary s₀ (joinRing i m parent len refusal s) := by
  unfold joinRing
  repeat' (first | with_reducible assumption | simp only [ord_upd] | dsimp only | with_reducible (apply askPeer_ord) | (refine ord_foldl (fun _ _ _ => ?_) ?_) | (refine ord_foldlP (fun _ _ _ => ?_) ?_) | (refine ord_foldlT (fun _ _ _ => ?_) ?_) | (refine ord_foldlF (fun _ _ _ => ?_) ?_) | (refine ordO_foldl (fun _ _ _ => ?_) ?_) | (refine ordP_foldl (fun _ _ _ => ?_) ?_) | exact ordO_none | exact ordP_none | apply ordO_some | apply ordP_some | (with_reducible refine ord_getD ?_ ?_) | (refine ord_admit (by assumption) ?_) | (refine ord_pair (by assumption) ?_) | (refine ord_triple (by assumption) ?_) | (refine ord_quad (by assumption) ?_) | (refine ord_some (by assumption) ?_) | (refine ord_someP (by assumption) ?_) | (refine ord_somePair (by assumption) ?_) | split)

theorem execAdmitSession_ord {s₀ s : State} {m : Msg} (h₀ : Ordinary s₀ s) :
    OrdN s₀ (execAdmitSession m s) := by
  unfold execAdmitSession
  repeat' (first | apply ordN_next | with_reducible assumption | simp only [ord_upd] | dsimp only | (with_reducible refine request_ord ?_ (fun _ _ => ?_)) | with_reducible (apply holdMsg_ord) | with_reducible (apply allocRoot_ord) | with_reducible (apply occupy_ord) | with_reducible (apply mirrorUpdate_ord) | with_reducible (apply respond_ord) | with_reducible (apply bump_ord) | with_reducible (apply joinRing_ord) | with_reducible (apply refuse_ord) | (refine admission_ord ?_ (fun _ _ => ?_)) | apply ord_admit2 | exact ordO_none | exact ordP_none | apply ordO_some | apply ordP_some | (with_reducible refine ord_getD ?_ ?_) | (refine ord_admit (by assumption) ?_) | (refine ord_pair (by assumption) ?_) | (refine ord_triple (by assumption) ?_) | (refine ord_quad (by assumption) ?_) | (refine ord_some (by assumption) ?_) | (refine ord_someP (by assumption) ?_) | (refine ord_somePair (by assumption) ?_) | split)

theorem sharePages_ord {s₀ s : State} {i : Nat} {x : Session} {keys : List Nat} (h₀ : Ordinary s₀ s) :
    OrdO s₀ (sharePages i x keys s) := by
  unfold sharePages
  repeat' (first | with_reducible assumption | simp only [ord_upd] | dsimp only | with_reducible (apply ensureLeaf_ord) | with_reducible (apply modSess_ord) | with_reducible (apply putPage_ord) | with_reducible (apply addRef_ord) | (refine ord_foldl (fun _ _ _ => ?_) ?_) | (refine ord_foldlP (fun _ _ _ => ?_) ?_) | (refine ord_foldlT (fun _ _ _ => ?_) ?_) | (refine ord_foldlF (fun _ _ _ => ?_) ?_) | (refine ordO_foldl (fun _ _ _ => ?_) ?_) | (refine ordP_foldl (fun _ _ _ => ?_) ?_) | (refine ordO_map ?_ (fun _ _ => ?_)) | (refine ordO_mapP ?_ (fun _ _ => ?_)) | (refine ordP_map ?_ (fun _ _ => ?_)) | (refine ordP_mapP ?_ (fun _ _ => ?_)) | (refine ordO_mapN (fun _ => ?_)) | (refine ordP_mapN (fun _ => ?_)) | (refine ordO_bind ?_ (fun _ _ => ?_)) | (refine ordO_bindP ?_ (fun _ _ => ?_)) | (refine ordP_bind ?_ (fun _ _ => ?_)) | (refine ordP_bindP ?_ (fun _ _ => ?_)) | (refine ordO_bindN (fun _ => ?_)) | (refine ordP_bindN (fun _ => ?_)) | exact ordO_none | exact ordP_none | apply ordO_some | apply ordP_some | (with_reducible refine ord_getD ?_ ?_) | (refine ord_admit (by assumption) ?_) | (refine ord_pair (by assumption) ?_) | (refine ord_triple (by assumption) ?_) | (refine ord_quad (by assumption) ?_) | (refine ord_some (by assumption) ?_) | (refine ord_someP (by assumption) ?_) | (refine ord_somePair (by assumption) ?_) | split)

theorem copySegments_ord {s₀ s : State} {i parent : Nat} (h₀ : Ordinary s₀ s) : OrdO s₀ (copySegments i parent s) := by
  unfold copySegments
  dsimp only
  have hf : ∀ (l : List (Nat × Segment)) (o : Option (State × Tab Nat)), (∀ p, o = some p → Ordinary s₀ p.1) →
      ∀ p, l.foldl (fun a e => a.bind (fun x => (freeSegment x.1).map (fun k =>
        (({ x.1 with segments := Tab.put x.1.segments k { e.2 with owner := i } } : State), Tab.put x.2 e.1 k)))) o = some p →
      Ordinary s₀ p.1 := by
    intro l
    induction l with
    | nil => exact fun o h => h
    | cons a l ih =>
      intro o h
      refine ih _ ?_
      intro p e
      cases o with
      | none => cases e
      | some q =>
        obtain ⟨k, -, rfl⟩ := Option.map_eq_some_iff.1 e
        simp only [ord_upd]
        exact h q rfl
  refine ⟨fun t e => ?_⟩
  obtain ⟨p, hp, e⟩ := Option.bind_eq_some_iff.1 e
  have h := hf _ (some (s, [])) (fun p e => by cases e; exact h₀) p hp
  revert e
  split
  · intro e; cases e
    refine modSess_ord (ord_foldl (fun _ _ h => ?_) h)
    simp only [ord_upd]; exact h
  · intro e
    obtain ⟨k, -, rfl⟩ := Option.map_eq_some_iff.1 e
    refine modSess_ord ?_
    simp only [ord_upd]
    refine modSess_ord (ord_foldl (fun _ _ h => ?_) h)
    simp only [ord_upd]; exact h

theorem fillFork_ord {s₀ s : State} {c : Nat} {i : Nat} {keys : List Nat} (h₀ : Ordinary s₀ s) :
    Ordinary s₀ (fillFork c i keys s).2 := by
  unfold fillFork
  repeat' (first | with_reducible assumption | simp only [ord_upd] | dsimp only | with_reducible (apply sharePages_ord) | with_reducible (apply copySegments_ord) | with_reducible (apply modSess_ord) | exact ordO_none | exact ordP_none | apply ordO_some | apply ordP_some | (with_reducible refine ord_getD ?_ ?_) | (refine ord_admit (by assumption) ?_) | (refine ord_pair (by assumption) ?_) | (refine ord_triple (by assumption) ?_) | (refine ord_quad (by assumption) ?_) | (refine ord_some (by assumption) ?_) | (refine ord_someP (by assumption) ?_) | (refine ord_somePair (by assumption) ?_) | split)

theorem execFork_ord {s₀ s : State} {m : Msg} (h₀ : Ordinary s₀ s) :
    OrdN s₀ (execFork m s) := by
  unfold execFork
  repeat' (first | apply ordN_next | with_reducible assumption | simp only [ord_upd] | dsimp only | (with_reducible refine sessionCmd_ord ?_ (fun _ _ _ => ?_)) | with_reducible (apply holdMsg_ord) | with_reducible (apply refuse_ord) | with_reducible (apply allocRoot_ord) | with_reducible (apply occupy_ord) | with_reducible (apply fillFork_ord) | with_reducible (apply bump_ord) | with_reducible (apply mirrorUpdate_ord) | with_reducible (apply syncSession_ord) | with_reducible (apply respond_ord) | with_reducible (apply joinRing_ord) | (refine admission_ord ?_ (fun _ _ => ?_)) | apply ord_admit2 | exact ordO_none | exact ordP_none | apply ordO_some | apply ordP_some | (with_reducible refine ord_getD ?_ ?_) | (refine ord_admit (by assumption) ?_) | (refine ord_pair (by assumption) ?_) | (refine ord_triple (by assumption) ?_) | (refine ord_quad (by assumption) ?_) | (refine ord_some (by assumption) ?_) | (refine ord_someP (by assumption) ?_) | (refine ord_somePair (by assumption) ?_) | split)

end Sys2Proof.Machine
end

