-- ==== Sys2Proof/Laws/OrdSteps.lean ====
section
/-!
SUPPORT. The operations of Machine/Steps.lean are ordinary.
-/
namespace Sys2Proof.Machine

theorem sendText_ord {s₀ s : State} {i : Nat} {st : Step} {text : List Byte} (h₀ : Ordinary s₀ s) :
    Ordinary s₀ (sendText i st text s) := by
  unfold sendText
  repeat' (first | with_reducible assumption | with_reducible (apply notify_ord))

theorem feedText_ord {s₀ s : State} {i : Nat} {st : Step} {v : Vocab} {tok : Nat} {t : Tok} (h₀ : Ordinary s₀ s) :
    Ordinary s₀ (feedText i st v tok t s).2 := by
  unfold feedText
  repeat' (first | with_reducible assumption | simp only [ord_upd] | with_reducible (apply sendText_ord) | with_reducible (apply bumpBy_ord) | split)

theorem feedState_ord {s₀ s : State} {i : Nat} {tok : Nat} {t : Tok} (h₀ : Ordinary s₀ s) :
    Ordinary s₀ (feedState i tok t s).2 := by
  unfold feedState
  repeat' (first | with_reducible assumption | simp only [ord_upd] | with_reducible (apply bump_ord) | with_reducible (apply advanceGrammar_ord) | with_reducible (apply advanceLists_ord) | split)

theorem feedStep_ord {s₀ s : State} {i : Nat} {fed : Option Nat} {st : Step} (h₀ : Ordinary s₀ s) :
    Ordinary s₀ (feedStep i fed st s).2.2 := by
  unfold feedStep
  repeat' (first | with_reducible assumption | simp only [ord_upd] | with_reducible (apply reserveSegment_ord) | with_reducible (apply feedText_ord) | with_reducible (apply feedState_ord) | split)

theorem openStep_ord {s₀ s : State} {i : Nat} {m : Msg} (h₀ : Ordinary s₀ s) :
    Ordinary s₀ (openStep i m s) := by
  unfold openStep
  repeat' (first | with_reducible assumption | simp only [ord_upd] | with_reducible (apply feedStep_ord) | with_reducible (apply stopTimer_ord) | with_reducible (apply modSess_ord) | with_reducible (apply mirrorUpdate_ord) | with_reducible (apply pmuDispatch_ord) | with_reducible (apply restartStep_ord) | with_reducible (apply bump_ord) | with_reducible (apply appendLayer_ord) | split)

theorem execStep_ord {s₀ s : State} {m : Msg} (h₀ : Ordinary s₀ s) :
    OrdN s₀ (execStep m s) := by
  unfold execStep
  repeat' (first | apply ordN_next | with_reducible assumption | simp only [ord_upd] | (with_reducible refine sessionCmd_ord ?_ (fun _ _ _ => ?_)) | with_reducible (apply refuse_ord) | with_reducible (apply bump_ord) | with_reducible (apply holdMsg_ord) | with_reducible (apply touchJobs_ord) | with_reducible (apply openStep_ord) | split)

theorem execLayerIn_ord {s₀ s : State} {m : Msg} (h₀ : Ordinary s₀ s) :
    OrdN s₀ (execLayerIn m s) := by
  unfold execLayerIn
  repeat' (first | apply ordN_next | with_reducible assumption | simp only [ord_upd] | (with_reducible refine sessionCmd_ord ?_ (fun _ _ _ => ?_)) | with_reducible (apply refuse_ord) | with_reducible (apply holdMsg_ord) | with_reducible (apply touchJobs_ord) | with_reducible (apply appendLayer_ord) | with_reducible (apply modSess_ord) | split)

theorem sendPass_ord {s₀ s : State} {i : Nat} {a : TileAddr} {data : List Byte} (h₀ : Ordinary s₀ s) :
    Ordinary s₀ (sendPass i a data s) := by
  unfold sendPass
  repeat' (first | with_reducible assumption | simp only [ord_upd] | with_reducible (apply bump_ord) | with_reducible (apply sendTile_ord) | split)

theorem pumpPass_ord {s₀ t : State} {i : Nat} {x0 : Nat} (h₀ : Ordinary s₀ t) :
    Ordinary s₀ (pumpPass i x0 t) := by
  induction x0 generalizing t with
  | zero => (try simp only [pumpPass]); repeat' (first | with_reducible assumption | with_reducible (apply sendPass_ord) | with_reducible (apply modSess_ord) | (refine ord_foldRange (fun _ _ _ => ?_) ?_) | (refine ordO_foldRange (fun _ _ _ => ?_) ?_))
  | succ n ih =>
    simp only [pumpPass]
    repeat' (first | with_reducible assumption | with_reducible (apply ih) | with_reducible (apply sendPass_ord) | with_reducible (apply modSess_ord) | (refine ord_foldRange (fun _ _ _ => ?_) ?_) | split)

theorem resumePass_ord {s₀ s : State} {i : Nat} (h₀ : Ordinary s₀ s) :
    Ordinary s₀ (resumePass i s) := by
  unfold resumePass
  repeat' (first | with_reducible assumption | with_reducible (apply pumpPass_ord))

theorem startPass_ord {s₀ s : State} {i : Nat} {layer : Nat} (h₀ : Ordinary s₀ s) :
    Ordinary s₀ (startPass i layer s) := by
  unfold startPass
  repeat' (first | with_reducible assumption | simp only [ord_upd] | with_reducible (apply modSess_ord) | with_reducible (apply dropPass_ord) | with_reducible (apply resumePass_ord) | split)

theorem fanBlock_ord {s₀ s : State} {i : Nat} {b : QBlock} (h₀ : Ordinary s₀ s) :
    Ordinary s₀ (fanBlock i b s) := by
  unfold fanBlock
  repeat' (first | with_reducible assumption | simp only [ord_upd] | with_reducible (apply sendPeer_ord) | with_reducible (apply startPass_ord) | with_reducible (apply modSess_ord) | (refine ord_foldl (fun _ _ _ => ?_) ?_) | split)

theorem execQueryBlock_ord {s₀ s : State} {m : Msg} (h₀ : Ordinary s₀ s) :
    OrdN s₀ (execQueryBlock m s) := by
  unfold execQueryBlock
  repeat' (first | apply ordN_next | with_reducible assumption | simp only [ord_upd] | dsimp only | (with_reducible refine sessionCmd_ord ?_ (fun _ _ _ => ?_)) | with_reducible (apply refuse_ord) | with_reducible (apply holdMsg_ord) | with_reducible (apply touchJobs_ord) | with_reducible (apply fanBlock_ord) | with_reducible (apply modSess_ord) | exact ordO_none | exact ordP_none | apply ordO_some | apply ordP_some | (with_reducible refine ord_getD ?_ ?_) | (refine ord_admit (by assumption) ?_) | (refine ord_pair (by assumption) ?_) | (refine ord_triple (by assumption) ?_) | (refine ord_quad (by assumption) ?_) | (refine ord_some (by assumption) ?_) | (refine ord_someP (by assumption) ?_) | (refine ord_somePair (by assumption) ?_) | split)

theorem applyExtend_ord {s₀ s : State} {i : Nat} {n : Nat} (h₀ : Ordinary s₀ s) :
    Ordinary s₀ (applyExtend i n s).2 := by
  unfold applyExtend
  repeat' (first | with_reducible assumption | simp only [ord_upd] | dsimp only | with_reducible (apply mirrorUpdate_ord) | with_reducible (apply modSess_ord) | (with_reducible refine ord_getD ?_ ?_) | (refine ord_admit (by assumption) ?_) | (refine ord_pair (by assumption) ?_) | (refine ord_triple (by assumption) ?_) | (refine ord_quad (by assumption) ?_) | (refine ord_some (by assumption) ?_) | (refine ord_someP (by assumption) ?_) | (refine ord_somePair (by assumption) ?_) | split)

theorem execKvExtend_ord {s₀ s : State} {m : Msg} (h₀ : Ordinary s₀ s) :
    OrdN s₀ (execKvExtend m s) := by
  unfold execKvExtend
  repeat' (first | apply ordN_next | with_reducible assumption | simp only [ord_upd] | dsimp only | (with_reducible refine sessionCmd_ord ?_ (fun _ _ _ => ?_)) | with_reducible (apply applyExtend_ord) | with_reducible (apply answerRing_ord) | (with_reducible refine ord_getD ?_ ?_) | (refine ord_admit (by assumption) ?_) | (refine ord_pair (by assumption) ?_) | (refine ord_triple (by assumption) ?_) | (refine ord_quad (by assumption) ?_) | (refine ord_some (by assumption) ?_) | (refine ord_someP (by assumption) ?_) | (refine ord_somePair (by assumption) ?_) | split)

theorem execAppendAck_ord {s₀ s : State} {i : Nat} (h₀ : Ordinary s₀ s) :
    OrdN s₀ (execAppendAck i s) := by
  unfold execAppendAck
  repeat' (first | apply ordN_next | with_reducible assumption | simp only [ord_upd] | dsimp only | with_reducible (apply engine_ord) | with_reducible (apply touchJobs_ord) | with_reducible (apply modSess_ord) | exact ordO_none | exact ordP_none | apply ordO_some | apply ordP_some | (with_reducible refine ord_getD ?_ ?_) | (refine ord_admit (by assumption) ?_) | (refine ord_pair (by assumption) ?_) | (refine ord_triple (by assumption) ?_) | (refine ord_quad (by assumption) ?_) | (refine ord_some (by assumption) ?_) | (refine ord_someP (by assumption) ?_) | (refine ord_somePair (by assumption) ?_) | split)

theorem execAppendWaitTimeout_ord {s₀ s : State} {i : Nat} (h₀ : Ordinary s₀ s) :
    OrdN s₀ (execAppendWaitTimeout i s) := by
  unfold execAppendWaitTimeout
  repeat' (first | apply ordN_next | with_reducible assumption | simp only [ord_upd] | dsimp only | with_reducible (apply engineHeld_ord) | with_reducible (apply settle_ord) | with_reducible (apply restartStep_ord) | with_reducible (apply bump_ord) | exact ordO_none | exact ordP_none | apply ordO_some | apply ordP_some | (with_reducible refine ord_getD ?_ ?_) | (refine ord_admit (by assumption) ?_) | (refine ord_pair (by assumption) ?_) | (refine ord_triple (by assumption) ?_) | (refine ord_quad (by assumption) ?_) | (refine ord_some (by assumption) ?_) | (refine ord_someP (by assumption) ?_) | (refine ord_somePair (by assumption) ?_) | split)

theorem execMaskForm_ord {s₀ s : State} (h₀ : Ordinary s₀ s) :
    OrdN s₀ (execMaskForm s) := by
  unfold execMaskForm
  repeat' (first | apply ordN_next | with_reducible assumption | simp only [ord_upd] | dsimp only | with_reducible (apply engineHeld_ord) | with_reducible (apply reserveSegment_ord) | with_reducible (apply bump_ord) | with_reducible (apply modSess_ord) | with_reducible (apply pmu_ord) | with_reducible (apply sendMask_ord) | with_reducible (apply tryEnd_ord) | exact ordO_none | exact ordP_none | apply ordO_some | apply ordP_some | (with_reducible refine ord_getD ?_ ?_) | (refine ord_admit (by assumption) ?_) | (refine ord_pair (by assumption) ?_) | (refine ord_triple (by assumption) ?_) | (refine ord_quad (by assumption) ?_) | (refine ord_some (by assumption) ?_) | (refine ord_someP (by assumption) ?_) | (refine ord_somePair (by assumption) ?_) | split)

end Sys2Proof.Machine
end

