-- ==== Sys2Proof/Laws/OrdJobs.lean ====
section
/-!
SUPPORT. The operations of Machine/Jobs.lean are ordinary.
-/
namespace Sys2Proof.Machine

theorem execJobOpen_ord {s₀ s : State} {m : Msg} (h₀ : Ordinary s₀ s) :
    OrdN s₀ (execJobOpen m s) := by
  unfold execJobOpen
  repeat' (first | apply ordN_next | with_reducible assumption | simp only [ord_upd] | (with_reducible refine request_ord ?_ (fun _ _ => ?_)) | with_reducible (apply refuse_ord) | with_reducible (apply settleJobs_ord) | with_reducible (apply respond_ord) | with_reducible (apply touchJobs_ord) | with_reducible (apply bump_ord) | with_reducible (apply deny_ord) | split)

theorem execJobAdd_ord {s₀ s : State} {m : Msg} (h₀ : Ordinary s₀ s) :
    OrdN s₀ (execJobAdd m s) := by
  unfold execJobAdd
  repeat' (first | apply ordN_next | with_reducible assumption | simp only [ord_upd] | (with_reducible refine request_ord ?_ (fun _ _ => ?_)) | with_reducible (apply refuse_ord) | with_reducible (apply touchJobs_ord) | with_reducible (apply deny_ord) | split)

theorem execJobClose_ord {s₀ s : State} {m : Msg} (h₀ : Ordinary s₀ s) :
    OrdN s₀ (execJobClose m s) := by
  unfold execJobClose
  repeat' (first | apply ordN_next | with_reducible assumption | simp only [ord_upd] | (with_reducible refine request_ord ?_ (fun _ _ => ?_)) | with_reducible (apply refuse_ord) | with_reducible (apply settleJobs_ord) | split)

theorem execJobGrant_ord {s₀ s : State} {p : Nat} (h₀ : Ordinary s₀ s) :
    OrdN s₀ (execJobGrant p s) := by
  unfold execJobGrant
  repeat' (first | apply ordN_next | with_reducible assumption | simp only [ord_upd] | with_reducible (apply engineHeld_ord) | with_reducible (apply modPart_ord) | with_reducible (apply touchJobs_ord) | with_reducible (apply pmu_ord) | split)

theorem abandonWaits_ord {s₀ s : State} {p : Nat} (h₀ : Ordinary s₀ s) :
    Ordinary s₀ (abandonWaits p s) := by
  unfold abandonWaits
  repeat' (first | with_reducible assumption | simp only [ord_upd] | with_reducible (apply setFielder_ord) | (refine ord_foldl (fun _ _ _ => ?_) ?_))

theorem execJobCut_ord {s₀ s : State} {p : Nat} (h₀ : Ordinary s₀ s) :
    OrdN s₀ (execJobCut p s) := by
  unfold execJobCut
  repeat' (first | apply ordN_next | with_reducible assumption | simp only [ord_upd] | with_reducible (apply engineHeld_ord) | with_reducible (apply abandonWaits_ord) | with_reducible (apply releaseSet_ord) | with_reducible (apply bump_ord) | with_reducible (apply touchJobs_ord) | with_reducible (apply pmu_ord) | split)

theorem execJobIdleRelease_ord {s₀ s : State} {p : Nat} (h₀ : Ordinary s₀ s) :
    OrdN s₀ (execJobIdleRelease p s) := by
  unfold execJobIdleRelease
  repeat' (first | apply ordN_next | with_reducible assumption | with_reducible (apply engineHeld_ord) | with_reducible (apply touchJobs_ord) | with_reducible (apply bump_ord) | with_reducible (apply releaseSet_ord) | split)

theorem execRolePeriod_ord {s₀ s : State} (h₀ : Ordinary s₀ s) :
    OrdN s₀ (execRolePeriod s) := by
  unfold execRolePeriod
  repeat' (first | apply ordN_next | with_reducible assumption | simp only [ord_upd] | with_reducible (apply engine_ord) | with_reducible (apply modPart_ord) | (refine ord_foldRange (fun _ _ _ => ?_) ?_) | split)

end Sys2Proof.Machine
end

