-- ==== Sys2Proof/Laws/OrdMerging.lean ====
section
/-!
SUPPORT. The operations of Machine/Merging.lean are ordinary.
-/
namespace Sys2Proof.Machine

theorem waitMerge_ord {s₀ s : State} {waited : Bool} (h₀ : Ordinary s₀ s) :
    Ordinary s₀ (waitMerge waited s) := by
  unfold waitMerge
  repeat' (first | with_reducible assumption | with_reducible (apply bump_ord) | split)

theorem askRing_ord {s₀ s : State} {i : Nat} {tag : Nat} {m : Merge} (h₀ : Ordinary s₀ s) :
    Ordinary s₀ (askRing i tag m s) := by
  unfold askRing
  repeat' (first | with_reducible assumption | simp only [ord_upd] | with_reducible (apply sendPeer_ord) | (refine ord_foldl (fun _ _ _ => ?_) ?_))

theorem addRows_ord {s₀ s : State} {i : Nat} {rows : List (Nat × List Byte)} (h₀ : Ordinary s₀ s) :
    Ordinary s₀ (addRows i rows s) := by
  unfold addRows
  repeat' (first | with_reducible assumption | simp only [ord_upd] | with_reducible (apply modSess_ord))

theorem sendSegment_ord {s₀ s : State} {m : Merge} {home : Nat} {tag : Nat} {head : Nat} {j : Nat} {v : Partial} (h₀ : Ordinary s₀ s) :
    Ordinary s₀ (sendSegment m home tag head j v s) := by
  unfold sendSegment
  repeat' (first | with_reducible assumption | simp only [ord_upd] | with_reducible (apply sendPeer_ord))

theorem sendSegmentHeads_ord {s₀ s : State} {home : Nat} {tag : Nat} {j : Nat} {heads : List Nat} {m : Merge} (h₀ : Ordinary s₀ s) :
    Ordinary s₀ (sendSegmentHeads home tag j heads m s).2.2 := by
  unfold sendSegmentHeads
  repeat' (first | with_reducible assumption | simp only [ord_upd] | with_reducible (apply sendSegment_ord) | (refine ord_foldlT (fun _ _ _ => ?_) ?_) | split)

theorem sendSegments_ord {s₀ s : State} {t : Nat} (h₀ : Ordinary s₀ s) :
    Ordinary s₀ (sendSegments t s) := by
  unfold sendSegments
  repeat' (first | with_reducible assumption | simp only [ord_upd] | with_reducible (apply sendSegmentHeads_ord) | with_reducible (apply setMerge_ord) | (refine ord_foldlT (fun _ _ _ => ?_) ?_) | split)

theorem advanceMerge_ord {s₀ s : State} {t : Nat} (h₀ : Ordinary s₀ s) :
    Ordinary s₀ (advanceMerge t s) := by
  unfold advanceMerge
  repeat' (first | with_reducible assumption | simp only [ord_upd] | with_reducible (apply setMerge_ord) | with_reducible (apply sendSegments_ord) | with_reducible (apply touchJobs_ord) | with_reducible (apply modSess_ord) | with_reducible (apply addRows_ord) | with_reducible (apply sendPeer_ord) | (refine ord_foldl (fun _ _ _ => ?_) ?_) | split)

theorem openStepMerge_ord {s₀ s : State} {i : Nat} {st : Step} (h₀ : Ordinary s₀ s) :
    Ordinary s₀ (openStepMerge i st s) := by
  unfold openStepMerge
  repeat' (first | with_reducible assumption | simp only [ord_upd] | with_reducible (apply openMerge_ord) | with_reducible (apply waitMerge_ord) | with_reducible (apply modSess_ord) | with_reducible (apply advanceMerge_ord) | with_reducible (apply askRing_ord) | (refine ord_some (by assumption) ?_) | split)

theorem openBlockMerge_ord {s₀ s : State} {i : Nat} {b : QBlock} (h₀ : Ordinary s₀ s) :
    Ordinary s₀ (openBlockMerge i b s) := by
  unfold openBlockMerge
  repeat' (first | with_reducible assumption | simp only [ord_upd] | with_reducible (apply modSess_ord) | with_reducible (apply openMerge_ord) | with_reducible (apply waitMerge_ord) | (refine ord_some (by assumption) ?_) | split)

theorem openRingMerge_ord {s₀ s : State} {i : Nat} {w : RingWork} {rest : List RingWork} (h₀ : Ordinary s₀ s) :
    Ordinary s₀ (openRingMerge i w rest s) := by
  unfold openRingMerge
  repeat' (first | with_reducible assumption | simp only [ord_upd] | with_reducible (apply openMerge_ord) | with_reducible (apply waitMerge_ord) | with_reducible (apply modSess_ord) | with_reducible (apply advanceMerge_ord) | with_reducible (apply setMerge_ord) | (refine ord_some (by assumption) ?_) | split)

theorem execMergeOpen_ord {s₀ s : State} {i : Nat} (h₀ : Ordinary s₀ s) :
    OrdN s₀ (execMergeOpen i s) := by
  unfold execMergeOpen
  repeat' (first | apply ordN_next | with_reducible assumption | simp only [ord_upd] | with_reducible (apply engineHeld_ord) | with_reducible (apply touchJobs_ord) | with_reducible (apply openStepMerge_ord) | with_reducible (apply openBlockMerge_ord) | with_reducible (apply openRingMerge_ord) | split)

theorem touchUnit_ord {s₀ s : State} {i : Nat} {layer : Nat} {head : Nat} {block : Nat} (h₀ : Ordinary s₀ s) :
    Ordinary s₀ (touchUnit i layer head block s) := by
  unfold touchUnit
  repeat' (first | with_reducible assumption | simp only [ord_upd] | with_reducible (apply touchMap_ord) | (refine ord_foldl (fun _ _ _ => ?_) ?_) | split)

theorem sweepPass_ord {s₀ s : State} {m : Merge} {u : WorkUnit} (h₀ : Ordinary s₀ s) :
    Ordinary s₀ (sweepPass m u s) := by
  unfold sweepPass
  repeat' (first | with_reducible assumption | simp only [ord_upd] | with_reducible (apply dropPass_ord) | split)

theorem execUnitComplete_ord {s₀ s : State} {f : Nat} (h₀ : Ordinary s₀ s) :
    OrdN s₀ (execUnitComplete f s) := by
  unfold execUnitComplete
  repeat' (first | apply ordN_next | with_reducible assumption | simp only [ord_upd] | dsimp only | with_reducible (apply engine_ord) | with_reducible (apply pmu_ord) | with_reducible (apply bump_ord) | with_reducible (apply setFielder_ord) | with_reducible (apply setMerge_ord) | with_reducible (apply laneBusy_ord) | with_reducible (apply touchUnit_ord) | with_reducible (apply touchJobs_ord) | with_reducible (apply sweepPass_ord) | with_reducible (apply emitPartial_ord) | (refine ord_foldl (fun _ _ _ => ?_) ?_) | (refine ord_foldlP (fun _ _ _ => ?_) ?_) | (refine ord_foldlT (fun _ _ _ => ?_) ?_) | (refine ord_foldlF (fun _ _ _ => ?_) ?_) | (refine ordO_foldl (fun _ _ _ => ?_) ?_) | (refine ordP_foldl (fun _ _ _ => ?_) ?_) | exact ordO_none | exact ordP_none | apply ordO_some | apply ordP_some | (with_reducible refine ord_getD ?_ ?_) | (refine ord_admit (by assumption) ?_) | (refine ord_pair (by assumption) ?_) | (refine ord_triple (by assumption) ?_) | (refine ord_quad (by assumption) ?_) | (refine ord_some (by assumption) ?_) | (refine ord_someP (by assumption) ?_) | (refine ord_somePair (by assumption) ?_) | split)

theorem acceptPartial_ord {s₀ s : State} {t : Nat} {m : Merge} {p : Emitted} (h₀ : Ordinary s₀ s) :
    Ordinary s₀ (acceptPartial t m p s) := by
  unfold acceptPartial
  repeat' (first | with_reducible assumption | simp only [ord_upd] | dsimp only | with_reducible (apply bumpBy_ord) | with_reducible (apply bump_ord) | with_reducible (apply setMerge_ord) | with_reducible (apply pmu_ord) | with_reducible (apply advanceMerge_ord) | exact ordO_none | exact ordP_none | apply ordO_some | apply ordP_some | (with_reducible refine ord_getD ?_ ?_) | (refine ord_admit (by assumption) ?_) | (refine ord_pair (by assumption) ?_) | (refine ord_triple (by assumption) ?_) | (refine ord_quad (by assumption) ?_) | (refine ord_some (by assumption) ?_) | (refine ord_someP (by assumption) ?_) | (refine ord_somePair (by assumption) ?_) | split)

theorem execPartialAccept_ord {s₀ s : State} {c : Nat} (h₀ : Ordinary s₀ s) :
    OrdN s₀ (execPartialAccept c s) := by
  unfold execPartialAccept
  repeat' (first | apply ordN_next | with_reducible assumption | simp only [ord_upd] | dsimp only | with_reducible (apply engine_ord) | with_reducible (apply pumpCatcher_ord) | with_reducible (apply setCatcher_ord) | with_reducible (apply discardPartial_ord) | with_reducible (apply acceptPartial_ord) | exact ordO_none | exact ordP_none | apply ordO_some | apply ordP_some | (with_reducible refine ord_getD ?_ ?_) | (refine ord_admit (by assumption) ?_) | (refine ord_pair (by assumption) ?_) | (refine ord_triple (by assumption) ?_) | (refine ord_quad (by assumption) ?_) | (refine ord_some (by assumption) ?_) | (refine ord_someP (by assumption) ?_) | (refine ord_somePair (by assumption) ?_) | split)

theorem execWithdrawAckRx_ord {s₀ s : State} {t : Nat} {f : Nat} (h₀ : Ordinary s₀ s) :
    OrdN s₀ (execWithdrawAckRx t f s) := by
  unfold execWithdrawAckRx
  repeat' (first | apply ordN_next | with_reducible assumption | simp only [ord_upd] | dsimp only | with_reducible (apply engine_ord) | with_reducible (apply touchJobs_ord) | with_reducible (apply setMerge_ord) | exact ordO_none | exact ordP_none | apply ordO_some | apply ordP_some | (with_reducible refine ord_getD ?_ ?_) | (refine ord_admit (by assumption) ?_) | (refine ord_pair (by assumption) ?_) | (refine ord_triple (by assumption) ?_) | (refine ord_quad (by assumption) ?_) | (refine ord_some (by assumption) ?_) | (refine ord_someP (by assumption) ?_) | (refine ord_somePair (by assumption) ?_) | split)

theorem releaseLayer_ord {s₀ s : State} {i : Nat} {st : Step} (h₀ : Ordinary s₀ s) :
    Ordinary s₀ (releaseLayer i st s) := by
  unfold releaseLayer
  repeat' (first | with_reducible assumption | simp only [ord_upd] | dsimp only | with_reducible (apply sendMsg_ord) | with_reducible (apply modSess_ord) | with_reducible (apply settle_ord) | with_reducible (apply finishStep_ord) | with_reducible (apply tryEnd_ord) | exact ordO_none | exact ordP_none | apply ordO_some | apply ordP_some | (with_reducible refine ord_getD ?_ ?_) | (refine ord_admit (by assumption) ?_) | (refine ord_pair (by assumption) ?_) | (refine ord_triple (by assumption) ?_) | (refine ord_quad (by assumption) ?_) | (refine ord_some (by assumption) ?_) | (refine ord_someP (by assumption) ?_) | (refine ord_somePair (by assumption) ?_) | split)

theorem execOutputRelease_ord {s₀ s : State} {i : Nat} (h₀ : Ordinary s₀ s) :
    OrdN s₀ (execOutputRelease i s) := by
  unfold execOutputRelease
  repeat' (first | apply ordN_next | with_reducible assumption | simp only [ord_upd] | dsimp only | with_reducible (apply engineHeld_ord) | with_reducible (apply bump_ord) | with_reducible (apply modSess_ord) | with_reducible (apply touchJobs_ord) | with_reducible (apply releaseLayer_ord) | with_reducible (apply dropPass_ord) | with_reducible (apply sendMsg_ord) | with_reducible (apply fanBlock_ord) | with_reducible (apply settleJobs_ord) | exact ordO_none | exact ordP_none | apply ordO_some | apply ordP_some | (with_reducible refine ord_getD ?_ ?_) | (refine ord_admit (by assumption) ?_) | (refine ord_pair (by assumption) ?_) | (refine ord_triple (by assumption) ?_) | (refine ord_quad (by assumption) ?_) | (refine ord_some (by assumption) ?_) | (refine ord_someP (by assumption) ?_) | (refine ord_somePair (by assumption) ?_) | split)

theorem execSegPartial_ord {s₀ s : State} {m : Msg} {p : SegPartial} (h₀ : Ordinary s₀ s) :
    OrdN s₀ (execSegPartial m p s) := by
  unfold execSegPartial
  repeat' (first | apply ordN_next | with_reducible assumption | simp only [ord_upd] | dsimp only | (with_reducible refine peerMessage_ord ?_ (fun _ _ => ?_)) | with_reducible (apply bump_ord) | with_reducible (apply bumpBy_ord) | with_reducible (apply setMerge_ord) | with_reducible (apply sendPeer_ord) | with_reducible (apply advanceMerge_ord) | (refine ord_foldl (fun _ _ _ => ?_) ?_) | (refine ord_foldlP (fun _ _ _ => ?_) ?_) | (refine ord_foldlT (fun _ _ _ => ?_) ?_) | (refine ord_foldlF (fun _ _ _ => ?_) ?_) | (refine ordO_foldl (fun _ _ _ => ?_) ?_) | (refine ordP_foldl (fun _ _ _ => ?_) ?_) | exact ordO_none | exact ordP_none | apply ordO_some | apply ordP_some | (with_reducible refine ord_getD ?_ ?_) | (refine ord_admit (by assumption) ?_) | (refine ord_pair (by assumption) ?_) | (refine ord_triple (by assumption) ?_) | (refine ord_quad (by assumption) ?_) | (refine ord_some (by assumption) ?_) | (refine ord_someP (by assumption) ?_) | (refine ord_somePair (by assumption) ?_) | split)

theorem execSegFrontier_ord {s₀ s : State} {m : Msg} (h₀ : Ordinary s₀ s) :
    OrdN s₀ (execSegFrontier m s) := by
  unfold execSegFrontier
  repeat' (first | apply ordN_next | with_reducible assumption | simp only [ord_upd] | dsimp only | (with_reducible refine peerMessage_ord ?_ (fun _ _ => ?_)) | with_reducible (apply advanceMerge_ord) | with_reducible (apply setMerge_ord) | exact ordO_none | exact ordP_none | apply ordO_some | apply ordP_some | (with_reducible refine ord_getD ?_ ?_) | (refine ord_admit (by assumption) ?_) | (refine ord_pair (by assumption) ?_) | (refine ord_triple (by assumption) ?_) | (refine ord_quad (by assumption) ?_) | (refine ord_some (by assumption) ?_) | (refine ord_someP (by assumption) ?_) | (refine ord_somePair (by assumption) ?_) | split)

end Sys2Proof.Machine
end

