-- ==== Sys2Proof/Laws/OrdTokenCmds.lean ====
section
/-!
SUPPORT. The operations of Machine/TokenCmds.lean are ordinary.
-/
namespace Sys2Proof.Machine

theorem judgeImage_ord {s₀ s : State} {k : LoadKind} {slot : Nat} {l : List Byte} (h₀ : Ordinary s₀ s) :
    OrdP s₀ (judgeImage k slot l s) := by
  unfold judgeImage
  repeat' (first | with_reducible assumption | simp only [ord_upd] | (refine ordP_mapN (fun _ => ?_)) | (refine ordP_bindN (fun _ => ?_)) | exact ordP_none | apply ordP_some | split)

theorem clearSlot_ord {s₀ s : State} {k : LoadKind} {slot : Nat} (h₀ : Ordinary s₀ s) :
    Ordinary s₀ (clearSlot k slot s) := by
  unfold clearSlot
  repeat' (first | with_reducible assumption | simp only [ord_upd] | split)

theorem commitImage_ord {s₀ s : State} {k : LoadKind} {slot : Nat} {l : List Byte} (h₀ : Ordinary s₀ s) :
    Ordinary s₀ (commitImage k slot l s).2 := by
  unfold commitImage
  repeat' (first | with_reducible assumption | simp only [ord_upd] | with_reducible (apply clearSlot_ord) | with_reducible (apply judgeImage_ord) | (refine ord_someP (by assumption) ?_) | split)

theorem loadPiece_ord {s₀ s : State} {op : BitVec 16} {k : LoadKind} {m : Msg} (h₀ : Ordinary s₀ s) :
    Ordinary s₀ (loadPiece op k m s) := by
  unfold loadPiece
  repeat' (first | with_reducible assumption | simp only [ord_upd] | (with_reducible refine request_ord ?_ (fun _ _ => ?_)) | with_reducible (apply refuse_ord) | with_reducible (apply commitImage_ord) | split)

theorem execVocabLoad_ord {s₀ s : State} {m : Msg} (h₀ : Ordinary s₀ s) :
    OrdN s₀ (execVocabLoad m s) := by
  unfold execVocabLoad
  repeat' (first | apply ordN_next | with_reducible assumption | with_reducible (apply loadPiece_ord))

theorem execGrammarLoad_ord {s₀ s : State} {m : Msg} (h₀ : Ordinary s₀ s) :
    OrdN s₀ (execGrammarLoad m s) := by
  unfold execGrammarLoad
  repeat' (first | apply ordN_next | with_reducible assumption | with_reducible (apply loadPiece_ord))

theorem execListLoad_ord {s₀ s : State} {m : Msg} (h₀ : Ordinary s₀ s) :
    OrdN s₀ (execListLoad m s) := by
  unfold execListLoad
  repeat' (first | apply ordN_next | with_reducible assumption | with_reducible (apply loadPiece_ord))

theorem execLoadPieceTimeout_ord {s₀ s : State} {k : LoadKind} {slot : Nat} (h₀ : Ordinary s₀ s) :
    OrdN s₀ (execLoadPieceTimeout k slot s) := by
  unfold execLoadPieceTimeout
  repeat' (first | apply ordN_next | with_reducible assumption | simp only [ord_upd] | with_reducible (apply engine_ord))

theorem applyBind_ord {s₀ s : State} {i : Nat} {m : Msg} (h₀ : Ordinary s₀ s) :
    Ordinary s₀ (applyBind i m s).2 := by
  unfold applyBind
  repeat' (first | with_reducible assumption | simp only [ord_upd] | with_reducible (apply mirrorUpdate_ord) | with_reducible (apply modSess_ord) | with_reducible (apply releaseSegments_ord) | split)

theorem execTokenBind_ord {s₀ s : State} {m : Msg} (h₀ : Ordinary s₀ s) :
    OrdN s₀ (execTokenBind m s) := by
  unfold execTokenBind
  repeat' (first | apply ordN_next | with_reducible assumption | simp only [ord_upd] | (with_reducible refine sessionCmd_ord ?_ (fun _ _ _ => ?_)) | with_reducible (apply applyBind_ord) | with_reducible (apply answerRing_ord))

theorem execTextIn_ord {s₀ s : State} {m : Msg} (h₀ : Ordinary s₀ s) :
    OrdN s₀ (execTextIn m s) := by
  unfold execTextIn
  repeat' (first | apply ordN_next | with_reducible assumption | simp only [ord_upd] | (with_reducible refine sessionCmd_ord ?_ (fun _ _ _ => ?_)) | with_reducible (apply modSess_ord) | with_reducible (apply bumpBy_ord) | with_reducible (apply pmu_ord) | with_reducible (apply respond_ord) | with_reducible (apply mirrorUpdate_ord) | with_reducible (apply refuse_ord) | split)

theorem execDetokFlush_ord {s₀ s : State} {m : Msg} (h₀ : Ordinary s₀ s) :
    OrdN s₀ (execDetokFlush m s) := by
  unfold execDetokFlush
  repeat' (first | apply ordN_next | with_reducible assumption | simp only [ord_upd] | (with_reducible refine sessionCmd_ord ?_ (fun _ _ _ => ?_)) | with_reducible (apply mirrorUpdate_ord) | with_reducible (apply flushDetok_ord) | with_reducible (apply modSess_ord) | with_reducible (apply refuse_ord) | split)

theorem execEscapeSet_ord {s₀ s : State} {m : Msg} (h₀ : Ordinary s₀ s) :
    OrdN s₀ (execEscapeSet m s) := by
  unfold execEscapeSet
  repeat' (first | apply ordN_next | with_reducible assumption | simp only [ord_upd] | (with_reducible refine request_ord ?_ (fun _ _ => ?_)) | with_reducible (apply refuse_ord) | split)

end Sys2Proof.Machine
end

