-- ==== Sys2Proof/Laws/OrdAttnTables.lean ====
section
/-!
SUPPORT. The operations of Machine/AttnTables.lean are ordinary.
-/
namespace Sys2Proof.Machine

theorem execModelLoad_ord {s₀ s : State} {m : Msg} (h₀ : Ordinary s₀ s) :
    OrdN s₀ (execModelLoad m s) := by
  unfold execModelLoad
  repeat' (first | apply ordN_next | with_reducible assumption | simp only [ord_upd] | (with_reducible refine request_ord ?_ (fun _ _ => ?_)) | with_reducible (apply refuse_ord) | with_reducible (apply holdMsg_ord) | split)

theorem execModelRead_ord {s₀ s : State} {m : Msg} (h₀ : Ordinary s₀ s) :
    OrdN s₀ (execModelRead m s) := by
  unfold execModelRead
  repeat' (first | apply ordN_next | with_reducible assumption | (with_reducible refine request_ord ?_ (fun _ _ => ?_)) | with_reducible (apply refuse_ord) | with_reducible (apply respond_ord) | split)

theorem execRopeLoad_ord {s₀ s : State} {m : Msg} (h₀ : Ordinary s₀ s) :
    OrdN s₀ (execRopeLoad m s) := by
  unfold execRopeLoad
  repeat' (first | apply ordN_next | with_reducible assumption | simp only [ord_upd] | (with_reducible refine request_ord ?_ (fun _ _ => ?_)) | with_reducible (apply refuse_ord) | split)

theorem answerRope_ord {s₀ s : State} {l : RopeLoad} {st : Status} (h₀ : Ordinary s₀ s) :
    Ordinary s₀ (answerRope l st s) := by
  unfold answerRope
  repeat' (first | with_reducible assumption | with_reducible (apply sendMsg_ord))

theorem execRopeLoadApply_ord {s₀ s : State} {table : Nat} (h₀ : Ordinary s₀ s) :
    OrdN s₀ (execRopeLoadApply table s) := by
  unfold execRopeLoadApply
  repeat' (first | apply ordN_next | with_reducible assumption | simp only [ord_upd] | with_reducible (apply engineHeld_ord) | with_reducible (apply touchJobs_ord) | with_reducible (apply retryRope_ord) | with_reducible (apply answerRope_ord) | split)

theorem execRopeLoadTimeout_ord {s₀ s : State} {table : Nat} (h₀ : Ordinary s₀ s) :
    OrdN s₀ (execRopeLoadTimeout table s) := by
  unfold execRopeLoadTimeout
  repeat' (first | apply ordN_next | with_reducible assumption | simp only [ord_upd] | with_reducible (apply engine_ord) | with_reducible (apply touchJobs_ord) | with_reducible (apply retryRope_ord) | with_reducible (apply answerRope_ord) | split)

theorem execContextRearm_ord {s₀ s : State} {m : Msg} (h₀ : Ordinary s₀ s) :
    OrdN s₀ (execContextRearm m s) := by
  unfold execContextRearm
  repeat' (first | apply ordN_next | with_reducible assumption | simp only [ord_upd] | (with_reducible refine request_ord ?_ (fun _ _ => ?_)) | with_reducible (apply refuse_ord) | split)

end Sys2Proof.Machine
end

