-- ==== Sys2Proof/Laws/OrdMoves.lean ====
section
/-!
SUPPORT. The operations of Machine/Moves.lean are ordinary.
-/
namespace Sys2Proof.Machine

theorem execDemoteTimer_ord {s₀ s : State} {i : Nat} (h₀ : Ordinary s₀ s) :
    OrdN s₀ (execDemoteTimer i s) := by
  unfold execDemoteTimer
  repeat' (first | apply ordN_next | with_reducible assumption | with_reducible (apply engineHeld_ord) | with_reducible (apply settle_ord) | with_reducible (apply startPark_ord) | with_reducible (apply bump_ord) | split)

theorem execTtlExpiry_ord {s₀ s : State} {i : Nat} (h₀ : Ordinary s₀ s) :
    OrdN s₀ (execTtlExpiry i s) := by
  unfold execTtlExpiry
  repeat' (first | apply ordN_next | with_reducible assumption | with_reducible (apply engineHeld_ord) | with_reducible (apply settle_ord) | with_reducible (apply toTombstone_ord) | with_reducible (apply bump_ord) | split)

theorem freeEntry_ord {s₀ s : State} {i : Nat} (h₀ : Ordinary s₀ s) :
    Ordinary s₀ (freeEntry i s) := by
  unfold freeEntry
  repeat' (first | with_reducible assumption | simp only [ord_upd] | with_reducible (apply setSess_ord))

theorem execLastRef_ord {s₀ s : State} {i : Nat} (h₀ : Ordinary s₀ s) :
    OrdN s₀ (execLastRef i s) := by
  unfold execLastRef
  repeat' (first | apply ordN_next | with_reducible assumption | simp only [ord_upd] | with_reducible (apply engineHeld_ord) | with_reducible (apply mirrorItem_ord) | with_reducible (apply freeEntry_ord) | split)

theorem raiseInnings_ord {s₀ s : State} {i : Nat} (h₀ : Ordinary s₀ s) :
    Ordinary s₀ (raiseInnings i s) := by
  unfold raiseInnings
  repeat' (first | with_reducible assumption | simp only [ord_upd] | with_reducible (apply modSess_ord) | split)

theorem execInningsIncrement_ord {s₀ s : State} {i : Nat} (h₀ : Ordinary s₀ s) :
    OrdN s₀ (execInningsIncrement i s) := by
  unfold execInningsIncrement
  repeat' (first | apply ordN_next | with_reducible assumption | with_reducible (apply engineHeld_ord) | with_reducible (apply mirrorUpdate_ord) | with_reducible (apply raiseInnings_ord) | with_reducible (apply modSess_ord) | split)

theorem execPreemptionStart_ord {s₀ s : State} {p : Nat} (h₀ : Ordinary s₀ s) :
    OrdN s₀ (execPreemptionStart p s) := by
  unfold execPreemptionStart
  repeat' (first | apply ordN_next | with_reducible assumption | simp only [ord_upd] | with_reducible (apply engineHeld_ord) | with_reducible (apply modPart_ord) | with_reducible (apply settle_ord) | with_reducible (apply startPark_ord) | with_reducible (apply bump_ord) | split)

theorem startTtl_ord {s₀ s : State} {i : Nat} (h₀ : Ordinary s₀ s) :
    Ordinary s₀ (startTtl i s) := by
  unfold startTtl
  repeat' (first | with_reducible assumption | simp only [ord_upd] | with_reducible (apply startTimer_ord))

theorem completePark_ord {s₀ s : State} {i : Nat} {p : ParkMove} (h₀ : Ordinary s₀ s) :
    Ordinary s₀ (completePark i p s) := by
  unfold completePark
  repeat' (first | with_reducible assumption | simp only [ord_upd] | with_reducible (apply dropRef_ord) | with_reducible (apply freeFrame_ord) | with_reducible (apply freeHome_ord) | with_reducible (apply dropTransfers_ord) | with_reducible (apply setSess_ord) | with_reducible (apply mirrorUpdate_ord) | with_reducible (apply mirrorItem_ord) | with_reducible (apply startTtl_ord) | with_reducible (apply settle_ord) | with_reducible (apply parkNotice_ord) | (refine ord_foldl (fun _ _ _ => ?_) ?_) | split)

theorem passHomes_ord {s₀ s : State} {i : Nat} (h₀ : Ordinary s₀ s) :
    Ordinary s₀ (passHomes i s) := by
  unfold passHomes
  repeat' (first | with_reducible assumption | with_reducible (apply modSess_ord))

theorem execMoveDone_ord {s₀ s : State} {i : Nat} (h₀ : Ordinary s₀ s) :
    OrdN s₀ (execMoveDone i s) := by
  unfold execMoveDone
  repeat' (first | apply ordN_next | with_reducible assumption | simp only [ord_upd] | with_reducible (apply engineHeld_ord) | with_reducible (apply completePark_ord) | with_reducible (apply settle_ord) | with_reducible (apply toTombstone_ord) | with_reducible (apply passHomes_ord) | with_reducible (apply bump_ord) | with_reducible (apply askPeer_ord) | split)

theorem failPark_ord {s₀ s : State} {i : Nat} (h₀ : Ordinary s₀ s) :
    Ordinary s₀ (failPark i s) := by
  unfold failPark
  repeat' (first | with_reducible assumption | simp only [ord_upd] | with_reducible (apply abandonMove_ord) | with_reducible (apply bump_ord) | with_reducible (apply mirrorUpdate_ord) | with_reducible (apply enterWaiting_ord) | with_reducible (apply modSess_ord) | split)

theorem execMoveFail_ord {s₀ s : State} {i : Nat} (h₀ : Ordinary s₀ s) :
    OrdN s₀ (execMoveFail i s) := by
  unfold execMoveFail
  repeat' (first | apply ordN_next | with_reducible assumption | with_reducible (apply engineHeld_ord) | with_reducible (apply settle_ord) | with_reducible (apply failPark_ord) | with_reducible (apply returnSource_ord) | split)

theorem sendPage_ord {s₀ s : State} {i : Nat} {k : Nat} {m : SourceMove} {tile : Nat → List Byte} (h₀ : Ordinary s₀ s) :
    Ordinary s₀ (sendPage i k m tile s) := by
  unfold sendPage
  repeat' (first | with_reducible assumption | simp only [ord_upd] | with_reducible (apply sendTile_ord) | (refine ord_foldRange (fun _ _ _ => ?_) ?_))

theorem modSource_ord {s₀ s : State} {i : Nat} {f : SourceMove → SourceMove} (h₀ : Ordinary s₀ s) :
    Ordinary s₀ (modSource i f s) := by
  unfold modSource
  repeat' (first | with_reducible assumption | with_reducible (apply modSess_ord))

theorem pumpMigrate_ord {s₀ t : State} {i : Nat} {x0 : Nat} (h₀ : Ordinary s₀ t) :
    Ordinary s₀ (pumpMigrate i x0 t) := by
  induction x0 generalizing t with
  | zero => (try simp only [pumpMigrate]); repeat' (first | with_reducible assumption | with_reducible (apply modSource_ord) | with_reducible (apply sendPage_ord) | with_reducible (apply issueTile_ord) | (refine ord_foldRange (fun _ _ _ => ?_) ?_) | (refine ordO_foldRange (fun _ _ _ => ?_) ?_))
  | succ n ih =>
    simp only [pumpMigrate]
    repeat' (first | with_reducible assumption | with_reducible (apply ih) | with_reducible (apply modSource_ord) | with_reducible (apply sendPage_ord) | with_reducible (apply issueTile_ord) | (refine ord_foldRange (fun _ _ _ => ?_) ?_) | split)

theorem migrateTile_ord {s₀ s : State} {i : Nat} {k : Nat} {j : Nat} {data : List Byte} (h₀ : Ordinary s₀ s) :
    Ordinary s₀ (migrateTile i k j data s) := by
  unfold migrateTile
  repeat' (first | with_reducible assumption | simp only [ord_upd] | with_reducible (apply sendTile_ord) | split)

theorem settleRevive_ord {s₀ s : State} {i : Nat} (h₀ : Ordinary s₀ s) :
    Ordinary s₀ (settleRevive i s) := by
  unfold settleRevive
  repeat' (first | with_reducible assumption | simp only [ord_upd] | with_reducible (apply mirrorUpdate_ord) | with_reducible (apply modSess_ord) | with_reducible (apply freeHome_ord) | (refine ord_foldl (fun _ _ _ => ?_) ?_) | split)

theorem pageArrived_ord {s₀ s : State} {i : Nat} {k : Nat} {f : Nat} (h₀ : Ordinary s₀ s) :
    Ordinary s₀ (pageArrived i k f s) := by
  unfold pageArrived
  repeat' (first | with_reducible assumption | simp only [ord_upd] | dsimp only | with_reducible (apply turnFrame_ord) | with_reducible (apply modSess_ord) | with_reducible (apply revive_ord) | with_reducible (apply freeHome_ord) | with_reducible (apply modRevive_ord) | with_reducible (apply mirrorRows_ord) | with_reducible (apply pumpMigrate_ord) | with_reducible (apply pumpPark_ord) | with_reducible (apply settleRevive_ord) | with_reducible (apply settle_ord) | (refine ord_foldl (fun _ _ _ => ?_) ?_) | (refine ord_foldlP (fun _ _ _ => ?_) ?_) | (refine ord_foldlT (fun _ _ _ => ?_) ?_) | (refine ord_foldlF (fun _ _ _ => ?_) ?_) | (refine ordO_foldl (fun _ _ _ => ?_) ?_) | (refine ordP_foldl (fun _ _ _ => ?_) ?_) | (refine ordO_bind ?_ (fun _ _ => ?_)) | (refine ordO_bindP ?_ (fun _ _ => ?_)) | (refine ordP_bind ?_ (fun _ _ => ?_)) | (refine ordP_bindP ?_ (fun _ _ => ?_)) | (refine ordO_bindN (fun _ => ?_)) | (refine ordP_bindN (fun _ => ?_)) | exact ordO_none | exact ordP_none | apply ordO_some | apply ordP_some | (with_reducible refine ord_getD ?_ ?_) | (refine ord_admit (by assumption) ?_) | (refine ord_pair (by assumption) ?_) | (refine ord_triple (by assumption) ?_) | (refine ord_quad (by assumption) ?_) | (refine ord_some (by assumption) ?_) | (refine ord_someP (by assumption) ?_) | (refine ord_somePair (by assumption) ?_) | split)

theorem pageTile_ord {s₀ s : State} {i : Nat} {k : Nat} {j : Nat} {data : List Byte} (h₀ : Ordinary s₀ s) :
    Ordinary s₀ (pageTile i k j data s) := by
  unfold pageTile
  repeat' (first | with_reducible assumption | simp only [ord_upd] | dsimp only | with_reducible (apply revive_ord) | with_reducible (apply writeBytes_ord) | with_reducible (apply resumePass_ord) | with_reducible (apply pageArrived_ord) | (refine ord_foldRange (fun _ _ _ => ?_) ?_) | (refine ordO_foldRange (fun _ _ _ => ?_) ?_) | exact ordO_none | exact ordP_none | apply ordO_some | apply ordP_some | (with_reducible refine ord_getD ?_ ?_) | (refine ord_admit (by assumption) ?_) | (refine ord_pair (by assumption) ?_) | (refine ord_triple (by assumption) ?_) | (refine ord_quad (by assumption) ?_) | (refine ord_some (by assumption) ?_) | (refine ord_someP (by assumption) ?_) | (refine ord_somePair (by assumption) ?_) | split)

theorem mapTile_ord {s₀ s : State} {i : Nat} {leaf : Option Nat} (h₀ : Ordinary s₀ s) :
    Ordinary s₀ (mapTile i leaf s) := by
  unfold mapTile
  repeat' (first | with_reducible assumption | simp only [ord_upd] | dsimp only | with_reducible (apply settleJobs_ord) | with_reducible (apply settleRevive_ord) | with_reducible (apply modRevive_ord) | exact ordO_none | exact ordP_none | apply ordO_some | apply ordP_some | (with_reducible refine ord_getD ?_ ?_) | (refine ord_admit (by assumption) ?_) | (refine ord_pair (by assumption) ?_) | (refine ord_triple (by assumption) ?_) | (refine ord_quad (by assumption) ?_) | (refine ord_some (by assumption) ?_) | (refine ord_someP (by assumption) ?_) | (refine ord_somePair (by assumption) ?_) | split)

theorem fetchFault_ord {s₀ s : State} {i : Nat} {code : Nat} (h₀ : Ordinary s₀ s) :
    Ordinary s₀ (fetchFault i code s) := by
  unfold fetchFault
  repeat' (first | with_reducible assumption | simp only [ord_upd] | dsimp only | with_reducible (apply settle_ord) | with_reducible (apply faultSession_ord) | (with_reducible refine ord_getD ?_ ?_) | (refine ord_admit (by assumption) ?_) | (refine ord_pair (by assumption) ?_) | (refine ord_triple (by assumption) ?_) | (refine ord_quad (by assumption) ?_) | (refine ord_some (by assumption) ?_) | (refine ord_someP (by assumption) ?_) | (refine ord_somePair (by assumption) ?_) | split)

theorem issueRevive_ord {s₀ s : State} {i : Nat} {v : Revive} (h₀ : Ordinary s₀ s) :
    Ordinary s₀ (issueRevive i v s) := by
  unfold issueRevive
  repeat' (first | with_reducible assumption | simp only [ord_upd] | dsimp only | with_reducible (apply fetchFault_ord) | with_reducible (apply bump_ord) | with_reducible (apply issueTile_ord) | with_reducible (apply modRevive_ord) | (refine ord_foldRange (fun _ _ _ => ?_) ?_) | (refine ordO_foldRange (fun _ _ _ => ?_) ?_) | exact ordO_none | exact ordP_none | apply ordO_some | apply ordP_some | (with_reducible refine ord_getD ?_ ?_) | (refine ord_admit (by assumption) ?_) | (refine ord_pair (by assumption) ?_) | (refine ord_triple (by assumption) ?_) | (refine ord_quad (by assumption) ?_) | (refine ord_some (by assumption) ?_) | (refine ord_someP (by assumption) ?_) | (refine ord_somePair (by assumption) ?_) | split)

theorem execRevivalFetchIssue_ord {s₀ s : State} (h₀ : Ordinary s₀ s) :
    OrdN s₀ (execRevivalFetchIssue s) := by
  unfold execRevivalFetchIssue
  repeat' (first | apply ordN_next | with_reducible assumption | simp only [ord_upd] | dsimp only | with_reducible (apply engine_ord) | with_reducible (apply issueRevive_ord) | (with_reducible refine ord_getD ?_ ?_) | (refine ord_admit (by assumption) ?_) | (refine ord_pair (by assumption) ?_) | (refine ord_triple (by assumption) ?_) | (refine ord_quad (by assumption) ?_) | (refine ord_some (by assumption) ?_) | (refine ord_someP (by assumption) ?_) | (refine ord_somePair (by assumption) ?_) | split)

theorem execFlatIdlePark_ord {s₀ s : State} {i : Nat} (h₀ : Ordinary s₀ s) :
    OrdN s₀ (execFlatIdlePark i s) := by
  unfold execFlatIdlePark
  repeat' (first | apply ordN_next | with_reducible assumption | simp only [ord_upd] | dsimp only | with_reducible (apply engineHeld_ord) | with_reducible (apply settle_ord) | with_reducible (apply startPark_ord) | exact ordO_none | exact ordP_none | apply ordO_some | apply ordP_some | (with_reducible refine ord_getD ?_ ?_) | (refine ord_admit (by assumption) ?_) | (refine ord_pair (by assumption) ?_) | (refine ord_triple (by assumption) ?_) | (refine ord_quad (by assumption) ?_) | (refine ord_some (by assumption) ?_) | (refine ord_someP (by assumption) ?_) | (refine ord_somePair (by assumption) ?_) | split)

theorem startCopy_ord {s₀ s : State} {i : Nat} (h₀ : Ordinary s₀ s) :
    Ordinary s₀ (startCopy i s) := by
  unfold startCopy
  repeat' (first | with_reducible assumption | simp only [ord_upd] | dsimp only | with_reducible (apply allocTier_ord) | with_reducible (apply issueTile_ord) | with_reducible (apply modSess_ord) | (refine ord_foldRange (fun _ _ _ => ?_) ?_) | (refine ordO_foldRange (fun _ _ _ => ?_) ?_) | exact ordO_none | exact ordP_none | apply ordO_some | apply ordP_some | (with_reducible refine ord_getD ?_ ?_) | (refine ord_admit (by assumption) ?_) | (refine ord_pair (by assumption) ?_) | (refine ord_triple (by assumption) ?_) | (refine ord_quad (by assumption) ?_) | (refine ord_some (by assumption) ?_) | (refine ord_someP (by assumption) ?_) | (refine ord_somePair (by assumption) ?_) | split)

theorem beneathTile_ord {s₀ s : State} {i : Nat} {j : Nat} {data : List Byte} (h₀ : Ordinary s₀ s) :
    Ordinary s₀ (beneathTile i j data s) := by
  unfold beneathTile
  repeat' (first | with_reducible assumption | simp only [ord_upd] | dsimp only | with_reducible (apply issueTile_ord) | exact ordO_none | exact ordP_none | apply ordO_some | apply ordP_some | (with_reducible refine ord_getD ?_ ?_) | (refine ord_admit (by assumption) ?_) | (refine ord_pair (by assumption) ?_) | (refine ord_triple (by assumption) ?_) | (refine ord_quad (by assumption) ?_) | (refine ord_some (by assumption) ?_) | (refine ord_someP (by assumption) ?_) | (refine ord_somePair (by assumption) ?_) | split)

theorem beneathWritten_ord {s₀ s : State} {i : Nat} (h₀ : Ordinary s₀ s) :
    Ordinary s₀ (beneathWritten i s) := by
  unfold beneathWritten
  repeat' (first | with_reducible assumption | simp only [ord_upd] | dsimp only | with_reducible (apply modSess_ord) | exact ordO_none | exact ordP_none | apply ordO_some | apply ordP_some | (with_reducible refine ord_getD ?_ ?_) | (refine ord_admit (by assumption) ?_) | (refine ord_pair (by assumption) ?_) | (refine ord_triple (by assumption) ?_) | (refine ord_quad (by assumption) ?_) | (refine ord_some (by assumption) ?_) | (refine ord_someP (by assumption) ?_) | (refine ord_somePair (by assumption) ?_) | split)

theorem beneathFailed_ord {s₀ s : State} {i : Nat} (h₀ : Ordinary s₀ s) :
    Ordinary s₀ (beneathFailed i s) := by
  unfold beneathFailed
  repeat' (first | with_reducible assumption | simp only [ord_upd] | dsimp only | with_reducible (apply dropCopy_ord) | with_reducible (apply modSess_ord) | (with_reducible refine ord_getD ?_ ?_) | (refine ord_admit (by assumption) ?_) | (refine ord_pair (by assumption) ?_) | (refine ord_triple (by assumption) ?_) | (refine ord_quad (by assumption) ?_) | (refine ord_some (by assumption) ?_) | (refine ord_someP (by assumption) ?_) | (refine ord_somePair (by assumption) ?_) | split)

theorem switchHome_ord {s₀ s : State} {i : Nat} {c : BeneathCopy} (h₀ : Ordinary s₀ s) :
    Ordinary s₀ (switchHome i c s) := by
  unfold switchHome
  repeat' (first | with_reducible assumption | simp only [ord_upd] | dsimp only | with_reducible (apply modSess_ord) | with_reducible (apply freeHome_ord) | with_reducible (apply putPage_ord) | with_reducible (apply revive_ord) | with_reducible (apply modRevive_ord) | with_reducible (apply bump_ord) | with_reducible (apply mirrorUpdate_ord) | (refine ord_foldl (fun _ _ _ => ?_) ?_) | (refine ord_foldlP (fun _ _ _ => ?_) ?_) | (refine ord_foldlT (fun _ _ _ => ?_) ?_) | (refine ord_foldlF (fun _ _ _ => ?_) ?_) | (refine ordO_foldl (fun _ _ _ => ?_) ?_) | (refine ordP_foldl (fun _ _ _ => ?_) ?_) | exact ordO_none | exact ordP_none | apply ordO_some | apply ordP_some | (with_reducible refine ord_getD ?_ ?_) | (refine ord_admit (by assumption) ?_) | (refine ord_pair (by assumption) ?_) | (refine ord_triple (by assumption) ?_) | (refine ord_quad (by assumption) ?_) | (refine ord_some (by assumption) ?_) | (refine ord_someP (by assumption) ?_) | (refine ord_somePair (by assumption) ?_) | split)

theorem execFlatDemote_ord {s₀ s : State} {i : Nat} (h₀ : Ordinary s₀ s) :
    OrdN s₀ (execFlatDemote i s) := by
  unfold execFlatDemote
  repeat' (first | apply ordN_next | with_reducible assumption | simp only [ord_upd] | dsimp only | with_reducible (apply engineHeld_ord) | with_reducible (apply startCopy_ord) | with_reducible (apply modSess_ord) | exact ordO_none | exact ordP_none | apply ordO_some | apply ordP_some | (with_reducible refine ord_getD ?_ ?_) | (refine ord_admit (by assumption) ?_) | (refine ord_pair (by assumption) ?_) | (refine ord_triple (by assumption) ?_) | (refine ord_quad (by assumption) ?_) | (refine ord_some (by assumption) ?_) | (refine ord_someP (by assumption) ?_) | (refine ord_somePair (by assumption) ?_) | split)

theorem execFlatMigration_ord {s₀ s : State} {i : Nat} (h₀ : Ordinary s₀ s) :
    OrdN s₀ (execFlatMigration i s) := by
  unfold execFlatMigration
  repeat' (first | apply ordN_next | with_reducible assumption | simp only [ord_upd] | dsimp only | with_reducible (apply engineHeld_ord) | with_reducible (apply switchHome_ord) | with_reducible (apply startCopy_ord) | exact ordO_none | exact ordP_none | apply ordO_some | apply ordP_some | (with_reducible refine ord_getD ?_ ?_) | (refine ord_admit (by assumption) ?_) | (refine ord_pair (by assumption) ?_) | (refine ord_triple (by assumption) ?_) | (refine ord_quad (by assumption) ?_) | (refine ord_some (by assumption) ?_) | (refine ord_someP (by assumption) ?_) | (refine ord_somePair (by assumption) ?_) | split)

theorem parkTile_ord {s₀ s : State} {i : Nat} {key : Option Nat} (h₀ : Ordinary s₀ s) :
    Ordinary s₀ (parkTile i key s) := by
  unfold parkTile
  repeat' (first | with_reducible assumption | simp only [ord_upd] | dsimp only | with_reducible (apply modPark_ord) | with_reducible (apply freeHome_ord) | with_reducible (apply putPage_ord) | with_reducible (apply pumpPark_ord) | exact ordO_none | exact ordP_none | apply ordO_some | apply ordP_some | (with_reducible refine ord_getD ?_ ?_) | (refine ord_admit (by assumption) ?_) | (refine ord_pair (by assumption) ?_) | (refine ord_triple (by assumption) ?_) | (refine ord_quad (by assumption) ?_) | (refine ord_some (by assumption) ?_) | (refine ord_someP (by assumption) ?_) | (refine ord_somePair (by assumption) ?_) | split)

end Sys2Proof.Machine
end

