-- ==== Sys2Proof/Laws/OrdCompass.lean ====
section
/-!
SUPPORT. The operations of Machine/Compass.lean are ordinary.
-/
namespace Sys2Proof.Machine

theorem onIndex_ord {s₀ s : State} {m : Msg} {always : Bool} {h : VIndex → State → State} (h₀ : Ordinary s₀ s) (hf : ∀ (y0 : VIndex) (t : State), Ordinary s₀ t → Ordinary s₀ (h y0 t)) :
    Ordinary s₀ (onIndex m always h s) := by
  unfold onIndex
  repeat' (first | with_reducible assumption | with_reducible (apply refuse_ord) | with_reducible (apply hf) | split)

theorem doCreate_ord {s₀ s : State} {m : Msg} (h₀ : Ordinary s₀ s) :
    Ordinary s₀ (doCreate m s) := by
  unfold doCreate
  repeat' (first | with_reducible assumption | simp only [ord_upd] | with_reducible (apply refuse_ord) | with_reducible (apply allocIndexFrames_ord) | with_reducible (apply setIndex_ord) | (refine ordO_mapP ?_ (fun _ _ => ?_)) | (refine ordO_bindP ?_ (fun _ _ => ?_)) | (refine ord_some (by assumption) ?_) | split)

theorem doCentroids_ord {s₀ s : State} {m : Msg} (h₀ : Ordinary s₀ s) :
    Ordinary s₀ (doCentroids m s) := by
  unfold doCentroids
  repeat' (first | with_reducible assumption | simp only [ord_upd] | (with_reducible refine onIndex_ord ?_ (fun _ _ _ => ?_)) | with_reducible (apply refuse_ord) | with_reducible (apply writeBytes_ord) | (refine ord_foldRange (fun _ _ _ => ?_) ?_) | split)

theorem appendEntry_ord {s₀ s : State} {x : Nat} {v : VIndex} {c : Nat} {id : Nat} {code : List Byte} (h₀ : Ordinary s₀ s) :
    OrdP s₀ (appendEntry x v c id code s) := by
  unfold appendEntry
  repeat' (first | with_reducible assumption | simp only [ord_upd] | with_reducible (apply allocIndexFrame_ord) | with_reducible (apply writeEntry_ord) | with_reducible (apply setRecordState_ord) | with_reducible (apply writeHeaders_ord) | (refine ordP_mapP ?_ (fun _ _ => ?_)) | apply ordP_some | split)

theorem insertRecord_ord {s₀ s : State} {x : Nat} {v : VIndex} {item : List Byte} (h₀ : Ordinary s₀ s) :
    Ordinary s₀ (insertRecord x v item s).2.2 := by
  unfold insertRecord
  repeat' (first | with_reducible assumption | simp only [ord_upd] | with_reducible (apply appendEntry_ord) | (refine ord_someP (by assumption) ?_) | split)

theorem insertAll_ord {s₀ : State} {x : Nat} : ∀ {l : List (List Byte)} {v : VIndex} {n : Nat} {s : State}, Ordinary s₀ s →
    Ordinary s₀ (insertAll x v n s l).2.2.2
  | [], _, _, _, h => h
  | i :: l, v, n, s, h => by
    have h₁ : Ordinary s₀ (insertRecord x v i s).2.2 := insertRecord_ord h
    simp only [insertAll]
    split
    · rename_i e; rw [e] at h₁; exact insertAll_ord h₁
    · rename_i e; rw [e] at h₁; exact h₁

theorem doInsert_ord {s₀ s : State} {m : Msg} (h₀ : Ordinary s₀ s) : Ordinary s₀ (doInsert m s) := by
  unfold doInsert
  refine onIndex_ord h₀ (fun v t h => ?_)
  dsimp only
  split
  · exact refuse_ord h
  · exact respond_ord (setIndex_ord (insertAll_ord h))

theorem doDelete_ord {s₀ s : State} {m : Msg} (h₀ : Ordinary s₀ s) :
    Ordinary s₀ (doDelete m s) := by
  unfold doDelete
  repeat' (first | with_reducible assumption | simp only [ord_upd] | (with_reducible refine onIndex_ord ?_ (fun _ _ _ => ?_)) | with_reducible (apply setRecordState_ord) | with_reducible (apply respond_ord) | with_reducible (apply setIndex_ord) | (refine ord_foldlT (fun _ _ _ => ?_) ?_) | split)

theorem compactList_ord {s₀ s : State} {x : Nat} {c : Nat} {v : VIndex} (h₀ : Ordinary s₀ s) :
    OrdP s₀ (compactList x c v s) := by
  unfold compactList
  repeat' (first | with_reducible assumption | simp only [ord_upd] | with_reducible (apply allocIndexFrames_ord) | with_reducible (apply writeEntry_ord) | with_reducible (apply setRecordState_ord) | with_reducible (apply writeHeaders_ord) | with_reducible (apply freeFrame_ord) | (refine ord_foldl (fun _ _ _ => ?_) ?_) | (refine ordP_mapP ?_ (fun _ _ => ?_)))

theorem doCompact_ord {s₀ s : State} {m : Msg} (h₀ : Ordinary s₀ s) :
    Ordinary s₀ (doCompact m s) := by
  unfold doCompact
  repeat' (first | with_reducible assumption | simp only [ord_upd] | (with_reducible refine onIndex_ord ?_ (fun _ _ _ => ?_)) | with_reducible (apply refuse_ord) | with_reducible (apply compactList_ord) | with_reducible (apply setIndex_ord) | (refine ordP_foldl (fun _ _ _ => ?_) ?_) | (refine ordP_bindP ?_ (fun _ _ => ?_)) | apply ordP_some | (refine ord_someP (by assumption) ?_) | split)

theorem doSeal_ord {s₀ s : State} {m : Msg} (h₀ : Ordinary s₀ s) :
    Ordinary s₀ (doSeal m s) := by
  unfold doSeal
  repeat' (first | with_reducible assumption | (with_reducible refine onIndex_ord ?_ (fun _ _ _ => ?_)) | with_reducible (apply refuse_ord) | with_reducible (apply setIndex_ord))

theorem doUnseal_ord {s₀ s : State} {m : Msg} (h₀ : Ordinary s₀ s) :
    Ordinary s₀ (doUnseal m s) := by
  unfold doUnseal
  repeat' (first | with_reducible assumption | (with_reducible refine onIndex_ord ?_ (fun _ _ _ => ?_)) | with_reducible (apply refuse_ord) | with_reducible (apply noteUnsealed_ord) | with_reducible (apply setIndex_ord) | split)

theorem placeOut_ord {s₀ s : State} {v : VIndex} (h₀ : Ordinary s₀ s) :
    OrdP s₀ (placeOut v s) := by
  unfold placeOut
  repeat' (first | with_reducible assumption | simp only [ord_upd] | with_reducible (apply allocPool_ord) | (refine ordP_foldl (fun _ _ _ => ?_) ?_) | (refine ordP_bindP ?_ (fun _ _ => ?_)) | exact ordP_none | apply ordP_some | split)

theorem placeIn_ord {s₀ s : State} {x : Nat} {v : VIndex} (h₀ : Ordinary s₀ s) :
    OrdP s₀ (placeIn x v s) := by
  unfold placeIn
  repeat' (first | with_reducible assumption | simp only [ord_upd] | with_reducible (apply allocIndexFrames_ord) | (refine ordP_foldl (fun _ _ _ => ?_) ?_) | (refine ordP_mapP ?_ (fun _ _ => ?_)) | (refine ordP_bindP ?_ (fun _ _ => ?_)) | apply ordP_some)

theorem placeTile_ord {s₀ s : State} {x : Nat} {v : VIndex} {p : Placing} {c : Nat} {j : Nat} {t : Nat} (h₀ : Ordinary s₀ s) :
    Ordinary s₀ (placeTile x v p c j t s) := by
  unfold placeTile
  repeat' (first | with_reducible assumption | simp only [ord_upd] | with_reducible (apply issueTile_ord) | split)

theorem pumpPlace_ord {s₀ t : State} {x : Nat} {x0 : Nat} (h₀ : Ordinary s₀ t) :
    Ordinary s₀ (pumpPlace x x0 t) := by
  induction x0 generalizing t with
  | zero => (try simp only [pumpPlace]); repeat' (first | with_reducible assumption | with_reducible (apply failPlace_ord) | with_reducible (apply bump_ord) | with_reducible (apply placeTile_ord) | with_reducible (apply setIndex_ord) | with_reducible (apply freeList_ord) | with_reducible (apply writeHeaders_ord) | with_reducible (apply refuse_ord) | (refine ord_foldl (fun _ _ _ => ?_) ?_) | (refine ord_foldlP (fun _ _ _ => ?_) ?_))
  | succ n ih =>
    simp only [pumpPlace]
    repeat' (first | with_reducible assumption | with_reducible (apply ih) | with_reducible (apply failPlace_ord) | with_reducible (apply bump_ord) | with_reducible (apply placeTile_ord) | with_reducible (apply setIndex_ord) | with_reducible (apply freeList_ord) | with_reducible (apply writeHeaders_ord) | with_reducible (apply refuse_ord) | (refine ord_foldl (fun _ _ _ => ?_) ?_) | split)

theorem doPlace_ord {s₀ s : State} {m : Msg} (h₀ : Ordinary s₀ s) :
    Ordinary s₀ (doPlace m s) := by
  unfold doPlace
  repeat' (first | with_reducible assumption | simp only [ord_upd] | (with_reducible refine onIndex_ord ?_ (fun _ _ _ => ?_)) | with_reducible (apply refuse_ord) | with_reducible (apply bump_ord) | with_reducible (apply pumpPlace_ord) | with_reducible (apply setIndex_ord) | with_reducible (apply placeOut_ord) | with_reducible (apply placeIn_ord) | (refine ord_someP (by assumption) ?_) | split)

theorem doInfo_ord {s₀ s : State} {m : Msg} (h₀ : Ordinary s₀ s) :
    Ordinary s₀ (doInfo m s) := by
  unfold doInfo
  repeat' (first | with_reducible assumption | simp only [ord_upd] | dsimp only | (with_reducible refine onIndex_ord ?_ (fun _ _ _ => ?_)) | with_reducible (apply respond_ord) | (with_reducible refine ord_getD ?_ ?_) | (refine ord_admit (by assumption) ?_) | (refine ord_pair (by assumption) ?_) | (refine ord_triple (by assumption) ?_) | (refine ord_quad (by assumption) ?_) | (refine ord_some (by assumption) ?_) | (refine ord_someP (by assumption) ?_) | (refine ord_somePair (by assumption) ?_) | split)

theorem doDrop_ord {s₀ s : State} {m : Msg} (h₀ : Ordinary s₀ s) :
    Ordinary s₀ (doDrop m s) := by
  unfold doDrop
  repeat' (first | with_reducible assumption | simp only [ord_upd] | dsimp only | (with_reducible refine onIndex_ord ?_ (fun _ _ _ => ?_)) | with_reducible (apply refuse_ord) | with_reducible (apply dropIndex_ord) | (with_reducible refine ord_getD ?_ ?_) | (refine ord_admit (by assumption) ?_) | (refine ord_pair (by assumption) ?_) | (refine ord_triple (by assumption) ?_) | (refine ord_quad (by assumption) ?_) | (refine ord_some (by assumption) ?_) | (refine ord_someP (by assumption) ?_) | (refine ord_somePair (by assumption) ?_) | split)

theorem pumpStage_ord {s₀ t : State} {k : Nat} {x0 : Nat} (h₀ : Ordinary s₀ t) :
    Ordinary s₀ (pumpStage k x0 t) := by
  induction x0 generalizing t with
  | zero => (try simp only [pumpStage]); repeat' (first | with_reducible assumption | simp only [ord_upd] | dsimp only | with_reducible (apply endSearch_ord) | with_reducible (apply bump_ord) | with_reducible (apply allocIndexFrame_ord) | with_reducible (apply issueTile_ord) | (refine ord_foldRange (fun _ _ _ => ?_) ?_) | (refine ordO_foldRange (fun _ _ _ => ?_) ?_) | exact ordO_none | exact ordP_none | apply ordO_some | apply ordP_some | (with_reducible refine ord_getD ?_ ?_) | (refine ord_admit (by assumption) ?_) | (refine ord_pair (by assumption) ?_) | (refine ord_triple (by assumption) ?_) | (refine ord_quad (by assumption) ?_) | (refine ord_some (by assumption) ?_) | (refine ord_someP (by assumption) ?_) | (refine ord_somePair (by assumption) ?_) | split)
  | succ n ih =>
    simp only [pumpStage]
    repeat' (first | with_reducible assumption | simp only [ord_upd] | dsimp only | with_reducible (apply ih) | with_reducible (apply endSearch_ord) | with_reducible (apply bump_ord) | with_reducible (apply allocIndexFrame_ord) | with_reducible (apply issueTile_ord) | (refine ord_foldRange (fun _ _ _ => ?_) ?_) | (refine ordO_foldRange (fun _ _ _ => ?_) ?_) | exact ordO_none | exact ordP_none | apply ordO_some | apply ordP_some | (with_reducible refine ord_getD ?_ ?_) | (refine ord_admit (by assumption) ?_) | (refine ord_pair (by assumption) ?_) | (refine ord_triple (by assumption) ?_) | (refine ord_quad (by assumption) ?_) | (refine ord_some (by assumption) ?_) | (refine ord_someP (by assumption) ?_) | (refine ord_somePair (by assumption) ?_) | split)

theorem advanceSearch_ord {s₀ t : State} {k : Nat} {x0 : Nat} (h₀ : Ordinary s₀ t) :
    Ordinary s₀ (advanceSearch k x0 t) := by
  induction x0 generalizing t with
  | zero => (try simp only [advanceSearch]); repeat' (first | with_reducible assumption | simp only [ord_upd] | dsimp only | with_reducible (apply pumpStage_ord) | with_reducible (apply endSearch_ord) | with_reducible (apply sequence_ord) | with_reducible (apply bump_ord) | exact ordO_none | exact ordP_none | apply ordO_some | apply ordP_some | (with_reducible refine ord_getD ?_ ?_) | (refine ord_admit (by assumption) ?_) | (refine ord_pair (by assumption) ?_) | (refine ord_triple (by assumption) ?_) | (refine ord_quad (by assumption) ?_) | (refine ord_some (by assumption) ?_) | (refine ord_someP (by assumption) ?_) | (refine ord_somePair (by assumption) ?_) | split)
  | succ n ih =>
    simp only [advanceSearch]
    repeat' (first | with_reducible assumption | simp only [ord_upd] | dsimp only | with_reducible (apply ih) | with_reducible (apply pumpStage_ord) | with_reducible (apply endSearch_ord) | with_reducible (apply sequence_ord) | with_reducible (apply bump_ord) | exact ordO_none | exact ordP_none | apply ordO_some | apply ordP_some | (with_reducible refine ord_getD ?_ ?_) | (refine ord_admit (by assumption) ?_) | (refine ord_pair (by assumption) ?_) | (refine ord_triple (by assumption) ?_) | (refine ord_quad (by assumption) ?_) | (refine ord_some (by assumption) ?_) | (refine ord_someP (by assumption) ?_) | (refine ord_somePair (by assumption) ?_) | split)

theorem doSearch_ord {s₀ s : State} {m : Msg} {granted : Nat} {k : Nat} (h₀ : Ordinary s₀ s) :
    Ordinary s₀ (doSearch m granted k s) := by
  unfold doSearch
  repeat' (first | with_reducible assumption | simp only [ord_upd] | dsimp only | (with_reducible refine onIndex_ord ?_ (fun _ _ _ => ?_)) | with_reducible (apply refuse_ord) | exact ordO_none | exact ordP_none | apply ordO_some | apply ordP_some | (with_reducible refine ord_getD ?_ ?_) | (refine ord_admit (by assumption) ?_) | (refine ord_pair (by assumption) ?_) | (refine ord_triple (by assumption) ?_) | (refine ord_quad (by assumption) ?_) | (refine ord_some (by assumption) ?_) | (refine ord_someP (by assumption) ?_) | (refine ord_somePair (by assumption) ?_) | split)

theorem applyCompass_ord {s₀ s : State} {m : Msg} {granted : Nat} {k : Nat} (h₀ : Ordinary s₀ s) :
    Ordinary s₀ (applyCompass m granted k s) := by
  unfold applyCompass
  repeat' (first | with_reducible assumption | simp only [ord_upd] | dsimp only | with_reducible (apply doCreate_ord) | with_reducible (apply doCentroids_ord) | with_reducible (apply doInsert_ord) | with_reducible (apply doDelete_ord) | with_reducible (apply doCompact_ord) | with_reducible (apply doSeal_ord) | with_reducible (apply doUnseal_ord) | with_reducible (apply doPlace_ord) | with_reducible (apply doSearch_ord) | with_reducible (apply doInfo_ord) | with_reducible (apply doDrop_ord) | (with_reducible refine ord_getD ?_ ?_) | (refine ord_admit (by assumption) ?_) | (refine ord_pair (by assumption) ?_) | (refine ord_triple (by assumption) ?_) | (refine ord_quad (by assumption) ?_) | (refine ord_some (by assumption) ?_) | (refine ord_someP (by assumption) ?_) | (refine ord_somePair (by assumption) ?_) | split)

theorem pumpCompass_ord {s₀ t : State} {x0 : Nat} (h₀ : Ordinary s₀ t) :
    Ordinary s₀ (pumpCompass x0 t) := by
  induction x0 generalizing t with
  | zero => (try simp only [pumpCompass]); repeat' (first | with_reducible assumption | simp only [ord_upd] | dsimp only | with_reducible (apply applyCompass_ord) | exact ordO_none | exact ordP_none | apply ordO_some | apply ordP_some | (with_reducible refine ord_getD ?_ ?_) | (refine ord_admit (by assumption) ?_) | (refine ord_pair (by assumption) ?_) | (refine ord_triple (by assumption) ?_) | (refine ord_quad (by assumption) ?_) | (refine ord_some (by assumption) ?_) | (refine ord_someP (by assumption) ?_) | (refine ord_somePair (by assumption) ?_) | split)
  | succ n ih =>
    simp only [pumpCompass]
    repeat' (first | with_reducible assumption | simp only [ord_upd] | dsimp only | with_reducible (apply ih) | with_reducible (apply applyCompass_ord) | exact ordO_none | exact ordP_none | apply ordO_some | apply ordP_some | (with_reducible refine ord_getD ?_ ?_) | (refine ord_admit (by assumption) ?_) | (refine ord_pair (by assumption) ?_) | (refine ord_triple (by assumption) ?_) | (refine ord_quad (by assumption) ?_) | (refine ord_some (by assumption) ?_) | (refine ord_someP (by assumption) ?_) | (refine ord_somePair (by assumption) ?_) | split)

theorem settleCompass_ord {s₀ s : State} (h₀ : Ordinary s₀ s) :
    Ordinary s₀ (settleCompass s) := by
  unfold settleCompass
  repeat' (first | with_reducible assumption | simp only [ord_upd] | dsimp only | with_reducible (apply pumpStage_ord) | with_reducible (apply settle_ord) | with_reducible (apply pumpCompass_ord) | (refine ord_foldl (fun _ _ _ => ?_) ?_) | (refine ord_foldlP (fun _ _ _ => ?_) ?_) | (refine ord_foldlT (fun _ _ _ => ?_) ?_) | (refine ord_foldlF (fun _ _ _ => ?_) ?_) | (refine ordO_foldl (fun _ _ _ => ?_) ?_) | (refine ordP_foldl (fun _ _ _ => ?_) ?_) | (with_reducible refine ord_getD ?_ ?_) | (refine ord_admit (by assumption) ?_) | (refine ord_pair (by assumption) ?_) | (refine ord_triple (by assumption) ?_) | (refine ord_quad (by assumption) ?_) | (refine ord_some (by assumption) ?_) | (refine ord_someP (by assumption) ?_) | (refine ord_somePair (by assumption) ?_) | split)

theorem compassCmd_ord {s₀ s : State} {f : Form} {search : Bool} {m : Msg} {bad : Bool} (h₀ : Ordinary s₀ s) :
    Ordinary s₀ (compassCmd f search m bad s) := by
  unfold compassCmd
  repeat' (first | with_reducible assumption | simp only [ord_upd] | dsimp only | (with_reducible refine request_ord ?_ (fun _ _ => ?_)) | with_reducible (apply refuse_ord) | with_reducible (apply bump_ord) | with_reducible (apply settleCompass_ord) | with_reducible (apply applyCompass_ord) | exact ordO_none | exact ordP_none | apply ordO_some | apply ordP_some | (with_reducible refine ord_getD ?_ ?_) | (refine ord_admit (by assumption) ?_) | (refine ord_pair (by assumption) ?_) | (refine ord_triple (by assumption) ?_) | (refine ord_quad (by assumption) ?_) | (refine ord_some (by assumption) ?_) | (refine ord_someP (by assumption) ?_) | (refine ord_somePair (by assumption) ?_) | split)

theorem execCompassCreate_ord {s₀ s : State} {m : Msg} (h₀ : Ordinary s₀ s) :
    OrdN s₀ (execCompassCreate m s) := by
  unfold execCompassCreate
  repeat' (first | apply ordN_next | with_reducible assumption | simp only [ord_upd] | dsimp only | with_reducible (apply compassCmd_ord) | (with_reducible refine ord_getD ?_ ?_) | (refine ord_admit (by assumption) ?_) | (refine ord_pair (by assumption) ?_) | (refine ord_triple (by assumption) ?_) | (refine ord_quad (by assumption) ?_) | (refine ord_some (by assumption) ?_) | (refine ord_someP (by assumption) ?_) | (refine ord_somePair (by assumption) ?_) | split)

theorem execCompassCentroids_ord {s₀ s : State} {m : Msg} (h₀ : Ordinary s₀ s) :
    OrdN s₀ (execCompassCentroids m s) := by
  unfold execCompassCentroids
  repeat' (first | apply ordN_next | with_reducible assumption | simp only [ord_upd] | dsimp only | with_reducible (apply compassCmd_ord) | (with_reducible refine ord_getD ?_ ?_) | (refine ord_admit (by assumption) ?_) | (refine ord_pair (by assumption) ?_) | (refine ord_triple (by assumption) ?_) | (refine ord_quad (by assumption) ?_) | (refine ord_some (by assumption) ?_) | (refine ord_someP (by assumption) ?_) | (refine ord_somePair (by assumption) ?_) | split)

theorem execCompassInsert_ord {s₀ s : State} {m : Msg} (h₀ : Ordinary s₀ s) :
    OrdN s₀ (execCompassInsert m s) := by
  unfold execCompassInsert
  repeat' (first | apply ordN_next | with_reducible assumption | simp only [ord_upd] | dsimp only | with_reducible (apply compassCmd_ord) | (with_reducible refine ord_getD ?_ ?_) | (refine ord_admit (by assumption) ?_) | (refine ord_pair (by assumption) ?_) | (refine ord_triple (by assumption) ?_) | (refine ord_quad (by assumption) ?_) | (refine ord_some (by assumption) ?_) | (refine ord_someP (by assumption) ?_) | (refine ord_somePair (by assumption) ?_) | split)

theorem execCompassDelete_ord {s₀ s : State} {m : Msg} (h₀ : Ordinary s₀ s) :
    OrdN s₀ (execCompassDelete m s) := by
  unfold execCompassDelete
  repeat' (first | apply ordN_next | with_reducible assumption | simp only [ord_upd] | dsimp only | with_reducible (apply compassCmd_ord) | (with_reducible refine ord_getD ?_ ?_) | (refine ord_admit (by assumption) ?_) | (refine ord_pair (by assumption) ?_) | (refine ord_triple (by assumption) ?_) | (refine ord_quad (by assumption) ?_) | (refine ord_some (by assumption) ?_) | (refine ord_someP (by assumption) ?_) | (refine ord_somePair (by assumption) ?_) | split)

theorem execCompassCompact_ord {s₀ s : State} {m : Msg} (h₀ : Ordinary s₀ s) :
    OrdN s₀ (execCompassCompact m s) := by
  unfold execCompassCompact
  repeat' (first | apply ordN_next | with_reducible assumption | simp only [ord_upd] | dsimp only | with_reducible (apply compassCmd_ord) | (with_reducible refine ord_getD ?_ ?_) | (refine ord_admit (by assumption) ?_) | (refine ord_pair (by assumption) ?_) | (refine ord_triple (by assumption) ?_) | (refine ord_quad (by assumption) ?_) | (refine ord_some (by assumption) ?_) | (refine ord_someP (by assumption) ?_) | (refine ord_somePair (by assumption) ?_) | split)

theorem execCompassSeal_ord {s₀ s : State} {m : Msg} (h₀ : Ordinary s₀ s) :
    OrdN s₀ (execCompassSeal m s) := by
  unfold execCompassSeal
  repeat' (first | apply ordN_next | with_reducible assumption | simp only [ord_upd] | dsimp only | with_reducible (apply compassCmd_ord) | (with_reducible refine ord_getD ?_ ?_) | (refine ord_admit (by assumption) ?_) | (refine ord_pair (by assumption) ?_) | (refine ord_triple (by assumption) ?_) | (refine ord_quad (by assumption) ?_) | (refine ord_some (by assumption) ?_) | (refine ord_someP (by assumption) ?_) | (refine ord_somePair (by assumption) ?_) | split)

theorem execCompassUnseal_ord {s₀ s : State} {m : Msg} (h₀ : Ordinary s₀ s) :
    OrdN s₀ (execCompassUnseal m s) := by
  unfold execCompassUnseal
  repeat' (first | apply ordN_next | with_reducible assumption | simp only [ord_upd] | dsimp only | with_reducible (apply compassCmd_ord) | (with_reducible refine ord_getD ?_ ?_) | (refine ord_admit (by assumption) ?_) | (refine ord_pair (by assumption) ?_) | (refine ord_triple (by assumption) ?_) | (refine ord_quad (by assumption) ?_) | (refine ord_some (by assumption) ?_) | (refine ord_someP (by assumption) ?_) | (refine ord_somePair (by assumption) ?_) | split)

theorem execCompassPlace_ord {s₀ s : State} {m : Msg} (h₀ : Ordinary s₀ s) :
    OrdN s₀ (execCompassPlace m s) := by
  unfold execCompassPlace
  repeat' (first | apply ordN_next | with_reducible assumption | simp only [ord_upd] | dsimp only | with_reducible (apply compassCmd_ord) | (with_reducible refine ord_getD ?_ ?_) | (refine ord_admit (by assumption) ?_) | (refine ord_pair (by assumption) ?_) | (refine ord_triple (by assumption) ?_) | (refine ord_quad (by assumption) ?_) | (refine ord_some (by assumption) ?_) | (refine ord_someP (by assumption) ?_) | (refine ord_somePair (by assumption) ?_) | split)

theorem execCompassSearch_ord {s₀ s : State} {m : Msg} (h₀ : Ordinary s₀ s) :
    OrdN s₀ (execCompassSearch m s) := by
  unfold execCompassSearch
  repeat' (first | apply ordN_next | with_reducible assumption | simp only [ord_upd] | dsimp only | with_reducible (apply compassCmd_ord) | (with_reducible refine ord_getD ?_ ?_) | (refine ord_admit (by assumption) ?_) | (refine ord_pair (by assumption) ?_) | (refine ord_triple (by assumption) ?_) | (refine ord_quad (by assumption) ?_) | (refine ord_some (by assumption) ?_) | (refine ord_someP (by assumption) ?_) | (refine ord_somePair (by assumption) ?_) | split)

theorem execCompassInfo_ord {s₀ s : State} {m : Msg} (h₀ : Ordinary s₀ s) :
    OrdN s₀ (execCompassInfo m s) := by
  unfold execCompassInfo
  repeat' (first | apply ordN_next | with_reducible assumption | simp only [ord_upd] | dsimp only | (with_reducible refine request_ord ?_ (fun _ _ => ?_)) | with_reducible (apply doInfo_ord) | (with_reducible refine ord_getD ?_ ?_) | (refine ord_admit (by assumption) ?_) | (refine ord_pair (by assumption) ?_) | (refine ord_triple (by assumption) ?_) | (refine ord_quad (by assumption) ?_) | (refine ord_some (by assumption) ?_) | (refine ord_someP (by assumption) ?_) | (refine ord_somePair (by assumption) ?_) | split)

theorem execCompassDrop_ord {s₀ s : State} {m : Msg} (h₀ : Ordinary s₀ s) :
    OrdN s₀ (execCompassDrop m s) := by
  unfold execCompassDrop
  repeat' (first | apply ordN_next | with_reducible assumption | simp only [ord_upd] | dsimp only | with_reducible (apply compassCmd_ord) | (with_reducible refine ord_getD ?_ ?_) | (refine ord_admit (by assumption) ?_) | (refine ord_pair (by assumption) ?_) | (refine ord_triple (by assumption) ?_) | (refine ord_quad (by assumption) ?_) | (refine ord_some (by assumption) ?_) | (refine ord_someP (by assumption) ?_) | (refine ord_somePair (by assumption) ?_) | split)

theorem execCompassSliceIssue_ord {s₀ s : State} {f : Nat} (h₀ : Ordinary s₀ s) :
    OrdN s₀ (execCompassSliceIssue f s) := by
  unfold execCompassSliceIssue
  repeat' (first | apply ordN_next | with_reducible assumption | simp only [ord_upd] | dsimp only | with_reducible (apply engine_ord) | with_reducible (apply setFielder_ord) | exact ordO_none | exact ordP_none | apply ordO_some | apply ordP_some | (with_reducible refine ord_getD ?_ ?_) | (refine ord_admit (by assumption) ?_) | (refine ord_pair (by assumption) ?_) | (refine ord_triple (by assumption) ?_) | (refine ord_quad (by assumption) ?_) | (refine ord_some (by assumption) ?_) | (refine ord_someP (by assumption) ?_) | (refine ord_somePair (by assumption) ?_) | split)

theorem freeStage_ord {s₀ s : State} {k : Nat} {l : Slice} (h₀ : Ordinary s₀ s) :
    Ordinary s₀ (freeStage k l s) := by
  unfold freeStage
  repeat' (first | with_reducible assumption | simp only [ord_upd] | dsimp only | with_reducible (apply freeFrame_ord) | exact ordO_none | exact ordP_none | apply ordO_some | apply ordP_some | (with_reducible refine ord_getD ?_ ?_) | (refine ord_admit (by assumption) ?_) | (refine ord_pair (by assumption) ?_) | (refine ord_triple (by assumption) ?_) | (refine ord_quad (by assumption) ?_) | (refine ord_some (by assumption) ?_) | (refine ord_someP (by assumption) ?_) | (refine ord_somePair (by assumption) ?_) | split)

theorem execCompassSliceDone_ord {s₀ s : State} {f : Nat} (h₀ : Ordinary s₀ s) :
    OrdN s₀ (execCompassSliceDone f s) := by
  unfold execCompassSliceDone
  repeat' (first | apply ordN_next | with_reducible assumption | simp only [ord_upd] | dsimp only | with_reducible (apply engine_ord) | with_reducible (apply setFielder_ord) | with_reducible (apply settleCompass_ord) | with_reducible (apply bump_ord) | with_reducible (apply freeFrame_ord) | with_reducible (apply pmu_ord) | with_reducible (apply laneBusy_ord) | with_reducible (apply bumpBy_ord) | with_reducible (apply advanceSearch_ord) | with_reducible (apply freeStage_ord) | exact ordO_none | exact ordP_none | apply ordO_some | apply ordP_some | (with_reducible refine ord_getD ?_ ?_) | (refine ord_admit (by assumption) ?_) | (refine ord_pair (by assumption) ?_) | (refine ord_triple (by assumption) ?_) | (refine ord_quad (by assumption) ?_) | (refine ord_some (by assumption) ?_) | (refine ord_someP (by assumption) ?_) | (refine ord_somePair (by assumption) ?_) | split)

theorem execSearchTimeout_ord {s₀ s : State} {k : Nat} (h₀ : Ordinary s₀ s) :
    OrdN s₀ (execSearchTimeout k s) := by
  unfold execSearchTimeout
  repeat' (first | apply ordN_next | with_reducible assumption | simp only [ord_upd] | dsimp only | with_reducible (apply engine_ord) | with_reducible (apply settleCompass_ord) | with_reducible (apply endSearch_ord) | with_reducible (apply bump_ord) | with_reducible (apply refuse_ord) | exact ordO_none | exact ordP_none | apply ordO_some | apply ordP_some | (with_reducible refine ord_getD ?_ ?_) | (refine ord_admit (by assumption) ?_) | (refine ord_pair (by assumption) ?_) | (refine ord_triple (by assumption) ?_) | (refine ord_quad (by assumption) ?_) | (refine ord_some (by assumption) ?_) | (refine ord_someP (by assumption) ?_) | (refine ord_somePair (by assumption) ?_) | split)

theorem stageTile_ord {s₀ s : State} {k : Nat} {c : Nat} {j : Nat} {addr : Nat} {data : List Byte} (h₀ : Ordinary s₀ s) :
    Ordinary s₀ (stageTile k c j addr data s) := by
  unfold stageTile
  repeat' (first | with_reducible assumption | simp only [ord_upd] | dsimp only | with_reducible (apply writeBytes_ord) | with_reducible (apply turnFrame_ord) | exact ordO_none | exact ordP_none | apply ordO_some | apply ordP_some | (with_reducible refine ord_getD ?_ ?_) | (refine ord_admit (by assumption) ?_) | (refine ord_pair (by assumption) ?_) | (refine ord_triple (by assumption) ?_) | (refine ord_quad (by assumption) ?_) | (refine ord_some (by assumption) ?_) | (refine ord_someP (by assumption) ?_) | (refine ord_somePair (by assumption) ?_) | split)

theorem placedTile_ord {s₀ s : State} {x : Nat} (h₀ : Ordinary s₀ s) :
    Ordinary s₀ (placedTile x s) := by
  unfold placedTile
  repeat' (first | with_reducible assumption | simp only [ord_upd] | dsimp only | with_reducible (apply modIndex_ord) | with_reducible (apply settleCompass_ord) | with_reducible (apply pumpPlace_ord) | (refine ordO_map ?_ (fun _ _ => ?_)) | (refine ordO_mapP ?_ (fun _ _ => ?_)) | (refine ordP_map ?_ (fun _ _ => ?_)) | (refine ordP_mapP ?_ (fun _ _ => ?_)) | (refine ordO_mapN (fun _ => ?_)) | (refine ordP_mapN (fun _ => ?_)) | (refine ordO_bind ?_ (fun _ _ => ?_)) | (refine ordO_bindP ?_ (fun _ _ => ?_)) | (refine ordP_bind ?_ (fun _ _ => ?_)) | (refine ordP_bindP ?_ (fun _ _ => ?_)) | (refine ordO_bindN (fun _ => ?_)) | (refine ordP_bindN (fun _ => ?_)) | exact ordO_none | exact ordP_none | apply ordO_some | apply ordP_some | (with_reducible refine ord_getD ?_ ?_) | (refine ord_admit (by assumption) ?_) | (refine ord_pair (by assumption) ?_) | (refine ord_triple (by assumption) ?_) | (refine ord_quad (by assumption) ?_) | (refine ord_some (by assumption) ?_) | (refine ord_someP (by assumption) ?_) | (refine ord_somePair (by assumption) ?_) | split)

end Sys2Proof.Machine
end

