-- ==== Sys2Proof/Laws/OrdRegions.lean ====
section
/-!
SUPPORT. The operations of Machine/Regions.lean are ordinary.
-/
namespace Sys2Proof.Machine

theorem execHostRangeAdd_ord {s₀ s : State} {m : Msg} (h₀ : Ordinary s₀ s) :
    OrdN s₀ (execHostRangeAdd m s) := by
  unfold execHostRangeAdd
  repeat' (first | apply ordN_next | with_reducible assumption | simp only [ord_upd] | (with_reducible refine request_ord ?_ (fun _ _ => ?_)) | with_reducible (apply refuse_ord) | split)

theorem execHostRangeRemove_ord {s₀ s : State} {m : Msg} (h₀ : Ordinary s₀ s) :
    OrdN s₀ (execHostRangeRemove m s) := by
  unfold execHostRangeRemove
  repeat' (first | apply ordN_next | with_reducible assumption | simp only [ord_upd] | (with_reducible refine request_ord ?_ (fun _ _ => ?_)) | with_reducible (apply refuse_ord) | split)

theorem execFmRangeSet_ord {s₀ s : State} {m : Msg} (h₀ : Ordinary s₀ s) :
    OrdN s₀ (execFmRangeSet m s) := by
  unfold execFmRangeSet
  repeat' (first | apply ordN_next | with_reducible assumption | simp only [ord_upd] | (with_reducible refine request_ord ?_ (fun _ _ => ?_)) | with_reducible (apply refuse_ord))

theorem execFmIdentity_ord {s₀ s : State} {m : Msg} (h₀ : Ordinary s₀ s) :
    OrdN s₀ (execFmIdentity m s) := by
  unfold execFmIdentity
  repeat' (first | apply ordN_next | with_reducible assumption | simp only [ord_upd] | (with_reducible refine request_ord ?_ (fun _ _ => ?_)) | with_reducible (apply refuse_ord))

theorem setRegion_ord {s₀ s : State} {r : Nat} {x : Region} (h₀ : Ordinary s₀ s) :
    Ordinary s₀ (setRegion r x s) := by
  unfold setRegion
  repeat' (first | with_reducible assumption | simp only [ord_upd])

theorem modOwner_ord {s₀ s : State} {x : Region} {f : Word × Word → Word × Word} (h₀ : Ordinary s₀ s) :
    Ordinary s₀ (modOwner x f s) := by
  unfold modOwner
  repeat' (first | with_reducible assumption | simp only [ord_upd] | with_reducible (apply mirrorUpdate_ord) | with_reducible (apply modSess_ord) | split)

theorem poolSlotWrite_ord {s₀ s : State} {c : Nat} {slot : Nat} {j : Nat} {data : List Byte} (h₀ : Ordinary s₀ s) :
    Ordinary s₀ (poolSlotWrite c slot j data s) := by
  unfold poolSlotWrite
  repeat' (first | with_reducible assumption | with_reducible (apply issueTile_ord) | (refine ord_foldRange (fun _ _ _ => ?_) ?_))

theorem allocSlots_ord {s₀ t : State} {range : Nat} {c : Nat} {x0 : Nat} (h₀ : Ordinary s₀ t) :
    OrdP s₀ (allocSlots range c x0 t) := by
  induction x0 generalizing t with
  | zero => (try simp only [allocSlots]); repeat' (first | with_reducible assumption | with_reducible (apply allocPool_ord) | (refine ordO_map ?_ (fun _ _ => ?_)) | (refine ordO_mapN (fun _ => ?_)) | (refine ordO_bindN (fun _ => ?_)) | apply ordP_some)
  | succ n ih =>
    simp only [allocSlots]
    repeat' (first | with_reducible assumption | with_reducible (apply ih) | with_reducible (apply allocPool_ord) | (refine ordP_mapP ?_ (fun _ _ => ?_)) | (refine ordP_bindP ?_ (fun _ _ => ?_)) | apply ordO_some)

theorem onRegion_ord {s₀ s : State} {m : Msg} {always : Bool} {h : Region → State → State} (h₀ : Ordinary s₀ s) (hf : ∀ (y0 : Region) (t : State), Ordinary s₀ t → Ordinary s₀ (h y0 t)) :
    Ordinary s₀ (onRegion m always h s) := by
  unfold onRegion
  repeat' (first | with_reducible assumption | with_reducible (apply refuse_ord) | with_reducible (apply hf) | split)

theorem createRegion_ord {s₀ s : State} {r : Nat} {x : Region} (h₀ : Ordinary s₀ s) :
    OrdO s₀ (createRegion r x s) := by
  unfold createRegion
  repeat' (first | with_reducible assumption | simp only [ord_upd] | with_reducible (apply allocSlots_ord) | with_reducible (apply poolSlotWrite_ord) | with_reducible (apply modOwner_ord) | with_reducible (apply setRegion_ord) | (refine ord_foldRange (fun _ _ _ => ?_) ?_) | (refine ordO_mapP ?_ (fun _ _ => ?_)))

theorem execRegionCreate_ord {s₀ s : State} {m : Msg} (h₀ : Ordinary s₀ s) :
    OrdN s₀ (execRegionCreate m s) := by
  unfold execRegionCreate
  repeat' (first | apply ordN_next | with_reducible assumption | simp only [ord_upd] | (with_reducible refine request_ord ?_ (fun _ _ => ?_)) | with_reducible (apply refuse_ord) | with_reducible (apply deny_ord) | with_reducible (apply createRegion_ord) | with_reducible (apply bump_ord) | exact ordO_none | (refine ord_some (by assumption) ?_) | split)

theorem freeSlots_ord {s₀ s : State} {l : List Nat} (h₀ : Ordinary s₀ s) :
    Ordinary s₀ (freeSlots l s) := by
  unfold freeSlots
  repeat' (first | with_reducible assumption | with_reducible (apply freeHome_ord) | (refine ord_foldl (fun _ _ _ => ?_) ?_))

theorem abortPublish_ord {s₀ s : State} {k : Nat} (h₀ : Ordinary s₀ s) :
    Ordinary s₀ (abortPublish k s) := by
  unfold abortPublish
  repeat' (first | with_reducible assumption | simp only [ord_upd] | with_reducible (apply freeSlots_ord) | split)

theorem endLease_ord {s₀ s : State} {r : Nat} {x : Region} {l : Lease} (h₀ : Ordinary s₀ s) :
    Ordinary s₀ (endLease r x l s) := by
  unfold endLease
  repeat' (first | with_reducible assumption | simp only [ord_upd] | with_reducible (apply abortPublish_ord) | with_reducible (apply modOwner_ord) | with_reducible (apply setRegion_ord) | (refine ord_foldl (fun _ _ _ => ?_) ?_))

theorem voidLease_ord {s₀ s : State} {r : Nat} {x : Region} {l : Lease} (h₀ : Ordinary s₀ s) :
    Ordinary s₀ (voidLease r x l s) := by
  unfold voidLease
  repeat' (first | with_reducible assumption | simp only [ord_upd] | with_reducible (apply modOwner_ord) | with_reducible (apply endLease_ord) | with_reducible (apply alert_ord) | with_reducible (apply bump_ord))

theorem execRegionDrop_ord {s₀ s : State} {m : Msg} (h₀ : Ordinary s₀ s) :
    OrdN s₀ (execRegionDrop m s) := by
  unfold execRegionDrop
  repeat' (first | apply ordN_next | with_reducible assumption | simp only [ord_upd] | (with_reducible refine request_ord ?_ (fun _ _ => ?_)) | (with_reducible refine onRegion_ord ?_ (fun _ _ _ => ?_)) | with_reducible (apply voidLease_ord) | with_reducible (apply abortPublish_ord) | with_reducible (apply freeSlots_ord) | with_reducible (apply modOwner_ord) | with_reducible (apply refuse_ord) | (refine ord_foldl (fun _ _ _ => ?_) ?_) | split)

theorem renewLease_ord {s₀ s : State} {r : Nat} {id : Nat} (h₀ : Ordinary s₀ s) :
    Ordinary s₀ (renewLease r id s) := by
  unfold renewLease
  repeat' (first | with_reducible assumption | with_reducible (apply setRegion_ord) | split)

theorem execPublishOpen_ord {s₀ s : State} {m : Msg} (h₀ : Ordinary s₀ s) :
    OrdN s₀ (execPublishOpen m s) := by
  unfold execPublishOpen
  repeat' (first | apply ordN_next | with_reducible assumption | simp only [ord_upd] | (with_reducible refine request_ord ?_ (fun _ _ => ?_)) | (with_reducible refine onRegion_ord ?_ (fun _ _ _ => ?_)) | with_reducible (apply refuse_ord) | with_reducible (apply respond_ord) | with_reducible (apply renewLease_ord) | split)

theorem onPublish_ord {s₀ s : State} {m : Msg} {h : Publish → Region → State → State} (h₀ : Ordinary s₀ s) (hf : ∀ (y0 : Publish) (y1 : Region) (t : State), Ordinary s₀ t → Ordinary s₀ (h y0 y1 t)) :
    Ordinary s₀ (onPublish m h s) := by
  unfold onPublish
  repeat' (first | with_reducible assumption | simp only [ord_upd] | with_reducible (apply refuse_ord) | with_reducible (apply renewLease_ord) | with_reducible (apply hf) | split)

theorem execPublishPut_ord {s₀ s : State} {m : Msg} (h₀ : Ordinary s₀ s) :
    OrdN s₀ (execPublishPut m s) := by
  unfold execPublishPut
  repeat' (first | apply ordN_next | with_reducible assumption | simp only [ord_upd] | (with_reducible refine request_ord ?_ (fun _ _ => ?_)) | (with_reducible refine onPublish_ord ?_ (fun _ _ _ _ => ?_)) | with_reducible (apply allocPool_ord) | with_reducible (apply refuse_ord) | with_reducible (apply bump_ord) | with_reducible (apply poolSlotWrite_ord) | apply ordP_some | (refine ord_someP (by assumption) ?_) | split)

theorem commitPublish_ord {s₀ s : State} {x : Region} {p : Publish} (h₀ : Ordinary s₀ s) :
    OrdO s₀ (commitPublish x p s) := by
  unfold commitPublish
  repeat' (first | with_reducible assumption | simp only [ord_upd] | with_reducible (apply allocSlots_ord) | with_reducible (apply poolSlotWrite_ord) | with_reducible (apply bump_ord) | with_reducible (apply setRegion_ord) | (refine ord_foldl (fun _ _ _ => ?_) ?_) | (refine ordO_mapP ?_ (fun _ _ => ?_)))

theorem execPublishCommit_ord {s₀ s : State} {m : Msg} (h₀ : Ordinary s₀ s) :
    OrdN s₀ (execPublishCommit m s) := by
  unfold execPublishCommit
  repeat' (first | apply ordN_next | with_reducible assumption | simp only [ord_upd] | dsimp only | (with_reducible refine request_ord ?_ (fun _ _ => ?_)) | (with_reducible refine onPublish_ord ?_ (fun _ _ _ _ => ?_)) | with_reducible (apply refuse_ord) | with_reducible (apply commitPublish_ord) | with_reducible (apply bump_ord) | with_reducible (apply abortPublish_ord) | exact ordO_none | exact ordP_none | apply ordO_some | apply ordP_some | (with_reducible refine ord_getD ?_ ?_) | (refine ord_admit (by assumption) ?_) | (refine ord_pair (by assumption) ?_) | (refine ord_triple (by assumption) ?_) | (refine ord_quad (by assumption) ?_) | (refine ord_some (by assumption) ?_) | (refine ord_someP (by assumption) ?_) | (refine ord_somePair (by assumption) ?_) | split)

theorem execPublishAbort_ord {s₀ s : State} {m : Msg} (h₀ : Ordinary s₀ s) :
    OrdN s₀ (execPublishAbort m s) := by
  unfold execPublishAbort
  repeat' (first | apply ordN_next | with_reducible assumption | simp only [ord_upd] | dsimp only | (with_reducible refine request_ord ?_ (fun _ _ => ?_)) | (with_reducible refine onPublish_ord ?_ (fun _ _ _ _ => ?_)) | with_reducible (apply refuse_ord) | with_reducible (apply abortPublish_ord) | (with_reducible refine ord_getD ?_ ?_) | (refine ord_admit (by assumption) ?_) | (refine ord_pair (by assumption) ?_) | (refine ord_triple (by assumption) ?_) | (refine ord_quad (by assumption) ?_) | (refine ord_some (by assumption) ?_) | (refine ord_someP (by assumption) ?_) | (refine ord_somePair (by assumption) ?_) | split)

theorem execPublishIdleTimeout_ord {s₀ s : State} {k : Nat} (h₀ : Ordinary s₀ s) :
    OrdN s₀ (execPublishIdleTimeout k s) := by
  unfold execPublishIdleTimeout
  repeat' (first | apply ordN_next | with_reducible assumption | simp only [ord_upd] | dsimp only | with_reducible (apply engineHeld_ord) | with_reducible (apply abortPublish_ord) | exact ordO_none | exact ordP_none | apply ordO_some | apply ordP_some | (with_reducible refine ord_getD ?_ ?_) | (refine ord_admit (by assumption) ?_) | (refine ord_pair (by assumption) ?_) | (refine ord_triple (by assumption) ?_) | (refine ord_quad (by assumption) ?_) | (refine ord_some (by assumption) ?_) | (refine ord_someP (by assumption) ?_) | (refine ord_somePair (by assumption) ?_) | split)

theorem execRegionRetainExpiry_ord {s₀ s : State} (h₀ : Ordinary s₀ s) :
    OrdN s₀ (execRegionRetainExpiry s) := by
  unfold execRegionRetainExpiry
  repeat' (first | apply ordN_next | with_reducible assumption | simp only [ord_upd] | dsimp only | with_reducible (apply engineHeld_ord) | with_reducible (apply freeSlots_ord) | exact ordO_none | exact ordP_none | apply ordO_some | apply ordP_some | (with_reducible refine ord_getD ?_ ?_) | (refine ord_admit (by assumption) ?_) | (refine ord_pair (by assumption) ?_) | (refine ord_triple (by assumption) ?_) | (refine ord_quad (by assumption) ?_) | (refine ord_some (by assumption) ?_) | (refine ord_someP (by assumption) ?_) | (refine ord_somePair (by assumption) ?_) | split)

theorem execRegionAttach_ord {s₀ s : State} {m : Msg} (h₀ : Ordinary s₀ s) :
    OrdN s₀ (execRegionAttach m s) := by
  unfold execRegionAttach
  repeat' (first | apply ordN_next | with_reducible assumption | simp only [ord_upd] | dsimp only | (with_reducible refine request_ord ?_ (fun _ _ => ?_)) | with_reducible (apply refuse_ord) | with_reducible (apply bump_ord) | with_reducible (apply respond_ord) | with_reducible (apply draw_ord) | exact ordO_none | exact ordP_none | apply ordO_some | apply ordP_some | (with_reducible refine ord_getD ?_ ?_) | (refine ord_admit (by assumption) ?_) | (refine ord_pair (by assumption) ?_) | (refine ord_triple (by assumption) ?_) | (refine ord_quad (by assumption) ?_) | (refine ord_some (by assumption) ?_) | (refine ord_someP (by assumption) ?_) | (refine ord_somePair (by assumption) ?_) | split)

theorem readView_ord {s₀ s : State} {n : Nat} (h₀ : Ordinary s₀ s) :
    Ordinary s₀ (readView s n).2.2 := by
  unfold readView
  repeat' (first | with_reducible assumption | simp only [ord_upd] | dsimp only | with_reducible (apply draw_ord) | exact ordO_none | exact ordP_none | apply ordO_some | apply ordP_some | (with_reducible refine ord_getD ?_ ?_) | (refine ord_admit (by assumption) ?_) | (refine ord_pair (by assumption) ?_) | (refine ord_triple (by assumption) ?_) | (refine ord_quad (by assumption) ?_) | (refine ord_some (by assumption) ?_) | (refine ord_someP (by assumption) ?_) | (refine ord_somePair (by assumption) ?_) | split)

theorem endJobRead_ord {s₀ s : State} {n : Nat} {a : Answer} (h₀ : Ordinary s₀ s) :
    Ordinary s₀ (endJobRead n a s) := by
  unfold endJobRead
  repeat' (first | with_reducible assumption | simp only [ord_upd] | dsimp only | with_reducible (apply respond_ord) | exact ordO_none | exact ordP_none | apply ordO_some | apply ordP_some | (with_reducible refine ord_getD ?_ ?_) | (refine ord_admit (by assumption) ?_) | (refine ord_pair (by assumption) ?_) | (refine ord_triple (by assumption) ?_) | (refine ord_quad (by assumption) ?_) | (refine ord_some (by assumption) ?_) | (refine ord_someP (by assumption) ?_) | (refine ord_somePair (by assumption) ?_) | split)

theorem pumpRead_ord {s₀ t : State} {n : Nat} {x0 : Nat} (h₀ : Ordinary s₀ t) :
    Ordinary s₀ (pumpRead n x0 t) := by
  induction x0 generalizing t with
  | zero => (try simp only [pumpRead]); repeat' (first | with_reducible assumption | simp only [ord_upd] | dsimp only | with_reducible (apply endJobRead_ord) | with_reducible (apply bump_ord) | with_reducible (apply issueTile_ord) | exact ordO_none | exact ordP_none | apply ordO_some | apply ordP_some | (with_reducible refine ord_getD ?_ ?_) | (refine ord_admit (by assumption) ?_) | (refine ord_pair (by assumption) ?_) | (refine ord_triple (by assumption) ?_) | (refine ord_quad (by assumption) ?_) | (refine ord_some (by assumption) ?_) | (refine ord_someP (by assumption) ?_) | (refine ord_somePair (by assumption) ?_) | split)
  | succ n ih =>
    simp only [pumpRead]
    repeat' (first | with_reducible assumption | simp only [ord_upd] | dsimp only | with_reducible (apply ih) | with_reducible (apply endJobRead_ord) | with_reducible (apply bump_ord) | with_reducible (apply issueTile_ord) | exact ordO_none | exact ordP_none | apply ordO_some | apply ordP_some | (with_reducible refine ord_getD ?_ ?_) | (refine ord_admit (by assumption) ?_) | (refine ord_pair (by assumption) ?_) | (refine ord_triple (by assumption) ?_) | (refine ord_quad (by assumption) ?_) | (refine ord_some (by assumption) ?_) | (refine ord_someP (by assumption) ?_) | (refine ord_somePair (by assumption) ?_) | split)

theorem advanceRead_ord {s₀ t : State} {n : Nat} {x0 : Nat} (h₀ : Ordinary s₀ t) :
    Ordinary s₀ (advanceRead n x0 t) := by
  induction x0 generalizing t with
  | zero => (try simp only [advanceRead]); repeat' (first | with_reducible assumption | simp only [ord_upd] | dsimp only | with_reducible (apply pumpRead_ord) | with_reducible (apply endJobRead_ord) | (refine ord_foldl (fun _ _ _ => ?_) ?_) | (refine ord_foldlP (fun _ _ _ => ?_) ?_) | (refine ord_foldlT (fun _ _ _ => ?_) ?_) | (refine ord_foldlF (fun _ _ _ => ?_) ?_) | (refine ordO_foldl (fun _ _ _ => ?_) ?_) | (refine ordP_foldl (fun _ _ _ => ?_) ?_) | exact ordO_none | exact ordP_none | apply ordO_some | apply ordP_some | (with_reducible refine ord_getD ?_ ?_) | (refine ord_admit (by assumption) ?_) | (refine ord_pair (by assumption) ?_) | (refine ord_triple (by assumption) ?_) | (refine ord_quad (by assumption) ?_) | (refine ord_some (by assumption) ?_) | (refine ord_someP (by assumption) ?_) | (refine ord_somePair (by assumption) ?_) | split)
  | succ n ih =>
    simp only [advanceRead]
    repeat' (first | with_reducible assumption | simp only [ord_upd] | dsimp only | with_reducible (apply ih) | with_reducible (apply pumpRead_ord) | with_reducible (apply endJobRead_ord) | (refine ord_foldl (fun _ _ _ => ?_) ?_) | (refine ord_foldlP (fun _ _ _ => ?_) ?_) | (refine ord_foldlT (fun _ _ _ => ?_) ?_) | (refine ord_foldlF (fun _ _ _ => ?_) ?_) | (refine ordO_foldl (fun _ _ _ => ?_) ?_) | (refine ordP_foldl (fun _ _ _ => ?_) ?_) | exact ordO_none | exact ordP_none | apply ordO_some | apply ordP_some | (with_reducible refine ord_getD ?_ ?_) | (refine ord_admit (by assumption) ?_) | (refine ord_pair (by assumption) ?_) | (refine ord_triple (by assumption) ?_) | (refine ord_quad (by assumption) ?_) | (refine ord_some (by assumption) ?_) | (refine ord_someP (by assumption) ?_) | (refine ord_somePair (by assumption) ?_) | split)

theorem startRead_ord {s₀ s : State} {m : Msg} {f : ReadView → Status × List (Nat × Nat × Nat)} (h₀ : Ordinary s₀ s) :
    Ordinary s₀ (startRead m f s) := by
  unfold startRead
  repeat' (first | with_reducible assumption | simp only [ord_upd] | dsimp only | with_reducible (apply refuse_ord) | with_reducible (apply readView_ord) | with_reducible (apply advanceRead_ord) | exact ordO_none | exact ordP_none | apply ordO_some | apply ordP_some | (with_reducible refine ord_getD ?_ ?_) | (refine ord_admit (by assumption) ?_) | (refine ord_pair (by assumption) ?_) | (refine ord_triple (by assumption) ?_) | (refine ord_quad (by assumption) ?_) | (refine ord_some (by assumption) ?_) | (refine ord_someP (by assumption) ?_) | (refine ord_somePair (by assumption) ?_) | split)

theorem execRegionGather_ord {s₀ s : State} {m : Msg} (h₀ : Ordinary s₀ s) :
    OrdN s₀ (execRegionGather m s) := by
  unfold execRegionGather
  repeat' (first | apply ordN_next | with_reducible assumption | simp only [ord_upd] | dsimp only | (with_reducible refine request_ord ?_ (fun _ _ => ?_)) | with_reducible (apply startRead_ord) | exact ordO_none | exact ordP_none | apply ordO_some | apply ordP_some | (with_reducible refine ord_getD ?_ ?_) | (refine ord_admit (by assumption) ?_) | (refine ord_pair (by assumption) ?_) | (refine ord_triple (by assumption) ?_) | (refine ord_quad (by assumption) ?_) | (refine ord_some (by assumption) ?_) | (refine ord_someP (by assumption) ?_) | (refine ord_somePair (by assumption) ?_) | split)

theorem execRegionRead_ord {s₀ s : State} {m : Msg} (h₀ : Ordinary s₀ s) :
    OrdN s₀ (execRegionRead m s) := by
  unfold execRegionRead
  repeat' (first | apply ordN_next | with_reducible assumption | simp only [ord_upd] | dsimp only | (with_reducible refine request_ord ?_ (fun _ _ => ?_)) | with_reducible (apply startRead_ord) | (with_reducible refine ord_getD ?_ ?_) | (refine ord_admit (by assumption) ?_) | (refine ord_pair (by assumption) ?_) | (refine ord_triple (by assumption) ?_) | (refine ord_quad (by assumption) ?_) | (refine ord_some (by assumption) ?_) | (refine ord_someP (by assumption) ?_) | (refine ord_somePair (by assumption) ?_) | split)

theorem regionTile_ord {s₀ s : State} {n : Nat} {k : Nat} {t : Nat} {data : List Byte} (h₀ : Ordinary s₀ s) :
    Ordinary s₀ (regionTile n k t data s) := by
  unfold regionTile
  repeat' (first | with_reducible assumption | simp only [ord_upd] | dsimp only | with_reducible (apply advanceRead_ord) | exact ordO_none | exact ordP_none | apply ordO_some | apply ordP_some | (with_reducible refine ord_getD ?_ ?_) | (refine ord_admit (by assumption) ?_) | (refine ord_pair (by assumption) ?_) | (refine ord_triple (by assumption) ?_) | (refine ord_quad (by assumption) ?_) | (refine ord_some (by assumption) ?_) | (refine ord_someP (by assumption) ?_) | (refine ord_somePair (by assumption) ?_) | split)

theorem execLeaseTake_ord {s₀ s : State} {m : Msg} (h₀ : Ordinary s₀ s) :
    OrdN s₀ (execLeaseTake m s) := by
  unfold execLeaseTake
  repeat' (first | apply ordN_next | with_reducible assumption | simp only [ord_upd] | dsimp only | (with_reducible refine request_ord ?_ (fun _ _ => ?_)) | (with_reducible refine onRegion_ord ?_ (fun _ _ _ => ?_)) | with_reducible (apply refuse_ord) | with_reducible (apply respond_ord) | with_reducible (apply modOwner_ord) | with_reducible (apply setRegion_ord) | exact ordO_none | exact ordP_none | apply ordO_some | apply ordP_some | (with_reducible refine ord_getD ?_ ?_) | (refine ord_admit (by assumption) ?_) | (refine ord_pair (by assumption) ?_) | (refine ord_triple (by assumption) ?_) | (refine ord_quad (by assumption) ?_) | (refine ord_some (by assumption) ?_) | (refine ord_someP (by assumption) ?_) | (refine ord_somePair (by assumption) ?_) | split)

theorem execLeaseBeat_ord {s₀ s : State} {m : Msg} (h₀ : Ordinary s₀ s) :
    OrdN s₀ (execLeaseBeat m s) := by
  unfold execLeaseBeat
  repeat' (first | apply ordN_next | with_reducible assumption | simp only [ord_upd] | dsimp only | (with_reducible refine peerMessage_ord ?_ (fun _ _ => ?_)) | with_reducible (apply bump_ord) | with_reducible (apply renewLease_ord) | exact ordO_none | exact ordP_none | apply ordO_some | apply ordP_some | (with_reducible refine ord_getD ?_ ?_) | (refine ord_admit (by assumption) ?_) | (refine ord_pair (by assumption) ?_) | (refine ord_triple (by assumption) ?_) | (refine ord_quad (by assumption) ?_) | (refine ord_some (by assumption) ?_) | (refine ord_someP (by assumption) ?_) | (refine ord_somePair (by assumption) ?_) | split)

theorem execLeaseRelease_ord {s₀ s : State} {m : Msg} (h₀ : Ordinary s₀ s) :
    OrdN s₀ (execLeaseRelease m s) := by
  unfold execLeaseRelease
  repeat' (first | apply ordN_next | with_reducible assumption | simp only [ord_upd] | dsimp only | (with_reducible refine request_ord ?_ (fun _ _ => ?_)) | (with_reducible refine onRegion_ord ?_ (fun _ _ _ => ?_)) | with_reducible (apply refuse_ord) | with_reducible (apply endLease_ord) | exact ordO_none | exact ordP_none | apply ordO_some | apply ordP_some | (with_reducible refine ord_getD ?_ ?_) | (refine ord_admit (by assumption) ?_) | (refine ord_pair (by assumption) ?_) | (refine ord_triple (by assumption) ?_) | (refine ord_quad (by assumption) ?_) | (refine ord_some (by assumption) ?_) | (refine ord_someP (by assumption) ?_) | (refine ord_somePair (by assumption) ?_) | split)

theorem execLeaseQuery_ord {s₀ s : State} {m : Msg} (h₀ : Ordinary s₀ s) :
    OrdN s₀ (execLeaseQuery m s) := by
  unfold execLeaseQuery
  repeat' (first | apply ordN_next | with_reducible assumption | simp only [ord_upd] | dsimp only | (with_reducible refine request_ord ?_ (fun _ _ => ?_)) | (with_reducible refine onRegion_ord ?_ (fun _ _ _ => ?_)) | with_reducible (apply refuse_ord) | with_reducible (apply respond_ord) | exact ordO_none | exact ordP_none | apply ordO_some | apply ordP_some | (with_reducible refine ord_getD ?_ ?_) | (refine ord_admit (by assumption) ?_) | (refine ord_pair (by assumption) ?_) | (refine ord_triple (by assumption) ?_) | (refine ord_quad (by assumption) ?_) | (refine ord_some (by assumption) ?_) | (refine ord_someP (by assumption) ?_) | (refine ord_somePair (by assumption) ?_) | split)

theorem execLeaseDeadline_ord {s₀ s : State} {r : Nat} (h₀ : Ordinary s₀ s) :
    OrdN s₀ (execLeaseDeadline r s) := by
  unfold execLeaseDeadline
  repeat' (first | apply ordN_next | with_reducible assumption | simp only [ord_upd] | dsimp only | with_reducible (apply engineHeld_ord) | with_reducible (apply voidLease_ord) | exact ordO_none | exact ordP_none | apply ordO_some | apply ordP_some | (with_reducible refine ord_getD ?_ ?_) | (refine ord_admit (by assumption) ?_) | (refine ord_pair (by assumption) ?_) | (refine ord_triple (by assumption) ?_) | (refine ord_quad (by assumption) ?_) | (refine ord_some (by assumption) ?_) | (refine ord_someP (by assumption) ?_) | (refine ord_somePair (by assumption) ?_) | split)

end Sys2Proof.Machine
end

