-- ==== Sys2Proof/Laws/OrdSurveyEnd.lean ====
section
/-!
SUPPORT. The operations of Machine/SurveyEnd.lean are ordinary.
-/
namespace Sys2Proof.Machine

theorem nvIssue_ord {s₀ s : State} {op : NvOp} {mk : Nat → Sent} (h₀ : Ordinary s₀ s) :
    Ordinary s₀ (nvIssue op mk s) := by
  unfold nvIssue
  repeat' (first | with_reducible assumption | simp only [ord_upd] | with_reducible (apply emit_ord))

theorem nvWrite_ord {s₀ s : State} {op : NvOp} {fua : Bool} {lba : Nat} {data : List Byte} (h₀ : Ordinary s₀ s) :
    Ordinary s₀ (nvWrite op fua lba data s) := by
  unfold nvWrite
  repeat' (first | with_reducible assumption | with_reducible (apply nvIssue_ord))

theorem nvRead_ord {s₀ s : State} {op : NvOp} {lba : Nat} {blocks : Nat} (h₀ : Ordinary s₀ s) :
    Ordinary s₀ (nvRead op lba blocks s) := by
  unfold nvRead
  repeat' (first | with_reducible assumption | with_reducible (apply nvIssue_ord))

theorem unhold_ord {s₀ s : State} {f : Nat} (h₀ : Ordinary s₀ s) :
    Ordinary s₀ (unhold f s) := by
  unfold unhold
  repeat' (first | with_reducible assumption | simp only [ord_upd] | with_reducible (apply freeFrame_ord) | split)

theorem recount_ord {s₀ s : State} (h₀ : Ordinary s₀ s) :
    Ordinary s₀ (recount s) := by
  unfold recount
  repeat' (first | with_reducible assumption | simp only [ord_upd])

theorem endSurvey_ord {s₀ s : State} {r : SurveyRun} {st : Status} {drained : Bool} (h₀ : Ordinary s₀ s) :
    Ordinary s₀ (endSurvey r st drained s) := by
  unfold endSurvey
  repeat' (first | with_reducible assumption | simp only [ord_upd] | with_reducible (apply recount_ord) | with_reducible (apply unhold_ord) | with_reducible (apply notify_ord) | (refine ord_foldl (fun _ _ _ => ?_) ?_))

theorem failSurvey_ord {s₀ s : State} {st : Status} (h₀ : Ordinary s₀ s) :
    Ordinary s₀ (failSurvey st s) := by
  unfold failSurvey
  repeat' (first | with_reducible assumption | simp only [ord_upd] | with_reducible (apply bump_ord) | with_reducible (apply endSurvey_ord) | split)

theorem modRun_ord {s₀ s : State} {f : SurveyRun → SurveyRun} (h₀ : Ordinary s₀ s) :
    Ordinary s₀ (modRun f s) := by
  unfold modRun
  repeat' (first | with_reducible assumption | simp only [ord_upd])

theorem drainChunks_ord {s₀ t : State} {last : Bool} {x0 : Nat} (h₀ : Ordinary s₀ t) :
    Ordinary s₀ (drainChunks last x0 t) := by
  induction x0 generalizing t with
  | zero => (try simp only [drainChunks]); repeat' (first | with_reducible assumption | with_reducible (apply modRun_ord) | with_reducible (apply notify_ord) | exact ordO_none)
  | succ n ih =>
    simp only [drainChunks]
    repeat' (first | with_reducible assumption | with_reducible (apply ih) | with_reducible (apply modRun_ord) | with_reducible (apply notify_ord) | split)

theorem cleanPages_ord {s₀ s : State} {l : List (Nat × Nat)} (h₀ : Ordinary s₀ s) :
    Ordinary s₀ (cleanPages l s) := by
  unfold cleanPages
  repeat' (first | with_reducible assumption | with_reducible (apply modSess_ord) | (refine ord_foldl (fun _ _ _ => ?_) ?_) | split)

theorem itemWritten_ord {s₀ s : State} {r : SurveyRun} {it : StreamItem} (h₀ : Ordinary s₀ s) :
    Ordinary s₀ (itemWritten r it s) := by
  unfold itemWritten
  repeat' (first | with_reducible assumption | simp only [ord_upd] | with_reducible (apply modRun_ord) | with_reducible (apply pmu_ord) | with_reducible (apply bump_ord) | with_reducible (apply bumpBy_ord) | with_reducible (apply cleanPages_ord) | with_reducible (apply drainChunks_ord) | with_reducible (apply unhold_ord) | split)

theorem logWrite_ord {s₀ s : State} {slot : Nat} {off : Nat} {data : List Byte} (h₀ : Ordinary s₀ s) :
    Ordinary s₀ (logWrite slot off data s) := by
  unfold logWrite
  repeat' (first | with_reducible assumption | simp only [ord_upd] | dsimp only | with_reducible (apply nvWrite_ord) | with_reducible (apply modRun_ord) | exact ordO_none | exact ordP_none | apply ordO_some | apply ordP_some | (with_reducible refine ord_getD ?_ ?_) | (refine ord_admit (by assumption) ?_) | (refine ord_pair (by assumption) ?_) | (refine ord_triple (by assumption) ?_) | (refine ord_quad (by assumption) ?_) | (refine ord_some (by assumption) ?_) | (refine ord_someP (by assumption) ?_) | (refine ord_somePair (by assumption) ?_) | split)

theorem logRest_ord {s₀ s : State} {r : SurveyRun} (h₀ : Ordinary s₀ s) :
    Ordinary s₀ (logRest r s) := by
  unfold logRest
  repeat' (first | with_reducible assumption | simp only [ord_upd] | dsimp only | with_reducible (apply logWrite_ord) | exact ordO_none | exact ordP_none | apply ordO_some | apply ordP_some | (with_reducible refine ord_getD ?_ ?_) | (refine ord_admit (by assumption) ?_) | (refine ord_pair (by assumption) ?_) | (refine ord_triple (by assumption) ?_) | (refine ord_quad (by assumption) ?_) | (refine ord_some (by assumption) ?_) | (refine ord_someP (by assumption) ?_) | (refine ord_somePair (by assumption) ?_) | split)

theorem writeNext_ord {s₀ s : State} {r : SurveyRun} (h₀ : Ordinary s₀ s) :
    Ordinary s₀ (writeNext r s) := by
  unfold writeNext
  repeat' (first | with_reducible assumption | simp only [ord_upd] | with_reducible (apply failSurvey_ord) | with_reducible (apply logWrite_ord) | with_reducible (apply modRun_ord) | with_reducible (apply issueTile_ord) | (refine ord_foldRange (fun _ _ _ => ?_) ?_) | split)

theorem advanceSurvey_ord {s₀ s : State} (h₀ : Ordinary s₀ s) :
    Ordinary s₀ (advanceSurvey s) := by
  unfold advanceSurvey
  repeat' (first | with_reducible assumption | with_reducible (apply failSurvey_ord) | with_reducible (apply nvWrite_ord) | with_reducible (apply writeNext_ord) | split)

theorem surveyTile_ord {s₀ s : State} {tile : Nat} {data : List Byte} (h₀ : Ordinary s₀ s) :
    Ordinary s₀ (surveyTile tile data s) := by
  unfold surveyTile
  repeat' (first | with_reducible assumption | with_reducible (apply modRun_ord))

theorem commitSurvey_ord {s₀ s : State} {r : SurveyRun} (h₀ : Ordinary s₀ s) :
    Ordinary s₀ (commitSurvey r s) := by
  unfold commitSurvey
  repeat' (first | with_reducible assumption | simp only [ord_upd] | with_reducible (apply bump_ord) | with_reducible (apply recount_ord) | with_reducible (apply endSurvey_ord) | with_reducible (apply drainChunks_ord) | with_reducible (apply notify_ord) | with_reducible (apply modRun_ord) | split)

theorem surveyStage_ord {s₀ s : State} {r : SurveyRun} (h₀ : Ordinary s₀ s) :
    Ordinary s₀ (surveyStage r s) := by
  unfold surveyStage
  repeat' (first | with_reducible assumption | simp only [ord_upd] | dsimp only | with_reducible (apply advanceSurvey_ord) | with_reducible (apply modRun_ord) | with_reducible (apply itemWritten_ord) | with_reducible (apply nvIssue_ord) | with_reducible (apply drainChunks_ord) | with_reducible (apply nvWrite_ord) | with_reducible (apply commitSurvey_ord) | (with_reducible refine ord_getD ?_ ?_) | (refine ord_admit (by assumption) ?_) | (refine ord_pair (by assumption) ?_) | (refine ord_triple (by assumption) ?_) | (refine ord_quad (by assumption) ?_) | (refine ord_some (by assumption) ?_) | (refine ord_someP (by assumption) ?_) | (refine ord_somePair (by assumption) ?_) | split)

theorem surveyWritten_ord {s₀ s : State} (h₀ : Ordinary s₀ s) :
    Ordinary s₀ (surveyWritten s) := by
  unfold surveyWritten
  repeat' (first | with_reducible assumption | simp only [ord_upd] | dsimp only | with_reducible (apply logRest_ord) | with_reducible (apply surveyStage_ord) | exact ordO_none | exact ordP_none | apply ordO_some | apply ordP_some | (with_reducible refine ord_getD ?_ ?_) | (refine ord_admit (by assumption) ?_) | (refine ord_pair (by assumption) ?_) | (refine ord_triple (by assumption) ?_) | (refine ord_quad (by assumption) ?_) | (refine ord_some (by assumption) ?_) | (refine ord_someP (by assumption) ?_) | (refine ord_somePair (by assumption) ?_) | split)

theorem surveyRetired_ord {s₀ s : State} {f : Nat} (h₀ : Ordinary s₀ s) :
    Ordinary s₀ (surveyRetired f s) := by
  unfold surveyRetired
  repeat' (first | with_reducible assumption | with_reducible (apply failSurvey_ord) | split)

end Sys2Proof.Machine
end

