-- ==== Sys2Proof/Laws/OrdFetches.lean ====
section
/-!
SUPPORT. The operations of Machine/Fetches.lean are ordinary.
-/
namespace Sys2Proof.Machine

theorem tileCame_ord {s₀ s : State} {n : Nat} {t : Transfer} {data : List Byte} (h₀ : Ordinary s₀ s) :
    Ordinary s₀ (tileCame n t data s) := by
  unfold tileCame
  repeat' (first | with_reducible assumption | simp only [ord_upd] | with_reducible (apply pmu_ord) | with_reducible (apply bump_ord) | with_reducible (apply mapTile_ord) | with_reducible (apply pageTile_ord) | with_reducible (apply settleCompass_ord) | with_reducible (apply stageTile_ord) | with_reducible (apply placedTile_ord) | with_reducible (apply writeBytes_ord) | with_reducible (apply regionTile_ord) | with_reducible (apply migrateTile_ord) | with_reducible (apply beneathTile_ord) | with_reducible (apply surveyTile_ord) | split)

theorem tileWritten_ord {s₀ s : State} {n : Nat} {t : Transfer} (h₀ : Ordinary s₀ s) :
    Ordinary s₀ (tileWritten n t s) := by
  unfold tileWritten
  repeat' (first | with_reducible assumption | simp only [ord_upd] | with_reducible (apply pmu_ord) | with_reducible (apply bump_ord) | with_reducible (apply parkTile_ord) | with_reducible (apply placedTile_ord) | with_reducible (apply beneathWritten_ord) | split)

theorem tileFailed_ord {s₀ s : State} {n : Nat} {t : Transfer} {c : Cause} (h₀ : Ordinary s₀ s) :
    Ordinary s₀ (tileFailed n t c s) := by
  unfold tileFailed
  repeat' (first | with_reducible assumption | simp only [ord_upd] | with_reducible (apply bump_ord) | with_reducible (apply countFetchFailure_ord) | with_reducible (apply modPark_ord) | with_reducible (apply dropTransfers_ord) | with_reducible (apply fetchFault_ord) | with_reducible (apply settleCompass_ord) | with_reducible (apply endSearch_ord) | with_reducible (apply failPlace_ord) | with_reducible (apply endJobRead_ord) | with_reducible (apply draw_ord) | with_reducible (apply modSource_ord) | with_reducible (apply failSurvey_ord) | with_reducible (apply beneathFailed_ord) | split)

theorem tryLaunch_ord {s₀ s : State} {n : Nat} (h₀ : Ordinary s₀ s) :
    Ordinary s₀ (tryLaunch n s) := by
  unfold tryLaunch
  repeat' (first | with_reducible assumption | with_reducible (apply tileFailed_ord) | with_reducible (apply launch_ord) | split)

theorem pumpAll_ord {s₀ s : State} (h₀ : Ordinary s₀ s) :
    Ordinary s₀ (pumpAll s) := by
  unfold pumpAll
  repeat' (first | with_reducible assumption | simp only [ord_upd] | with_reducible (apply tryLaunch_ord) | with_reducible (apply pumpMigrate_ord) | with_reducible (apply pumpPark_ord) | with_reducible (apply advanceRead_ord) | with_reducible (apply pumpPlace_ord) | with_reducible (apply advanceSurvey_ord) | with_reducible (apply settleCompass_ord) | (refine ord_foldl (fun _ _ _ => ?_) ?_))

theorem execTileFetchDone_ord {s₀ s : State} {n : Nat} {r : TileResult} (h₀ : Ordinary s₀ s) :
    OrdN s₀ (execTileFetchDone n r s) := by
  unfold execTileFetchDone
  repeat' (first | apply ordN_next | with_reducible assumption | with_reducible (apply engine_ord) | with_reducible (apply bump_ord) | with_reducible (apply pumpAll_ord) | with_reducible (apply tileCame_ord) | with_reducible (apply tileFailed_ord) | split)

theorem execParkTileWritten_ord {s₀ s : State} {n : Nat} {r : TileResult} (h₀ : Ordinary s₀ s) :
    OrdN s₀ (execParkTileWritten n r s) := by
  unfold execParkTileWritten
  repeat' (first | apply ordN_next | with_reducible assumption | with_reducible (apply engine_ord) | with_reducible (apply bump_ord) | with_reducible (apply pumpAll_ord) | with_reducible (apply tileWritten_ord) | with_reducible (apply tileFailed_ord) | split)

theorem execFetchTimeout_ord {s₀ s : State} {n : Nat} (h₀ : Ordinary s₀ s) :
    OrdN s₀ (execFetchTimeout n s) := by
  unfold execFetchTimeout
  repeat' (first | apply ordN_next | with_reducible assumption | simp only [ord_upd] | with_reducible (apply engine_ord) | with_reducible (apply bump_ord) | with_reducible (apply pumpAll_ord) | with_reducible (apply tileFailed_ord) | with_reducible (apply tryLaunch_ord) | split)

end Sys2Proof.Machine
end

