-- ==== Sys2Proof/Laws/OrdErrors.lean ====
section
/-!
SUPPORT. The operations of Machine/Errors.lean are ordinary.
-/
namespace Sys2Proof.Machine

theorem retireHeld_ord {s₀ s : State} {f : Nat} (h₀ : Ordinary s₀ s) :
    Ordinary s₀ (retireHeld f s) := by
  unfold retireHeld
  repeat' (first | with_reducible assumption | with_reducible (apply surveyRetired_ord) | with_reducible (apply retireFrame_ord))

theorem tearDown_ord {s₀ s : State} {c : Nat} (h₀ : Ordinary s₀ s) :
    Ordinary s₀ (tearDown c s) := by
  unfold tearDown
  repeat' (first | with_reducible assumption | with_reducible (apply settleCompass_ord) | with_reducible (apply settle_ord) | with_reducible (apply teardown_ord))

theorem frameFault_ord {s₀ s : State} {i : Nat} {f : Nat} (h₀ : Ordinary s₀ s) :
    Ordinary s₀ (frameFault i f s) := by
  unfold frameFault
  repeat' (first | with_reducible assumption | simp only [ord_upd] | with_reducible (apply modSess_ord) | with_reducible (apply faultSession_ord) | with_reducible (apply mirrorUpdate_ord) | split)

theorem recordError_ord {s₀ s : State} {i : Nat} (h₀ : Ordinary s₀ s) :
    Ordinary s₀ (recordError i s) := by
  unfold recordError
  repeat' (first | with_reducible assumption | simp only [ord_upd] | with_reducible (apply bump_ord) | with_reducible (apply modSess_ord) | with_reducible (apply tearDown_ord) | with_reducible (apply faultSession_ord) | split)

theorem execHbmUncorrectable_ord {s₀ s : State} {f : Nat} {_o : Nat} {i : Nat} (h₀ : Ordinary s₀ s) :
    OrdN s₀ (execHbmUncorrectable f _o i s) := by
  unfold execHbmUncorrectable
  repeat' (first | apply ordN_next | with_reducible assumption | with_reducible (apply engine_ord) | with_reducible (apply tearDown_ord) | with_reducible (apply frameFault_ord) | with_reducible (apply bump_ord) | with_reducible (apply retireHeld_ord) | with_reducible (apply faultIndex_ord) | split)

theorem execRecordUncorrectable_ord {s₀ s : State} {i : Nat} (h₀ : Ordinary s₀ s) :
    OrdN s₀ (execRecordUncorrectable i s) := by
  unfold execRecordUncorrectable
  repeat' (first | apply ordN_next | with_reducible assumption | with_reducible (apply engine_ord) | with_reducible (apply recordError_ord) | split)

theorem scrubError_ord {s₀ s : State} {a : Nat} (h₀ : Ordinary s₀ s) :
    Ordinary s₀ (scrubError a s) := by
  unfold scrubError
  repeat' (first | with_reducible assumption | simp only [ord_upd] | with_reducible (apply recordError_ord) | with_reducible (apply bump_ord) | with_reducible (apply retireHeld_ord) | with_reducible (apply tearDown_ord) | with_reducible (apply frameFault_ord) | with_reducible (apply faultIndex_ord) | split)

theorem execScrubPass_ord {s₀ s : State} {stack : Nat} {bad : List Nat} {corrected : List Nat} (h₀ : Ordinary s₀ s) :
    OrdN s₀ (execScrubPass stack bad corrected s) := by
  unfold execScrubPass
  repeat' (first | apply ordN_next | with_reducible assumption | simp only [ord_upd] | with_reducible (apply engine_ord) | with_reducible (apply pmu_ord) | with_reducible (apply bump_ord) | with_reducible (apply scrubError_ord) | (refine ord_foldl (fun _ _ _ => ?_) ?_) | split)

theorem execSramFatal_fol {s₀ s : State} {which : Nat} (h₀ : Follows s₀ s) :
    FolN s₀ (execSramFatal which s) := by
  unfold execSramFatal
  repeat' (first | apply folN_next | with_reducible assumption | simp only [fol_upd] | (with_reducible refine fol_ord (alert_ord (Ordinary.refl _)) ?_) | split)

theorem execKeySlotError_ord {s₀ s : State} {c : Nat} (h₀ : Ordinary s₀ s) :
    OrdN s₀ (execKeySlotError c s) := by
  unfold execKeySlotError
  repeat' (first | apply ordN_next | with_reducible assumption | with_reducible (apply engine_ord) | with_reducible (apply tearDown_ord) | split)

end Sys2Proof.Machine
end

