-- ==== Sys2Proof/Laws/OrdSurveyCmds.lean ====
section
/-!
SUPPORT. The operations of Machine/SurveyCmds.lean are ordinary.
-/
namespace Sys2Proof.Machine

theorem execSurveyStart_ord {s₀ s : State} {m : Msg} (h₀ : Ordinary s₀ s) :
    OrdN s₀ (execSurveyStart m s) := by
  unfold execSurveyStart
  repeat' (first | apply ordN_next | with_reducible assumption | simp only [ord_upd] | (with_reducible refine request_ord ?_ (fun _ _ => ?_)) | with_reducible (apply respond_ord) | with_reducible (apply refuse_ord) | split)

theorem execSurveyInstant_ord {s₀ s : State} (h₀ : Ordinary s₀ s) :
    OrdN s₀ (execSurveyInstant s) := by
  unfold execSurveyInstant
  repeat' (first | apply ordN_next | with_reducible assumption | simp only [ord_upd] | with_reducible (apply engine_ord) | with_reducible (apply advanceSurvey_ord) | with_reducible (apply recount_ord) | split)

theorem execSurveyFreezeTimeout_ord {s₀ s : State} (h₀ : Ordinary s₀ s) :
    OrdN s₀ (execSurveyFreezeTimeout s) := by
  unfold execSurveyFreezeTimeout
  repeat' (first | apply ordN_next | with_reducible assumption | with_reducible (apply engine_ord) | with_reducible (apply failSurvey_ord) | split)

theorem execSurveyAbort_ord {s₀ s : State} {m : Msg} (h₀ : Ordinary s₀ s) :
    OrdN s₀ (execSurveyAbort m s) := by
  unfold execSurveyAbort
  repeat' (first | apply ordN_next | with_reducible assumption | (with_reducible refine request_ord ?_ (fun _ _ => ?_)) | with_reducible (apply refuse_ord) | with_reducible (apply failSurvey_ord) | split)

theorem execSurveyDrained_ord {s₀ s : State} {m : Msg} (h₀ : Ordinary s₀ s) :
    OrdN s₀ (execSurveyDrained m s) := by
  unfold execSurveyDrained
  repeat' (first | apply ordN_next | with_reducible assumption | simp only [ord_upd] | (with_reducible refine request_ord ?_ (fun _ _ => ?_)) | with_reducible (apply refuse_ord) | with_reducible (apply endSurvey_ord) | with_reducible (apply advanceSurvey_ord) | split)

theorem formatNext_ord {s₀ s : State} {left : Nat} (h₀ : Ordinary s₀ s) :
    Ordinary s₀ (formatNext left s) := by
  unfold formatNext
  repeat' (first | with_reducible assumption | simp only [ord_upd] | with_reducible (apply nvWrite_ord) | split)

theorem execNvFormat_ord {s₀ s : State} {m : Msg} (h₀ : Ordinary s₀ s) :
    OrdN s₀ (execNvFormat m s) := by
  unfold execNvFormat
  repeat' (first | apply ordN_next | with_reducible assumption | simp only [ord_upd] | (with_reducible refine request_ord ?_ (fun _ _ => ?_)) | with_reducible (apply refuse_ord) | with_reducible (apply formatNext_ord) | split)

theorem execNvLinkUp_ord {s₀ s : State} {lbas : Nat} (h₀ : Ordinary s₀ s) :
    OrdN s₀ (execNvLinkUp lbas s) := by
  unfold execNvLinkUp
  repeat' (first | apply ordN_next | with_reducible assumption | simp only [ord_upd] | with_reducible (apply nvRead_ord) | split)

theorem execNvLinkDown_ord {s₀ s : State} (h₀ : Ordinary s₀ s) :
    OrdN s₀ (execNvLinkDown s) := by
  unfold execNvLinkDown
  repeat' (first | apply ordN_next | with_reducible assumption | simp only [ord_upd])

end Sys2Proof.Machine
end

