-- ==== Sys2Proof/Laws/OrdPlacement.lean ====
section
/-!
SUPPORT. The operations of Machine/Placement.lean are ordinary.
-/
namespace Sys2Proof.Machine

theorem fillFrame_ord {s₀ s : State} {h : Shape} {f : Nat} {g1 : Word} {len : Nat} {mid : Bool} {d : List Byte} (h₀ : Ordinary s₀ s) :
    Ordinary s₀ (fillFrame h f g1 len mid d s) := by
  unfold fillFrame
  repeat' (first | with_reducible assumption | simp only [ord_upd] | with_reducible (apply writeBytes_ord) | with_reducible (apply zeroRow_ord) | (refine ord_foldRange (fun _ _ _ => ?_) ?_) | split)

theorem placePage_ord {s₀ : State} {i : Nat} {k : Nat} {len : Nat} {mid : Bool} {g1 : Word} {src : PageSrc} {a : Placed × State} (h₀ : Ordinary s₀ a.2) :
    OrdP s₀ (placePage i k len mid g1 src a) := by
  unfold placePage
  repeat' (first | with_reducible assumption | simp only [ord_upd] | with_reducible (apply putPage_ord) | with_reducible (apply allocPage_ord) | with_reducible (apply ensureLeaf_ord) | with_reducible (apply fillFrame_ord) | with_reducible (apply addRef_ord) | (refine ordP_map ?_ (fun _ _ => ?_)) | split)

theorem placePages_ord {s₀ : State} {i : Nat} {len : Nat} {mid : Bool} {pages : List (Nat × Word × PageSrc)} {a : Placed × State} (h₀ : Ordinary s₀ a.2) :
    OrdP s₀ (placePages i len mid pages a) := by
  unfold placePages
  repeat' (first | with_reducible assumption | with_reducible (apply placePage_ord) | (refine ordP_foldl (fun _ _ _ => ?_) ?_) | (refine ordP_bindP ?_ (fun _ _ => ?_)) | apply ordP_some)

theorem stowPage_ord {s₀ s : State} {i : Nat} {k : Nat} {len : Nat} {g1 : Word} {src : PageSrc} (h₀ : Ordinary s₀ s) :
    OrdO s₀ (stowPage i k len g1 src s) := by
  unfold stowPage
  repeat' (first | with_reducible assumption | simp only [ord_upd] | with_reducible (apply modSess_ord) | with_reducible (apply putPage_ord) | with_reducible (apply allocHost_ord) | with_reducible (apply sendTile_ord) | with_reducible (apply pmu_ord) | with_reducible (apply bump_ord) | (refine ord_foldRange (fun _ _ _ => ?_) ?_) | (refine ordO_mapP ?_ (fun _ _ => ?_)) | apply ordO_some | split)

theorem stowPages_ord {s₀ s : State} {i : Nat} {len : Nat} {pages : List (Nat × Word × PageSrc)} (h₀ : Ordinary s₀ s) :
    OrdO s₀ (stowPages i len pages s) := by
  unfold stowPages
  repeat' (first | with_reducible assumption | simp only [ord_upd] | with_reducible (apply stowPage_ord) | with_reducible (apply allocHost_ord) | with_reducible (apply sendTile_ord) | with_reducible (apply modSess_ord) | (refine ord_foldRange (fun _ _ _ => ?_) ?_) | (refine ordO_foldl (fun _ _ _ => ?_) ?_) | (refine ordO_mapP ?_ (fun _ _ => ?_)) | (refine ordO_bind ?_ (fun _ _ => ?_)) | apply ordO_some)

theorem placeStack_ord {s₀ s : State} {i : Nat} {l : List (List Nat)} (h₀ : Ordinary s₀ s) :
    Ordinary s₀ (placeStack i l s).2.2 := by
  unfold placeStack
  repeat' (first | with_reducible assumption | simp only [ord_upd] | (refine ord_foldlT (fun _ _ _ => ?_) ?_) | split)

theorem placeGrammar_ord {s₀ s : State} {i : Nat} {w : Word} {stack : List (List Nat)} (h₀ : Ordinary s₀ s) :
    Ordinary s₀ (placeGrammar i w stack s).2.2.2 := by
  unfold placeGrammar
  repeat' (first | with_reducible assumption | simp only [ord_upd] | with_reducible (apply placeStack_ord) | split)

theorem restoredTimer_ord {s₀ s : State} {i : Nat} {e : Entry} {st : SessState} (h₀ : Ordinary s₀ s) :
    Ordinary s₀ (restoredTimer i e st s) := by
  unfold restoredTimer
  repeat' (first | with_reducible assumption | with_reducible (apply enterWaiting_ord) | with_reducible (apply startTtl_ord) | with_reducible (apply stopTimer_ord) | with_reducible (apply modSess_ord) | split)

theorem reviveRestored_ord {s₀ s : State} {i : Nat} (h₀ : Ordinary s₀ s) :
    Ordinary s₀ (reviveRestored i s) := by
  unfold reviveRestored
  repeat' (first | with_reducible assumption | simp only [ord_upd] | with_reducible (apply modSess_ord) | split)

theorem placeStep_ord {s₀ s : State} {i : Nat} {st : Step} {m : Option Merge} {stack : List (List Nat)} {old : List Nat} (h₀ : Ordinary s₀ s) :
    Ordinary s₀ (placeStep i st m stack old s) := by
  unfold placeStep
  repeat' (first | with_reducible assumption | simp only [ord_upd] | with_reducible (apply placeGrammar_ord) | with_reducible (apply modSess_ord))

theorem placeRecord_ord {s₀ s : State} {k : Candidate} {e : Entry} {q : Nat} {i : Nat} {g : Nat} {same : Bool} {lost : Bool} {stepped : Bool} (h₀ : Ordinary s₀ s) :
    Ordinary s₀ (placeRecord k e q i g same lost stepped s).2 := by
  unfold placeRecord
  repeat' (first | with_reducible assumption | simp only [ord_upd] | with_reducible (apply setSess_ord) | with_reducible (apply placeGrammar_ord) | with_reducible (apply bump_ord) | with_reducible (apply modSess_ord) | split)

theorem finishPlace_ord {s₀ s : State} {k : Candidate} {e : Entry} {i : Nat} {step : Option (Step × Option Merge × List (List Nat))} {ks : List Nat} (h₀ : Ordinary s₀ s) :
    Ordinary s₀ (finishPlace k e i step ks s) := by
  unfold finishPlace
  repeat' (first | with_reducible assumption | simp only [ord_upd] | with_reducible (apply placeStep_ord) | with_reducible (apply syncSession_ord) | with_reducible (apply restoredTimer_ord) | with_reducible (apply reviveRestored_ord) | split)

theorem placeContent_ord {s₀ s : State} {r : RestoreRun} {k : Candidate} {e : Entry} {i : Nat}
    {step : Option (Step × Option Merge × List (List Nat))} {ks : List Nat} {a : Placed × State} (h₀ : Ordinary s₀ a.2) (h₁ : Ordinary s₀ s) :
    Ordinary s₀ (placeContent r k e i step ks a s).2.2 := by
  unfold placeContent
  split
  · exact h₀
  · dsimp only
    split
    · split
      · exact h₀
      · rename_i hs; exact finishPlace_ord (ord_some hs (stowPages_ord h₁))
    · split
      · exact h₀
      · rename_i p t hs
        exact finishPlace_ord (ord_someP hs (ordP_bind (allocRoot_ord h₁) (fun u hu => placePages_ord hu)))

theorem placeSession_ord {s₀ : State} {r : RestoreRun} {k : Candidate} {c : ControlImage} {e : Entry} {q : Nat} {a : Placed × State}
    (h₀ : Ordinary s₀ a.2) : Ordinary s₀ (placeSession r k c e q a).2.2 := by
  unfold placeSession
  dsimp only
  split
  · exact h₀
  · split
    · exact syncSession_ord (placeRecord_ord h₀)
    · exact placeContent_ord h₀ (placeRecord_ord h₀)

theorem restoreHandle_ord {s₀ : State} {r : RestoreRun} {g0 : Word} {a : Placed × State} (h₀ : Ordinary s₀ a.2) :
    Ordinary s₀ (restoreHandle r g0 a).2.2 := by
  unfold restoreHandle
  dsimp only
  split
  · exact h₀
  · split
    · exact h₀
    · split
      · exact h₀
      · rename_i k c e hk h1 h2
        have h : Ordinary s₀ (placeSession r k c e (r.map.getD e.partition 0xFF) a).2.2 := placeSession_ord h₀
        split
        · rename_i b hb; rw [hb] at h; exact h
        · exact h

theorem placeIndex_ord {s₀ s : State} {r : RestoreRun} {x : Nat} {v : VIndex} (h₀ : Ordinary s₀ s) :
    Ordinary s₀ (placeIndex r x v s) := by
  unfold placeIndex
  repeat' (first | with_reducible assumption | simp only [ord_upd] | with_reducible (apply allocIndexFrames_ord) | with_reducible (apply writeBytes_ord) | with_reducible (apply writeHeaders_ord) | with_reducible (apply setIndex_ord) | (refine ord_foldl (fun _ _ _ => ?_) ?_) | (refine ordP_foldl (fun _ _ _ => ?_) ?_) | (refine ordP_mapP ?_ (fun _ _ => ?_)) | (refine ordP_bindP ?_ (fun _ _ => ?_)) | (refine ord_someP (by assumption) ?_) | split)

theorem placeGenerations_ord {s₀ s : State} {entries : Tab Entry} (h₀ : Ordinary s₀ s) :
    Ordinary s₀ (placeGenerations entries s) := by
  unfold placeGenerations
  repeat' (first | with_reducible assumption | simp only [ord_upd] | with_reducible (apply modSess_ord) | (refine ord_foldl (fun _ _ _ => ?_) ?_) | split)

theorem placeControl_ord {s₀ s : State} {r : RestoreRun} {c : ControlImage} {t : TablesImage} {serial : Word} (h₀ : Ordinary s₀ s) :
    Ordinary s₀ (placeControl r c t serial s) := by
  unfold placeControl
  repeat' (first | with_reducible assumption | simp only [ord_upd] | with_reducible (apply placeGenerations_ord) | with_reducible (apply setQp_ord) | with_reducible (apply setFrame_ord) | with_reducible (apply placeIndex_ord) | (refine ord_foldl (fun _ _ _ => ?_) ?_) | split)

theorem placeJobs_ord {s₀ s : State} {c : ControlImage} (h₀ : Ordinary s₀ s) :
    Ordinary s₀ (placeJobs c s) := by
  unfold placeJobs
  repeat' (first | with_reducible assumption | simp only [ord_upd] | (refine ord_foldl (fun _ _ _ => ?_) ?_) | split)

theorem placeAll_ord {s₀ s : State} {r : RestoreRun} (h₀ : Ordinary s₀ s) : Ordinary s₀ (placeAll r s) := by
  unfold placeAll
  refine ord_foldlP (fun a g0 h => ?_) h₀
  have h₁ : Ordinary s₀ (restoreHandle r g0 a).2.2 := restoreHandle_ord h
  dsimp only
  split
  · rename_i b e; rw [e] at h₁; exact h₁
  · rename_i e; rw [e] at h₁; refine bump_ord ?_; simp only [ord_upd]; exact h₁
  · rename_i e; rw [e] at h₁; simp only [ord_upd]; exact h₁

theorem carryRestore_ord {s₀ s : State} {r : RestoreRun} (h₀ : Ordinary s₀ s) :
    Ordinary s₀ (carryRestore r s) := by
  unfold carryRestore
  repeat' (first | with_reducible assumption | simp only [ord_upd] | with_reducible (apply bumpBy_ord) | with_reducible (apply refuse_ord) | with_reducible (apply placeControl_ord) | with_reducible (apply placeJobs_ord) | with_reducible (apply placeAll_ord) | split)

end Sys2Proof.Machine
end

