-- ==== Sys2Proof/Laws/OrdRestores.lean ====
section
/-!
SUPPORT. The operations of Machine/Restores.lean are ordinary.
-/
namespace Sys2Proof.Machine

theorem modRestore_ord {s₀ s : State} {f : RestoreRun → RestoreRun} (h₀ : Ordinary s₀ s) :
    Ordinary s₀ (modRestore f s) := by
  unfold modRestore
  repeat' (first | with_reducible assumption | simp only [ord_upd])

theorem endRestore_ord {s₀ s : State} {st : Status} (h₀ : Ordinary s₀ s) :
    Ordinary s₀ (endRestore st s) := by
  unfold endRestore
  repeat' (first | with_reducible assumption | simp only [ord_upd] | with_reducible (apply refuse_ord) | split)

theorem shardRequest_ord {s₀ s : State} {r : RestoreRun} {seq : Nat} {member : Option Nat} {off : Word} {len : Nat} (h₀ : Ordinary s₀ s) :
    Ordinary s₀ (shardRequest r seq member off len s) := by
  unfold shardRequest
  repeat' (first | with_reducible assumption | with_reducible (apply notify_ord) | with_reducible (apply modRestore_ord))

theorem readStream_ord {s₀ s : State} {r : RestoreRun} {c : CommitRec} {member : Option Nat} {off : Nat} {hi : Nat} (h₀ : Ordinary s₀ s) :
    OrdO s₀ (readStream r c member off hi s) := by
  unfold readStream
  repeat' (first | with_reducible assumption | simp only [ord_upd] | with_reducible (apply nvRead_ord) | with_reducible (apply shardRequest_ord) | exact ordO_none | apply ordO_some | split)

theorem nextSource_ord {s₀ s : State} (h₀ : Ordinary s₀ s) :
    Ordinary s₀ (nextSource s) := by
  unfold nextSource
  repeat' (first | with_reducible assumption | with_reducible (apply endRestore_ord) | with_reducible (apply modRestore_ord) | split)

theorem askNext_ord {s₀ t : State} {x0 : Nat} (h₀ : Ordinary s₀ t) :
    Ordinary s₀ (askNext x0 t) := by
  induction x0 generalizing t with
  | zero => (try simp only [askNext]); repeat' (first | with_reducible assumption | with_reducible (apply modRestore_ord) | with_reducible (apply carryRestore_ord) | with_reducible (apply shardRequest_ord) | with_reducible (apply readStream_ord) | with_reducible (apply nextSource_ord) | exact ordO_none | (refine ord_admit (by assumption) ?_))
  | succ n ih =>
    simp only [askNext]
    repeat' (first | with_reducible assumption | with_reducible (apply ih) | with_reducible (apply modRestore_ord) | with_reducible (apply carryRestore_ord) | with_reducible (apply shardRequest_ord) | with_reducible (apply readStream_ord) | with_reducible (apply nextSource_ord) | (with_reducible refine ord_getD ?_ ?_) | split)

theorem pumpRestore_ord {s₀ s : State} (h₀ : Ordinary s₀ s) :
    Ordinary s₀ (pumpRestore s) := by
  unfold pumpRestore
  repeat' (first | with_reducible assumption | with_reducible (apply askNext_ord))

theorem pieceCame_ord {s₀ s : State} {data : List Byte} {shards : Tab Shard} (h₀ : Ordinary s₀ s) :
    Ordinary s₀ (pieceCame data shards s) := by
  unfold pieceCame
  repeat' (first | with_reducible assumption | simp only [ord_upd] | with_reducible (apply modRestore_ord) | with_reducible (apply pumpRestore_ord) | with_reducible (apply endRestore_ord) | with_reducible (apply nextSource_ord) | split)

theorem execRestore_ord {s₀ s : State} {m : Msg} (h₀ : Ordinary s₀ s) :
    OrdN s₀ (execRestore m s) := by
  unfold execRestore
  repeat' (first | apply ordN_next | with_reducible assumption | simp only [ord_upd] | (with_reducible refine request_ord ?_ (fun _ _ => ?_)) | with_reducible (apply refuse_ord) | with_reducible (apply pumpRestore_ord) | with_reducible (apply modRestore_ord) | with_reducible (apply nextSource_ord) | split)

theorem execShardSupply_ord {s₀ s : State} {m : Msg} {shards : Tab Shard} (h₀ : Ordinary s₀ s) :
    OrdN s₀ (execShardSupply m shards s) := by
  unfold execShardSupply
  repeat' (first | apply ordN_next | with_reducible assumption | simp only [ord_upd] | (with_reducible refine request_ord ?_ (fun _ _ => ?_)) | with_reducible (apply refuse_ord) | with_reducible (apply pieceCame_ord) | split)

theorem execRestoreStatus_ord {s₀ s : State} {m : Msg} (h₀ : Ordinary s₀ s) :
    OrdN s₀ (execRestoreStatus m s) := by
  unfold execRestoreStatus
  repeat' (first | apply ordN_next | with_reducible assumption | simp only [ord_upd] | (with_reducible refine request_ord ?_ (fun _ _ => ?_)) | with_reducible (apply respond_ord))

theorem nvFailed_ord {s₀ s : State} {op : NvOp} (h₀ : Ordinary s₀ s) :
    Ordinary s₀ (nvFailed op s) := by
  unfold nvFailed
  repeat' (first | with_reducible assumption | simp only [ord_upd] | with_reducible (apply alert_ord) | with_reducible (apply bump_ord) | with_reducible (apply failSurvey_ord) | with_reducible (apply pumpRestore_ord) | with_reducible (apply nextSource_ord) | with_reducible (apply endRestore_ord) | with_reducible (apply refuse_ord) | split)

theorem execNvCommandDone_ord {s₀ s : State} {d : NvDone} (h₀ : Ordinary s₀ s) :
    OrdN s₀ (execNvCommandDone d s) := by
  unfold execNvCommandDone
  repeat' (first | apply ordN_next | with_reducible assumption | simp only [ord_upd] | with_reducible (apply engine_ord) | with_reducible (apply bump_ord) | with_reducible (apply advanceSurvey_ord) | with_reducible (apply nvFailed_ord) | with_reducible (apply nvRead_ord) | with_reducible (apply formatNext_ord) | with_reducible (apply refuse_ord) | with_reducible (apply surveyWritten_ord) | with_reducible (apply pieceCame_ord) | split)

theorem execNvTimeout_ord {s₀ s : State} (h₀ : Ordinary s₀ s) :
    OrdN s₀ (execNvTimeout s) := by
  unfold execNvTimeout
  repeat' (first | apply ordN_next | with_reducible assumption | simp only [ord_upd] | with_reducible (apply engine_ord) | with_reducible (apply nvFailed_ord) | split)

theorem resumeMerge_ord {s₀ s : State} {i : Nat} {m : Merge} (h₀ : Ordinary s₀ s) :
    OrdO s₀ (resumeMerge i m s) := by
  unfold resumeMerge
  repeat' (first | with_reducible assumption | simp only [ord_upd] | with_reducible (apply setMerge_ord) | exact ordO_none | apply ordO_some | split)

theorem execStepResumed_ord {s₀ s : State} {i : Nat} (h₀ : Ordinary s₀ s) :
    OrdN s₀ (execStepResumed i s) := by
  unfold execStepResumed
  repeat' (first | apply ordN_next | with_reducible assumption | simp only [ord_upd] | with_reducible (apply engineHeld_ord) | with_reducible (apply modSess_ord) | with_reducible (apply touchJobs_ord) | with_reducible (apply notify_ord) | with_reducible (apply bump_ord) | with_reducible (apply resumeMerge_ord) | (refine ord_some (by assumption) ?_) | split)

theorem execResumeHoldTimeout_ord {s₀ s : State} {i : Nat} (h₀ : Ordinary s₀ s) :
    OrdN s₀ (execResumeHoldTimeout i s) := by
  unfold execResumeHoldTimeout
  repeat' (first | apply ordN_next | with_reducible assumption | simp only [ord_upd] | with_reducible (apply engineHeld_ord) | with_reducible (apply settle_ord) | with_reducible (apply restartStep_ord) | split)

end Sys2Proof.Machine
end

