-- ==== Sys2Proof/Laws/OrdWindow.lean ====
section
/-!
SUPPORT. The operations of Machine/Window.lean are ordinary.
-/
namespace Sys2Proof.Machine

theorem readReg_ord {s₀ s : State} {o : Nat} (h₀ : Ordinary s₀ s) : Ordinary s₀ (readReg o s).2 := by
  unfold readReg
  split <;> (try simp only [ord_upd]) <;> exact h₀

theorem writeReg_fol {s₀ s : State} {o : Nat} {w : BitVec 32} (h₀ : Follows s₀ s) : Follows s₀ (writeReg o w s) := by
  unfold writeReg
  split <;> (try split) <;> (try dsimp only) <;> (try split) <;> (try simp only [fol_upd]) <;> exact h₀

theorem readRegs_ord {s₀ : State} : ∀ {n o : Nat} {t : State}, Ordinary s₀ t → Ordinary s₀ (readRegs o n t).2
  | 0, _, _, h => h
  | n + 1, o, t, h => by
    simp only [readRegs]
    exact readRegs_ord (readReg_ord h)

theorem writeRegs_fol {s₀ : State} : ∀ {l : List (BitVec 32)} {o : Nat} {t : State}, Follows s₀ t → Follows s₀ (writeRegs o l t)
  | [], _, _, h => h
  | w :: l, o, t, h => writeRegs_fol (l := l) (writeReg_fol h)

theorem csrAccess_fol {s₀ s : State} {m : Msg} (h₀ : Follows s₀ s) : Follows s₀ (csrAccess m s) := by
  unfold csrAccess
  refine request_fol h₀ (fun t h => ?_)
  have r : ∀ st, Follows s₀ (refuse m st t) := fun st => fol_ord (refuse_ord (Ordinary.refl _)) h
  split
  · exact r _
  · split
    · exact r _
    · split
      · exact fol_ord (respond_ord (readRegs_ord (Ordinary.refl _))) h
      · exact fol_ord (refuse_ord (Ordinary.refl _)) (writeRegs_fol h)

theorem execCsrWrite_fol {s₀ s : State} {m : Msg} (h₀ : Follows s₀ s) :
    FolN s₀ (execCsrWrite m s) := by
  unfold execCsrWrite
  repeat' (first | apply folN_next | with_reducible assumption | with_reducible (apply csrAccess_fol))

theorem execPmuClear_fol {s₀ s : State} {m : Msg} (h₀ : Follows s₀ s) :
    FolN s₀ (execPmuClear m s) := by
  unfold execPmuClear
  repeat' (first | apply folN_next | with_reducible assumption | with_reducible (apply csrAccess_fol))

theorem execCounterValueWrite_fol {s₀ s : State} {m : Msg} (h₀ : Follows s₀ s) :
    FolN s₀ (execCounterValueWrite m s) := by
  unfold execCounterValueWrite
  repeat' (first | apply folN_next | with_reducible assumption | with_reducible (apply csrAccess_fol))

theorem execAlertStatusRead_fol {s₀ s : State} {m : Msg} (h₀ : Follows s₀ s) :
    FolN s₀ (execAlertStatusRead m s) := by
  unfold execAlertStatusRead
  repeat' (first | apply folN_next | with_reducible assumption | with_reducible (apply csrAccess_fol))

theorem execOvfStatusRead_fol {s₀ s : State} {m : Msg} (h₀ : Follows s₀ s) :
    FolN s₀ (execOvfStatusRead m s) := by
  unfold execOvfStatusRead
  repeat' (first | apply folN_next | with_reducible assumption | with_reducible (apply csrAccess_fol))

theorem execFrameRead_ord {s₀ s : State} {m : Msg} (h₀ : Ordinary s₀ s) :
    OrdN s₀ (execFrameRead m s) := by
  unfold execFrameRead
  repeat' (first | apply ordN_next | with_reducible assumption | simp only [ord_upd] | (with_reducible refine request_ord ?_ (fun _ _ => ?_)) | with_reducible (apply refuse_ord) | with_reducible (apply bump_ord) | with_reducible (apply draw_ord) | with_reducible (apply scrubError_ord) | with_reducible (apply respond_ord) | split)

theorem execPlcaBeacon_fol {s₀ s : State} (h₀ : Follows s₀ s) :
    FolN s₀ (execPlcaBeacon s) := by
  unfold execPlcaBeacon
  repeat' (first | apply folN_next | with_reducible assumption | simp only [fol_upd] | split)

theorem execPlcaBeaconLoss_fol {s₀ s : State} (h₀ : Follows s₀ s) :
    FolN s₀ (execPlcaBeaconLoss s) := by
  unfold execPlcaBeaconLoss
  repeat' (first | apply folN_next | with_reducible assumption | simp only [fol_upd] | split)

end Sys2Proof.Machine
end

