-- ==== Sys2Proof/Laws/OrdSecurity.lean ====
section
/-!
SUPPORT. The operations of Machine/Security.lean are ordinary.
-/
namespace Sys2Proof.Machine

theorem fwBoot_fol {s₀ s : State} (h₀ : Follows s₀ s) :
    Follows s₀ (fwBoot s) := by
  unfold fwBoot
  repeat' (first | with_reducible assumption | simp only [fol_upd] | (with_reducible refine fol_ord (alert_ord (Ordinary.refl _)) ?_) | split)

theorem execSecurityReady_fol {s₀ s : State} (h₀ : Follows s₀ s) : FolN s₀ (execSecurityReady s) := by
  unfold execSecurityReady
  refine folN_next (engine_fol h₀ ?_)
  split
  · exact h₀
  · split
    · exact fol_ord (alert_ord (Ordinary.refl _)) h₀
    · have h : Follows s₀ (drawBytes 64 (drawBytes 384 (drawBytes 384 s).2).2).2 :=
        fol_ord (drawBytes_ord (drawBytes_ord (drawBytes_ord (Ordinary.refl _) _) _) _) h₀
      exact ⟨h.queue, h.sent, Nat.le_succ_of_le h.drawn, h.memory⟩

theorem whenReady_ord {s₀ t : State} {m : Msg} {h : State → State} (h₀ : Ordinary s₀ t) (hf : ∀ u, Ordinary s₀ u → Ordinary s₀ (h u)) :
    Ordinary s₀ (whenReady m h t) := by
  unfold whenReady; split
  · exact refuse_ord h₀
  · exact hf _ h₀

theorem atContext_ord {s₀ t : State} {m : Msg} {h : State → State} (h₀ : Ordinary s₀ t) (hf : ∀ (t : State), Ordinary s₀ t → Ordinary s₀ (h t)) :
    Ordinary s₀ (atContext m h t) := by
  unfold atContext
  repeat' (first | with_reducible assumption | (with_reducible refine whenReady_ord ?_ (fun _ _ => ?_)) | with_reducible (apply holdMsg_ord) | with_reducible (apply hf) | split)

theorem execContextCreate_ord {s₀ s : State} {m : Msg} (h₀ : Ordinary s₀ s) :
    OrdN s₀ (execContextCreate m s) := by
  unfold execContextCreate
  repeat' (first | apply ordN_next | with_reducible assumption | simp only [ord_upd] | (with_reducible refine request_ord ?_ (fun _ _ => ?_)) | (with_reducible refine atContext_ord ?_ (fun _ _ => ?_)) | with_reducible (apply refuse_ord) | split)

theorem execContextDestroy_ord {s₀ s : State} {m : Msg} (h₀ : Ordinary s₀ s) :
    OrdN s₀ (execContextDestroy m s) := by
  unfold execContextDestroy
  repeat' (first | apply ordN_next | with_reducible assumption | simp only [ord_upd] | (with_reducible refine request_ord ?_ (fun _ _ => ?_)) | (with_reducible refine atContext_ord ?_ (fun _ _ => ?_)) | with_reducible (apply refuse_ord) | split)

theorem execContextTeardown_ord {s₀ s : State} {m : Msg} (h₀ : Ordinary s₀ s) :
    OrdN s₀ (execContextTeardown m s) := by
  unfold execContextTeardown
  repeat' (first | apply ordN_next | with_reducible assumption | simp only [ord_upd] | (with_reducible refine request_ord ?_ (fun _ _ => ?_)) | (with_reducible refine whenReady_ord ?_ (fun _ _ => ?_)) | with_reducible (apply refuse_ord) | with_reducible (apply tearDown_ord) | split)

theorem execAttest_ord {s₀ s : State} {m : Msg} (h₀ : Ordinary s₀ s) : OrdN s₀ (execAttest m s) := by
  unfold execAttest
  refine ordN_next (request_ord h₀ (fun t h => atContext_ord h (fun t h => ?_)))
  dsimp only
  split
  · exact refuse_ord h
  · split
    · exact refuse_ord h
    · split
      · exact refuse_ord h
      · refine respond_ord (bump_ord ?_)
        exact ⟨⟨h.1.queue, h.1.sent, Nat.le_succ_of_le h.1.drawn, h.1.memory⟩, h.2⟩

theorem execKeyDeliver_ord {s₀ s : State} {m : Msg} (h₀ : Ordinary s₀ s) :
    OrdN s₀ (execKeyDeliver m s) := by
  unfold execKeyDeliver
  repeat' (first | apply ordN_next | with_reducible assumption | simp only [ord_upd] | (with_reducible refine request_ord ?_ (fun _ _ => ?_)) | (with_reducible refine atContext_ord ?_ (fun _ _ => ?_)) | with_reducible (apply refuse_ord) | with_reducible (apply bump_ord) | with_reducible (apply respond_ord) | split)

theorem execFwUpdate_fol {s₀ s : State} {m : Msg} (h₀ : Follows s₀ s) : FolN s₀ (execFwUpdate m s) := by
  unfold execFwUpdate
  refine folN_next (request_fol h₀ (fun t h => ?_))
  dsimp only
  split
  · exact fol_ord (refuse_ord (Ordinary.refl _)) h
  · split <;> exact fol_ord (refuse_ord (Ordinary.refl _)) h

theorem execFwCommitVersion_fol {s₀ s : State} {m : Msg} (h₀ : Follows s₀ s) : FolN s₀ (execFwCommitVersion m s) := by
  unfold execFwCommitVersion
  refine folN_next (request_fol h₀ (fun t h => ?_))
  dsimp only
  split <;> exact fol_ord (refuse_ord (Ordinary.refl _)) h

end Sys2Proof.Machine
end

