-- ==== Sys2Proof/Laws/OrdSupplies.lean ====
section
/-!
SUPPORT. The operations of Machine/Supplies.lean are ordinary.
-/
namespace Sys2Proof.Machine

theorem wipe_fol {s₀ s : State} (h₀ : Follows s₀ s) : Follows s₀ (wipe s) := ⟨h₀.queue, h₀.sent, h₀.drawn, fun _ => rfl⟩

theorem startUp_fol {s₀ s : State} (h₀ : Follows s₀ s) :
    Follows s₀ (startUp s) := by
  unfold startUp
  repeat' (first | with_reducible assumption | simp only [fol_upd] | with_reducible (apply wipe_fol))

theorem resetBy_fol {s₀ s : State} {cause : Nat} {ph : Phase} (h₀ : Follows s₀ s) :
    Follows s₀ (resetBy cause ph s) := by
  unfold resetBy
  repeat' (first | with_reducible assumption | simp only [fol_upd] | with_reducible (apply wipe_fol) | split)

theorem startIfFree_fol {s₀ s : State} (h₀ : Follows s₀ s) :
    Follows s₀ (startIfFree s) := by
  unfold startIfFree
  repeat' (first | with_reducible assumption | with_reducible (apply startUp_fol) | split)

theorem powerOff_fol {s₀ s : State} (h₀ : Follows s₀ s) :
    Follows s₀ (powerOff s) := by
  unfold powerOff
  repeat' (first | with_reducible assumption | simp only [fol_upd] | with_reducible (apply wipe_fol))

theorem powerOn_fol {s₀ s : State} (h₀ : Follows s₀ s) :
    Follows s₀ (powerOn s) := by
  unfold powerOn
  repeat' (first | with_reducible assumption | simp only [fol_upd] | with_reducible (apply startIfFree_fol) | with_reducible (apply wipe_fol))

theorem execVinGood_fol {s₀ s : State} {mv : Nat} (h₀ : Follows s₀ s) :
    FolN s₀ (execVinGood mv s) := by
  unfold execVinGood
  repeat' (first | apply folN_next | with_reducible assumption | with_reducible (apply powerOn_fol) | split)

theorem execVinLoss_fol {s₀ s : State} {mv : Nat} (h₀ : Follows s₀ s) :
    FolN s₀ (execVinLoss mv s) := by
  unfold execVinLoss
  repeat' (first | apply folN_next | with_reducible assumption | simp only [fol_upd] | with_reducible (apply powerOff_fol) | split)

theorem execVinOvervoltage_fol {s₀ s : State} {mv : Nat} (h₀ : Follows s₀ s) :
    FolN s₀ (execVinOvervoltage mv s) := by
  unfold execVinOvervoltage
  repeat' (first | apply folN_next | with_reducible assumption | simp only [fol_upd] | with_reducible (apply powerOff_fol) | split)

theorem execVinOvervoltageEnd_fol {s₀ s : State} {mv : Nat} (h₀ : Follows s₀ s) :
    FolN s₀ (execVinOvervoltageEnd mv s) := by
  unfold execVinOvervoltageEnd
  repeat' (first | apply folN_next | with_reducible assumption | simp only [fol_upd] | with_reducible (apply powerOn_fol) | split)

theorem execVioLoss_fol {s₀ s : State} {mv : Nat} (h₀ : Follows s₀ s) :
    FolN s₀ (execVioLoss mv s) := by
  unfold execVioLoss
  repeat' (first | apply folN_next | with_reducible assumption | simp only [fol_upd] | with_reducible (apply resetBy_fol) | split)

theorem execVioGood_fol {s₀ s : State} {mv : Nat} (h₀ : Follows s₀ s) :
    FolN s₀ (execVioGood mv s) := by
  unfold execVioGood
  repeat' (first | apply folN_next | with_reducible assumption | simp only [fol_upd] | with_reducible (apply startIfFree_fol) | split)

theorem execResetAssert_fol {s₀ s : State} (h₀ : Follows s₀ s) :
    FolN s₀ (execResetAssert s) := by
  unfold execResetAssert
  repeat' (first | apply folN_next | with_reducible assumption | simp only [fol_upd] | with_reducible (apply resetBy_fol) | split)

theorem execResetRelease_fol {s₀ s : State} (h₀ : Follows s₀ s) :
    FolN s₀ (execResetRelease s) := by
  unfold execResetRelease
  repeat' (first | apply folN_next | with_reducible assumption | simp only [fol_upd] | with_reducible (apply startIfFree_fol) | split)

theorem execStartupComplete_fol {s₀ s : State} (h₀ : Follows s₀ s) :
    FolN s₀ (execStartupComplete s) := by
  unfold execStartupComplete
  repeat' (first | apply folN_next | with_reducible assumption | simp only [fol_upd] | with_reducible (apply fwBoot_fol) | (with_reducible refine fol_ord (draw_ord (Ordinary.refl _)) ?_) | split)

theorem execThermWarn_fol {s₀ s : State} {sensor : Nat} {celsius : Int} (h₀ : Follows s₀ s) :
    FolN s₀ (execThermWarn sensor celsius s) := by
  unfold execThermWarn
  repeat' (first | apply folN_next | with_reducible assumption | simp only [fol_upd] | (with_reducible refine fol_ord (bump_ord (Ordinary.refl _)) ?_) | split)

theorem readSensors_fol {s₀ s : State} {l : List Int} (h₀ : Follows s₀ s) :
    Follows s₀ (readSensors l s) := by
  unfold readSensors
  repeat' (first | with_reducible assumption | simp only [fol_upd])

theorem execThermWarnEnd_fol {s₀ s : State} {celsius : List Int} (h₀ : Follows s₀ s) :
    FolN s₀ (execThermWarnEnd celsius s) := by
  unfold execThermWarnEnd
  repeat' (first | apply folN_next | with_reducible assumption | simp only [fol_upd] | with_reducible (apply readSensors_fol) | split)

theorem execThermalShutdown_fol {s₀ s : State} {sensor : Nat} {celsius : Int} (h₀ : Follows s₀ s) :
    FolN s₀ (execThermalShutdown sensor celsius s) := by
  unfold execThermalShutdown
  repeat' (first | apply folN_next | with_reducible assumption | with_reducible (apply resetBy_fol) | split)

theorem execTapUpdateIr_fol {s₀ s : State} {code : Byte} (h₀ : Follows s₀ s) :
    FolN s₀ (execTapUpdateIr code s) := by
  unfold execTapUpdateIr
  repeat' (first | apply folN_next | with_reducible assumption | simp only [fol_upd] | (with_reducible refine fol_ord (bump_ord (Ordinary.refl _)) ?_) | split)

theorem execTestLogicReset_fol {s₀ s : State} (h₀ : Follows s₀ s) :
    FolN s₀ (execTestLogicReset s) := by
  unfold execTestLogicReset
  repeat' (first | apply folN_next | with_reducible assumption | simp only [fol_upd] | split)

end Sys2Proof.Machine
end

