-- ==== Sys2Proof/Laws/OrdPacing.lean ====
section
/-!
SUPPORT. The operations of Machine/Pacing.lean are ordinary.
-/
namespace Sys2Proof.Machine

theorem noteLimit_fol {s₀ s : State} {d : Nat} {rate : Nat} (h₀ : Follows s₀ s) :
    Follows s₀ (noteLimit d rate s) := by
  unfold noteLimit
  repeat' (first | with_reducible assumption | simp only [fol_upd])

theorem execPaceUpdate_fol {s₀ s : State} {r : PaceReadings} (h₀ : Follows s₀ s) :
    FolN s₀ (execPaceUpdate r s) := by
  unfold execPaceUpdate
  repeat' (first | apply folN_next | with_reducible assumption | simp only [fol_upd] | with_reducible (apply readSensors_fol) | (with_reducible refine fol_ord (bump_ord (Ordinary.refl _)) ?_) | with_reducible (apply noteLimit_fol) | (refine fol_foldl (fun _ _ _ => ?_) ?_) | split)

theorem execPaceMonitorWindow_fol {s₀ s : State} {d : Nat} {count : Nat} (h₀ : Follows s₀ s) :
    FolN s₀ (execPaceMonitorWindow d count s) := by
  unfold execPaceMonitorWindow
  repeat' (first | apply folN_next | with_reducible assumption | simp only [fol_upd] | with_reducible (apply noteLimit_fol) | split)

end Sys2Proof.Machine
end

