-- ==== Sys2Proof/Laws/OrdTriggers.lean ====
section
/-!
SUPPORT. The operations of Machine/Triggers.lean are ordinary.
-/
namespace Sys2Proof.Machine

theorem addTrigger_ord {s₀ s : State} {c : Nat} {n : Nat} {ctx : Nat} (h₀ : Ordinary s₀ s) :
    Ordinary s₀ (addTrigger c n ctx s) := by
  unfold addTrigger
  repeat' (first | with_reducible assumption | simp only [ord_upd] | with_reducible (apply bump_ord) | split)

theorem completeWr_ord {s₀ s : State} {n : Nat} (h₀ : Ordinary s₀ s) :
    Ordinary s₀ (completeWr n s) := by
  unfold completeWr
  repeat' (first | with_reducible assumption | with_reducible (apply addTrigger_ord) | with_reducible (apply freeWr_ord) | split)

theorem tileBytes_ord {s₀ s : State} {i : Nat} {h : Shape} {layer : Nat} {head : Nat} {group : Nat} {sl : Nat} (h₀ : Ordinary s₀ s) :
    Ordinary s₀ (tileBytes i h layer head group sl s).2 := by
  unfold tileBytes
  repeat' (first | with_reducible assumption | simp only [ord_upd] | with_reducible (apply drawBytes_ord) | split)

theorem fireShip_ord {s₀ s : State} {n : Nat} {w : WorkReq} (h₀ : Ordinary s₀ s) :
    Ordinary s₀ (fireShip n w s) := by
  unfold fireShip
  repeat' (first | with_reducible assumption | simp only [ord_upd] | with_reducible (apply completeWr_ord) | with_reducible (apply bump_ord) | with_reducible (apply tileBytes_ord) | with_reducible (apply sendTile_ord) | (refine ord_foldRange (fun _ _ _ => ?_) ?_) | (refine ord_foldl (fun _ _ _ => ?_) ?_) | split)

theorem fireInline_ord {s₀ s : State} {n : Nat} {w : WorkReq} (h₀ : Ordinary s₀ s) :
    Ordinary s₀ (fireInline n w s) := by
  unfold fireInline
  repeat' (first | with_reducible assumption | simp only [ord_upd] | with_reducible (apply bump_ord) | with_reducible (apply sendPackets_ord) | with_reducible (apply emit_ord) | split)

theorem fireWr_ord {s₀ s : State} {n : Nat} {w : WorkReq} (h₀ : Ordinary s₀ s) :
    Ordinary s₀ (fireWr n w s) := by
  unfold fireWr
  repeat' (first | with_reducible assumption | simp only [ord_upd] | with_reducible (apply bump_ord) | with_reducible (apply completeWr_ord) | with_reducible (apply addTrigger_ord) | with_reducible (apply freeWr_ord) | with_reducible (apply fireShip_ord) | with_reducible (apply fireInline_ord) | split)

theorem fireList_ord {s₀ : State} : ∀ {n : Nat} {l : List Nat} {t : State}, Ordinary s₀ t → Ordinary s₀ (fireList n l t)
  | 0, _, _, h => by unfold fireList; exact h
  | _ + 1, [], _, h => by unfold fireList; exact h
  | n + 1, k :: l, t, h => by
    unfold fireList
    split
    · exact fireList_ord h
    · split
      · exact fireList_ord h
      · exact fireList_ord (fireWr_ord h)

theorem fireReady_ord {s₀ s : State} (h₀ : Ordinary s₀ s) :
    Ordinary s₀ (fireReady s) := by
  unfold fireReady
  repeat' (first | with_reducible assumption | with_reducible (apply fireList_ord))

theorem wrAcked_ord {s₀ s : State} {n : Nat} (h₀ : Ordinary s₀ s) :
    Ordinary s₀ (wrAcked n s) := by
  unfold wrAcked
  repeat' (first | with_reducible assumption | simp only [ord_upd] | with_reducible (apply fireReady_ord) | with_reducible (apply completeWr_ord) | split)

theorem postWr_ord {s₀ s : State} {w : WorkReq} (h₀ : Ordinary s₀ s) :
    Ordinary s₀ (postWr w s) := by
  unfold postWr
  repeat' (first | with_reducible assumption | simp only [ord_upd])

theorem execWrPost_ord {s₀ s : State} {m : Msg} (h₀ : Ordinary s₀ s) :
    OrdN s₀ (execWrPost m s) := by
  unfold execWrPost
  repeat' (first | apply ordN_next | with_reducible assumption | simp only [ord_upd] | (with_reducible refine request_ord ?_ (fun _ _ => ?_)) | with_reducible (apply refuse_ord) | with_reducible (apply postWr_ord) | with_reducible (apply fireReady_ord) | with_reducible (apply respond_ord) | (refine ord_foldl (fun _ _ _ => ?_) ?_) | split)

theorem execWrCancel_ord {s₀ s : State} {m : Msg} (h₀ : Ordinary s₀ s) :
    OrdN s₀ (execWrCancel m s) := by
  unfold execWrCancel
  repeat' (first | apply ordN_next | with_reducible assumption | (with_reducible refine request_ord ?_ (fun _ _ => ?_)) | with_reducible (apply refuse_ord) | with_reducible (apply freeWr_ord) | split)

theorem execCounterSet_ord {s₀ s : State} {m : Msg} (h₀ : Ordinary s₀ s) :
    OrdN s₀ (execCounterSet m s) := by
  unfold execCounterSet
  repeat' (first | apply ordN_next | with_reducible assumption | simp only [ord_upd] | (with_reducible refine request_ord ?_ (fun _ _ => ?_)) | with_reducible (apply refuse_ord) | with_reducible (apply fireReady_ord) | split)

theorem execCounterAdd_ord {s₀ s : State} {m : Msg} (h₀ : Ordinary s₀ s) :
    OrdN s₀ (execCounterAdd m s) := by
  unfold execCounterAdd
  repeat' (first | apply ordN_next | with_reducible assumption | simp only [ord_upd] | (with_reducible refine request_ord ?_ (fun _ _ => ?_)) | with_reducible (apply refuse_ord) | with_reducible (apply fireReady_ord) | with_reducible (apply addTrigger_ord) | split)

theorem execWrSignal_ord {s₀ s : State} {m : Msg} (h₀ : Ordinary s₀ s) :
    OrdN s₀ (execWrSignal m s) := by
  unfold execWrSignal
  repeat' (first | apply ordN_next | with_reducible assumption | simp only [ord_upd] | (with_reducible refine peerMessage_ord ?_ (fun _ _ => ?_)) | with_reducible (apply fireList_ord))

end Sys2Proof.Machine
end

