-- ==== Sys2Proof/Laws/OrdTileWrites.lean ====
section
/-!
SUPPORT. The operations of Machine/TileWrites.lean are ordinary.
-/
namespace Sys2Proof.Machine

theorem takeTile_ord {s₀ s : State} {t : TileWrite} (h₀ : Ordinary s₀ s) :
    Ordinary s₀ (takeTile t s) := by
  unfold takeTile
  repeat' (first | with_reducible assumption | simp only [ord_upd])

theorem holdTile_ord {s₀ s : State} {t : TileWrite} (h₀ : Ordinary s₀ s) :
    Ordinary s₀ (holdTile t s) := by
  unfold holdTile
  repeat' (first | with_reducible assumption | simp only [ord_upd] | split)

theorem nakTile_ord {s₀ s : State} {t : TileWrite} {st : Status} (h₀ : Ordinary s₀ s) :
    Ordinary s₀ (nakTile t st s) := by
  unfold nakTile
  repeat' (first | with_reducible assumption | with_reducible (apply bump_ord) | with_reducible (apply notify_ord) | with_reducible (apply takeTile_ord))

theorem rangeNak_ord {s₀ s : State} {t : TileWrite} (h₀ : Ordinary s₀ s) :
    Ordinary s₀ (rangeNak t s) := by
  unfold rangeNak
  repeat' (first | with_reducible assumption | with_reducible (apply bump_ord) | with_reducible (apply nakTile_ord))

theorem writeTileRows_ord {s₀ s : State} {i : Nat} {h : Shape} {a : TileAddr} {data : List Byte} {want : Nat → Bool} (h₀ : Ordinary s₀ s) :
    OrdO s₀ (writeTileRows i h a data want s) := by
  unfold writeTileRows
  repeat' (first | with_reducible assumption | simp only [ord_upd] | with_reducible (apply writablePage_ord) | with_reducible (apply writeBytes_ord) | with_reducible (apply mirrorRows_ord) | with_reducible (apply dirtyPage_ord) | (refine ord_foldl (fun _ _ _ => ?_) ?_) | (refine ordO_map ?_ (fun _ _ => ?_)) | apply ordO_some | split)

theorem tileDone_ord {s₀ s : State} {t : TileWrite} (h₀ : Ordinary s₀ s) :
    Ordinary s₀ (tileDone t s) := by
  unfold tileDone
  repeat' (first | with_reducible assumption | simp only [ord_upd] | with_reducible (apply fireReady_ord) | with_reducible (apply addTrigger_ord) | with_reducible (apply takeTile_ord))

theorem storePass_ord {s₀ s : State} {i : Nat} {h : Shape} {a : TileAddr} {data : List Byte} (h₀ : Ordinary s₀ s) :
    OrdO s₀ (storePass i h a data s) := by
  unfold storePass
  repeat' (first | with_reducible assumption | simp only [ord_upd] | with_reducible (apply writeBytes_ord) | with_reducible (apply turnFrame_ord) | with_reducible (apply allocFrame_ord) | with_reducible (apply modSess_ord) | (refine ordO_mapP ?_ (fun _ _ => ?_)) | (refine ordO_bindN (fun _ => ?_)) | apply ordO_some | split)

theorem countPass_ord {s₀ s : State} {i : Nat} (h₀ : Ordinary s₀ s) :
    Ordinary s₀ (countPass i s) := by
  unfold countPass
  repeat' (first | with_reducible assumption | with_reducible (apply modSess_ord))

theorem ringPassTile_ord {s₀ s : State} {t : TileWrite} (h₀ : Ordinary s₀ s) :
    Ordinary s₀ (ringPassTile t s) := by
  unfold ringPassTile
  repeat' (first | with_reducible assumption | simp only [ord_upd] | with_reducible (apply nakTile_ord) | with_reducible (apply rangeNak_ord) | with_reducible (apply holdTile_ord) | with_reducible (apply storePass_ord) | with_reducible (apply countPass_ord) | with_reducible (apply bump_ord) | with_reducible (apply tileDone_ord) | with_reducible (apply sendPass_ord) | apply ordO_some | (refine ord_some (by assumption) ?_) | split)

theorem migrationTile_ord {s₀ s : State} {t : TileWrite} (h₀ : Ordinary s₀ s) :
    Ordinary s₀ (migrationTile t s) := by
  unfold migrationTile
  repeat' (first | with_reducible assumption | simp only [ord_upd] | dsimp only | with_reducible (apply nakTile_ord) | with_reducible (apply rangeNak_ord) | with_reducible (apply writeTileRows_ord) | with_reducible (apply holdTile_ord) | with_reducible (apply tileDone_ord) | with_reducible (apply modSess_ord) | exact ordO_none | exact ordP_none | apply ordO_some | apply ordP_some | (with_reducible refine ord_getD ?_ ?_) | (refine ord_admit (by assumption) ?_) | (refine ord_pair (by assumption) ?_) | (refine ord_triple (by assumption) ?_) | (refine ord_quad (by assumption) ?_) | (refine ord_some (by assumption) ?_) | (refine ord_someP (by assumption) ?_) | (refine ord_somePair (by assumption) ?_) | split)

theorem forwardTile_ord {s₀ s : State} {t : TileWrite} {i : Nat} {m : Nat} {mu : Nat} {g : Nat} {a : TileAddr} (h₀ : Ordinary s₀ s) :
    Ordinary s₀ (forwardTile t i m mu g a s) := by
  unfold forwardTile
  repeat' (first | with_reducible assumption | simp only [ord_upd] | with_reducible (apply sendTile_ord) | split)

theorem sessionTile_ord {s₀ s : State} {t : TileWrite} (h₀ : Ordinary s₀ s) :
    Ordinary s₀ (sessionTile t s) := by
  unfold sessionTile
  repeat' (first | with_reducible assumption | simp only [ord_upd] | with_reducible (apply nakTile_ord) | with_reducible (apply rangeNak_ord) | with_reducible (apply tileDone_ord) | with_reducible (apply forwardTile_ord) | with_reducible (apply writeTileRows_ord) | with_reducible (apply holdTile_ord) | (refine ord_some (by assumption) ?_) | split)

theorem execTileWrite_ord {s₀ s : State} {t : TileWrite} (h₀ : Ordinary s₀ s) :
    OrdN s₀ (execTileWrite t s) := by
  unfold execTileWrite
  repeat' (first | apply ordN_next | with_reducible assumption | with_reducible (apply takeTile_ord) | with_reducible (apply holdTile_ord) | with_reducible (apply nakTile_ord) | with_reducible (apply migrationTile_ord) | with_reducible (apply ringPassTile_ord) | with_reducible (apply sessionTile_ord) | split)

end Sys2Proof.Machine
end

