-- ==== Sys2Proof/Laws/OrdRings.lean ====
section
/-!
SUPPORT. The operations of Machine/Rings.lean are ordinary.
-/
namespace Sys2Proof.Machine

theorem joinFork_ord {s₀ s : State} {i : Nat} {qp : Nat} {r : RingJoin} (h₀ : Ordinary s₀ s) :
    OrdO s₀ (joinFork i qp r s) := by
  unfold joinFork
  repeat' (first | with_reducible assumption | simp only [ord_upd] | with_reducible (apply fillFork_ord) | with_reducible (apply modSess_ord) | (refine ordO_bindN (fun _ => ?_)) | exact ordO_none | apply ordO_some | (refine ord_pair (by assumption) ?_) | split)

theorem execRingJoin_ord {s₀ s : State} {m : Msg} {r : RingJoin} (h₀ : Ordinary s₀ s) :
    OrdN s₀ (execRingJoin m r s) := by
  unfold execRingJoin
  repeat' (first | apply ordN_next | with_reducible assumption | simp only [ord_upd] | (with_reducible refine request_ord ?_ (fun _ _ => ?_)) | with_reducible (apply allocRoot_ord) | with_reducible (apply occupy_ord) | with_reducible (apply joinFork_ord) | with_reducible (apply modSess_ord) | with_reducible (apply respond_ord) | with_reducible (apply mirrorUpdate_ord) | with_reducible (apply refuse_ord) | (refine admission_ord ?_ (fun _ _ => ?_)) | apply ord_admit2 | (refine ordO_bind ?_ (fun _ _ => ?_)) | (refine ord_admit (by assumption) ?_) | (refine ord_pair (by assumption) ?_) | split)

theorem applyRing_ord {s₀ s : State} {i : Nat} {m : Msg} {r : RingCmd} (h₀ : Ordinary s₀ s) :
    Ordinary s₀ (applyRing i m r s).2 := by
  unfold applyRing
  repeat' (first | with_reducible assumption | simp only [ord_upd] | with_reducible (apply modSess_ord) | with_reducible (apply applyResume_ord) | with_reducible (apply applyPark_ord) | with_reducible (apply applyCancel_ord) | with_reducible (apply settle_ord) | with_reducible (apply applyFreeze_ord) | with_reducible (apply applyThaw_ord) | with_reducible (apply applyExtend_ord) | with_reducible (apply applyBind_ord) | split)

theorem execRingCmd_ord {s₀ s : State} {m : Msg} {r : RingCmd} (h₀ : Ordinary s₀ s) :
    OrdN s₀ (execRingCmd m r s) := by
  unfold execRingCmd
  repeat' (first | apply ordN_next | with_reducible assumption | simp only [ord_upd] | (with_reducible refine request_ord ?_ (fun _ _ => ?_)) | with_reducible (apply deny_ord) | with_reducible (apply refuse_ord) | with_reducible (apply applyRing_ord) | split)

theorem execRingAppend_ord {s₀ s : State} {m : Msg} {r : RingAppend} (h₀ : Ordinary s₀ s) :
    OrdN s₀ (execRingAppend m r s) := by
  unfold execRingAppend
  repeat' (first | apply ordN_next | with_reducible assumption | simp only [ord_upd] | (with_reducible refine peerMessage_ord ?_ (fun _ _ => ?_)) | with_reducible (apply appendRow_ord) | with_reducible (apply modSess_ord) | (refine ord_some (by assumption) ?_) | split)

theorem addRingWork_ord {s₀ s : State} {i : Nat} {qp : Nat} {prefill : Bool} {r : RingQuery} (h₀ : Ordinary s₀ s) :
    Ordinary s₀ (addRingWork i qp prefill r s) := by
  unfold addRingWork
  repeat' (first | with_reducible assumption | simp only [ord_upd] | with_reducible (apply modSess_ord))

theorem execRingQuery_ord {s₀ s : State} {m : Msg} {r : RingQuery} (h₀ : Ordinary s₀ s) :
    OrdN s₀ (execRingQuery m r s) := by
  unfold execRingQuery
  repeat' (first | apply ordN_next | with_reducible assumption | (with_reducible refine peerMessage_ord ?_ (fun _ _ => ?_)) | with_reducible (apply holdMsg_ord) | with_reducible (apply addRingWork_ord) | split)

theorem execRingQblock_ord {s₀ s : State} {m : Msg} {r : RingQuery} (h₀ : Ordinary s₀ s) :
    OrdN s₀ (execRingQblock m r s) := by
  unfold execRingQblock
  repeat' (first | apply ordN_next | with_reducible assumption | simp only [ord_upd] | (with_reducible refine peerMessage_ord ?_ (fun _ _ => ?_)) | with_reducible (apply modSess_ord) | with_reducible (apply addRingWork_ord) | with_reducible (apply startPass_ord) | split)

theorem execRingOutput_ord {s₀ s : State} {m : Msg} {r : RingOutput} (h₀ : Ordinary s₀ s) :
    OrdN s₀ (execRingOutput m r s) := by
  unfold execRingOutput
  repeat' (first | apply ordN_next | with_reducible assumption | (with_reducible refine peerMessage_ord ?_ (fun _ _ => ?_)) | with_reducible (apply touchJobs_ord) | with_reducible (apply addRows_ord) | split)

theorem undoJoin_ord {s₀ s : State} {i : Nat} {w : RingWait} (h₀ : Ordinary s₀ s) :
    Ordinary s₀ (undoJoin i w s) := by
  unfold undoJoin
  repeat' (first | with_reducible assumption | simp only [ord_upd] | with_reducible (apply askPeer_ord) | with_reducible (apply leaveParent_ord) | with_reducible (apply freeEntry_ord) | with_reducible (apply releaseSegments_ord) | with_reducible (apply releaseMap_ord) | with_reducible (apply releasePages_ord) | (refine ord_foldl (fun _ _ _ => ?_) ?_) | split)

theorem ringAnswered_ord {s₀ s : State} {i : Nat} {member : Nat} {code : BitVec 16} {handle : Word} (h₀ : Ordinary s₀ s) :
    Ordinary s₀ (ringAnswered i member code handle s) := by
  unfold ringAnswered
  repeat' (first | with_reducible assumption | simp only [ord_upd] | with_reducible (apply modSess_ord) | with_reducible (apply respond_ord) | with_reducible (apply bump_ord) | with_reducible (apply undoJoin_ord) | split)

end Sys2Proof.Machine
end

