-- ==== Sys2Proof/Laws/OrdMirrors.lean ====
section
/-!
SUPPORT. The operations of Machine/Mirrors.lean are ordinary.
-/
namespace Sys2Proof.Machine

theorem releaseShadow_ord {s₀ s : State} {i : Nat} (h₀ : Ordinary s₀ s) :
    Ordinary s₀ (releaseShadow i s) := by
  unfold releaseShadow
  repeat' (first | with_reducible assumption | with_reducible (apply releaseMap_ord) | with_reducible (apply releasePages_ord))

theorem discardShadow_ord {s₀ s : State} {i : Nat} (h₀ : Ordinary s₀ s) :
    Ordinary s₀ (discardShadow i s) := by
  unfold discardShadow
  repeat' (first | with_reducible assumption | with_reducible (apply bump_ord) | with_reducible (apply freeEntry_ord) | with_reducible (apply releaseShadow_ord))

theorem discardShadows_ord {s₀ s : State} {p : Session → Bool} (h₀ : Ordinary s₀ s) :
    Ordinary s₀ (discardShadows p s) := by
  unfold discardShadows
  repeat' (first | with_reducible assumption | with_reducible (apply discardShadow_ord) | (refine ord_foldl (fun _ _ _ => ?_) ?_))

theorem shadowMap_ord {s₀ s : State} {i : Nat} (h₀ : Ordinary s₀ s) :
    OrdO s₀ (shadowMap i s) := by
  unfold shadowMap
  repeat' (first | with_reducible assumption | simp only [ord_upd] | with_reducible (apply allocMapFrame_ord) | with_reducible (apply modSess_ord) | with_reducible (apply allocRoot_ord) | (refine ordO_foldl (fun _ _ _ => ?_) ?_) | (refine ordO_mapP ?_ (fun _ _ => ?_)) | (refine ordO_bind ?_ (fun _ _ => ?_)) | apply ordO_some | split)

theorem shadowUpdate_ord {s₀ s : State} {i : Nat} {e : Entry} {r : Record} (h₀ : Ordinary s₀ s) :
    OrdO s₀ (shadowUpdate i e r s) := by
  unfold shadowUpdate
  repeat' (first | with_reducible assumption | simp only [ord_upd] | with_reducible (apply setSess_ord) | with_reducible (apply freeEntry_ord) | with_reducible (apply releaseShadow_ord) | with_reducible (apply freeFrame_ord) | with_reducible (apply modSess_ord) | with_reducible (apply shadowMap_ord) | (refine ord_foldl (fun _ _ _ => ?_) ?_) | apply ordO_some | split)

theorem shadowPage_ord {s₀ s : State} {i k : Nat} {e : PageEntry} (h₀ : Ordinary s₀ s) : OrdO s₀ (shadowPage i k e s) := by
  have leaf : ∀ {h : Shape} {t : State}, Ordinary s₀ t → OrdO s₀ (shadowPage.ensureLeafShadow i h k t) := by
    intro h t ht
    unfold shadowPage.ensureLeafShadow
    dsimp only
    split
    · exact ordO_some ht
    · split
      · exact ordO_some (modSess_ord ht)
      · exact ensureLeaf_ord ht
  unfold shadowPage
  dsimp only
  split
  · split
    · exact ordO_some (putPage_ord h₀)
    · exact ordO_map (allocPage_ord h₀) (fun _ h => putPage_ord h)
  · have h₁ : Ordinary s₀ (if (pageAt (sessAt s i) k).tier = 0 then dropRef (pageAt (sessAt s i) k).frame s else s) := by
      split
      · exact dropRef_ord h₀
      · exact h₀
    refine ordO_map ?_ (fun _ h => putPage_ord h)
    split
    · exact ordO_some h₁
    · exact leaf h₁

theorem shadowRows_ord {s₀ s : State} {i : Nat} {k : Nat} {rows : List (Nat × List Byte)} {whole : Bool} (h₀ : Ordinary s₀ s) :
    Ordinary s₀ (shadowRows i k rows whole s) := by
  unfold shadowRows
  repeat' (first | with_reducible assumption | simp only [ord_upd] | with_reducible (apply writeBytes_ord) | with_reducible (apply putPage_ord) | with_reducible (apply turnFrame_ord) | (refine ord_foldRange (fun _ _ _ => ?_) ?_) | (refine ord_foldl (fun _ _ _ => ?_) ?_) | split)

theorem applyItem_ord {s₀ s : State} {i : Nat} {b : MirrorBody} (h₀ : Ordinary s₀ s) :
    OrdO s₀ (applyItem i b s) := by
  unfold applyItem
  repeat' (first | with_reducible assumption | simp only [ord_upd] | with_reducible (apply shadowUpdate_ord) | with_reducible (apply shadowPage_ord) | with_reducible (apply appendRow_ord) | with_reducible (apply shadowRows_ord) | with_reducible (apply modSess_ord) | with_reducible (apply writeBytes_ord) | with_reducible (apply turnFrame_ord) | with_reducible (apply putPage_ord) | (refine ordO_foldl (fun _ _ _ => ?_) ?_) | (refine ordO_map ?_ (fun _ _ => ?_)) | (refine ordO_bind ?_ (fun _ _ => ?_)) | apply ordO_some | split)

theorem mirrorIn_ord {s₀ s : State} {op : BitVec 16} {m : Msg} {it : MirrorItem} (h₀ : Ordinary s₀ s) :
    Ordinary s₀ (mirrorIn op m it s) := by
  unfold mirrorIn
  repeat' (first | with_reducible assumption | simp only [ord_upd] | (with_reducible refine peerMessage_ord ?_ (fun _ _ => ?_)) | with_reducible (apply bump_ord) | with_reducible (apply sendPeer_ord) | with_reducible (apply freeEntry_ord) | with_reducible (apply releaseShadow_ord) | with_reducible (apply applyItem_ord) | (refine ord_some (by assumption) ?_) | split)

theorem execMirrorUpdate_ord {s₀ s : State} {m : Msg} {it : MirrorItem} (h₀ : Ordinary s₀ s) :
    OrdN s₀ (execMirrorUpdate m it s) := by
  unfold execMirrorUpdate
  repeat' (first | apply ordN_next | with_reducible assumption | with_reducible (apply mirrorIn_ord))

theorem execMirrorMap_ord {s₀ s : State} {m : Msg} {it : MirrorItem} (h₀ : Ordinary s₀ s) :
    OrdN s₀ (execMirrorMap m it s) := by
  unfold execMirrorMap
  repeat' (first | apply ordN_next | with_reducible assumption | with_reducible (apply mirrorIn_ord))

theorem execMirrorAppend_ord {s₀ s : State} {m : Msg} {it : MirrorItem} (h₀ : Ordinary s₀ s) :
    OrdN s₀ (execMirrorAppend m it s) := by
  unfold execMirrorAppend
  repeat' (first | apply ordN_next | with_reducible assumption | with_reducible (apply mirrorIn_ord))

theorem execMirrorStepEnd_ord {s₀ s : State} {m : Msg} {it : MirrorItem} (h₀ : Ordinary s₀ s) :
    OrdN s₀ (execMirrorStepEnd m it s) := by
  unfold execMirrorStepEnd
  repeat' (first | apply ordN_next | with_reducible assumption | with_reducible (apply mirrorIn_ord))

theorem execMirrorPage_ord {s₀ s : State} {m : Msg} {it : MirrorItem} (h₀ : Ordinary s₀ s) :
    OrdN s₀ (execMirrorPage m it s) := by
  unfold execMirrorPage
  repeat' (first | apply ordN_next | with_reducible assumption | with_reducible (apply mirrorIn_ord))

theorem releaseHeld_ord {s₀ s : State} {all : Bool} (h₀ : Ordinary s₀ s) :
    Ordinary s₀ (releaseHeld all s) := by
  unfold releaseHeld
  repeat' (first | with_reducible assumption | simp only [ord_upd] | with_reducible (apply sendMsg_ord) | (refine ord_foldl (fun _ _ _ => ?_) ?_))

theorem settlePair_ord {s₀ s : State} {was : List Nat} (h₀ : Ordinary s₀ s) :
    Ordinary s₀ (settlePair was s) := by
  unfold settlePair
  repeat' (first | with_reducible assumption | simp only [ord_upd] | with_reducible (apply mirrorUpdate_ord) | with_reducible (apply modSess_ord) | (refine ord_foldl (fun _ _ _ => ?_) ?_) | split)

theorem mirrorRefused_ord {s₀ s : State} {i : Nat} (h₀ : Ordinary s₀ s) :
    Ordinary s₀ (mirrorRefused i s) := by
  unfold mirrorRefused
  repeat' (first | with_reducible assumption | simp only [ord_upd] | with_reducible (apply bump_ord) | with_reducible (apply modSess_ord) | split)

theorem execMirrorAck_ord {s₀ s : State} {m : Msg} (h₀ : Ordinary s₀ s) :
    OrdN s₀ (execMirrorAck m s) := by
  unfold execMirrorAck
  repeat' (first | apply ordN_next | with_reducible assumption | simp only [ord_upd] | (with_reducible refine peerMessage_ord ?_ (fun _ _ => ?_)) | with_reducible (apply mirrorRefused_ord) | with_reducible (apply releaseHeld_ord) | with_reducible (apply settlePair_ord) | split)

theorem startPair_ord {s₀ s : State} (h₀ : Ordinary s₀ s) :
    Ordinary s₀ (startPair s) := by
  unfold startPair
  repeat' (first | with_reducible assumption | simp only [ord_upd] | with_reducible (apply settlePair_ord) | with_reducible (apply syncSession_ord) | (refine ord_foldl (fun _ _ _ => ?_) ?_) | split)

theorem execPairBeat_ord {s₀ s : State} {m : Msg} (h₀ : Ordinary s₀ s) :
    OrdN s₀ (execPairBeat m s) := by
  unfold execPairBeat
  repeat' (first | apply ordN_next | with_reducible assumption | simp only [ord_upd] | (with_reducible refine peerMessage_ord ?_ (fun _ _ => ?_)) | with_reducible (apply startPair_ord) | split)

theorem execPairBeatSend_ord {s₀ s : State} (h₀ : Ordinary s₀ s) :
    OrdN s₀ (execPairBeatSend s) := by
  unfold execPairBeatSend
  repeat' (first | apply ordN_next | with_reducible assumption | simp only [ord_upd] | with_reducible (apply engine_ord) | with_reducible (apply sendPeer_ord) | split)

theorem stall_ord {s₀ s : State} (h₀ : Ordinary s₀ s) :
    Ordinary s₀ (stall s) := by
  unfold stall
  repeat' (first | with_reducible assumption | simp only [ord_upd] | with_reducible (apply alert_ord))

theorem execPairDeadline_ord {s₀ s : State} (h₀ : Ordinary s₀ s) :
    OrdN s₀ (execPairDeadline s) := by
  unfold execPairDeadline
  repeat' (first | apply ordN_next | with_reducible assumption | with_reducible (apply engine_ord) | with_reducible (apply stall_ord) | split)

theorem drawStack_ord {s₀ s : State} {i : Nat} (h₀ : Ordinary s₀ s) :
    Ordinary s₀ (drawStack i s) := by
  unfold drawStack
  repeat' (first | with_reducible assumption | simp only [ord_upd] | with_reducible (apply draw_ord) | with_reducible (apply modSess_ord) | (refine ord_foldlP (fun _ _ _ => ?_) ?_) | split)

theorem discardRows_ord {s₀ s : State} {i : Nat} (h₀ : Ordinary s₀ s) :
    Ordinary s₀ (discardRows i s) := by
  unfold discardRows
  repeat' (first | with_reducible assumption | simp only [ord_upd] | with_reducible (apply dropRef_ord) | with_reducible (apply putPage_ord) | with_reducible (apply zeroRow_ord) | (refine ord_foldl (fun _ _ _ => ?_) ?_) | split)

theorem reviveShadow_ord {s₀ s : State} {i : Nat} (h₀ : Ordinary s₀ s) :
    Ordinary s₀ (reviveShadow i s) := by
  unfold reviveShadow
  repeat' (first | with_reducible assumption | simp only [ord_upd] | with_reducible (apply modSess_ord) | split)

theorem adoptTimer_ord {s₀ s : State} {i : Nat} (h₀ : Ordinary s₀ s) :
    Ordinary s₀ (adoptTimer i s) := by
  unfold adoptTimer
  repeat' (first | with_reducible assumption | with_reducible (apply modSess_ord))

theorem failover_ord {s₀ s : State} {i : Nat} (h₀ : Ordinary s₀ s) :
    Ordinary s₀ (failover i s) := by
  unfold failover
  repeat' (first | with_reducible assumption | simp only [ord_upd] | dsimp only | with_reducible (apply modSess_ord) | with_reducible (apply drawStack_ord) | with_reducible (apply reviveShadow_ord) | with_reducible (apply raiseInnings_ord) | with_reducible (apply discardRows_ord) | with_reducible (apply bump_ord) | with_reducible (apply enterWaiting_ord) | with_reducible (apply startTtl_ord) | with_reducible (apply adoptTimer_ord) | exact ordO_none | exact ordP_none | apply ordO_some | apply ordP_some | (with_reducible refine ord_getD ?_ ?_) | (refine ord_admit (by assumption) ?_) | (refine ord_pair (by assumption) ?_) | (refine ord_triple (by assumption) ?_) | (refine ord_quad (by assumption) ?_) | (refine ord_some (by assumption) ?_) | (refine ord_someP (by assumption) ?_) | (refine ord_somePair (by assumption) ?_) | split)

theorem takeOver_ord {s₀ s : State} (h₀ : Ordinary s₀ s) :
    Ordinary s₀ (takeOver s) := by
  unfold takeOver
  repeat' (first | with_reducible assumption | simp only [ord_upd] | dsimp only | with_reducible (apply discardShadows_ord) | with_reducible (apply failover_ord) | with_reducible (apply notify_ord) | with_reducible (apply releaseHeld_ord) | with_reducible (apply alert_ord) | with_reducible (apply bump_ord) | (refine ord_foldl (fun _ _ _ => ?_) ?_) | (refine ord_foldlP (fun _ _ _ => ?_) ?_) | (refine ord_foldlT (fun _ _ _ => ?_) ?_) | (refine ord_foldlF (fun _ _ _ => ?_) ?_) | (refine ordO_foldl (fun _ _ _ => ?_) ?_) | (refine ordP_foldl (fun _ _ _ => ?_) ?_) | exact ordO_none | exact ordP_none | apply ordO_some | apply ordP_some | (with_reducible refine ord_getD ?_ ?_) | (refine ord_admit (by assumption) ?_) | (refine ord_pair (by assumption) ?_) | (refine ord_triple (by assumption) ?_) | (refine ord_quad (by assumption) ?_) | (refine ord_some (by assumption) ?_) | (refine ord_someP (by assumption) ?_) | (refine ord_somePair (by assumption) ?_) | split)

theorem partnerFatal_ord {s₀ s : State} (h₀ : Ordinary s₀ s) :
    Ordinary s₀ (partnerFatal s) := by
  unfold partnerFatal
  repeat' (first | with_reducible assumption | simp only [ord_upd] | dsimp only | with_reducible (apply takeOver_ord) | (with_reducible refine ord_getD ?_ ?_) | (refine ord_admit (by assumption) ?_) | (refine ord_pair (by assumption) ?_) | (refine ord_triple (by assumption) ?_) | (refine ord_quad (by assumption) ?_) | (refine ord_some (by assumption) ?_) | (refine ord_someP (by assumption) ?_) | (refine ord_somePair (by assumption) ?_) | split)

theorem execPartnerSignalLoss_ord {s₀ s : State} (h₀ : Ordinary s₀ s) :
    OrdN s₀ (execPartnerSignalLoss s) := by
  unfold execPartnerSignalLoss
  repeat' (first | apply ordN_next | with_reducible assumption | simp only [ord_upd] | dsimp only | with_reducible (apply engine_ord) | with_reducible (apply takeOver_ord) | with_reducible (apply stall_ord) | exact ordO_none | exact ordP_none | apply ordO_some | apply ordP_some | (with_reducible refine ord_getD ?_ ?_) | (refine ord_admit (by assumption) ?_) | (refine ord_pair (by assumption) ?_) | (refine ord_triple (by assumption) ?_) | (refine ord_quad (by assumption) ?_) | (refine ord_some (by assumption) ?_) | (refine ord_someP (by assumption) ?_) | (refine ord_somePair (by assumption) ?_) | split)

theorem execPairTakeover_ord {s₀ s : State} {m : Msg} (h₀ : Ordinary s₀ s) :
    OrdN s₀ (execPairTakeover m s) := by
  unfold execPairTakeover
  repeat' (first | apply ordN_next | with_reducible assumption | simp only [ord_upd] | dsimp only | (with_reducible refine request_ord ?_ (fun _ _ => ?_)) | with_reducible (apply refuse_ord) | with_reducible (apply takeOver_ord) | (with_reducible refine ord_getD ?_ ?_) | (refine ord_admit (by assumption) ?_) | (refine ord_pair (by assumption) ?_) | (refine ord_triple (by assumption) ?_) | (refine ord_quad (by assumption) ?_) | (refine ord_some (by assumption) ?_) | (refine ord_someP (by assumption) ?_) | (refine ord_somePair (by assumption) ?_) | split)

theorem execPairDetach_ord {s₀ s : State} {m : Msg} (h₀ : Ordinary s₀ s) :
    OrdN s₀ (execPairDetach m s) := by
  unfold execPairDetach
  repeat' (first | apply ordN_next | with_reducible assumption | simp only [ord_upd] | dsimp only | (with_reducible refine request_ord ?_ (fun _ _ => ?_)) | with_reducible (apply refuse_ord) | with_reducible (apply discardShadows_ord) | with_reducible (apply releaseHeld_ord) | exact ordO_none | exact ordP_none | apply ordO_some | apply ordP_some | (with_reducible refine ord_getD ?_ ?_) | (refine ord_admit (by assumption) ?_) | (refine ord_pair (by assumption) ?_) | (refine ord_triple (by assumption) ?_) | (refine ord_quad (by assumption) ?_) | (refine ord_some (by assumption) ?_) | (refine ord_someP (by assumption) ?_) | (refine ord_somePair (by assumption) ?_) | split)

end Sys2Proof.Machine
end

