-- ==== Sys2Proof/Laws/OrdMigrations.lean ====
section
/-!
SUPPORT. The operations of Machine/Migrations.lean are ordinary.
-/
namespace Sys2Proof.Machine

theorem openEntry_ord {s₀ s : State} {i : Nat} {node : Nat} {o : MigrateOpen} (h₀ : Ordinary s₀ s) :
    OrdO s₀ (openEntry i node o s) := by
  unfold openEntry
  repeat' (first | with_reducible assumption | simp only [ord_upd] | with_reducible (apply modSess_ord) | with_reducible (apply occupy_ord) | with_reducible (apply ensureLeaf_ord) | with_reducible (apply putPage_ord) | with_reducible (apply allocRoot_ord) | (refine ordO_foldl (fun _ _ _ => ?_) ?_) | (refine ordO_map ?_ (fun _ _ => ?_)) | (refine ordO_bind ?_ (fun _ _ => ?_)))

theorem trialFrames_ord {s₀ s : State} {i : Nat} (h₀ : Ordinary s₀ s) :
    OrdO s₀ (trialFrames i s) := by
  unfold trialFrames
  repeat' (first | with_reducible assumption | simp only [ord_upd] | with_reducible (apply allocPage_ord) | (refine ordO_foldl (fun _ _ _ => ?_) ?_) | (refine ordO_bind ?_ (fun _ _ => ?_)) | apply ordO_some | split)

theorem execMigrateOpen_ord {s₀ s : State} {m : Msg} {o : MigrateOpen} (h₀ : Ordinary s₀ s) :
    OrdN s₀ (execMigrateOpen m o s) := by
  unfold execMigrateOpen
  repeat' (first | apply ordN_next | with_reducible assumption | simp only [ord_upd] | (with_reducible refine request_ord ?_ (fun _ _ => ?_)) | with_reducible (apply openEntry_ord) | with_reducible (apply trialFrames_ord) | with_reducible (apply respond_ord) | with_reducible (apply refuse_ord) | with_reducible (apply bump_ord) | (refine admission_ord ?_ (fun _ _ => ?_)) | apply ord_admit2 | (refine ordO_bind ?_ (fun _ _ => ?_)) | (refine ord_pair (by assumption) ?_) | (refine ord_some (by assumption) ?_) | split)

theorem commitDest_ord {s₀ s : State} {i : Nat} {d : DestMove} (h₀ : Ordinary s₀ s) :
    Ordinary s₀ (commitDest i d s) := by
  unfold commitDest
  repeat' (first | with_reducible assumption | simp only [ord_upd] | with_reducible (apply drawStack_ord) | with_reducible (apply modSess_ord) | with_reducible (apply startTimer_ord) | with_reducible (apply stopTimer_ord) | with_reducible (apply settle_ord) | with_reducible (apply syncSession_ord) | with_reducible (apply bump_ord) | split)

theorem abortDest_ord {s₀ s : State} {i : Nat} (h₀ : Ordinary s₀ s) :
    Ordinary s₀ (abortDest i s) := by
  unfold abortDest
  repeat' (first | with_reducible assumption | simp only [ord_upd] | with_reducible (apply settle_ord) | with_reducible (apply freeEntry_ord) | with_reducible (apply releaseMap_ord) | with_reducible (apply releasePages_ord))

theorem execMigrateCommit_ord {s₀ s : State} {m : Msg} (h₀ : Ordinary s₀ s) :
    OrdN s₀ (execMigrateCommit m s) := by
  unfold execMigrateCommit
  repeat' (first | apply ordN_next | with_reducible assumption | (with_reducible refine request_ord ?_ (fun _ _ => ?_)) | with_reducible (apply refuse_ord) | with_reducible (apply commitDest_ord) | with_reducible (apply deny_ord) | split)

theorem execMigrateAbort_ord {s₀ s : State} {m : Msg} (h₀ : Ordinary s₀ s) :
    OrdN s₀ (execMigrateAbort m s) := by
  unfold execMigrateAbort
  repeat' (first | apply ordN_next | with_reducible assumption | (with_reducible refine request_ord ?_ (fun _ _ => ?_)) | with_reducible (apply refuse_ord) | with_reducible (apply abortDest_ord) | with_reducible (apply deny_ord) | split)

theorem execMigrateResolve_ord {s₀ s : State} {m : Msg} (h₀ : Ordinary s₀ s) :
    OrdN s₀ (execMigrateResolve m s) := by
  unfold execMigrateResolve
  repeat' (first | apply ordN_next | with_reducible assumption | (with_reducible refine request_ord ?_ (fun _ _ => ?_)) | with_reducible (apply refuse_ord) | with_reducible (apply commitDest_ord) | with_reducible (apply abortDest_ord) | with_reducible (apply deny_ord) | split)

theorem migrateQpLost_ord {s₀ s : State} {n : Nat} (h₀ : Ordinary s₀ s) :
    Ordinary s₀ (migrateQpLost n s) := by
  unfold migrateQpLost
  repeat' (first | with_reducible assumption | simp only [ord_upd] | with_reducible (apply modSource_ord) | with_reducible (apply alert_ord) | with_reducible (apply modSess_ord) | (refine ord_foldl (fun _ _ _ => ?_) ?_) | split)

theorem answered_ord {s₀ s : State} {c : WaitFor} {m : Msg} (h₀ : Ordinary s₀ s) :
    Ordinary s₀ (answered c m s) := by
  unfold answered
  repeat' (first | with_reducible assumption | with_reducible (apply ringAnswered_ord) | with_reducible (apply pumpMigrate_ord) | with_reducible (apply modSource_ord) | with_reducible (apply notify_ord) | split)

theorem responseCame_ord {s₀ s : State} {m : Msg} (h₀ : Ordinary s₀ s) :
    Ordinary s₀ (responseCame m s) := by
  unfold responseCame
  repeat' (first | with_reducible assumption | simp only [ord_upd] | with_reducible (apply partnerFatal_ord) | with_reducible (apply bump_ord) | with_reducible (apply answered_ord) | split)

theorem execResponseTimeout_ord {s₀ s : State} {n : Nat} (h₀ : Ordinary s₀ s) :
    OrdN s₀ (execResponseTimeout n s) := by
  unfold execResponseTimeout
  repeat' (first | apply ordN_next | with_reducible assumption | simp only [ord_upd] | with_reducible (apply engine_ord) | with_reducible (apply answered_ord) | with_reducible (apply bump_ord) | split)

end Sys2Proof.Machine
end

