-- ==== Sys2Proof/Laws/OrdQps.lean ====
section
/-!
SUPPORT. The operations of Machine/Qps.lean are ordinary.
-/
namespace Sys2Proof.Machine

theorem qpError_ord {s₀ s : State} {n : Nat} {st : Status} (h₀ : Ordinary s₀ s) :
    Ordinary s₀ (qpError n st s) := by
  unfold qpError
  repeat' (first | with_reducible assumption | simp only [ord_upd] | with_reducible (apply qpToError_ord) | with_reducible (apply ringLost_ord) | with_reducible (apply migrateQpLost_ord) | split)

theorem execQpCreate_ord {s₀ s : State} {m : Msg} (h₀ : Ordinary s₀ s) :
    OrdN s₀ (execQpCreate m s) := by
  unfold execQpCreate
  repeat' (first | apply ordN_next | with_reducible assumption | simp only [ord_upd] | (with_reducible refine request_ord ?_ (fun _ _ => ?_)) | with_reducible (apply holdMsg_ord) | with_reducible (apply refuse_ord) | with_reducible (apply respond_ord) | with_reducible (apply setQp_ord) | split)

theorem execQpModify_ord {s₀ s : State} {m : Msg} (h₀ : Ordinary s₀ s) :
    OrdN s₀ (execQpModify m s) := by
  unfold execQpModify
  repeat' (first | apply ordN_next | with_reducible assumption | simp only [ord_upd] | (with_reducible refine request_ord ?_ (fun _ _ => ?_)) | with_reducible (apply refuse_ord) | with_reducible (apply setQp_ord) | with_reducible (apply settle_ord) | with_reducible (apply qpError_ord) | split)

theorem execQpDestroy_ord {s₀ s : State} {m : Msg} (h₀ : Ordinary s₀ s) :
    OrdN s₀ (execQpDestroy m s) := by
  unfold execQpDestroy
  repeat' (first | apply ordN_next | with_reducible assumption | simp only [ord_upd] | (with_reducible refine request_ord ?_ (fun _ _ => ?_)) | with_reducible (apply refuse_ord) | split)

theorem execQpQuery_ord {s₀ s : State} {m : Msg} (h₀ : Ordinary s₀ s) :
    OrdN s₀ (execQpQuery m s) := by
  unfold execQpQuery
  repeat' (first | apply ordN_next | with_reducible assumption | (with_reducible refine request_ord ?_ (fun _ _ => ?_)) | with_reducible (apply respond_ord))

theorem execQpKeySet_ord {s₀ s : State} {m : Msg} (h₀ : Ordinary s₀ s) :
    OrdN s₀ (execQpKeySet m s) := by
  unfold execQpKeySet
  repeat' (first | apply ordN_next | with_reducible assumption | simp only [ord_upd] | (with_reducible refine request_ord ?_ (fun _ _ => ?_)) | with_reducible (apply refuse_ord) | with_reducible (apply draw_ord) | with_reducible (apply respond_ord) | with_reducible (apply setQp_ord) | split)

theorem execPeerSalt_ord {s₀ s : State} {m : Msg} (h₀ : Ordinary s₀ s) :
    OrdN s₀ (execPeerSalt m s) := by
  unfold execPeerSalt
  repeat' (first | apply ordN_next | with_reducible assumption | simp only [ord_upd] | (with_reducible refine peerMessage_ord ?_ (fun _ _ => ?_)) | with_reducible (apply flushQp_ord) | with_reducible (apply setQp_ord))

theorem readyPeer_ord {s₀ s : State} {n : Nat} (h₀ : Ordinary s₀ s) :
    Ordinary s₀ (readyPeer n s) := by
  unfold readyPeer
  repeat' (first | with_reducible assumption | simp only [ord_upd] | with_reducible (apply draw_ord) | with_reducible (apply setQp_ord) | with_reducible (apply sendPeer_ord) | split)

theorem readyPeers_ord {s₀ s : State} (h₀ : Ordinary s₀ s) :
    Ordinary s₀ (readyPeers s) := by
  unfold readyPeers
  repeat' (first | with_reducible assumption | with_reducible (apply readyPeer_ord) | (refine ord_foldl (fun _ _ _ => ?_) ?_) | split)

end Sys2Proof.Machine
end

