-- ==== Sys2Proof/Laws/OrdPackets.lean ====
section
/-!
SUPPORT. The operations of Machine/Packets.lean are ordinary.
-/
namespace Sys2Proof.Machine

theorem meterJudge_ord {s₀ s : State} {k : Nat} {c : Nat} {lf : Nat} (h₀ : Ordinary s₀ s) :
    Ordinary s₀ (meterJudge s k c lf).2 := by
  unfold meterJudge
  repeat' (first | with_reducible assumption | simp only [ord_upd] | with_reducible (apply setPort_ord) | split)

theorem meterKeep_ord {s₀ s : State} {k : Nat} {p : Packet} (h₀ : Ordinary s₀ s) :
    Ordinary s₀ (meterKeep k p s).2 := by
  unfold meterKeep
  repeat' (first | with_reducible assumption | simp only [ord_upd] | with_reducible (apply meterJudge_ord) | with_reducible (apply bump_ord) | (refine ord_pair (by assumption) ?_) | split)

theorem pktEvent_ord {s₀ s : State} {e : PmuEvent} {n : Nat} {enc : Bool} (h₀ : Ordinary s₀ s) :
    Ordinary s₀ (pktEvent e n enc s) := by
  unfold pktEvent
  repeat' (first | with_reducible assumption | simp only [ord_upd] | dsimp only | with_reducible (apply pmu_ord) | (with_reducible refine ord_getD ?_ ?_) | (refine ord_admit (by assumption) ?_) | (refine ord_pair (by assumption) ?_) | (refine ord_triple (by assumption) ?_) | (refine ord_quad (by assumption) ?_) | (refine ord_some (by assumption) ?_) | (refine ord_someP (by assumption) ?_) | (refine ord_somePair (by assumption) ?_) | split)

theorem sendOut_ord {s₀ s : State} {k : Nat} {n : Nat} {p : Packet} (h₀ : Ordinary s₀ s) :
    Ordinary s₀ (sendOut k n p s) := by
  unfold sendOut
  repeat' (first | with_reducible assumption | with_reducible (apply pktEvent_ord) | with_reducible (apply bump_ord) | with_reducible (apply emit_ord))

theorem sendAck_ord {s₀ s : State} {n : Nat} (h₀ : Ordinary s₀ s) :
    Ordinary s₀ (sendAck n s) := by
  unfold sendAck
  repeat' (first | with_reducible assumption | simp only [ord_upd] | with_reducible (apply setQp_ord) | with_reducible (apply sendOut_ord) | with_reducible (apply bump_ord) | split)

theorem repeatPacket_ord {s₀ s : State} {n : Nat} {u : Unacked} (h₀ : Ordinary s₀ s) :
    Ordinary s₀ (repeatPacket n u s) := by
  unfold repeatPacket
  repeat' (first | with_reducible assumption | simp only [ord_upd] | with_reducible (apply pktEvent_ord) | with_reducible (apply bump_ord) | with_reducible (apply queuePacket_ord))

theorem fastRepeat_ord {s₀ s : State} {n : Nat} {need : Nat} {bitmap : List Nat} {base : Nat} (h₀ : Ordinary s₀ s) :
    Ordinary s₀ (fastRepeat n need bitmap base s) := by
  unfold fastRepeat
  repeat' (first | with_reducible assumption | simp only [ord_upd] | with_reducible (apply repeatPacket_ord) | with_reducible (apply bump_ord) | with_reducible (apply setQp_ord) | (refine ord_foldl (fun _ _ _ => ?_) ?_) | split)

theorem retireAcked_ord {s₀ s : State} {n : Nat} {ack : Nat} {bitmap : List Byte} (h₀ : Ordinary s₀ s) :
    Ordinary s₀ (retireAcked n ack bitmap s) := by
  unfold retireAcked
  repeat' (first | with_reducible assumption | simp only [ord_upd] | with_reducible (apply setQp_ord) | with_reducible (apply wrAcked_ord) | with_reducible (apply flushQp_ord) | with_reducible (apply fastRepeat_ord) | (refine ord_foldl (fun _ _ _ => ?_) ?_) | split)

theorem takeAck_ord {s₀ s : State} {n : Nat} {ack : Nat} {bitmap : List Byte} (h₀ : Ordinary s₀ s) :
    Ordinary s₀ (takeAck n ack bitmap s) := by
  unfold takeAck
  repeat' (first | with_reducible assumption | simp only [ord_upd] | with_reducible (apply retireAcked_ord) | with_reducible (apply draw_ord) | with_reducible (apply bump_ord) | split)

theorem deliverMessage_ord {s₀ s : State} {m : Msg} (h₀ : Ordinary s₀ s) :
    Ordinary s₀ (deliverMessage m s) := by
  unfold deliverMessage
  repeat' (first | with_reducible assumption | simp only [ord_upd] | with_reducible (apply responseCame_ord) | with_reducible (apply bump_ord) | with_reducible (apply refuse_ord) | split)

theorem refuseOpen_ord {s₀ s : State} {m : Msg} {st : Status} (h₀ : Ordinary s₀ s) :
    Ordinary s₀ (refuseOpen m st s) := by
  unfold refuseOpen
  repeat' (first | with_reducible assumption | simp only [ord_upd] | with_reducible (apply refuse_ord) | split)

theorem takeSegment_ord {s₀ s : State} {n : Nat} {o : Outgoing} (h₀ : Ordinary s₀ s) :
    Ordinary s₀ (takeSegment n o s) := by
  unfold takeSegment
  repeat' (first | with_reducible assumption | simp only [ord_upd] | with_reducible (apply refuseOpen_ord) | with_reducible (apply setQp_ord) | with_reducible (apply deliverMessage_ord) | split)

theorem fetchCame_ord {s₀ s : State} {n : Nat} {o : Outgoing} (h₀ : Ordinary s₀ s) :
    Ordinary s₀ (fetchCame n o s) := by
  unfold fetchCame
  repeat' (first | with_reducible assumption | with_reducible (apply pumpAll_ord) | with_reducible (apply tileCame_ord) | with_reducible (apply bump_ord) | split)

theorem deliver_ord {s₀ s : State} {n : Nat} {o : Outgoing} (h₀ : Ordinary s₀ s) :
    Ordinary s₀ (deliver n o s) := by
  unfold deliver
  repeat' (first | with_reducible assumption | simp only [ord_upd] | with_reducible (apply takeSegment_ord) | with_reducible (apply fetchCame_ord) | split)

theorem deliverRun_ord {s₀ t : State} {n : Nat} {x0 : Nat} (h₀ : Ordinary s₀ t) :
    Ordinary s₀ (deliverRun n x0 t) := by
  induction x0 generalizing t with
  | zero => (try simp only [deliverRun]); repeat' (first | with_reducible assumption | with_reducible (apply deliver_ord) | with_reducible (apply setQp_ord) | exact ordO_none)
  | succ n ih =>
    simp only [deliverRun]
    repeat' (first | with_reducible assumption | with_reducible (apply ih) | with_reducible (apply deliver_ord) | with_reducible (apply setQp_ord) | split)

theorem sequence_ord {s₀ s : State} {k : Nat} {n : Nat} {p : Packet} {payload : List Byte} (h₀ : Ordinary s₀ s) :
    Ordinary s₀ (sequence k n p payload s) := by
  unfold sequence
  repeat' (first | with_reducible assumption | simp only [ord_upd] | with_reducible (apply sendAck_ord) | with_reducible (apply bump_ord) | with_reducible (apply deliverRun_ord) | with_reducible (apply setQp_ord) | split)

theorem localPacket_ord {s₀ s : State} {k : Nat} {p : Packet} (h₀ : Ordinary s₀ s) :
    Ordinary s₀ (localPacket k p s) := by
  unfold localPacket
  repeat' (first | with_reducible assumption | simp only [ord_upd] | dsimp only | with_reducible (apply bump_ord) | with_reducible (apply pktEvent_ord) | with_reducible (apply takeAck_ord) | with_reducible (apply sequence_ord) | exact ordO_none | exact ordP_none | apply ordO_some | apply ordP_some | (with_reducible refine ord_getD ?_ ?_) | (refine ord_admit (by assumption) ?_) | (refine ord_pair (by assumption) ?_) | (refine ord_triple (by assumption) ?_) | (refine ord_quad (by assumption) ?_) | (refine ord_some (by assumption) ?_) | (refine ord_someP (by assumption) ?_) | (refine ord_somePair (by assumption) ?_) | split)

theorem holdBuffer_ord {s₀ s : State} {k : Nat} {p : Packet} (h₀ : Ordinary s₀ s) :
    Ordinary s₀ (holdBuffer k p s) := by
  unfold holdBuffer
  repeat' (first | with_reducible assumption | simp only [ord_upd] | dsimp only | with_reducible (apply setPort_ord) | (with_reducible refine ord_getD ?_ ?_) | (refine ord_admit (by assumption) ?_) | (refine ord_pair (by assumption) ?_) | (refine ord_triple (by assumption) ?_) | (refine ord_quad (by assumption) ?_) | (refine ord_some (by assumption) ?_) | (refine ord_someP (by assumption) ?_) | (refine ord_somePair (by assumption) ?_) | split)

theorem freeBuffer_ord {s₀ s : State} {k : Nat} {c : Nat} (h₀ : Ordinary s₀ s) :
    Ordinary s₀ (freeBuffer k c s) := by
  unfold freeBuffer
  repeat' (first | with_reducible assumption | simp only [ord_upd] | dsimp only | with_reducible (apply setPort_ord) | (with_reducible refine ord_getD ?_ ?_) | (refine ord_admit (by assumption) ?_) | (refine ord_pair (by assumption) ?_) | (refine ord_triple (by assumption) ?_) | (refine ord_quad (by assumption) ?_) | (refine ord_some (by assumption) ?_) | (refine ord_someP (by assumption) ?_) | (refine ord_somePair (by assumption) ?_) | split)

theorem forwardPacket_ord {s₀ s : State} {k : Nat} {p : Packet} (h₀ : Ordinary s₀ s) :
    Ordinary s₀ (forwardPacket k p s) := by
  unfold forwardPacket
  repeat' (first | with_reducible assumption | simp only [ord_upd] | dsimp only | with_reducible (apply pmu_ord) | with_reducible (apply bump_ord) | with_reducible (apply freeBuffer_ord) | with_reducible (apply sendOut_ord) | with_reducible (apply joinQueue_ord) | exact ordO_none | exact ordP_none | apply ordO_some | apply ordP_some | (with_reducible refine ord_getD ?_ ?_) | (refine ord_admit (by assumption) ?_) | (refine ord_pair (by assumption) ?_) | (refine ord_triple (by assumption) ?_) | (refine ord_quad (by assumption) ?_) | (refine ord_some (by assumption) ?_) | (refine ord_someP (by assumption) ?_) | (refine ord_somePair (by assumption) ?_) | split)

theorem arrive_ord {s₀ s : State} {k : Nat} {p : Packet} (h₀ : Ordinary s₀ s) :
    Ordinary s₀ (arrive k p s) := by
  unfold arrive
  repeat' (first | with_reducible assumption | simp only [ord_upd] | dsimp only | with_reducible (apply bump_ord) | with_reducible (apply holdBuffer_ord) | with_reducible (apply meterKeep_ord) | with_reducible (apply localPacket_ord) | with_reducible (apply forwardPacket_ord) | (with_reducible refine ord_getD ?_ ?_) | (refine ord_admit (by assumption) ?_) | (refine ord_pair (by assumption) ?_) | (refine ord_triple (by assumption) ?_) | (refine ord_quad (by assumption) ?_) | (refine ord_some (by assumption) ?_) | (refine ord_someP (by assumption) ?_) | (refine ord_somePair (by assumption) ?_) | split)

theorem execPacketRx_ord {s₀ s : State} {k : Nat} {p : Packet} (h₀ : Ordinary s₀ s) :
    OrdN s₀ (execPacketRx k p s) := by
  unfold execPacketRx
  repeat' (first | apply ordN_next | with_reducible assumption | simp only [ord_upd] | dsimp only | with_reducible (apply arrive_ord) | (with_reducible refine ord_getD ?_ ?_) | (refine ord_admit (by assumption) ?_) | (refine ord_pair (by assumption) ?_) | (refine ord_triple (by assumption) ?_) | (refine ord_quad (by assumption) ?_) | (refine ord_some (by assumption) ?_) | (refine ord_someP (by assumption) ?_) | (refine ord_somePair (by assumption) ?_) | split)

theorem execAckRx_ord {s₀ s : State} {k : Nat} {p : Packet} (h₀ : Ordinary s₀ s) :
    OrdN s₀ (execAckRx k p s) := by
  unfold execAckRx
  repeat' (first | apply ordN_next | with_reducible assumption | simp only [ord_upd] | dsimp only | with_reducible (apply arrive_ord) | (with_reducible refine ord_getD ?_ ?_) | (refine ord_admit (by assumption) ?_) | (refine ord_pair (by assumption) ?_) | (refine ord_triple (by assumption) ?_) | (refine ord_quad (by assumption) ?_) | (refine ord_some (by assumption) ?_) | (refine ord_someP (by assumption) ?_) | (refine ord_somePair (by assumption) ?_) | split)

theorem execAckDelayExpiry_ord {s₀ s : State} {n : Nat} (h₀ : Ordinary s₀ s) :
    OrdN s₀ (execAckDelayExpiry n s) := by
  unfold execAckDelayExpiry
  repeat' (first | apply ordN_next | with_reducible assumption | simp only [ord_upd] | dsimp only | with_reducible (apply sendAck_ord) | exact ordO_none | exact ordP_none | apply ordO_some | apply ordP_some | (with_reducible refine ord_getD ?_ ?_) | (refine ord_admit (by assumption) ?_) | (refine ord_pair (by assumption) ?_) | (refine ord_triple (by assumption) ?_) | (refine ord_quad (by assumption) ?_) | (refine ord_some (by assumption) ?_) | (refine ord_someP (by assumption) ?_) | (refine ord_somePair (by assumption) ?_) | split)

theorem execRepeatTimeout_ord {s₀ s : State} {n : Nat} (h₀ : Ordinary s₀ s) :
    OrdN s₀ (execRepeatTimeout n s) := by
  unfold execRepeatTimeout
  repeat' (first | apply ordN_next | with_reducible assumption | simp only [ord_upd] | dsimp only | with_reducible (apply settle_ord) | with_reducible (apply qpError_ord) | with_reducible (apply repeatPacket_ord) | with_reducible (apply bump_ord) | with_reducible (apply setQp_ord) | (refine ord_foldl (fun _ _ _ => ?_) ?_) | (refine ord_foldlP (fun _ _ _ => ?_) ?_) | (refine ord_foldlT (fun _ _ _ => ?_) ?_) | (refine ord_foldlF (fun _ _ _ => ?_) ?_) | (refine ordO_foldl (fun _ _ _ => ?_) ?_) | (refine ordP_foldl (fun _ _ _ => ?_) ?_) | exact ordO_none | exact ordP_none | apply ordO_some | apply ordP_some | (with_reducible refine ord_getD ?_ ?_) | (refine ord_admit (by assumption) ?_) | (refine ord_pair (by assumption) ?_) | (refine ord_triple (by assumption) ?_) | (refine ord_quad (by assumption) ?_) | (refine ord_some (by assumption) ?_) | (refine ord_someP (by assumption) ?_) | (refine ord_somePair (by assumption) ?_) | split)

end Sys2Proof.Machine
end

