-- ==== Sys2Proof/Laws/OrdPorts.lean ====
section
/-!
SUPPORT. The operations of Machine/Ports.lean are ordinary.
-/
namespace Sys2Proof.Machine

theorem portTo_ord {s₀ s : State} {k : Nat} {st : LinkState} (h₀ : Ordinary s₀ s) :
    Ordinary s₀ (portTo k st s) := by
  unfold portTo
  repeat' (first | with_reducible assumption | simp only [ord_upd] | with_reducible (apply setPort_ord))

theorem enterCredit_ord {s₀ s : State} {k : Nat} (h₀ : Ordinary s₀ s) :
    Ordinary s₀ (enterCredit k s) := by
  unfold enterCredit
  repeat' (first | with_reducible assumption | simp only [ord_upd] | with_reducible (apply setPort_ord))

theorem execPortSignalDetect_ord {s₀ s : State} {k : Nat} (h₀ : Ordinary s₀ s) :
    OrdN s₀ (execPortSignalDetect k s) := by
  unfold execPortSignalDetect
  repeat' (first | apply ordN_next | with_reducible assumption | simp only [ord_upd] | with_reducible (apply setPort_ord) | split)

theorem execPortTrainDone_ord {s₀ s : State} {k : Nat} (h₀ : Ordinary s₀ s) :
    OrdN s₀ (execPortTrainDone k s) := by
  unfold execPortTrainDone
  repeat' (first | apply ordN_next | with_reducible assumption | with_reducible (apply portTo_ord) | split)

theorem execPortLock_ord {s₀ s : State} {k : Nat} (h₀ : Ordinary s₀ s) :
    OrdN s₀ (execPortLock k s) := by
  unfold execPortLock
  repeat' (first | apply ordN_next | with_reducible assumption | with_reducible (apply portTo_ord) | with_reducible (apply enterCredit_ord) | split)

theorem execLanesAligned_ord {s₀ s : State} {skew : Nat} (h₀ : Ordinary s₀ s) :
    OrdN s₀ (execLanesAligned skew s) := by
  unfold execLanesAligned
  repeat' (first | apply ordN_next | with_reducible assumption | with_reducible (apply enterCredit_ord) | split)

theorem execPortUp_ord {s₀ s : State} {k : Nat} (h₀ : Ordinary s₀ s) :
    OrdN s₀ (execPortUp k s) := by
  unfold execPortUp
  repeat' (first | apply ordN_next | with_reducible assumption | simp only [ord_upd] | with_reducible (apply portTo_ord) | split)

theorem portDown_ord {s₀ s : State} {k : Nat} (h₀ : Ordinary s₀ s) :
    Ordinary s₀ (portDown k s) := by
  unfold portDown
  repeat' (first | with_reducible assumption | simp only [ord_upd] | with_reducible (apply setPort_ord) | with_reducible (apply bump_ord) | with_reducible (apply settle_ord) | with_reducible (apply ringLost_ord) | split)

theorem execPortDown_ord {s₀ s : State} {k : Nat} (h₀ : Ordinary s₀ s) :
    OrdN s₀ (execPortDown k s) := by
  unfold execPortDown
  repeat' (first | apply ordN_next | with_reducible assumption | with_reducible (apply portDown_ord))

theorem execCodewordUncorrectable_ord {s₀ s : State} {k : Nat} {lane : Nat} (h₀ : Ordinary s₀ s) :
    OrdN s₀ (execCodewordUncorrectable k lane s) := by
  unfold execCodewordUncorrectable
  repeat' (first | apply ordN_next | with_reducible assumption | simp only [ord_upd] | with_reducible (apply bump_ord) | with_reducible (apply setPort_ord) | with_reducible (apply portDown_ord) | split)

theorem execCreditRx_ord {s₀ s : State} {k : Nat} {counts : List Nat} (h₀ : Ordinary s₀ s) :
    OrdN s₀ (execCreditRx k counts s) := by
  unfold execCreditRx
  repeat' (first | apply ordN_next | with_reducible assumption | simp only [ord_upd] | with_reducible (apply setPort_ord) | split)

theorem freeBuffers_ord {s₀ s : State} {k : Nat} {c : Nat} (h₀ : Ordinary s₀ s) :
    Ordinary s₀ (freeBuffers k c s) := by
  unfold freeBuffers
  repeat' (first | with_reducible assumption | simp only [ord_upd] | with_reducible (apply setPort_ord) | split)

theorem execCreditSend_ord {s₀ s : State} {k : Nat} (h₀ : Ordinary s₀ s) :
    OrdN s₀ (execCreditSend k s) := by
  unfold execCreditSend
  repeat' (first | apply ordN_next | with_reducible assumption | simp only [ord_upd] | with_reducible (apply freeBuffers_ord) | with_reducible (apply emit_ord) | with_reducible (apply setPort_ord) | (refine ord_foldRange (fun _ _ _ => ?_) ?_) | split)

theorem stepTime_fol {s₀ s : State} {t : Nat} (h₀ : Follows s₀ s) :
    Follows s₀ (stepTime t s) := by
  unfold stepTime
  repeat' (first | with_reducible assumption | simp only [fol_upd])

theorem makeValid_fol {s₀ s : State} {t : Nat} (h₀ : Follows s₀ s) :
    Follows s₀ (makeValid t s) := by
  unfold makeValid
  repeat' (first | with_reducible assumption | simp only [fol_upd] | with_reducible (apply stepTime_fol) | (with_reducible refine fol_ord (readyPeers_ord (Ordinary.refl _)) ?_))

theorem execTimeBlockRx_fol {s₀ s : State} {sent : Nat} (h₀ : Follows s₀ s) :
    FolN s₀ (execTimeBlockRx sent s) := by
  unfold execTimeBlockRx
  repeat' (first | apply folN_next | with_reducible assumption | simp only [fol_upd] | with_reducible (apply makeValid_fol) | (with_reducible refine fol_ord (bump_ord (Ordinary.refl _)) ?_) | with_reducible (apply stepTime_fol) | split)

theorem execDelayReqSend_fol {s₀ s : State} (h₀ : Follows s₀ s) : FolN s₀ (execDelayReqSend s) := by
  unfold execDelayReqSend
  refine folN_next ?_
  split
  · exact h₀
  · exact ⟨h₀.queue, h₀.sent.trans (List.prefix_append ..), h₀.drawn, h₀.memory⟩

theorem execDelayRspRx_fol {s₀ s : State} {got : Nat} (h₀ : Follows s₀ s) :
    FolN s₀ (execDelayRspRx got s) := by
  unfold execDelayRspRx
  repeat' (first | apply folN_next | with_reducible assumption | simp only [fol_upd] | with_reducible (apply makeValid_fol) | split)

theorem execTimeHoldover_fol {s₀ s : State} (h₀ : Follows s₀ s) :
    FolN s₀ (execTimeHoldover s) := by
  unfold execTimeHoldover
  repeat' (first | apply folN_next | with_reducible assumption | simp only [fol_upd] | split)

theorem execTimepulse_fol {s₀ s : State} (h₀ : Follows s₀ s) :
    FolN s₀ (execTimepulse s) := by
  unfold execTimepulse
  repeat' (first | apply folN_next | with_reducible assumption | simp only [fol_upd] | split)

end Sys2Proof.Machine
end

