-- ==== Sys2Proof/Laws/OrdEgress.lean ====
section
/-!
SUPPORT. The operations of Machine/Egress.lean are ordinary.
-/
namespace Sys2Proof.Machine

theorem countHolds_ord {s₀ s : State} {k : Nat} {taken : Option Nat} (h₀ : Ordinary s₀ s) :
    Ordinary s₀ (countHolds k taken s) := by
  unfold countHolds
  repeat' (first | with_reducible assumption | simp only [ord_upd] | with_reducible (apply setPort_ord) | with_reducible (apply bump_ord) | (refine ord_foldRange (fun _ _ _ => ?_) ?_) | split)

theorem sendHead_ord {s₀ s : State} {k : Nat} {c : Nat} (h₀ : Ordinary s₀ s) :
    Ordinary s₀ (sendHead k c s) := by
  unfold sendHead
  repeat' (first | with_reducible assumption | simp only [ord_upd] | with_reducible (apply setPort_ord) | with_reducible (apply freeBuffer_ord) | with_reducible (apply bump_ord) | with_reducible (apply sendOut_ord) | split)

theorem execEgressPick_ord {s₀ s : State} {k : Nat} (h₀ : Ordinary s₀ s) :
    OrdN s₀ (execEgressPick k s) := by
  unfold execEgressPick
  repeat' (first | apply ordN_next | with_reducible assumption | simp only [ord_upd] | with_reducible (apply settle_ord) | with_reducible (apply qpError_ord) | with_reducible (apply countHolds_ord) | with_reducible (apply setPort_ord) | with_reducible (apply sendHead_ord) | (refine ord_foldl (fun _ _ _ => ?_) ?_) | split)

theorem execGateSwitch_ord {s₀ s : State} {k : Nat} (h₀ : Ordinary s₀ s) :
    OrdN s₀ (execGateSwitch k s) := by
  unfold execGateSwitch
  repeat' (first | apply ordN_next | with_reducible assumption | simp only [ord_upd] | with_reducible (apply bump_ord) | with_reducible (apply setPort_ord) | split)

theorem execGateInterval_ord {s₀ s : State} {k : Nat} (h₀ : Ordinary s₀ s) :
    OrdN s₀ (execGateInterval k s) := by
  unfold execGateInterval
  repeat' (first | apply ordN_next | with_reducible assumption | simp only [ord_upd] | with_reducible (apply setPort_ord) | split)

theorem flushSamples_ord {s₀ s : State} (h₀ : Ordinary s₀ s) :
    Ordinary s₀ (flushSamples s) := by
  unfold flushSamples
  repeat' (first | with_reducible assumption | simp only [ord_upd] | dsimp only | with_reducible (apply bumpBy_ord) | with_reducible (apply sendTile_ord) | with_reducible (apply pmu_ord) | exact ordO_none | exact ordP_none | apply ordO_some | apply ordP_some | (with_reducible refine ord_getD ?_ ?_) | (refine ord_admit (by assumption) ?_) | (refine ord_pair (by assumption) ?_) | (refine ord_triple (by assumption) ?_) | (refine ord_quad (by assumption) ?_) | (refine ord_some (by assumption) ?_) | (refine ord_someP (by assumption) ?_) | (refine ord_somePair (by assumption) ?_) | split)

theorem takeSample_ord {s₀ s : State} {at_ : Nat} {n : Nat} (h₀ : Ordinary s₀ s) :
    Ordinary s₀ (takeSample at_ n s) := by
  unfold takeSample
  repeat' (first | with_reducible assumption | simp only [ord_upd] | with_reducible (apply setPort_ord) | with_reducible (apply flushSamples_ord) | split)

theorem execQueueSample_ord {s₀ s : State} (h₀ : Ordinary s₀ s) :
    OrdN s₀ (execQueueSample s) := by
  unfold execQueueSample
  repeat' (first | apply ordN_next | with_reducible assumption | simp only [ord_upd] | with_reducible (apply engine_ord) | with_reducible (apply takeSample_ord) | (refine ord_foldl (fun _ _ _ => ?_) ?_) | split)

theorem execSampleFlush_ord {s₀ s : State} (h₀ : Ordinary s₀ s) :
    OrdN s₀ (execSampleFlush s) := by
  unfold execSampleFlush
  repeat' (first | apply ordN_next | with_reducible assumption | with_reducible (apply engine_ord) | with_reducible (apply flushSamples_ord) | split)

end Sys2Proof.Machine
end

