-- ==== Sys2Proof/Laws/OrdDictWrite.lean ====
section
/-!
SUPPORT. The operations of Machine/DictWrite.lean are ordinary.
-/
namespace Sys2Proof.Machine

theorem setEntry_fol {s₀ s : State} {index : Nat} {sub : Nat} {v : Nat} (h₀ : Follows s₀ s) :
    Follows s₀ (setEntry index sub v s) := by
  unfold setEntry
  repeat' (first | with_reducible assumption | simp only [fol_upd])

theorem writeShares_fol {s₀ s : State} {p sub v : Nat} (h₀ : Follows s₀ s) : Follows s₀ (writeShares p sub v s).2 := by
  unfold writeShares
  refine setEntry_fol (fol_foldl (fun t q h => ?_) h₀)
  split
  · exact setEntry_fol h
  · exact h

theorem writeBound_fol {s₀ s : State} {index : Nat} {sub : Nat} {v : Nat} (h₀ : Follows s₀ s) :
    Follows s₀ (writeBound index sub v s).2 := by
  unfold writeBound
  repeat' (first | with_reducible assumption | simp only [fol_upd] | with_reducible (apply setEntry_fol) | split)

theorem refillShaper_ord {s₀ s : State} {k : Nat} {c : Nat} (h₀ : Ordinary s₀ s) :
    Ordinary s₀ (refillShaper k c s) := by
  unfold refillShaper
  repeat' (first | with_reducible assumption | simp only [ord_upd] | with_reducible (apply setPort_ord))

theorem refillMeter_ord {s₀ s : State} {k : Nat} {c : Nat} (h₀ : Ordinary s₀ s) :
    Ordinary s₀ (refillMeter k c s) := by
  unfold refillMeter
  repeat' (first | with_reducible assumption | simp only [ord_upd] | with_reducible (apply setPort_ord))

theorem writeMeter_fol {s₀ s : State} {which : Nat} {k : Nat} {c : Nat} {v : Nat} (h₀ : Follows s₀ s) :
    Follows s₀ (writeMeter which k c v s).2 := by
  unfold writeMeter
  repeat' (first | with_reducible assumption | simp only [fol_upd] | with_reducible (apply setEntry_fol) | (with_reducible refine fol_ord (refillMeter_ord (Ordinary.refl _)) ?_) | split)

theorem writeGateEnable_fol {s₀ s : State} {k : Nat} {v : Nat} (h₀ : Follows s₀ s) :
    Follows s₀ (writeGateEnable k v s) := by
  unfold writeGateEnable
  repeat' (first | with_reducible assumption | simp only [fol_upd] | with_reducible (apply setEntry_fol) | (with_reducible refine fol_ord (setPort_ord (Ordinary.refl _)) ?_) | split)

theorem commitGates_ord {s₀ s : State} {k : Nat} (h₀ : Ordinary s₀ s) :
    Ordinary s₀ (commitGates k s) := by
  unfold commitGates
  repeat' (first | with_reducible assumption | simp only [ord_upd] | with_reducible (apply setPort_ord))

theorem writeSampling_fol {s₀ s : State} {v : Nat} (h₀ : Follows s₀ s) :
    Follows s₀ (writeSampling v s).2 := by
  unfold writeSampling
  repeat' (first | with_reducible assumption | simp only [fol_upd] | (with_reducible refine fol_ord (flushSamples_ord (Ordinary.refl _)) ?_) | with_reducible (apply setEntry_fol) | split)

theorem writeSetting_fol {s₀ s : State} {index sub v : Nat} (h₀ : Follows s₀ s) : Follows s₀ (writeSetting index sub v s).2 := by
  unfold writeSetting
  dsimp only
  repeat' with_reducible refine fol_ite ?_ ?_
  all_goals (try dsimp only)
  all_goals first
    | with_reducible exact setEntry_fol h₀
    | with_reducible exact writeShares_fol h₀
    | with_reducible exact writeBound_fol h₀
    | with_reducible exact writeMeter_fol h₀
    | with_reducible exact writeGateEnable_fol h₀
    | with_reducible exact writeSampling_fol h₀
    | exact fol_ord (settle_ord (ringLost_ord (Ordinary.refl (setEntry index sub v s)))) (setEntry_fol h₀)
    | exact fol_ord (refillShaper_ord (Ordinary.refl (setEntry index sub v s))) (setEntry_fol h₀)

theorem enterRun_fol {s₀ s : State} (h₀ : Follows s₀ s) : Follows s₀ (enterRun s) := by
  unfold enterRun
  refine fol_ord (readyPeers_ord (Ordinary.refl _)) ?_
  have h : Follows s₀ (foldRange 5 (fun t k => if portUsed t k && portEnableVal t k == 1 then t else portDown k t)
      (keepOwnWays { s with mode := .run, dict.run := s.dict.vals })) := by
    refine fol_foldl (fun t k h => ?_) h₀
    split
    · exact h
    · exact fol_ord (portDown_ord (Ordinary.refl _)) h
  generalize foldRange 5 _ _ = u at h ⊢
  dsimp only
  split
  · exact h
  · exact h

theorem requestMode_fol {s₀ s : State} {v : Nat} (h₀ : Follows s₀ s) :
    Follows s₀ (requestMode v s).2 := by
  unfold requestMode
  repeat' (first | with_reducible assumption | simp only [fol_upd] | with_reducible (apply enterRun_fol) | split)

theorem writeOnly_fol {s₀ s : State} {index : Nat} {sub : Nat} {v : Nat} (h₀ : Follows s₀ s) :
    Follows s₀ (writeOnly index sub v s).2 := by
  unfold writeOnly
  repeat' (first | with_reducible assumption | simp only [fol_upd] | with_reducible (apply requestMode_fol) | (with_reducible refine fol_ord (commitGates_ord (Ordinary.refl _)) ?_) | split)

theorem setMgmtKey_fol {s₀ s : State} {key : List Byte} (h₀ : Follows s₀ s) :
    Follows s₀ (setMgmtKey key s) := by
  unfold setMgmtKey
  repeat' (first | with_reducible assumption | simp only [fol_upd] | (with_reducible refine fol_ord (draw_ord (Ordinary.refl _)) ?_))

theorem countWrite_ord {s₀ s : State} {clamped : Bool} (h₀ : Ordinary s₀ s) :
    Ordinary s₀ (countWrite clamped s) := by
  unfold countWrite
  repeat' (first | with_reducible assumption | simp only [ord_upd] | with_reducible (apply bump_ord) | split)

theorem refuseItem_ord {s₀ s : State} {st : Status} {value : List Byte} (h₀ : Ordinary s₀ s) :
    Ordinary s₀ (refuseItem st value s).2 := by
  unfold refuseItem
  repeat' (first | with_reducible assumption | simp only [ord_upd] | with_reducible (apply bump_ord))

theorem writeItem_fol {s₀ s : State} {i : DictItem} (h₀ : Follows s₀ s) :
    Follows s₀ (writeItem i s).2 := by
  unfold writeItem
  repeat' (first | with_reducible assumption | simp only [fol_upd] | (with_reducible refine fol_ord (countWrite_ord (Ordinary.refl _)) ?_) | (with_reducible refine fol_ord (refuseItem_ord (Ordinary.refl _)) ?_) | with_reducible (apply setMgmtKey_fol) | with_reducible (apply writeOnly_fol) | with_reducible (apply writeSetting_fol) | split)

theorem doItem_fol {s₀ s : State} {i : DictItem} (h₀ : Follows s₀ s) :
    Follows s₀ (doItem i s).2 := by
  unfold doItem
  repeat' (first | with_reducible assumption | simp only [fol_upd] | (with_reducible refine fol_ord (refuseItem_ord (Ordinary.refl _)) ?_) | with_reducible (apply writeItem_fol) | (with_reducible refine fol_ord (bump_ord (Ordinary.refl _)) ?_) | split)

end Sys2Proof.Machine
end

