-- ==== Sys2Proof/Laws/OrdDictCmds.lean ====
section
/-!
SUPPORT. The operations of Machine/DictCmds.lean are ordinary.
-/
namespace Sys2Proof.Machine

theorem doItems_fol {s₀ t : State} {x0 : List DictItem} (h₀ : Follows s₀ t) :
    Follows s₀ (doItems x0 t).2 := by
  induction x0 generalizing t with
  | nil => (try simp only [doItems]); repeat' (first | with_reducible assumption | with_reducible (apply doItem_fol) | (with_reducible refine ord_getD ?_ ?_))
  | cons a l ih =>
    simp only [doItems]
    repeat' (first | with_reducible assumption | with_reducible (apply ih) | with_reducible (apply doItem_fol))

theorem servePdu_fol {s₀ s : State} {limit : Nat} {items : Option (List DictItem)} (h₀ : Follows s₀ s) :
    Follows s₀ (servePdu limit items s).2 := by
  unfold servePdu
  repeat' (first | with_reducible assumption | simp only [fol_upd] | with_reducible (apply doItems_fol) | split)

theorem beginWarm_fol {s₀ s : State} (h₀ : Follows s₀ s) :
    Follows s₀ (beginWarm s) := by
  unfold beginWarm
  repeat' (first | with_reducible assumption | simp only [fol_upd] | with_reducible (apply startUp_fol) | split)

theorem mailboxAccess_fol {s₀ s : State} {m : Msg} (h₀ : Follows s₀ s) : Follows s₀ (mailboxAccess m s) := by
  unfold mailboxAccess
  refine request_fol h₀ (fun t h => ?_)
  exact beginWarm_fol (fol_ord (respond_ord (Ordinary.refl _)) (servePdu_fol h))

theorem answerStation_ord {s₀ s : State} {source : List Byte} {key : List Byte} {p : List Byte} (h₀ : Ordinary s₀ s) :
    Ordinary s₀ (answerStation source key p s) := by
  unfold answerStation
  repeat' (first | with_reducible assumption | with_reducible (apply emit_ord))

theorem stationRequest_fol {s₀ s : State} {source : List Byte} {h : Pdu} {items : Option (List DictItem)} (h₀ : Follows s₀ s) :
    Follows s₀ (stationRequest source h items s) := by
  unfold stationRequest
  repeat' (first | with_reducible assumption | simp only [fol_upd] | (with_reducible refine fol_ord (answerStation_ord (Ordinary.refl _)) ?_) | (with_reducible refine fol_ord (bump_ord (Ordinary.refl _)) ?_) | with_reducible (apply servePdu_fol) | with_reducible (apply beginWarm_fol) | split)

theorem stationHello_ord {s₀ s : State} {source : List Byte} {h : Pdu} (h₀ : Ordinary s₀ s) :
    Ordinary s₀ (stationHello source h s) := by
  unfold stationHello
  repeat' (first | with_reducible assumption | with_reducible (apply answerStation_ord))

theorem stationFrame_fol {s₀ s : State} {f : List Byte} (h₀ : Follows s₀ s) : Follows s₀ (stationFrame f s) := by
  unfold stationFrame
  dsimp only
  have b : ∀ k, Follows s₀ (bump k s) := fun k => fol_ord (bump_ord (Ordinary.refl _)) h₀
  have a : ∀ src key q, Follows s₀ (answerStation src key q s) := fun _ _ _ => fol_ord (answerStation_ord (Ordinary.refl _)) h₀
  have g : ∀ src h, Follows s₀ (stationHello src h s) := fun _ _ => fol_ord (stationHello_ord (Ordinary.refl _)) h₀
  repeat' split
  all_goals first
    | with_reducible exact h₀
    | with_reducible exact b _
    | with_reducible exact stationRequest_fol h₀
    | with_reducible exact g _ _
    | with_reducible exact a _ _ _

theorem oneItem_fol {s₀ s : State} {p : DictPath} {i : DictItem} (h₀ : Follows s₀ s) :
    Follows s₀ (oneItem p i s) := by
  unfold oneItem
  repeat' (first | with_reducible assumption | simp only [fol_upd] | with_reducible (apply mailboxAccess_fol) | (with_reducible refine fol_ord (bump_ord (Ordinary.refl _)) ?_) | with_reducible (apply stationRequest_fol) | split)

theorem execDictReadItem_fol {s₀ s : State} {p : DictPath} {i : DictItem} (h₀ : Follows s₀ s) :
    FolN s₀ (execDictReadItem p i s) := by
  unfold execDictReadItem
  repeat' (first | apply folN_next | with_reducible assumption | with_reducible (apply oneItem_fol))

theorem execDictWriteItem_fol {s₀ s : State} {p : DictPath} {i : DictItem} (h₀ : Follows s₀ s) :
    FolN s₀ (execDictWriteItem p i s) := by
  unfold execDictWriteItem
  repeat' (first | apply folN_next | with_reducible assumption | with_reducible (apply oneItem_fol))

theorem execDictDescribeItem_fol {s₀ s : State} {p : DictPath} {i : DictItem} (h₀ : Follows s₀ s) :
    FolN s₀ (execDictDescribeItem p i s) := by
  unfold execDictDescribeItem
  repeat' (first | apply folN_next | with_reducible assumption | with_reducible (apply oneItem_fol))

theorem execMgmtHello_fol {s₀ s : State} {f : List Byte} (h₀ : Follows s₀ s) :
    FolN s₀ (execMgmtHello f s) := by
  unfold execMgmtHello
  repeat' (first | apply folN_next | with_reducible assumption | with_reducible (apply stationFrame_fol))

theorem execModeRun_fol {s₀ s : State} {p : DictPath} (h₀ : Follows s₀ s) :
    FolN s₀ (execModeRun p s) := by
  unfold execModeRun
  repeat' (first | apply folN_next | with_reducible assumption | with_reducible (apply oneItem_fol))

theorem execModeSetup_fol {s₀ s : State} {p : DictPath} (h₀ : Follows s₀ s) :
    FolN s₀ (execModeSetup p s) := by
  unfold execModeSetup
  repeat' (first | apply folN_next | with_reducible assumption | with_reducible (apply oneItem_fol))

theorem execWarmStart_fol {s₀ s : State} {p : DictPath} (h₀ : Follows s₀ s) :
    FolN s₀ (execWarmStart p s) := by
  unfold execWarmStart
  repeat' (first | apply folN_next | with_reducible assumption | with_reducible (apply oneItem_fol))

theorem execClearCounters_fol {s₀ s : State} {p : DictPath} {value : Nat} (h₀ : Follows s₀ s) :
    FolN s₀ (execClearCounters p value s) := by
  unfold execClearCounters
  repeat' (first | apply folN_next | with_reducible assumption | with_reducible (apply oneItem_fol))

theorem execGateCommit_fol {s₀ s : State} {p : DictPath} {port : Nat} {value : Nat} (h₀ : Follows s₀ s) :
    FolN s₀ (execGateCommit p port value s) := by
  unfold execGateCommit
  repeat' (first | apply folN_next | with_reducible assumption | with_reducible (apply oneItem_fol))

theorem execGateEnable_fol {s₀ s : State} {p : DictPath} {port : Nat} {value : Nat} (h₀ : Follows s₀ s) :
    FolN s₀ (execGateEnable p port value s) := by
  unfold execGateEnable
  repeat' (first | apply folN_next | with_reducible assumption | with_reducible (apply oneItem_fol))

theorem execMgmtKey_fol {s₀ s : State} {p : DictPath} {key : List Byte} (h₀ : Follows s₀ s) :
    FolN s₀ (execMgmtKey p key s) := by
  unfold execMgmtKey
  repeat' (first | apply folN_next | with_reducible assumption | with_reducible (apply oneItem_fol))

theorem execSampleEnable_fol {s₀ s : State} {p : DictPath} {value : Nat} (h₀ : Follows s₀ s) :
    FolN s₀ (execSampleEnable p value s) := by
  unfold execSampleEnable
  repeat' (first | apply folN_next | with_reducible assumption | with_reducible (apply oneItem_fol))

theorem execSampleRd_fol {s₀ s : State} {p : DictPath} {value : Nat} (h₀ : Follows s₀ s) :
    FolN s₀ (execSampleRd p value s) := by
  unfold execSampleRd
  repeat' (first | apply folN_next | with_reducible assumption | with_reducible (apply oneItem_fol))

theorem execDebugEnable_fol {s₀ s : State} {p : DictPath} {value : Nat} (h₀ : Follows s₀ s) :
    FolN s₀ (execDebugEnable p value s) := by
  unfold execDebugEnable
  repeat' (first | apply folN_next | with_reducible assumption | with_reducible (apply oneItem_fol))

theorem execShapeRateMbps_fol {s₀ s : State} {p : DictPath} {port : Nat} {cls : Nat} {burst : Bool} {value : Nat} (h₀ : Follows s₀ s) :
    FolN s₀ (execShapeRateMbps p port cls burst value s) := by
  unfold execShapeRateMbps
  repeat' (first | apply folN_next | with_reducible assumption | with_reducible (apply oneItem_fol))

theorem execMeterCirMbps_fol {s₀ s : State} {p : DictPath} {port : Nat} {cls : Nat} {which : Nat} {value : Nat} (h₀ : Follows s₀ s) :
    FolN s₀ (execMeterCirMbps p port cls which value s) := by
  unfold execMeterCirMbps
  repeat' (first | apply folN_next | with_reducible assumption | with_reducible (apply oneItem_fol))

theorem execTcWeight_fol {s₀ s : State} {p : DictPath} {port : Nat} {cls : Nat} {value : Nat} (h₀ : Follows s₀ s) :
    FolN s₀ (execTcWeight p port cls value s) := by
  unfold execTcWeight
  repeat' (first | apply folN_next | with_reducible assumption | with_reducible (apply oneItem_fol))

theorem execDictAccess_fol {s₀ s : State} {r : DictRequest} (h₀ : Follows s₀ s) :
    FolN s₀ (execDictAccess r s) := by
  unfold execDictAccess
  repeat' (first | apply folN_next | with_reducible assumption | with_reducible (apply mailboxAccess_fol) | with_reducible (apply stationFrame_fol) | split)

end Sys2Proof.Machine
end

