-- ==== Sys2Proof/Laws/OrdIdle.lean ====
section
/-!
SUPPORT. The operations of Machine/Idle.lean are ordinary.
-/
namespace Sys2Proof.Machine

theorem countRole_ord {s₀ s : State} {d : Nat} {p : Nat} (h₀ : Ordinary s₀ s) :
    Ordinary s₀ (countRole d p s) := by
  unfold countRole
  repeat' (first | with_reducible assumption | with_reducible (apply modPart_ord))

theorem countStalls_ord {s₀ s : State} {d : Nat} {k : Nat} (h₀ : Ordinary s₀ s) :
    Ordinary s₀ (countStalls d k s) := by
  unfold countStalls
  repeat' (first | with_reducible assumption | with_reducible (apply pmu_ord) | (refine ord_foldRange (fun _ _ _ => ?_) ?_) | split)

theorem countTime_ord {s₀ s : State} {d : Nat} {us : Bool} (h₀ : Ordinary s₀ s) :
    Ordinary s₀ (countTime d us s) := by
  unfold countTime
  repeat' (first | with_reducible assumption | simp only [ord_upd] | with_reducible (apply countRole_ord) | with_reducible (apply countStalls_ord) | with_reducible (apply pmu_ord) | (refine ord_foldl (fun _ _ _ => ?_) ?_) | split)

theorem tick_fol {s₀ s : State} (h₀ : Follows s₀ s) :
    Follows s₀ (tick s) := by
  unfold tick
  repeat' (first | with_reducible assumption | simp only [fol_upd] | (with_reducible refine fol_ord (countTime_ord (Ordinary.refl _)) ?_))

end Sys2Proof.Machine
end

