-- ==== Sys2Proof/Laws/State.lean ====
section
/-!
SUPPORT. What each named update of the state leaves in each field: one lemma per field per update.
-/
namespace Sys2Proof.Machine

variable (s : State)

section
variable (k n : Nat)
@[simp] theorem bumpBy_pending : (bumpBy k n s).pending = s.pending := rfl
@[simp] theorem bumpBy_power : (bumpBy k n s).power = s.power := rfl
@[simp] theorem bumpBy_pace : (bumpBy k n s).pace = s.pace := rfl
@[simp] theorem bumpBy_time : (bumpBy k n s).time = s.time := rfl
@[simp] theorem bumpBy_dict : (bumpBy k n s).dict = { s.dict with counters := Tab.put s.dict.counters k ((Tab.get s.dict.counters k 0 + n) % 2 ^ 64) } := rfl
@[simp] theorem bumpBy_mgmt : (bumpBy k n s).mgmt = s.mgmt := rfl
@[simp] theorem bumpBy_mode : (bumpBy k n s).mode = s.mode := rfl
@[simp] theorem bumpBy_fatal : (bumpBy k n s).fatal = s.fatal := rfl
@[simp] theorem bumpBy_scrubbedAt : (bumpBy k n s).scrubbedAt = s.scrubbedAt := rfl
@[simp] theorem bumpBy_csr : (bumpBy k n s).csr = s.csr := rfl
@[simp] theorem bumpBy_sessions : (bumpBy k n s).sessions = s.sessions := rfl
@[simp] theorem bumpBy_freed : (bumpBy k n s).freed = s.freed := rfl
@[simp] theorem bumpBy_frames : (bumpBy k n s).frames = s.frames := rfl
@[simp] theorem bumpBy_hbm : (bumpBy k n s).hbm = s.hbm := rfl
@[simp] theorem bumpBy_fills : (bumpBy k n s).fills = s.fills := rfl
@[simp] theorem bumpBy_mapCache : (bumpBy k n s).mapCache = s.mapCache := rfl
@[simp] theorem bumpBy_models : (bumpBy k n s).models = s.models := rfl
@[simp] theorem bumpBy_ropes : (bumpBy k n s).ropes = s.ropes := rfl
@[simp] theorem bumpBy_ropeLoads : (bumpBy k n s).ropeLoads = s.ropeLoads := rfl
@[simp] theorem bumpBy_fielders : (bumpBy k n s).fielders = s.fielders := rfl
@[simp] theorem bumpBy_catchers : (bumpBy k n s).catchers = s.catchers := rfl
@[simp] theorem bumpBy_merges : (bumpBy k n s).merges = s.merges := rfl
@[simp] theorem bumpBy_mergeTag : (bumpBy k n s).mergeTag = s.mergeTag := rfl
@[simp] theorem bumpBy_jobs : (bumpBy k n s).jobs = s.jobs := rfl
@[simp] theorem bumpBy_parts : (bumpBy k n s).parts = s.parts := rfl
@[simp] theorem bumpBy_roleAt : (bumpBy k n s).roleAt = s.roleAt := rfl
@[simp] theorem bumpBy_ropeCount : (bumpBy k n s).ropeCount = s.ropeCount := rfl
@[simp] theorem bumpBy_contexts : (bumpBy k n s).contexts = s.contexts := rfl
@[simp] theorem bumpBy_lastTeardown : (bumpBy k n s).lastTeardown = s.lastTeardown := rfl
@[simp] theorem bumpBy_vocabs : (bumpBy k n s).vocabs = s.vocabs := rfl
@[simp] theorem bumpBy_grammars : (bumpBy k n s).grammars = s.grammars := rfl
@[simp] theorem bumpBy_lists : (bumpBy k n s).lists = s.lists := rfl
@[simp] theorem bumpBy_stages : (bumpBy k n s).stages = s.stages := rfl
@[simp] theorem bumpBy_segments : (bumpBy k n s).segments = s.segments := rfl
@[simp] theorem bumpBy_masks : (bumpBy k n s).masks = s.masks := rfl
@[simp] theorem bumpBy_indexes : (bumpBy k n s).indexes = s.indexes := rfl
@[simp] theorem bumpBy_searches : (bumpBy k n s).searches = s.searches := rfl
@[simp] theorem bumpBy_searchWaits : (bumpBy k n s).searchWaits = s.searchWaits := rfl
@[simp] theorem bumpBy_searchCount : (bumpBy k n s).searchCount = s.searchCount := rfl
@[simp] theorem bumpBy_hostSlots : (bumpBy k n s).hostSlots = s.hostSlots := rfl
@[simp] theorem bumpBy_poolSlots : (bumpBy k n s).poolSlots = s.poolSlots := rfl
@[simp] theorem bumpBy_hostRanges : (bumpBy k n s).hostRanges = s.hostRanges := rfl
@[simp] theorem bumpBy_poolRanges : (bumpBy k n s).poolRanges = s.poolRanges := rfl
@[simp] theorem bumpBy_hostId : (bumpBy k n s).hostId = s.hostId := rfl
@[simp] theorem bumpBy_poolChannels : (bumpBy k n s).poolChannels = s.poolChannels := rfl
@[simp] theorem bumpBy_transfers : (bumpBy k n s).transfers = s.transfers := rfl
@[simp] theorem bumpBy_reviveTurn : (bumpBy k n s).reviveTurn = s.reviveTurn := rfl
@[simp] theorem bumpBy_nextTile : (bumpBy k n s).nextTile = s.nextTile := rfl
@[simp] theorem bumpBy_regions : (bumpBy k n s).regions = s.regions := rfl
@[simp] theorem bumpBy_leaseCount : (bumpBy k n s).leaseCount = s.leaseCount := rfl
@[simp] theorem bumpBy_publishes : (bumpBy k n s).publishes = s.publishes := rfl
@[simp] theorem bumpBy_publishCount : (bumpBy k n s).publishCount = s.publishCount := rfl
@[simp] theorem bumpBy_retained : (bumpBy k n s).retained = s.retained := rfl
@[simp] theorem bumpBy_attachments : (bumpBy k n s).attachments = s.attachments := rfl
@[simp] theorem bumpBy_regionJobs : (bumpBy k n s).regionJobs = s.regionJobs := rfl
@[simp] theorem bumpBy_wrs : (bumpBy k n s).wrs = s.wrs := rfl
@[simp] theorem bumpBy_wrCount : (bumpBy k n s).wrCount = s.wrCount := rfl
@[simp] theorem bumpBy_triggers : (bumpBy k n s).triggers = s.triggers := rfl
@[simp] theorem bumpBy_waits : (bumpBy k n s).waits = s.waits := rfl
@[simp] theorem bumpBy_tagCount : (bumpBy k n s).tagCount = s.tagCount := rfl
@[simp] theorem bumpBy_held : (bumpBy k n s).held = s.held := rfl
@[simp] theorem bumpBy_tileIngress : (bumpBy k n s).tileIngress = s.tileIngress := rfl
@[simp] theorem bumpBy_ports : (bumpBy k n s).ports = s.ports := rfl
@[simp] theorem bumpBy_sampler : (bumpBy k n s).sampler = s.sampler := rfl
@[simp] theorem bumpBy_qps : (bumpBy k n s).qps = s.qps := rfl
@[simp] theorem bumpBy_ingress : (bumpBy k n s).ingress = s.ingress := rfl
@[simp] theorem bumpBy_out : (bumpBy k n s).out = s.out := rfl
@[simp] theorem bumpBy_pair : (bumpBy k n s).pair = s.pair := rfl
@[simp] theorem bumpBy_ringMap : (bumpBy k n s).ringMap = s.ringMap := rfl
@[simp] theorem bumpBy_ringWaits : (bumpBy k n s).ringWaits = s.ringWaits := rfl
@[simp] theorem bumpBy_survey : (bumpBy k n s).survey = s.survey := rfl
@[simp] theorem bumpBy_sec : (bumpBy k n s).sec = s.sec := rfl
@[simp] theorem bumpBy_draws : (bumpBy k n s).draws = s.draws := rfl
end

section
variable (k : Nat)
@[simp] theorem bump_pending : (bump k s).pending = s.pending := rfl
@[simp] theorem bump_power : (bump k s).power = s.power := rfl
@[simp] theorem bump_pace : (bump k s).pace = s.pace := rfl
@[simp] theorem bump_time : (bump k s).time = s.time := rfl
@[simp] theorem bump_dict : (bump k s).dict = { s.dict with counters := Tab.put s.dict.counters k ((Tab.get s.dict.counters k 0 + 1) % 2 ^ 64) } := rfl
@[simp] theorem bump_mgmt : (bump k s).mgmt = s.mgmt := rfl
@[simp] theorem bump_mode : (bump k s).mode = s.mode := rfl
@[simp] theorem bump_fatal : (bump k s).fatal = s.fatal := rfl
@[simp] theorem bump_scrubbedAt : (bump k s).scrubbedAt = s.scrubbedAt := rfl
@[simp] theorem bump_csr : (bump k s).csr = s.csr := rfl
@[simp] theorem bump_sessions : (bump k s).sessions = s.sessions := rfl
@[simp] theorem bump_freed : (bump k s).freed = s.freed := rfl
@[simp] theorem bump_frames : (bump k s).frames = s.frames := rfl
@[simp] theorem bump_hbm : (bump k s).hbm = s.hbm := rfl
@[simp] theorem bump_fills : (bump k s).fills = s.fills := rfl
@[simp] theorem bump_mapCache : (bump k s).mapCache = s.mapCache := rfl
@[simp] theorem bump_models : (bump k s).models = s.models := rfl
@[simp] theorem bump_ropes : (bump k s).ropes = s.ropes := rfl
@[simp] theorem bump_ropeLoads : (bump k s).ropeLoads = s.ropeLoads := rfl
@[simp] theorem bump_fielders : (bump k s).fielders = s.fielders := rfl
@[simp] theorem bump_catchers : (bump k s).catchers = s.catchers := rfl
@[simp] theorem bump_merges : (bump k s).merges = s.merges := rfl
@[simp] theorem bump_mergeTag : (bump k s).mergeTag = s.mergeTag := rfl
@[simp] theorem bump_jobs : (bump k s).jobs = s.jobs := rfl
@[simp] theorem bump_parts : (bump k s).parts = s.parts := rfl
@[simp] theorem bump_roleAt : (bump k s).roleAt = s.roleAt := rfl
@[simp] theorem bump_ropeCount : (bump k s).ropeCount = s.ropeCount := rfl
@[simp] theorem bump_contexts : (bump k s).contexts = s.contexts := rfl
@[simp] theorem bump_lastTeardown : (bump k s).lastTeardown = s.lastTeardown := rfl
@[simp] theorem bump_vocabs : (bump k s).vocabs = s.vocabs := rfl
@[simp] theorem bump_grammars : (bump k s).grammars = s.grammars := rfl
@[simp] theorem bump_lists : (bump k s).lists = s.lists := rfl
@[simp] theorem bump_stages : (bump k s).stages = s.stages := rfl
@[simp] theorem bump_segments : (bump k s).segments = s.segments := rfl
@[simp] theorem bump_masks : (bump k s).masks = s.masks := rfl
@[simp] theorem bump_indexes : (bump k s).indexes = s.indexes := rfl
@[simp] theorem bump_searches : (bump k s).searches = s.searches := rfl
@[simp] theorem bump_searchWaits : (bump k s).searchWaits = s.searchWaits := rfl
@[simp] theorem bump_searchCount : (bump k s).searchCount = s.searchCount := rfl
@[simp] theorem bump_hostSlots : (bump k s).hostSlots = s.hostSlots := rfl
@[simp] theorem bump_poolSlots : (bump k s).poolSlots = s.poolSlots := rfl
@[simp] theorem bump_hostRanges : (bump k s).hostRanges = s.hostRanges := rfl
@[simp] theorem bump_poolRanges : (bump k s).poolRanges = s.poolRanges := rfl
@[simp] theorem bump_hostId : (bump k s).hostId = s.hostId := rfl
@[simp] theorem bump_poolChannels : (bump k s).poolChannels = s.poolChannels := rfl
@[simp] theorem bump_transfers : (bump k s).transfers = s.transfers := rfl
@[simp] theorem bump_reviveTurn : (bump k s).reviveTurn = s.reviveTurn := rfl
@[simp] theorem bump_nextTile : (bump k s).nextTile = s.nextTile := rfl
@[simp] theorem bump_regions : (bump k s).regions = s.regions := rfl
@[simp] theorem bump_leaseCount : (bump k s).leaseCount = s.leaseCount := rfl
@[simp] theorem bump_publishes : (bump k s).publishes = s.publishes := rfl
@[simp] theorem bump_publishCount : (bump k s).publishCount = s.publishCount := rfl
@[simp] theorem bump_retained : (bump k s).retained = s.retained := rfl
@[simp] theorem bump_attachments : (bump k s).attachments = s.attachments := rfl
@[simp] theorem bump_regionJobs : (bump k s).regionJobs = s.regionJobs := rfl
@[simp] theorem bump_wrs : (bump k s).wrs = s.wrs := rfl
@[simp] theorem bump_wrCount : (bump k s).wrCount = s.wrCount := rfl
@[simp] theorem bump_triggers : (bump k s).triggers = s.triggers := rfl
@[simp] theorem bump_waits : (bump k s).waits = s.waits := rfl
@[simp] theorem bump_tagCount : (bump k s).tagCount = s.tagCount := rfl
@[simp] theorem bump_held : (bump k s).held = s.held := rfl
@[simp] theorem bump_tileIngress : (bump k s).tileIngress = s.tileIngress := rfl
@[simp] theorem bump_ports : (bump k s).ports = s.ports := rfl
@[simp] theorem bump_sampler : (bump k s).sampler = s.sampler := rfl
@[simp] theorem bump_qps : (bump k s).qps = s.qps := rfl
@[simp] theorem bump_ingress : (bump k s).ingress = s.ingress := rfl
@[simp] theorem bump_out : (bump k s).out = s.out := rfl
@[simp] theorem bump_pair : (bump k s).pair = s.pair := rfl
@[simp] theorem bump_ringMap : (bump k s).ringMap = s.ringMap := rfl
@[simp] theorem bump_ringWaits : (bump k s).ringWaits = s.ringWaits := rfl
@[simp] theorem bump_survey : (bump k s).survey = s.survey := rfl
@[simp] theorem bump_sec : (bump k s).sec = s.sec := rfl
@[simp] theorem bump_draws : (bump k s).draws = s.draws := rfl
end

section
variable (a : Alert)
@[simp] theorem alert_pending : (alert a s).pending = s.pending := rfl
@[simp] theorem alert_power : (alert a s).power = s.power := rfl
@[simp] theorem alert_pace : (alert a s).pace = s.pace := rfl
@[simp] theorem alert_time : (alert a s).time = s.time := rfl
@[simp] theorem alert_dict : (alert a s).dict = s.dict := rfl
@[simp] theorem alert_mgmt : (alert a s).mgmt = s.mgmt := rfl
@[simp] theorem alert_mode : (alert a s).mode = s.mode := rfl
@[simp] theorem alert_fatal : (alert a s).fatal = s.fatal := rfl
@[simp] theorem alert_scrubbedAt : (alert a s).scrubbedAt = s.scrubbedAt := rfl
@[simp] theorem alert_csr : (alert a s).csr = { s.csr with alert := s.csr.alert ||| (1 <<< alertBit a) } := rfl
@[simp] theorem alert_sessions : (alert a s).sessions = s.sessions := rfl
@[simp] theorem alert_freed : (alert a s).freed = s.freed := rfl
@[simp] theorem alert_frames : (alert a s).frames = s.frames := rfl
@[simp] theorem alert_hbm : (alert a s).hbm = s.hbm := rfl
@[simp] theorem alert_fills : (alert a s).fills = s.fills := rfl
@[simp] theorem alert_mapCache : (alert a s).mapCache = s.mapCache := rfl
@[simp] theorem alert_models : (alert a s).models = s.models := rfl
@[simp] theorem alert_ropes : (alert a s).ropes = s.ropes := rfl
@[simp] theorem alert_ropeLoads : (alert a s).ropeLoads = s.ropeLoads := rfl
@[simp] theorem alert_fielders : (alert a s).fielders = s.fielders := rfl
@[simp] theorem alert_catchers : (alert a s).catchers = s.catchers := rfl
@[simp] theorem alert_merges : (alert a s).merges = s.merges := rfl
@[simp] theorem alert_mergeTag : (alert a s).mergeTag = s.mergeTag := rfl
@[simp] theorem alert_jobs : (alert a s).jobs = s.jobs := rfl
@[simp] theorem alert_parts : (alert a s).parts = s.parts := rfl
@[simp] theorem alert_roleAt : (alert a s).roleAt = s.roleAt := rfl
@[simp] theorem alert_ropeCount : (alert a s).ropeCount = s.ropeCount := rfl
@[simp] theorem alert_contexts : (alert a s).contexts = s.contexts := rfl
@[simp] theorem alert_lastTeardown : (alert a s).lastTeardown = s.lastTeardown := rfl
@[simp] theorem alert_vocabs : (alert a s).vocabs = s.vocabs := rfl
@[simp] theorem alert_grammars : (alert a s).grammars = s.grammars := rfl
@[simp] theorem alert_lists : (alert a s).lists = s.lists := rfl
@[simp] theorem alert_stages : (alert a s).stages = s.stages := rfl
@[simp] theorem alert_segments : (alert a s).segments = s.segments := rfl
@[simp] theorem alert_masks : (alert a s).masks = s.masks := rfl
@[simp] theorem alert_indexes : (alert a s).indexes = s.indexes := rfl
@[simp] theorem alert_searches : (alert a s).searches = s.searches := rfl
@[simp] theorem alert_searchWaits : (alert a s).searchWaits = s.searchWaits := rfl
@[simp] theorem alert_searchCount : (alert a s).searchCount = s.searchCount := rfl
@[simp] theorem alert_hostSlots : (alert a s).hostSlots = s.hostSlots := rfl
@[simp] theorem alert_poolSlots : (alert a s).poolSlots = s.poolSlots := rfl
@[simp] theorem alert_hostRanges : (alert a s).hostRanges = s.hostRanges := rfl
@[simp] theorem alert_poolRanges : (alert a s).poolRanges = s.poolRanges := rfl
@[simp] theorem alert_hostId : (alert a s).hostId = s.hostId := rfl
@[simp] theorem alert_poolChannels : (alert a s).poolChannels = s.poolChannels := rfl
@[simp] theorem alert_transfers : (alert a s).transfers = s.transfers := rfl
@[simp] theorem alert_reviveTurn : (alert a s).reviveTurn = s.reviveTurn := rfl
@[simp] theorem alert_nextTile : (alert a s).nextTile = s.nextTile := rfl
@[simp] theorem alert_regions : (alert a s).regions = s.regions := rfl
@[simp] theorem alert_leaseCount : (alert a s).leaseCount = s.leaseCount := rfl
@[simp] theorem alert_publishes : (alert a s).publishes = s.publishes := rfl
@[simp] theorem alert_publishCount : (alert a s).publishCount = s.publishCount := rfl
@[simp] theorem alert_retained : (alert a s).retained = s.retained := rfl
@[simp] theorem alert_attachments : (alert a s).attachments = s.attachments := rfl
@[simp] theorem alert_regionJobs : (alert a s).regionJobs = s.regionJobs := rfl
@[simp] theorem alert_wrs : (alert a s).wrs = s.wrs := rfl
@[simp] theorem alert_wrCount : (alert a s).wrCount = s.wrCount := rfl
@[simp] theorem alert_triggers : (alert a s).triggers = s.triggers := rfl
@[simp] theorem alert_waits : (alert a s).waits = s.waits := rfl
@[simp] theorem alert_tagCount : (alert a s).tagCount = s.tagCount := rfl
@[simp] theorem alert_held : (alert a s).held = s.held := rfl
@[simp] theorem alert_tileIngress : (alert a s).tileIngress = s.tileIngress := rfl
@[simp] theorem alert_ports : (alert a s).ports = s.ports := rfl
@[simp] theorem alert_sampler : (alert a s).sampler = s.sampler := rfl
@[simp] theorem alert_qps : (alert a s).qps = s.qps := rfl
@[simp] theorem alert_ingress : (alert a s).ingress = s.ingress := rfl
@[simp] theorem alert_out : (alert a s).out = s.out := rfl
@[simp] theorem alert_pair : (alert a s).pair = s.pair := rfl
@[simp] theorem alert_ringMap : (alert a s).ringMap = s.ringMap := rfl
@[simp] theorem alert_ringWaits : (alert a s).ringWaits = s.ringWaits := rfl
@[simp] theorem alert_survey : (alert a s).survey = s.survey := rfl
@[simp] theorem alert_sec : (alert a s).sec = s.sec := rfl
@[simp] theorem alert_draws : (alert a s).draws = s.draws := rfl
end

section
variable (x : Sent)
@[simp] theorem emit_pending : (emit x s).pending = s.pending := rfl
@[simp] theorem emit_power : (emit x s).power = s.power := rfl
@[simp] theorem emit_pace : (emit x s).pace = s.pace := rfl
@[simp] theorem emit_time : (emit x s).time = s.time := rfl
@[simp] theorem emit_dict : (emit x s).dict = s.dict := rfl
@[simp] theorem emit_mgmt : (emit x s).mgmt = s.mgmt := rfl
@[simp] theorem emit_mode : (emit x s).mode = s.mode := rfl
@[simp] theorem emit_fatal : (emit x s).fatal = s.fatal := rfl
@[simp] theorem emit_scrubbedAt : (emit x s).scrubbedAt = s.scrubbedAt := rfl
@[simp] theorem emit_csr : (emit x s).csr = s.csr := rfl
@[simp] theorem emit_sessions : (emit x s).sessions = s.sessions := rfl
@[simp] theorem emit_freed : (emit x s).freed = s.freed := rfl
@[simp] theorem emit_frames : (emit x s).frames = s.frames := rfl
@[simp] theorem emit_hbm : (emit x s).hbm = s.hbm := rfl
@[simp] theorem emit_fills : (emit x s).fills = s.fills := rfl
@[simp] theorem emit_mapCache : (emit x s).mapCache = s.mapCache := rfl
@[simp] theorem emit_models : (emit x s).models = s.models := rfl
@[simp] theorem emit_ropes : (emit x s).ropes = s.ropes := rfl
@[simp] theorem emit_ropeLoads : (emit x s).ropeLoads = s.ropeLoads := rfl
@[simp] theorem emit_fielders : (emit x s).fielders = s.fielders := rfl
@[simp] theorem emit_catchers : (emit x s).catchers = s.catchers := rfl
@[simp] theorem emit_merges : (emit x s).merges = s.merges := rfl
@[simp] theorem emit_mergeTag : (emit x s).mergeTag = s.mergeTag := rfl
@[simp] theorem emit_jobs : (emit x s).jobs = s.jobs := rfl
@[simp] theorem emit_parts : (emit x s).parts = s.parts := rfl
@[simp] theorem emit_roleAt : (emit x s).roleAt = s.roleAt := rfl
@[simp] theorem emit_ropeCount : (emit x s).ropeCount = s.ropeCount := rfl
@[simp] theorem emit_contexts : (emit x s).contexts = s.contexts := rfl
@[simp] theorem emit_lastTeardown : (emit x s).lastTeardown = s.lastTeardown := rfl
@[simp] theorem emit_vocabs : (emit x s).vocabs = s.vocabs := rfl
@[simp] theorem emit_grammars : (emit x s).grammars = s.grammars := rfl
@[simp] theorem emit_lists : (emit x s).lists = s.lists := rfl
@[simp] theorem emit_stages : (emit x s).stages = s.stages := rfl
@[simp] theorem emit_segments : (emit x s).segments = s.segments := rfl
@[simp] theorem emit_masks : (emit x s).masks = s.masks := rfl
@[simp] theorem emit_indexes : (emit x s).indexes = s.indexes := rfl
@[simp] theorem emit_searches : (emit x s).searches = s.searches := rfl
@[simp] theorem emit_searchWaits : (emit x s).searchWaits = s.searchWaits := rfl
@[simp] theorem emit_searchCount : (emit x s).searchCount = s.searchCount := rfl
@[simp] theorem emit_hostSlots : (emit x s).hostSlots = s.hostSlots := rfl
@[simp] theorem emit_poolSlots : (emit x s).poolSlots = s.poolSlots := rfl
@[simp] theorem emit_hostRanges : (emit x s).hostRanges = s.hostRanges := rfl
@[simp] theorem emit_poolRanges : (emit x s).poolRanges = s.poolRanges := rfl
@[simp] theorem emit_hostId : (emit x s).hostId = s.hostId := rfl
@[simp] theorem emit_poolChannels : (emit x s).poolChannels = s.poolChannels := rfl
@[simp] theorem emit_transfers : (emit x s).transfers = s.transfers := rfl
@[simp] theorem emit_reviveTurn : (emit x s).reviveTurn = s.reviveTurn := rfl
@[simp] theorem emit_nextTile : (emit x s).nextTile = s.nextTile := rfl
@[simp] theorem emit_regions : (emit x s).regions = s.regions := rfl
@[simp] theorem emit_leaseCount : (emit x s).leaseCount = s.leaseCount := rfl
@[simp] theorem emit_publishes : (emit x s).publishes = s.publishes := rfl
@[simp] theorem emit_publishCount : (emit x s).publishCount = s.publishCount := rfl
@[simp] theorem emit_retained : (emit x s).retained = s.retained := rfl
@[simp] theorem emit_attachments : (emit x s).attachments = s.attachments := rfl
@[simp] theorem emit_regionJobs : (emit x s).regionJobs = s.regionJobs := rfl
@[simp] theorem emit_wrs : (emit x s).wrs = s.wrs := rfl
@[simp] theorem emit_wrCount : (emit x s).wrCount = s.wrCount := rfl
@[simp] theorem emit_triggers : (emit x s).triggers = s.triggers := rfl
@[simp] theorem emit_waits : (emit x s).waits = s.waits := rfl
@[simp] theorem emit_tagCount : (emit x s).tagCount = s.tagCount := rfl
@[simp] theorem emit_held : (emit x s).held = s.held := rfl
@[simp] theorem emit_tileIngress : (emit x s).tileIngress = s.tileIngress := rfl
@[simp] theorem emit_ports : (emit x s).ports = s.ports := rfl
@[simp] theorem emit_sampler : (emit x s).sampler = s.sampler := rfl
@[simp] theorem emit_qps : (emit x s).qps = s.qps := rfl
@[simp] theorem emit_ingress : (emit x s).ingress = s.ingress := rfl
@[simp] theorem emit_out : (emit x s).out = s.out ++ [x] := rfl
@[simp] theorem emit_pair : (emit x s).pair = s.pair := rfl
@[simp] theorem emit_ringMap : (emit x s).ringMap = s.ringMap := rfl
@[simp] theorem emit_ringWaits : (emit x s).ringWaits = s.ringWaits := rfl
@[simp] theorem emit_survey : (emit x s).survey = s.survey := rfl
@[simp] theorem emit_sec : (emit x s).sec = s.sec := rfl
@[simp] theorem emit_draws : (emit x s).draws = s.draws := rfl
end

section
variable (m : Msg)
@[simp] theorem takeMsg_pending : (takeMsg m s).pending = s.pending := rfl
@[simp] theorem takeMsg_power : (takeMsg m s).power = s.power := rfl
@[simp] theorem takeMsg_pace : (takeMsg m s).pace = s.pace := rfl
@[simp] theorem takeMsg_time : (takeMsg m s).time = s.time := rfl
@[simp] theorem takeMsg_dict : (takeMsg m s).dict = s.dict := rfl
@[simp] theorem takeMsg_mgmt : (takeMsg m s).mgmt = s.mgmt := rfl
@[simp] theorem takeMsg_mode : (takeMsg m s).mode = s.mode := rfl
@[simp] theorem takeMsg_fatal : (takeMsg m s).fatal = s.fatal := rfl
@[simp] theorem takeMsg_scrubbedAt : (takeMsg m s).scrubbedAt = s.scrubbedAt := rfl
@[simp] theorem takeMsg_csr : (takeMsg m s).csr = s.csr := rfl
@[simp] theorem takeMsg_sessions : (takeMsg m s).sessions = s.sessions := rfl
@[simp] theorem takeMsg_freed : (takeMsg m s).freed = s.freed := rfl
@[simp] theorem takeMsg_frames : (takeMsg m s).frames = s.frames := rfl
@[simp] theorem takeMsg_hbm : (takeMsg m s).hbm = s.hbm := rfl
@[simp] theorem takeMsg_fills : (takeMsg m s).fills = s.fills := rfl
@[simp] theorem takeMsg_mapCache : (takeMsg m s).mapCache = s.mapCache := rfl
@[simp] theorem takeMsg_models : (takeMsg m s).models = s.models := rfl
@[simp] theorem takeMsg_ropes : (takeMsg m s).ropes = s.ropes := rfl
@[simp] theorem takeMsg_ropeLoads : (takeMsg m s).ropeLoads = s.ropeLoads := rfl
@[simp] theorem takeMsg_fielders : (takeMsg m s).fielders = s.fielders := rfl
@[simp] theorem takeMsg_catchers : (takeMsg m s).catchers = s.catchers := rfl
@[simp] theorem takeMsg_merges : (takeMsg m s).merges = s.merges := rfl
@[simp] theorem takeMsg_mergeTag : (takeMsg m s).mergeTag = s.mergeTag := rfl
@[simp] theorem takeMsg_jobs : (takeMsg m s).jobs = s.jobs := rfl
@[simp] theorem takeMsg_parts : (takeMsg m s).parts = s.parts := rfl
@[simp] theorem takeMsg_roleAt : (takeMsg m s).roleAt = s.roleAt := rfl
@[simp] theorem takeMsg_ropeCount : (takeMsg m s).ropeCount = s.ropeCount := rfl
@[simp] theorem takeMsg_contexts : (takeMsg m s).contexts = s.contexts := rfl
@[simp] theorem takeMsg_lastTeardown : (takeMsg m s).lastTeardown = s.lastTeardown := rfl
@[simp] theorem takeMsg_vocabs : (takeMsg m s).vocabs = s.vocabs := rfl
@[simp] theorem takeMsg_grammars : (takeMsg m s).grammars = s.grammars := rfl
@[simp] theorem takeMsg_lists : (takeMsg m s).lists = s.lists := rfl
@[simp] theorem takeMsg_stages : (takeMsg m s).stages = s.stages := rfl
@[simp] theorem takeMsg_segments : (takeMsg m s).segments = s.segments := rfl
@[simp] theorem takeMsg_masks : (takeMsg m s).masks = s.masks := rfl
@[simp] theorem takeMsg_indexes : (takeMsg m s).indexes = s.indexes := rfl
@[simp] theorem takeMsg_searches : (takeMsg m s).searches = s.searches := rfl
@[simp] theorem takeMsg_searchWaits : (takeMsg m s).searchWaits = s.searchWaits := rfl
@[simp] theorem takeMsg_searchCount : (takeMsg m s).searchCount = s.searchCount := rfl
@[simp] theorem takeMsg_hostSlots : (takeMsg m s).hostSlots = s.hostSlots := rfl
@[simp] theorem takeMsg_poolSlots : (takeMsg m s).poolSlots = s.poolSlots := rfl
@[simp] theorem takeMsg_hostRanges : (takeMsg m s).hostRanges = s.hostRanges := rfl
@[simp] theorem takeMsg_poolRanges : (takeMsg m s).poolRanges = s.poolRanges := rfl
@[simp] theorem takeMsg_hostId : (takeMsg m s).hostId = s.hostId := rfl
@[simp] theorem takeMsg_poolChannels : (takeMsg m s).poolChannels = s.poolChannels := rfl
@[simp] theorem takeMsg_transfers : (takeMsg m s).transfers = s.transfers := rfl
@[simp] theorem takeMsg_reviveTurn : (takeMsg m s).reviveTurn = s.reviveTurn := rfl
@[simp] theorem takeMsg_nextTile : (takeMsg m s).nextTile = s.nextTile := rfl
@[simp] theorem takeMsg_regions : (takeMsg m s).regions = s.regions := rfl
@[simp] theorem takeMsg_leaseCount : (takeMsg m s).leaseCount = s.leaseCount := rfl
@[simp] theorem takeMsg_publishes : (takeMsg m s).publishes = s.publishes := rfl
@[simp] theorem takeMsg_publishCount : (takeMsg m s).publishCount = s.publishCount := rfl
@[simp] theorem takeMsg_retained : (takeMsg m s).retained = s.retained := rfl
@[simp] theorem takeMsg_attachments : (takeMsg m s).attachments = s.attachments := rfl
@[simp] theorem takeMsg_regionJobs : (takeMsg m s).regionJobs = s.regionJobs := rfl
@[simp] theorem takeMsg_wrs : (takeMsg m s).wrs = s.wrs := rfl
@[simp] theorem takeMsg_wrCount : (takeMsg m s).wrCount = s.wrCount := rfl
@[simp] theorem takeMsg_triggers : (takeMsg m s).triggers = s.triggers := rfl
@[simp] theorem takeMsg_waits : (takeMsg m s).waits = s.waits := rfl
@[simp] theorem takeMsg_tagCount : (takeMsg m s).tagCount = s.tagCount := rfl
@[simp] theorem takeMsg_held : (takeMsg m s).held = s.held := rfl
@[simp] theorem takeMsg_tileIngress : (takeMsg m s).tileIngress = s.tileIngress := rfl
@[simp] theorem takeMsg_ports : (takeMsg m s).ports = s.ports := rfl
@[simp] theorem takeMsg_sampler : (takeMsg m s).sampler = s.sampler := rfl
@[simp] theorem takeMsg_qps : (takeMsg m s).qps = s.qps := rfl
@[simp] theorem takeMsg_ingress : (takeMsg m s).ingress = s.ingress.erase m := rfl
@[simp] theorem takeMsg_out : (takeMsg m s).out = s.out := rfl
@[simp] theorem takeMsg_pair : (takeMsg m s).pair = s.pair := rfl
@[simp] theorem takeMsg_ringMap : (takeMsg m s).ringMap = s.ringMap := rfl
@[simp] theorem takeMsg_ringWaits : (takeMsg m s).ringWaits = s.ringWaits := rfl
@[simp] theorem takeMsg_survey : (takeMsg m s).survey = s.survey := rfl
@[simp] theorem takeMsg_sec : (takeMsg m s).sec = s.sec := rfl
@[simp] theorem takeMsg_draws : (takeMsg m s).draws = s.draws := rfl
end

section
variable (f : Nat) (x : Frame)
@[simp] theorem setFrame_pending : (setFrame f x s).pending = s.pending := rfl
@[simp] theorem setFrame_power : (setFrame f x s).power = s.power := rfl
@[simp] theorem setFrame_pace : (setFrame f x s).pace = s.pace := rfl
@[simp] theorem setFrame_time : (setFrame f x s).time = s.time := rfl
@[simp] theorem setFrame_dict : (setFrame f x s).dict = s.dict := rfl
@[simp] theorem setFrame_mgmt : (setFrame f x s).mgmt = s.mgmt := rfl
@[simp] theorem setFrame_mode : (setFrame f x s).mode = s.mode := rfl
@[simp] theorem setFrame_fatal : (setFrame f x s).fatal = s.fatal := rfl
@[simp] theorem setFrame_scrubbedAt : (setFrame f x s).scrubbedAt = s.scrubbedAt := rfl
@[simp] theorem setFrame_csr : (setFrame f x s).csr = s.csr := rfl
@[simp] theorem setFrame_sessions : (setFrame f x s).sessions = s.sessions := rfl
@[simp] theorem setFrame_freed : (setFrame f x s).freed = s.freed := rfl
@[simp] theorem setFrame_frames : (setFrame f x s).frames = Tab.put s.frames f x := rfl
@[simp] theorem setFrame_hbm : (setFrame f x s).hbm = s.hbm := rfl
@[simp] theorem setFrame_fills : (setFrame f x s).fills = s.fills := rfl
@[simp] theorem setFrame_mapCache : (setFrame f x s).mapCache = s.mapCache := rfl
@[simp] theorem setFrame_models : (setFrame f x s).models = s.models := rfl
@[simp] theorem setFrame_ropes : (setFrame f x s).ropes = s.ropes := rfl
@[simp] theorem setFrame_ropeLoads : (setFrame f x s).ropeLoads = s.ropeLoads := rfl
@[simp] theorem setFrame_fielders : (setFrame f x s).fielders = s.fielders := rfl
@[simp] theorem setFrame_catchers : (setFrame f x s).catchers = s.catchers := rfl
@[simp] theorem setFrame_merges : (setFrame f x s).merges = s.merges := rfl
@[simp] theorem setFrame_mergeTag : (setFrame f x s).mergeTag = s.mergeTag := rfl
@[simp] theorem setFrame_jobs : (setFrame f x s).jobs = s.jobs := rfl
@[simp] theorem setFrame_parts : (setFrame f x s).parts = s.parts := rfl
@[simp] theorem setFrame_roleAt : (setFrame f x s).roleAt = s.roleAt := rfl
@[simp] theorem setFrame_ropeCount : (setFrame f x s).ropeCount = s.ropeCount := rfl
@[simp] theorem setFrame_contexts : (setFrame f x s).contexts = s.contexts := rfl
@[simp] theorem setFrame_lastTeardown : (setFrame f x s).lastTeardown = s.lastTeardown := rfl
@[simp] theorem setFrame_vocabs : (setFrame f x s).vocabs = s.vocabs := rfl
@[simp] theorem setFrame_grammars : (setFrame f x s).grammars = s.grammars := rfl
@[simp] theorem setFrame_lists : (setFrame f x s).lists = s.lists := rfl
@[simp] theorem setFrame_stages : (setFrame f x s).stages = s.stages := rfl
@[simp] theorem setFrame_segments : (setFrame f x s).segments = s.segments := rfl
@[simp] theorem setFrame_masks : (setFrame f x s).masks = s.masks := rfl
@[simp] theorem setFrame_indexes : (setFrame f x s).indexes = s.indexes := rfl
@[simp] theorem setFrame_searches : (setFrame f x s).searches = s.searches := rfl
@[simp] theorem setFrame_searchWaits : (setFrame f x s).searchWaits = s.searchWaits := rfl
@[simp] theorem setFrame_searchCount : (setFrame f x s).searchCount = s.searchCount := rfl
@[simp] theorem setFrame_hostSlots : (setFrame f x s).hostSlots = s.hostSlots := rfl
@[simp] theorem setFrame_poolSlots : (setFrame f x s).poolSlots = s.poolSlots := rfl
@[simp] theorem setFrame_hostRanges : (setFrame f x s).hostRanges = s.hostRanges := rfl
@[simp] theorem setFrame_poolRanges : (setFrame f x s).poolRanges = s.poolRanges := rfl
@[simp] theorem setFrame_hostId : (setFrame f x s).hostId = s.hostId := rfl
@[simp] theorem setFrame_poolChannels : (setFrame f x s).poolChannels = s.poolChannels := rfl
@[simp] theorem setFrame_transfers : (setFrame f x s).transfers = s.transfers := rfl
@[simp] theorem setFrame_reviveTurn : (setFrame f x s).reviveTurn = s.reviveTurn := rfl
@[simp] theorem setFrame_nextTile : (setFrame f x s).nextTile = s.nextTile := rfl
@[simp] theorem setFrame_regions : (setFrame f x s).regions = s.regions := rfl
@[simp] theorem setFrame_leaseCount : (setFrame f x s).leaseCount = s.leaseCount := rfl
@[simp] theorem setFrame_publishes : (setFrame f x s).publishes = s.publishes := rfl
@[simp] theorem setFrame_publishCount : (setFrame f x s).publishCount = s.publishCount := rfl
@[simp] theorem setFrame_retained : (setFrame f x s).retained = s.retained := rfl
@[simp] theorem setFrame_attachments : (setFrame f x s).attachments = s.attachments := rfl
@[simp] theorem setFrame_regionJobs : (setFrame f x s).regionJobs = s.regionJobs := rfl
@[simp] theorem setFrame_wrs : (setFrame f x s).wrs = s.wrs := rfl
@[simp] theorem setFrame_wrCount : (setFrame f x s).wrCount = s.wrCount := rfl
@[simp] theorem setFrame_triggers : (setFrame f x s).triggers = s.triggers := rfl
@[simp] theorem setFrame_waits : (setFrame f x s).waits = s.waits := rfl
@[simp] theorem setFrame_tagCount : (setFrame f x s).tagCount = s.tagCount := rfl
@[simp] theorem setFrame_held : (setFrame f x s).held = s.held := rfl
@[simp] theorem setFrame_tileIngress : (setFrame f x s).tileIngress = s.tileIngress := rfl
@[simp] theorem setFrame_ports : (setFrame f x s).ports = s.ports := rfl
@[simp] theorem setFrame_sampler : (setFrame f x s).sampler = s.sampler := rfl
@[simp] theorem setFrame_qps : (setFrame f x s).qps = s.qps := rfl
@[simp] theorem setFrame_ingress : (setFrame f x s).ingress = s.ingress := rfl
@[simp] theorem setFrame_out : (setFrame f x s).out = s.out := rfl
@[simp] theorem setFrame_pair : (setFrame f x s).pair = s.pair := rfl
@[simp] theorem setFrame_ringMap : (setFrame f x s).ringMap = s.ringMap := rfl
@[simp] theorem setFrame_ringWaits : (setFrame f x s).ringWaits = s.ringWaits := rfl
@[simp] theorem setFrame_survey : (setFrame f x s).survey = s.survey := rfl
@[simp] theorem setFrame_sec : (setFrame f x s).sec = s.sec := rfl
@[simp] theorem setFrame_draws : (setFrame f x s).draws = s.draws := rfl
end

section
variable (i : Nat) (x : Session)
@[simp] theorem setSess_pending : (setSess i x s).pending = s.pending := rfl
@[simp] theorem setSess_power : (setSess i x s).power = s.power := rfl
@[simp] theorem setSess_pace : (setSess i x s).pace = s.pace := rfl
@[simp] theorem setSess_time : (setSess i x s).time = s.time := rfl
@[simp] theorem setSess_dict : (setSess i x s).dict = s.dict := rfl
@[simp] theorem setSess_mgmt : (setSess i x s).mgmt = s.mgmt := rfl
@[simp] theorem setSess_mode : (setSess i x s).mode = s.mode := rfl
@[simp] theorem setSess_fatal : (setSess i x s).fatal = s.fatal := rfl
@[simp] theorem setSess_scrubbedAt : (setSess i x s).scrubbedAt = s.scrubbedAt := rfl
@[simp] theorem setSess_csr : (setSess i x s).csr = s.csr := rfl
@[simp] theorem setSess_sessions : (setSess i x s).sessions = Tab.put s.sessions i x := rfl
@[simp] theorem setSess_freed : (setSess i x s).freed = s.freed := rfl
@[simp] theorem setSess_frames : (setSess i x s).frames = s.frames := rfl
@[simp] theorem setSess_hbm : (setSess i x s).hbm = s.hbm := rfl
@[simp] theorem setSess_fills : (setSess i x s).fills = s.fills := rfl
@[simp] theorem setSess_mapCache : (setSess i x s).mapCache = s.mapCache := rfl
@[simp] theorem setSess_models : (setSess i x s).models = s.models := rfl
@[simp] theorem setSess_ropes : (setSess i x s).ropes = s.ropes := rfl
@[simp] theorem setSess_ropeLoads : (setSess i x s).ropeLoads = s.ropeLoads := rfl
@[simp] theorem setSess_fielders : (setSess i x s).fielders = s.fielders := rfl
@[simp] theorem setSess_catchers : (setSess i x s).catchers = s.catchers := rfl
@[simp] theorem setSess_merges : (setSess i x s).merges = s.merges := rfl
@[simp] theorem setSess_mergeTag : (setSess i x s).mergeTag = s.mergeTag := rfl
@[simp] theorem setSess_jobs : (setSess i x s).jobs = s.jobs := rfl
@[simp] theorem setSess_parts : (setSess i x s).parts = s.parts := rfl
@[simp] theorem setSess_roleAt : (setSess i x s).roleAt = s.roleAt := rfl
@[simp] theorem setSess_ropeCount : (setSess i x s).ropeCount = s.ropeCount := rfl
@[simp] theorem setSess_contexts : (setSess i x s).contexts = s.contexts := rfl
@[simp] theorem setSess_lastTeardown : (setSess i x s).lastTeardown = s.lastTeardown := rfl
@[simp] theorem setSess_vocabs : (setSess i x s).vocabs = s.vocabs := rfl
@[simp] theorem setSess_grammars : (setSess i x s).grammars = s.grammars := rfl
@[simp] theorem setSess_lists : (setSess i x s).lists = s.lists := rfl
@[simp] theorem setSess_stages : (setSess i x s).stages = s.stages := rfl
@[simp] theorem setSess_segments : (setSess i x s).segments = s.segments := rfl
@[simp] theorem setSess_masks : (setSess i x s).masks = s.masks := rfl
@[simp] theorem setSess_indexes : (setSess i x s).indexes = s.indexes := rfl
@[simp] theorem setSess_searches : (setSess i x s).searches = s.searches := rfl
@[simp] theorem setSess_searchWaits : (setSess i x s).searchWaits = s.searchWaits := rfl
@[simp] theorem setSess_searchCount : (setSess i x s).searchCount = s.searchCount := rfl
@[simp] theorem setSess_hostSlots : (setSess i x s).hostSlots = s.hostSlots := rfl
@[simp] theorem setSess_poolSlots : (setSess i x s).poolSlots = s.poolSlots := rfl
@[simp] theorem setSess_hostRanges : (setSess i x s).hostRanges = s.hostRanges := rfl
@[simp] theorem setSess_poolRanges : (setSess i x s).poolRanges = s.poolRanges := rfl
@[simp] theorem setSess_hostId : (setSess i x s).hostId = s.hostId := rfl
@[simp] theorem setSess_poolChannels : (setSess i x s).poolChannels = s.poolChannels := rfl
@[simp] theorem setSess_transfers : (setSess i x s).transfers = s.transfers := rfl
@[simp] theorem setSess_reviveTurn : (setSess i x s).reviveTurn = s.reviveTurn := rfl
@[simp] theorem setSess_nextTile : (setSess i x s).nextTile = s.nextTile := rfl
@[simp] theorem setSess_regions : (setSess i x s).regions = s.regions := rfl
@[simp] theorem setSess_leaseCount : (setSess i x s).leaseCount = s.leaseCount := rfl
@[simp] theorem setSess_publishes : (setSess i x s).publishes = s.publishes := rfl
@[simp] theorem setSess_publishCount : (setSess i x s).publishCount = s.publishCount := rfl
@[simp] theorem setSess_retained : (setSess i x s).retained = s.retained := rfl
@[simp] theorem setSess_attachments : (setSess i x s).attachments = s.attachments := rfl
@[simp] theorem setSess_regionJobs : (setSess i x s).regionJobs = s.regionJobs := rfl
@[simp] theorem setSess_wrs : (setSess i x s).wrs = s.wrs := rfl
@[simp] theorem setSess_wrCount : (setSess i x s).wrCount = s.wrCount := rfl
@[simp] theorem setSess_triggers : (setSess i x s).triggers = s.triggers := rfl
@[simp] theorem setSess_waits : (setSess i x s).waits = s.waits := rfl
@[simp] theorem setSess_tagCount : (setSess i x s).tagCount = s.tagCount := rfl
@[simp] theorem setSess_held : (setSess i x s).held = s.held := rfl
@[simp] theorem setSess_tileIngress : (setSess i x s).tileIngress = s.tileIngress := rfl
@[simp] theorem setSess_ports : (setSess i x s).ports = s.ports := rfl
@[simp] theorem setSess_sampler : (setSess i x s).sampler = s.sampler := rfl
@[simp] theorem setSess_qps : (setSess i x s).qps = s.qps := rfl
@[simp] theorem setSess_ingress : (setSess i x s).ingress = s.ingress := rfl
@[simp] theorem setSess_out : (setSess i x s).out = s.out := rfl
@[simp] theorem setSess_pair : (setSess i x s).pair = s.pair := rfl
@[simp] theorem setSess_ringMap : (setSess i x s).ringMap = s.ringMap := rfl
@[simp] theorem setSess_ringWaits : (setSess i x s).ringWaits = s.ringWaits := rfl
@[simp] theorem setSess_survey : (setSess i x s).survey = s.survey := rfl
@[simp] theorem setSess_sec : (setSess i x s).sec = s.sec := rfl
@[simp] theorem setSess_draws : (setSess i x s).draws = s.draws := rfl
end

section
variable (i : Nat) (f : Session → Session)
@[simp] theorem modSess_pending : (modSess i f s).pending = s.pending := rfl
@[simp] theorem modSess_power : (modSess i f s).power = s.power := rfl
@[simp] theorem modSess_pace : (modSess i f s).pace = s.pace := rfl
@[simp] theorem modSess_time : (modSess i f s).time = s.time := rfl
@[simp] theorem modSess_dict : (modSess i f s).dict = s.dict := rfl
@[simp] theorem modSess_mgmt : (modSess i f s).mgmt = s.mgmt := rfl
@[simp] theorem modSess_mode : (modSess i f s).mode = s.mode := rfl
@[simp] theorem modSess_fatal : (modSess i f s).fatal = s.fatal := rfl
@[simp] theorem modSess_scrubbedAt : (modSess i f s).scrubbedAt = s.scrubbedAt := rfl
@[simp] theorem modSess_csr : (modSess i f s).csr = s.csr := rfl
@[simp] theorem modSess_sessions : (modSess i f s).sessions = Tab.put s.sessions i (f (sessAt s i)) := rfl
@[simp] theorem modSess_freed : (modSess i f s).freed = s.freed := rfl
@[simp] theorem modSess_frames : (modSess i f s).frames = s.frames := rfl
@[simp] theorem modSess_hbm : (modSess i f s).hbm = s.hbm := rfl
@[simp] theorem modSess_fills : (modSess i f s).fills = s.fills := rfl
@[simp] theorem modSess_mapCache : (modSess i f s).mapCache = s.mapCache := rfl
@[simp] theorem modSess_models : (modSess i f s).models = s.models := rfl
@[simp] theorem modSess_ropes : (modSess i f s).ropes = s.ropes := rfl
@[simp] theorem modSess_ropeLoads : (modSess i f s).ropeLoads = s.ropeLoads := rfl
@[simp] theorem modSess_fielders : (modSess i f s).fielders = s.fielders := rfl
@[simp] theorem modSess_catchers : (modSess i f s).catchers = s.catchers := rfl
@[simp] theorem modSess_merges : (modSess i f s).merges = s.merges := rfl
@[simp] theorem modSess_mergeTag : (modSess i f s).mergeTag = s.mergeTag := rfl
@[simp] theorem modSess_jobs : (modSess i f s).jobs = s.jobs := rfl
@[simp] theorem modSess_parts : (modSess i f s).parts = s.parts := rfl
@[simp] theorem modSess_roleAt : (modSess i f s).roleAt = s.roleAt := rfl
@[simp] theorem modSess_ropeCount : (modSess i f s).ropeCount = s.ropeCount := rfl
@[simp] theorem modSess_contexts : (modSess i f s).contexts = s.contexts := rfl
@[simp] theorem modSess_lastTeardown : (modSess i f s).lastTeardown = s.lastTeardown := rfl
@[simp] theorem modSess_vocabs : (modSess i f s).vocabs = s.vocabs := rfl
@[simp] theorem modSess_grammars : (modSess i f s).grammars = s.grammars := rfl
@[simp] theorem modSess_lists : (modSess i f s).lists = s.lists := rfl
@[simp] theorem modSess_stages : (modSess i f s).stages = s.stages := rfl
@[simp] theorem modSess_segments : (modSess i f s).segments = s.segments := rfl
@[simp] theorem modSess_masks : (modSess i f s).masks = s.masks := rfl
@[simp] theorem modSess_indexes : (modSess i f s).indexes = s.indexes := rfl
@[simp] theorem modSess_searches : (modSess i f s).searches = s.searches := rfl
@[simp] theorem modSess_searchWaits : (modSess i f s).searchWaits = s.searchWaits := rfl
@[simp] theorem modSess_searchCount : (modSess i f s).searchCount = s.searchCount := rfl
@[simp] theorem modSess_hostSlots : (modSess i f s).hostSlots = s.hostSlots := rfl
@[simp] theorem modSess_poolSlots : (modSess i f s).poolSlots = s.poolSlots := rfl
@[simp] theorem modSess_hostRanges : (modSess i f s).hostRanges = s.hostRanges := rfl
@[simp] theorem modSess_poolRanges : (modSess i f s).poolRanges = s.poolRanges := rfl
@[simp] theorem modSess_hostId : (modSess i f s).hostId = s.hostId := rfl
@[simp] theorem modSess_poolChannels : (modSess i f s).poolChannels = s.poolChannels := rfl
@[simp] theorem modSess_transfers : (modSess i f s).transfers = s.transfers := rfl
@[simp] theorem modSess_reviveTurn : (modSess i f s).reviveTurn = s.reviveTurn := rfl
@[simp] theorem modSess_nextTile : (modSess i f s).nextTile = s.nextTile := rfl
@[simp] theorem modSess_regions : (modSess i f s).regions = s.regions := rfl
@[simp] theorem modSess_leaseCount : (modSess i f s).leaseCount = s.leaseCount := rfl
@[simp] theorem modSess_publishes : (modSess i f s).publishes = s.publishes := rfl
@[simp] theorem modSess_publishCount : (modSess i f s).publishCount = s.publishCount := rfl
@[simp] theorem modSess_retained : (modSess i f s).retained = s.retained := rfl
@[simp] theorem modSess_attachments : (modSess i f s).attachments = s.attachments := rfl
@[simp] theorem modSess_regionJobs : (modSess i f s).regionJobs = s.regionJobs := rfl
@[simp] theorem modSess_wrs : (modSess i f s).wrs = s.wrs := rfl
@[simp] theorem modSess_wrCount : (modSess i f s).wrCount = s.wrCount := rfl
@[simp] theorem modSess_triggers : (modSess i f s).triggers = s.triggers := rfl
@[simp] theorem modSess_waits : (modSess i f s).waits = s.waits := rfl
@[simp] theorem modSess_tagCount : (modSess i f s).tagCount = s.tagCount := rfl
@[simp] theorem modSess_held : (modSess i f s).held = s.held := rfl
@[simp] theorem modSess_tileIngress : (modSess i f s).tileIngress = s.tileIngress := rfl
@[simp] theorem modSess_ports : (modSess i f s).ports = s.ports := rfl
@[simp] theorem modSess_sampler : (modSess i f s).sampler = s.sampler := rfl
@[simp] theorem modSess_qps : (modSess i f s).qps = s.qps := rfl
@[simp] theorem modSess_ingress : (modSess i f s).ingress = s.ingress := rfl
@[simp] theorem modSess_out : (modSess i f s).out = s.out := rfl
@[simp] theorem modSess_pair : (modSess i f s).pair = s.pair := rfl
@[simp] theorem modSess_ringMap : (modSess i f s).ringMap = s.ringMap := rfl
@[simp] theorem modSess_ringWaits : (modSess i f s).ringWaits = s.ringWaits := rfl
@[simp] theorem modSess_survey : (modSess i f s).survey = s.survey := rfl
@[simp] theorem modSess_sec : (modSess i f s).sec = s.sec := rfl
@[simp] theorem modSess_draws : (modSess i f s).draws = s.draws := rfl
end

section
variable (n : Nat) (q : Qp)
@[simp] theorem setQp_pending : (setQp n q s).pending = s.pending := rfl
@[simp] theorem setQp_power : (setQp n q s).power = s.power := rfl
@[simp] theorem setQp_pace : (setQp n q s).pace = s.pace := rfl
@[simp] theorem setQp_time : (setQp n q s).time = s.time := rfl
@[simp] theorem setQp_dict : (setQp n q s).dict = s.dict := rfl
@[simp] theorem setQp_mgmt : (setQp n q s).mgmt = s.mgmt := rfl
@[simp] theorem setQp_mode : (setQp n q s).mode = s.mode := rfl
@[simp] theorem setQp_fatal : (setQp n q s).fatal = s.fatal := rfl
@[simp] theorem setQp_scrubbedAt : (setQp n q s).scrubbedAt = s.scrubbedAt := rfl
@[simp] theorem setQp_csr : (setQp n q s).csr = s.csr := rfl
@[simp] theorem setQp_sessions : (setQp n q s).sessions = s.sessions := rfl
@[simp] theorem setQp_freed : (setQp n q s).freed = s.freed := rfl
@[simp] theorem setQp_frames : (setQp n q s).frames = s.frames := rfl
@[simp] theorem setQp_hbm : (setQp n q s).hbm = s.hbm := rfl
@[simp] theorem setQp_fills : (setQp n q s).fills = s.fills := rfl
@[simp] theorem setQp_mapCache : (setQp n q s).mapCache = s.mapCache := rfl
@[simp] theorem setQp_models : (setQp n q s).models = s.models := rfl
@[simp] theorem setQp_ropes : (setQp n q s).ropes = s.ropes := rfl
@[simp] theorem setQp_ropeLoads : (setQp n q s).ropeLoads = s.ropeLoads := rfl
@[simp] theorem setQp_fielders : (setQp n q s).fielders = s.fielders := rfl
@[simp] theorem setQp_catchers : (setQp n q s).catchers = s.catchers := rfl
@[simp] theorem setQp_merges : (setQp n q s).merges = s.merges := rfl
@[simp] theorem setQp_mergeTag : (setQp n q s).mergeTag = s.mergeTag := rfl
@[simp] theorem setQp_jobs : (setQp n q s).jobs = s.jobs := rfl
@[simp] theorem setQp_parts : (setQp n q s).parts = s.parts := rfl
@[simp] theorem setQp_roleAt : (setQp n q s).roleAt = s.roleAt := rfl
@[simp] theorem setQp_ropeCount : (setQp n q s).ropeCount = s.ropeCount := rfl
@[simp] theorem setQp_contexts : (setQp n q s).contexts = s.contexts := rfl
@[simp] theorem setQp_lastTeardown : (setQp n q s).lastTeardown = s.lastTeardown := rfl
@[simp] theorem setQp_vocabs : (setQp n q s).vocabs = s.vocabs := rfl
@[simp] theorem setQp_grammars : (setQp n q s).grammars = s.grammars := rfl
@[simp] theorem setQp_lists : (setQp n q s).lists = s.lists := rfl
@[simp] theorem setQp_stages : (setQp n q s).stages = s.stages := rfl
@[simp] theorem setQp_segments : (setQp n q s).segments = s.segments := rfl
@[simp] theorem setQp_masks : (setQp n q s).masks = s.masks := rfl
@[simp] theorem setQp_indexes : (setQp n q s).indexes = s.indexes := rfl
@[simp] theorem setQp_searches : (setQp n q s).searches = s.searches := rfl
@[simp] theorem setQp_searchWaits : (setQp n q s).searchWaits = s.searchWaits := rfl
@[simp] theorem setQp_searchCount : (setQp n q s).searchCount = s.searchCount := rfl
@[simp] theorem setQp_hostSlots : (setQp n q s).hostSlots = s.hostSlots := rfl
@[simp] theorem setQp_poolSlots : (setQp n q s).poolSlots = s.poolSlots := rfl
@[simp] theorem setQp_hostRanges : (setQp n q s).hostRanges = s.hostRanges := rfl
@[simp] theorem setQp_poolRanges : (setQp n q s).poolRanges = s.poolRanges := rfl
@[simp] theorem setQp_hostId : (setQp n q s).hostId = s.hostId := rfl
@[simp] theorem setQp_poolChannels : (setQp n q s).poolChannels = s.poolChannels := rfl
@[simp] theorem setQp_transfers : (setQp n q s).transfers = s.transfers := rfl
@[simp] theorem setQp_reviveTurn : (setQp n q s).reviveTurn = s.reviveTurn := rfl
@[simp] theorem setQp_nextTile : (setQp n q s).nextTile = s.nextTile := rfl
@[simp] theorem setQp_regions : (setQp n q s).regions = s.regions := rfl
@[simp] theorem setQp_leaseCount : (setQp n q s).leaseCount = s.leaseCount := rfl
@[simp] theorem setQp_publishes : (setQp n q s).publishes = s.publishes := rfl
@[simp] theorem setQp_publishCount : (setQp n q s).publishCount = s.publishCount := rfl
@[simp] theorem setQp_retained : (setQp n q s).retained = s.retained := rfl
@[simp] theorem setQp_attachments : (setQp n q s).attachments = s.attachments := rfl
@[simp] theorem setQp_regionJobs : (setQp n q s).regionJobs = s.regionJobs := rfl
@[simp] theorem setQp_wrs : (setQp n q s).wrs = s.wrs := rfl
@[simp] theorem setQp_wrCount : (setQp n q s).wrCount = s.wrCount := rfl
@[simp] theorem setQp_triggers : (setQp n q s).triggers = s.triggers := rfl
@[simp] theorem setQp_waits : (setQp n q s).waits = s.waits := rfl
@[simp] theorem setQp_tagCount : (setQp n q s).tagCount = s.tagCount := rfl
@[simp] theorem setQp_held : (setQp n q s).held = s.held := rfl
@[simp] theorem setQp_tileIngress : (setQp n q s).tileIngress = s.tileIngress := rfl
@[simp] theorem setQp_ports : (setQp n q s).ports = s.ports := rfl
@[simp] theorem setQp_sampler : (setQp n q s).sampler = s.sampler := rfl
@[simp] theorem setQp_qps : (setQp n q s).qps = Tab.put s.qps n q := rfl
@[simp] theorem setQp_ingress : (setQp n q s).ingress = s.ingress := rfl
@[simp] theorem setQp_out : (setQp n q s).out = s.out := rfl
@[simp] theorem setQp_pair : (setQp n q s).pair = s.pair := rfl
@[simp] theorem setQp_ringMap : (setQp n q s).ringMap = s.ringMap := rfl
@[simp] theorem setQp_ringWaits : (setQp n q s).ringWaits = s.ringWaits := rfl
@[simp] theorem setQp_survey : (setQp n q s).survey = s.survey := rfl
@[simp] theorem setQp_sec : (setQp n q s).sec = s.sec := rfl
@[simp] theorem setQp_draws : (setQp n q s).draws = s.draws := rfl
end

section
variable (k : Nat) (p : Port)
@[simp] theorem setPort_pending : (setPort k p s).pending = s.pending := rfl
@[simp] theorem setPort_power : (setPort k p s).power = s.power := rfl
@[simp] theorem setPort_pace : (setPort k p s).pace = s.pace := rfl
@[simp] theorem setPort_time : (setPort k p s).time = s.time := rfl
@[simp] theorem setPort_dict : (setPort k p s).dict = s.dict := rfl
@[simp] theorem setPort_mgmt : (setPort k p s).mgmt = s.mgmt := rfl
@[simp] theorem setPort_mode : (setPort k p s).mode = s.mode := rfl
@[simp] theorem setPort_fatal : (setPort k p s).fatal = s.fatal := rfl
@[simp] theorem setPort_scrubbedAt : (setPort k p s).scrubbedAt = s.scrubbedAt := rfl
@[simp] theorem setPort_csr : (setPort k p s).csr = s.csr := rfl
@[simp] theorem setPort_sessions : (setPort k p s).sessions = s.sessions := rfl
@[simp] theorem setPort_freed : (setPort k p s).freed = s.freed := rfl
@[simp] theorem setPort_frames : (setPort k p s).frames = s.frames := rfl
@[simp] theorem setPort_hbm : (setPort k p s).hbm = s.hbm := rfl
@[simp] theorem setPort_fills : (setPort k p s).fills = s.fills := rfl
@[simp] theorem setPort_mapCache : (setPort k p s).mapCache = s.mapCache := rfl
@[simp] theorem setPort_models : (setPort k p s).models = s.models := rfl
@[simp] theorem setPort_ropes : (setPort k p s).ropes = s.ropes := rfl
@[simp] theorem setPort_ropeLoads : (setPort k p s).ropeLoads = s.ropeLoads := rfl
@[simp] theorem setPort_fielders : (setPort k p s).fielders = s.fielders := rfl
@[simp] theorem setPort_catchers : (setPort k p s).catchers = s.catchers := rfl
@[simp] theorem setPort_merges : (setPort k p s).merges = s.merges := rfl
@[simp] theorem setPort_mergeTag : (setPort k p s).mergeTag = s.mergeTag := rfl
@[simp] theorem setPort_jobs : (setPort k p s).jobs = s.jobs := rfl
@[simp] theorem setPort_parts : (setPort k p s).parts = s.parts := rfl
@[simp] theorem setPort_roleAt : (setPort k p s).roleAt = s.roleAt := rfl
@[simp] theorem setPort_ropeCount : (setPort k p s).ropeCount = s.ropeCount := rfl
@[simp] theorem setPort_contexts : (setPort k p s).contexts = s.contexts := rfl
@[simp] theorem setPort_lastTeardown : (setPort k p s).lastTeardown = s.lastTeardown := rfl
@[simp] theorem setPort_vocabs : (setPort k p s).vocabs = s.vocabs := rfl
@[simp] theorem setPort_grammars : (setPort k p s).grammars = s.grammars := rfl
@[simp] theorem setPort_lists : (setPort k p s).lists = s.lists := rfl
@[simp] theorem setPort_stages : (setPort k p s).stages = s.stages := rfl
@[simp] theorem setPort_segments : (setPort k p s).segments = s.segments := rfl
@[simp] theorem setPort_masks : (setPort k p s).masks = s.masks := rfl
@[simp] theorem setPort_indexes : (setPort k p s).indexes = s.indexes := rfl
@[simp] theorem setPort_searches : (setPort k p s).searches = s.searches := rfl
@[simp] theorem setPort_searchWaits : (setPort k p s).searchWaits = s.searchWaits := rfl
@[simp] theorem setPort_searchCount : (setPort k p s).searchCount = s.searchCount := rfl
@[simp] theorem setPort_hostSlots : (setPort k p s).hostSlots = s.hostSlots := rfl
@[simp] theorem setPort_poolSlots : (setPort k p s).poolSlots = s.poolSlots := rfl
@[simp] theorem setPort_hostRanges : (setPort k p s).hostRanges = s.hostRanges := rfl
@[simp] theorem setPort_poolRanges : (setPort k p s).poolRanges = s.poolRanges := rfl
@[simp] theorem setPort_hostId : (setPort k p s).hostId = s.hostId := rfl
@[simp] theorem setPort_poolChannels : (setPort k p s).poolChannels = s.poolChannels := rfl
@[simp] theorem setPort_transfers : (setPort k p s).transfers = s.transfers := rfl
@[simp] theorem setPort_reviveTurn : (setPort k p s).reviveTurn = s.reviveTurn := rfl
@[simp] theorem setPort_nextTile : (setPort k p s).nextTile = s.nextTile := rfl
@[simp] theorem setPort_regions : (setPort k p s).regions = s.regions := rfl
@[simp] theorem setPort_leaseCount : (setPort k p s).leaseCount = s.leaseCount := rfl
@[simp] theorem setPort_publishes : (setPort k p s).publishes = s.publishes := rfl
@[simp] theorem setPort_publishCount : (setPort k p s).publishCount = s.publishCount := rfl
@[simp] theorem setPort_retained : (setPort k p s).retained = s.retained := rfl
@[simp] theorem setPort_attachments : (setPort k p s).attachments = s.attachments := rfl
@[simp] theorem setPort_regionJobs : (setPort k p s).regionJobs = s.regionJobs := rfl
@[simp] theorem setPort_wrs : (setPort k p s).wrs = s.wrs := rfl
@[simp] theorem setPort_wrCount : (setPort k p s).wrCount = s.wrCount := rfl
@[simp] theorem setPort_triggers : (setPort k p s).triggers = s.triggers := rfl
@[simp] theorem setPort_waits : (setPort k p s).waits = s.waits := rfl
@[simp] theorem setPort_tagCount : (setPort k p s).tagCount = s.tagCount := rfl
@[simp] theorem setPort_held : (setPort k p s).held = s.held := rfl
@[simp] theorem setPort_tileIngress : (setPort k p s).tileIngress = s.tileIngress := rfl
@[simp] theorem setPort_ports : (setPort k p s).ports = Tab.put s.ports k p := rfl
@[simp] theorem setPort_sampler : (setPort k p s).sampler = s.sampler := rfl
@[simp] theorem setPort_qps : (setPort k p s).qps = s.qps := rfl
@[simp] theorem setPort_ingress : (setPort k p s).ingress = s.ingress := rfl
@[simp] theorem setPort_out : (setPort k p s).out = s.out := rfl
@[simp] theorem setPort_pair : (setPort k p s).pair = s.pair := rfl
@[simp] theorem setPort_ringMap : (setPort k p s).ringMap = s.ringMap := rfl
@[simp] theorem setPort_ringWaits : (setPort k p s).ringWaits = s.ringWaits := rfl
@[simp] theorem setPort_survey : (setPort k p s).survey = s.survey := rfl
@[simp] theorem setPort_sec : (setPort k p s).sec = s.sec := rfl
@[simp] theorem setPort_draws : (setPort k p s).draws = s.draws := rfl
end

section
variable (p : Nat) (f : Part → Part)
@[simp] theorem modPart_pending : (modPart p f s).pending = s.pending := rfl
@[simp] theorem modPart_power : (modPart p f s).power = s.power := rfl
@[simp] theorem modPart_pace : (modPart p f s).pace = s.pace := rfl
@[simp] theorem modPart_time : (modPart p f s).time = s.time := rfl
@[simp] theorem modPart_dict : (modPart p f s).dict = s.dict := rfl
@[simp] theorem modPart_mgmt : (modPart p f s).mgmt = s.mgmt := rfl
@[simp] theorem modPart_mode : (modPart p f s).mode = s.mode := rfl
@[simp] theorem modPart_fatal : (modPart p f s).fatal = s.fatal := rfl
@[simp] theorem modPart_scrubbedAt : (modPart p f s).scrubbedAt = s.scrubbedAt := rfl
@[simp] theorem modPart_csr : (modPart p f s).csr = s.csr := rfl
@[simp] theorem modPart_sessions : (modPart p f s).sessions = s.sessions := rfl
@[simp] theorem modPart_freed : (modPart p f s).freed = s.freed := rfl
@[simp] theorem modPart_frames : (modPart p f s).frames = s.frames := rfl
@[simp] theorem modPart_hbm : (modPart p f s).hbm = s.hbm := rfl
@[simp] theorem modPart_fills : (modPart p f s).fills = s.fills := rfl
@[simp] theorem modPart_mapCache : (modPart p f s).mapCache = s.mapCache := rfl
@[simp] theorem modPart_models : (modPart p f s).models = s.models := rfl
@[simp] theorem modPart_ropes : (modPart p f s).ropes = s.ropes := rfl
@[simp] theorem modPart_ropeLoads : (modPart p f s).ropeLoads = s.ropeLoads := rfl
@[simp] theorem modPart_fielders : (modPart p f s).fielders = s.fielders := rfl
@[simp] theorem modPart_catchers : (modPart p f s).catchers = s.catchers := rfl
@[simp] theorem modPart_merges : (modPart p f s).merges = s.merges := rfl
@[simp] theorem modPart_mergeTag : (modPart p f s).mergeTag = s.mergeTag := rfl
@[simp] theorem modPart_jobs : (modPart p f s).jobs = s.jobs := rfl
@[simp] theorem modPart_parts : (modPart p f s).parts = Tab.put s.parts p (f (partAt s p)) := rfl
@[simp] theorem modPart_roleAt : (modPart p f s).roleAt = s.roleAt := rfl
@[simp] theorem modPart_ropeCount : (modPart p f s).ropeCount = s.ropeCount := rfl
@[simp] theorem modPart_contexts : (modPart p f s).contexts = s.contexts := rfl
@[simp] theorem modPart_lastTeardown : (modPart p f s).lastTeardown = s.lastTeardown := rfl
@[simp] theorem modPart_vocabs : (modPart p f s).vocabs = s.vocabs := rfl
@[simp] theorem modPart_grammars : (modPart p f s).grammars = s.grammars := rfl
@[simp] theorem modPart_lists : (modPart p f s).lists = s.lists := rfl
@[simp] theorem modPart_stages : (modPart p f s).stages = s.stages := rfl
@[simp] theorem modPart_segments : (modPart p f s).segments = s.segments := rfl
@[simp] theorem modPart_masks : (modPart p f s).masks = s.masks := rfl
@[simp] theorem modPart_indexes : (modPart p f s).indexes = s.indexes := rfl
@[simp] theorem modPart_searches : (modPart p f s).searches = s.searches := rfl
@[simp] theorem modPart_searchWaits : (modPart p f s).searchWaits = s.searchWaits := rfl
@[simp] theorem modPart_searchCount : (modPart p f s).searchCount = s.searchCount := rfl
@[simp] theorem modPart_hostSlots : (modPart p f s).hostSlots = s.hostSlots := rfl
@[simp] theorem modPart_poolSlots : (modPart p f s).poolSlots = s.poolSlots := rfl
@[simp] theorem modPart_hostRanges : (modPart p f s).hostRanges = s.hostRanges := rfl
@[simp] theorem modPart_poolRanges : (modPart p f s).poolRanges = s.poolRanges := rfl
@[simp] theorem modPart_hostId : (modPart p f s).hostId = s.hostId := rfl
@[simp] theorem modPart_poolChannels : (modPart p f s).poolChannels = s.poolChannels := rfl
@[simp] theorem modPart_transfers : (modPart p f s).transfers = s.transfers := rfl
@[simp] theorem modPart_reviveTurn : (modPart p f s).reviveTurn = s.reviveTurn := rfl
@[simp] theorem modPart_nextTile : (modPart p f s).nextTile = s.nextTile := rfl
@[simp] theorem modPart_regions : (modPart p f s).regions = s.regions := rfl
@[simp] theorem modPart_leaseCount : (modPart p f s).leaseCount = s.leaseCount := rfl
@[simp] theorem modPart_publishes : (modPart p f s).publishes = s.publishes := rfl
@[simp] theorem modPart_publishCount : (modPart p f s).publishCount = s.publishCount := rfl
@[simp] theorem modPart_retained : (modPart p f s).retained = s.retained := rfl
@[simp] theorem modPart_attachments : (modPart p f s).attachments = s.attachments := rfl
@[simp] theorem modPart_regionJobs : (modPart p f s).regionJobs = s.regionJobs := rfl
@[simp] theorem modPart_wrs : (modPart p f s).wrs = s.wrs := rfl
@[simp] theorem modPart_wrCount : (modPart p f s).wrCount = s.wrCount := rfl
@[simp] theorem modPart_triggers : (modPart p f s).triggers = s.triggers := rfl
@[simp] theorem modPart_waits : (modPart p f s).waits = s.waits := rfl
@[simp] theorem modPart_tagCount : (modPart p f s).tagCount = s.tagCount := rfl
@[simp] theorem modPart_held : (modPart p f s).held = s.held := rfl
@[simp] theorem modPart_tileIngress : (modPart p f s).tileIngress = s.tileIngress := rfl
@[simp] theorem modPart_ports : (modPart p f s).ports = s.ports := rfl
@[simp] theorem modPart_sampler : (modPart p f s).sampler = s.sampler := rfl
@[simp] theorem modPart_qps : (modPart p f s).qps = s.qps := rfl
@[simp] theorem modPart_ingress : (modPart p f s).ingress = s.ingress := rfl
@[simp] theorem modPart_out : (modPart p f s).out = s.out := rfl
@[simp] theorem modPart_pair : (modPart p f s).pair = s.pair := rfl
@[simp] theorem modPart_ringMap : (modPart p f s).ringMap = s.ringMap := rfl
@[simp] theorem modPart_ringWaits : (modPart p f s).ringWaits = s.ringWaits := rfl
@[simp] theorem modPart_survey : (modPart p f s).survey = s.survey := rfl
@[simp] theorem modPart_sec : (modPart p f s).sec = s.sec := rfl
@[simp] theorem modPart_draws : (modPart p f s).draws = s.draws := rfl
end

section
variable (a : Nat) (l : List Byte)
@[simp] theorem writeBytes_pending : (writeBytes a l s).pending = s.pending := rfl
@[simp] theorem writeBytes_power : (writeBytes a l s).power = s.power := rfl
@[simp] theorem writeBytes_pace : (writeBytes a l s).pace = s.pace := rfl
@[simp] theorem writeBytes_time : (writeBytes a l s).time = s.time := rfl
@[simp] theorem writeBytes_dict : (writeBytes a l s).dict = s.dict := rfl
@[simp] theorem writeBytes_mgmt : (writeBytes a l s).mgmt = s.mgmt := rfl
@[simp] theorem writeBytes_mode : (writeBytes a l s).mode = s.mode := rfl
@[simp] theorem writeBytes_fatal : (writeBytes a l s).fatal = s.fatal := rfl
@[simp] theorem writeBytes_scrubbedAt : (writeBytes a l s).scrubbedAt = s.scrubbedAt := rfl
@[simp] theorem writeBytes_csr : (writeBytes a l s).csr = s.csr := rfl
@[simp] theorem writeBytes_sessions : (writeBytes a l s).sessions = s.sessions := rfl
@[simp] theorem writeBytes_freed : (writeBytes a l s).freed = s.freed := rfl
@[simp] theorem writeBytes_frames : (writeBytes a l s).frames = s.frames := rfl
@[simp] theorem writeBytes_hbm : (writeBytes a l s).hbm = memPutAll l a s.hbm := rfl
@[simp] theorem writeBytes_fills : (writeBytes a l s).fills = s.fills := rfl
@[simp] theorem writeBytes_mapCache : (writeBytes a l s).mapCache = s.mapCache := rfl
@[simp] theorem writeBytes_models : (writeBytes a l s).models = s.models := rfl
@[simp] theorem writeBytes_ropes : (writeBytes a l s).ropes = s.ropes := rfl
@[simp] theorem writeBytes_ropeLoads : (writeBytes a l s).ropeLoads = s.ropeLoads := rfl
@[simp] theorem writeBytes_fielders : (writeBytes a l s).fielders = s.fielders := rfl
@[simp] theorem writeBytes_catchers : (writeBytes a l s).catchers = s.catchers := rfl
@[simp] theorem writeBytes_merges : (writeBytes a l s).merges = s.merges := rfl
@[simp] theorem writeBytes_mergeTag : (writeBytes a l s).mergeTag = s.mergeTag := rfl
@[simp] theorem writeBytes_jobs : (writeBytes a l s).jobs = s.jobs := rfl
@[simp] theorem writeBytes_parts : (writeBytes a l s).parts = s.parts := rfl
@[simp] theorem writeBytes_roleAt : (writeBytes a l s).roleAt = s.roleAt := rfl
@[simp] theorem writeBytes_ropeCount : (writeBytes a l s).ropeCount = s.ropeCount := rfl
@[simp] theorem writeBytes_contexts : (writeBytes a l s).contexts = s.contexts := rfl
@[simp] theorem writeBytes_lastTeardown : (writeBytes a l s).lastTeardown = s.lastTeardown := rfl
@[simp] theorem writeBytes_vocabs : (writeBytes a l s).vocabs = s.vocabs := rfl
@[simp] theorem writeBytes_grammars : (writeBytes a l s).grammars = s.grammars := rfl
@[simp] theorem writeBytes_lists : (writeBytes a l s).lists = s.lists := rfl
@[simp] theorem writeBytes_stages : (writeBytes a l s).stages = s.stages := rfl
@[simp] theorem writeBytes_segments : (writeBytes a l s).segments = s.segments := rfl
@[simp] theorem writeBytes_masks : (writeBytes a l s).masks = s.masks := rfl
@[simp] theorem writeBytes_indexes : (writeBytes a l s).indexes = s.indexes := rfl
@[simp] theorem writeBytes_searches : (writeBytes a l s).searches = s.searches := rfl
@[simp] theorem writeBytes_searchWaits : (writeBytes a l s).searchWaits = s.searchWaits := rfl
@[simp] theorem writeBytes_searchCount : (writeBytes a l s).searchCount = s.searchCount := rfl
@[simp] theorem writeBytes_hostSlots : (writeBytes a l s).hostSlots = s.hostSlots := rfl
@[simp] theorem writeBytes_poolSlots : (writeBytes a l s).poolSlots = s.poolSlots := rfl
@[simp] theorem writeBytes_hostRanges : (writeBytes a l s).hostRanges = s.hostRanges := rfl
@[simp] theorem writeBytes_poolRanges : (writeBytes a l s).poolRanges = s.poolRanges := rfl
@[simp] theorem writeBytes_hostId : (writeBytes a l s).hostId = s.hostId := rfl
@[simp] theorem writeBytes_poolChannels : (writeBytes a l s).poolChannels = s.poolChannels := rfl
@[simp] theorem writeBytes_transfers : (writeBytes a l s).transfers = s.transfers := rfl
@[simp] theorem writeBytes_reviveTurn : (writeBytes a l s).reviveTurn = s.reviveTurn := rfl
@[simp] theorem writeBytes_nextTile : (writeBytes a l s).nextTile = s.nextTile := rfl
@[simp] theorem writeBytes_regions : (writeBytes a l s).regions = s.regions := rfl
@[simp] theorem writeBytes_leaseCount : (writeBytes a l s).leaseCount = s.leaseCount := rfl
@[simp] theorem writeBytes_publishes : (writeBytes a l s).publishes = s.publishes := rfl
@[simp] theorem writeBytes_publishCount : (writeBytes a l s).publishCount = s.publishCount := rfl
@[simp] theorem writeBytes_retained : (writeBytes a l s).retained = s.retained := rfl
@[simp] theorem writeBytes_attachments : (writeBytes a l s).attachments = s.attachments := rfl
@[simp] theorem writeBytes_regionJobs : (writeBytes a l s).regionJobs = s.regionJobs := rfl
@[simp] theorem writeBytes_wrs : (writeBytes a l s).wrs = s.wrs := rfl
@[simp] theorem writeBytes_wrCount : (writeBytes a l s).wrCount = s.wrCount := rfl
@[simp] theorem writeBytes_triggers : (writeBytes a l s).triggers = s.triggers := rfl
@[simp] theorem writeBytes_waits : (writeBytes a l s).waits = s.waits := rfl
@[simp] theorem writeBytes_tagCount : (writeBytes a l s).tagCount = s.tagCount := rfl
@[simp] theorem writeBytes_held : (writeBytes a l s).held = s.held := rfl
@[simp] theorem writeBytes_tileIngress : (writeBytes a l s).tileIngress = s.tileIngress := rfl
@[simp] theorem writeBytes_ports : (writeBytes a l s).ports = s.ports := rfl
@[simp] theorem writeBytes_sampler : (writeBytes a l s).sampler = s.sampler := rfl
@[simp] theorem writeBytes_qps : (writeBytes a l s).qps = s.qps := rfl
@[simp] theorem writeBytes_ingress : (writeBytes a l s).ingress = s.ingress := rfl
@[simp] theorem writeBytes_out : (writeBytes a l s).out = s.out := rfl
@[simp] theorem writeBytes_pair : (writeBytes a l s).pair = s.pair := rfl
@[simp] theorem writeBytes_ringMap : (writeBytes a l s).ringMap = s.ringMap := rfl
@[simp] theorem writeBytes_ringWaits : (writeBytes a l s).ringWaits = s.ringWaits := rfl
@[simp] theorem writeBytes_survey : (writeBytes a l s).survey = s.survey := rfl
@[simp] theorem writeBytes_sec : (writeBytes a l s).sec = s.sec := rfl
@[simp] theorem writeBytes_draws : (writeBytes a l s).draws = s.draws := rfl
end

section
variable (a n : Nat)
@[simp] theorem zeroBytes_pending : (zeroBytes a n s).pending = s.pending := rfl
@[simp] theorem zeroBytes_power : (zeroBytes a n s).power = s.power := rfl
@[simp] theorem zeroBytes_pace : (zeroBytes a n s).pace = s.pace := rfl
@[simp] theorem zeroBytes_time : (zeroBytes a n s).time = s.time := rfl
@[simp] theorem zeroBytes_dict : (zeroBytes a n s).dict = s.dict := rfl
@[simp] theorem zeroBytes_mgmt : (zeroBytes a n s).mgmt = s.mgmt := rfl
@[simp] theorem zeroBytes_mode : (zeroBytes a n s).mode = s.mode := rfl
@[simp] theorem zeroBytes_fatal : (zeroBytes a n s).fatal = s.fatal := rfl
@[simp] theorem zeroBytes_scrubbedAt : (zeroBytes a n s).scrubbedAt = s.scrubbedAt := rfl
@[simp] theorem zeroBytes_csr : (zeroBytes a n s).csr = s.csr := rfl
@[simp] theorem zeroBytes_sessions : (zeroBytes a n s).sessions = s.sessions := rfl
@[simp] theorem zeroBytes_freed : (zeroBytes a n s).freed = s.freed := rfl
@[simp] theorem zeroBytes_frames : (zeroBytes a n s).frames = s.frames := rfl
@[simp] theorem zeroBytes_hbm : (zeroBytes a n s).hbm = memZero s.hbm a n := rfl
@[simp] theorem zeroBytes_fills : (zeroBytes a n s).fills = s.fills := rfl
@[simp] theorem zeroBytes_mapCache : (zeroBytes a n s).mapCache = s.mapCache := rfl
@[simp] theorem zeroBytes_models : (zeroBytes a n s).models = s.models := rfl
@[simp] theorem zeroBytes_ropes : (zeroBytes a n s).ropes = s.ropes := rfl
@[simp] theorem zeroBytes_ropeLoads : (zeroBytes a n s).ropeLoads = s.ropeLoads := rfl
@[simp] theorem zeroBytes_fielders : (zeroBytes a n s).fielders = s.fielders := rfl
@[simp] theorem zeroBytes_catchers : (zeroBytes a n s).catchers = s.catchers := rfl
@[simp] theorem zeroBytes_merges : (zeroBytes a n s).merges = s.merges := rfl
@[simp] theorem zeroBytes_mergeTag : (zeroBytes a n s).mergeTag = s.mergeTag := rfl
@[simp] theorem zeroBytes_jobs : (zeroBytes a n s).jobs = s.jobs := rfl
@[simp] theorem zeroBytes_parts : (zeroBytes a n s).parts = s.parts := rfl
@[simp] theorem zeroBytes_roleAt : (zeroBytes a n s).roleAt = s.roleAt := rfl
@[simp] theorem zeroBytes_ropeCount : (zeroBytes a n s).ropeCount = s.ropeCount := rfl
@[simp] theorem zeroBytes_contexts : (zeroBytes a n s).contexts = s.contexts := rfl
@[simp] theorem zeroBytes_lastTeardown : (zeroBytes a n s).lastTeardown = s.lastTeardown := rfl
@[simp] theorem zeroBytes_vocabs : (zeroBytes a n s).vocabs = s.vocabs := rfl
@[simp] theorem zeroBytes_grammars : (zeroBytes a n s).grammars = s.grammars := rfl
@[simp] theorem zeroBytes_lists : (zeroBytes a n s).lists = s.lists := rfl
@[simp] theorem zeroBytes_stages : (zeroBytes a n s).stages = s.stages := rfl
@[simp] theorem zeroBytes_segments : (zeroBytes a n s).segments = s.segments := rfl
@[simp] theorem zeroBytes_masks : (zeroBytes a n s).masks = s.masks := rfl
@[simp] theorem zeroBytes_indexes : (zeroBytes a n s).indexes = s.indexes := rfl
@[simp] theorem zeroBytes_searches : (zeroBytes a n s).searches = s.searches := rfl
@[simp] theorem zeroBytes_searchWaits : (zeroBytes a n s).searchWaits = s.searchWaits := rfl
@[simp] theorem zeroBytes_searchCount : (zeroBytes a n s).searchCount = s.searchCount := rfl
@[simp] theorem zeroBytes_hostSlots : (zeroBytes a n s).hostSlots = s.hostSlots := rfl
@[simp] theorem zeroBytes_poolSlots : (zeroBytes a n s).poolSlots = s.poolSlots := rfl
@[simp] theorem zeroBytes_hostRanges : (zeroBytes a n s).hostRanges = s.hostRanges := rfl
@[simp] theorem zeroBytes_poolRanges : (zeroBytes a n s).poolRanges = s.poolRanges := rfl
@[simp] theorem zeroBytes_hostId : (zeroBytes a n s).hostId = s.hostId := rfl
@[simp] theorem zeroBytes_poolChannels : (zeroBytes a n s).poolChannels = s.poolChannels := rfl
@[simp] theorem zeroBytes_transfers : (zeroBytes a n s).transfers = s.transfers := rfl
@[simp] theorem zeroBytes_reviveTurn : (zeroBytes a n s).reviveTurn = s.reviveTurn := rfl
@[simp] theorem zeroBytes_nextTile : (zeroBytes a n s).nextTile = s.nextTile := rfl
@[simp] theorem zeroBytes_regions : (zeroBytes a n s).regions = s.regions := rfl
@[simp] theorem zeroBytes_leaseCount : (zeroBytes a n s).leaseCount = s.leaseCount := rfl
@[simp] theorem zeroBytes_publishes : (zeroBytes a n s).publishes = s.publishes := rfl
@[simp] theorem zeroBytes_publishCount : (zeroBytes a n s).publishCount = s.publishCount := rfl
@[simp] theorem zeroBytes_retained : (zeroBytes a n s).retained = s.retained := rfl
@[simp] theorem zeroBytes_attachments : (zeroBytes a n s).attachments = s.attachments := rfl
@[simp] theorem zeroBytes_regionJobs : (zeroBytes a n s).regionJobs = s.regionJobs := rfl
@[simp] theorem zeroBytes_wrs : (zeroBytes a n s).wrs = s.wrs := rfl
@[simp] theorem zeroBytes_wrCount : (zeroBytes a n s).wrCount = s.wrCount := rfl
@[simp] theorem zeroBytes_triggers : (zeroBytes a n s).triggers = s.triggers := rfl
@[simp] theorem zeroBytes_waits : (zeroBytes a n s).waits = s.waits := rfl
@[simp] theorem zeroBytes_tagCount : (zeroBytes a n s).tagCount = s.tagCount := rfl
@[simp] theorem zeroBytes_held : (zeroBytes a n s).held = s.held := rfl
@[simp] theorem zeroBytes_tileIngress : (zeroBytes a n s).tileIngress = s.tileIngress := rfl
@[simp] theorem zeroBytes_ports : (zeroBytes a n s).ports = s.ports := rfl
@[simp] theorem zeroBytes_sampler : (zeroBytes a n s).sampler = s.sampler := rfl
@[simp] theorem zeroBytes_qps : (zeroBytes a n s).qps = s.qps := rfl
@[simp] theorem zeroBytes_ingress : (zeroBytes a n s).ingress = s.ingress := rfl
@[simp] theorem zeroBytes_out : (zeroBytes a n s).out = s.out := rfl
@[simp] theorem zeroBytes_pair : (zeroBytes a n s).pair = s.pair := rfl
@[simp] theorem zeroBytes_ringMap : (zeroBytes a n s).ringMap = s.ringMap := rfl
@[simp] theorem zeroBytes_ringWaits : (zeroBytes a n s).ringWaits = s.ringWaits := rfl
@[simp] theorem zeroBytes_survey : (zeroBytes a n s).survey = s.survey := rfl
@[simp] theorem zeroBytes_sec : (zeroBytes a n s).sec = s.sec := rfl
@[simp] theorem zeroBytes_draws : (zeroBytes a n s).draws = s.draws := rfl
end

end Sys2Proof.Machine
end

