-- ==== Sys2Proof/Laws/Ready.lean ====
section
/-!
SUPPORT. What sending leaves of the queue pairs: none leaves READY and none enters it.
-/
namespace Sys2Proof.Machine

/-- What the table holds after a write at another key, or at that key. -/
theorem Tab.find_put {α : Type} (k j : Nat) (a : α) : ∀ t : Tab α, Tab.find (Tab.put t k a) j = if k = j then some a else Tab.find t j
  | [] => by
    simp only [Tab.put, Tab.find]
  | (i, b) :: t => by
    unfold Tab.put
    split
    · rename_i h; subst h
      unfold Tab.find; split <;> rfl
    · split
      · rename_i h1 h2
        conv => lhs; unfold Tab.find
      · rename_i h1 h2
        conv => lhs; unfold Tab.find
        conv => rhs; rw [Tab.find.eq_2]
        rw [Tab.find_put k j a t]
        split
        · rename_i h3; subst h3; rw [if_neg (fun h => h1 h.symm)]
        · rfl

@[simp] theorem Tab.find_put_self {α : Type} (k : Nat) (a : α) (t : Tab α) : Tab.find (Tab.put t k a) k = some a := by rw [Tab.find_put, if_pos rfl]
@[simp] theorem Tab.get_put_self {α : Type} (k : Nat) (a d : α) (t : Tab α) : Tab.get (Tab.put t k a) k d = a := by
  unfold Tab.get; rw [Tab.find_put_self]; rfl
theorem Tab.get_put_ne {α : Type} {k j : Nat} (h : k ≠ j) (a d : α) (t : Tab α) : Tab.get (Tab.put t k a) j d = Tab.get t j d := by
  unfold Tab.get; rw [Tab.find_put, if_neg h]
theorem Tab.put_put {α : Type} (k : Nat) (a b : α) : ∀ t : Tab α, Tab.put (Tab.put t k a) k b = Tab.put t k b
  | [] => by simp [Tab.put]
  | (i, c) :: t => by
    by_cases h : i = k
    · subst h; simp [Tab.put]
    · by_cases h2 : k < i
      · simp [h, h2, Tab.put]
      · have e : ∀ (x : α) (u : Tab α), Tab.put ((i, c) :: u) k x = (i, c) :: Tab.put u k x := fun x u => by simp [Tab.put, h, h2]
        rw [e, e, e, Tab.put_put k a b t]
@[simp] theorem Tab.find_drop_self {α : Type} (k : Nat) (t : Tab α) : Tab.find (Tab.drop t k) k = none := by
  unfold Tab.drop
  induction t with
  | nil => rfl
  | cons e t ih =>
    obtain ⟨i, b⟩ := e
    rw [List.filter_cons]
    split
    · rename_i h
      unfold Tab.find
      rw [if_neg (by simpa using h)]
      exact ih
    · exact ih

@[simp] theorem sessAt_setSess (i : Nat) (x : Session) (s : State) : sessAt (setSess i x s) i = x := by unfold sessAt setSess; simp
@[simp] theorem sessAt_modSess (i : Nat) (f : Session → Session) (s : State) : sessAt (modSess i f s) i = f (sessAt s i) := by
  unfold modSess; rw [sessAt_setSess]

/-- A queue pair written back with its state is READY as before. -/
theorem qpReady_setQp {n k : Nat} {q : Qp} {s : State} (h : q.state = (qpAt s n).state) : qpReady (setQp n q s) k = qpReady s k := by
  unfold qpReady
  by_cases e : n = k
  · subst e
    have : qpAt (setQp n q s) n = q := by unfold qpAt setQp; simp
    rw [this, h]
  · have : qpAt (setQp n q s) k = qpAt s k := by unfold qpAt setQp; dsimp only; rw [Tab.find_put, if_neg e]; rfl
    rw [this]

theorem qpDefault_state (s t : State) (n : Nat) : (qpDefault t n).state = (qpDefault s n).state := by
  unfold qpDefault
  repeat' split
  all_goals rfl

theorem qpReady_of_qps {s t : State} (h : t.qps = s.qps) (n : Nat) : qpReady t n = qpReady s n := by
  unfold qpReady qpAt
  rw [h]
  cases Tab.find s.qps n with
  | some q => rfl
  | none => exact congrArg (· == QpState.ready) (qpDefault_state s t n)

@[simp] theorem ready_pmu (e : PmuEvent) (s : State) (n : Nat) : qpReady (pmu e s) n = qpReady s n := qpReady_of_qps (qps_pmu e s) n
@[simp] theorem ready_bump (k : Nat) (s : State) (n : Nat) : qpReady (bump k s) n = qpReady s n := rfl
@[simp] theorem ready_emit (x : Sent) (s : State) (n : Nat) : qpReady (emit x s) n = qpReady s n := rfl
@[simp] theorem ready_alert (a : Alert) (s : State) (n : Nat) : qpReady (alert a s) n = qpReady s n := rfl
@[simp] theorem ready_setPort (k : Nat) (p : Port) (s : State) (n : Nat) : qpReady (setPort k p s) n = qpReady s n := rfl
@[simp] theorem ready_setSess (i : Nat) (x : Session) (s : State) (n : Nat) : qpReady (setSess i x s) n = qpReady s n := rfl
@[simp] theorem ready_modSess (i : Nat) (f : Session → Session) (s : State) (n : Nat) : qpReady (modSess i f s) n = qpReady s n := rfl
@[simp] theorem ready_setFrame (i : Nat) (x : Frame) (s : State) (n : Nat) : qpReady (setFrame i x s) n = qpReady s n := rfl
@[simp] theorem ready_takeMsg (m : Msg) (s : State) (n : Nat) : qpReady (takeMsg m s) n = qpReady s n := rfl
@[simp] theorem ready_joinQueue (k : Nat) (x : Queued) (s : State) (n : Nat) : qpReady (joinQueue k x s) n = qpReady s n := by
  unfold joinQueue; dsimp only; split <;> rfl
@[simp] theorem ready_queuePacket (k : Nat) (p : Packet) (r : Bool) (g : Option Nat) (s : State) (n : Nat) : qpReady (queuePacket k p r g s) n = qpReady s n := by
  unfold queuePacket; split
  · rfl
  · exact ready_joinQueue ..
@[simp] theorem ready_flushQp (k n : Nat) : ∀ (f : Nat) (s : State), qpReady (flushQp k f s) n = qpReady s n
  | 0, _ => rfl
  | f + 1, s => by
    simp only [flushQp]
    split
    · rfl
    · split
      · rw [ready_flushQp k n f, ready_queuePacket]
        exact qpReady_setQp rfl
      · rfl
@[simp] theorem ready_sendPackets (k : Nat) (l : List Outgoing) (s : State) (n : Nat) : qpReady (sendPackets k l s) n = qpReady s n := by
  unfold sendPackets; dsimp only; split
  · rfl
  · rw [ready_flushQp]; exact qpReady_setQp rfl
@[simp] theorem ready_sendMsg (m : Msg) (s : State) (n : Nat) : qpReady (sendMsg m s) n = qpReady s n := by
  unfold sendMsg; split
  · rw [ready_sendPackets, ready_emit]
  · rfl
@[simp] theorem ready_respond (m : Msg) (a : Answer) (s : State) (n : Nat) : qpReady (respond m a s) n = qpReady s n := ready_sendMsg ..
@[simp] theorem ready_refuse (m : Msg) (st : Status) (s : State) (n : Nat) : qpReady (refuse m st s) n = qpReady s n := ready_sendMsg ..
@[simp] theorem ready_sendTile (k : Nat) (o : Outgoing) (s : State) (n : Nat) : qpReady (sendTile k o s) n = qpReady s n := by
  unfold sendTile; split
  · rw [ready_sendPackets, ready_emit]
  · rfl
@[simp] theorem ready_sendPeer (node qp : Nat) (tag : BitVec 32) (h : Word) (c : Option Nat) (p : PeerMsg) (s : State) (n : Nat) :
    qpReady (sendPeer node qp tag h c p s) n = qpReady s n := by
  unfold sendPeer; split
  · rw [ready_sendPackets, ready_emit]
  · rfl
@[simp] theorem ready_notify (qp : Nat) (op : BitVec 16) (tag : BitVec 32) (h : Word) (st : Status) (a : Word) (ops : List Word) (b : List Byte)
    (s : State) (n : Nat) : qpReady (notify qp op tag h st a ops b s) n = qpReady s n := ready_sendMsg ..
@[simp] theorem ready_syncOn (i : Nat) (page : Bool) (s : State) (n : Nat) : qpReady (syncOn i page s) n = qpReady s n := by
  unfold syncOn; split <;> rfl
@[simp] theorem ready_mirrorItem (i : Nat) (b : MirrorBody) (s : State) (n : Nat) : qpReady (mirrorItem i b s) n = qpReady s n := by
  unfold mirrorItem; split
  · rfl
  · simp only [ready_sendPeer, ready_pmu, ready_bump]; rfl
@[simp] theorem ready_mirrorUpdate (i : Nat) (s : State) (n : Nat) : qpReady (mirrorUpdate i s) n = qpReady s n := by
  unfold mirrorUpdate; dsimp only; split
  · exact ready_mirrorItem ..
  · rw [ready_syncOn, ready_mirrorItem]
@[simp] theorem ready_askPeer (node qp : Nat) (h : Word) (c : WaitFor) (p : PeerMsg) (s : State) (n : Nat) :
    qpReady (askPeer node qp h c p s) n = qpReady s n := by
  unfold askPeer
  dsimp only
  unfold openWait
  exact ready_sendPeer node qp (nextTag s).1 h none p (nextTag s).2 n
@[simp] theorem ready_touchLine (p line : Nat) (v : Priv) (s : State) (n : Nat) : qpReady (touchLine p line v s) n = qpReady s n :=
  qpReady_of_qps (qps_touchLine ..) n
@[simp] theorem ready_traceLookup (h : Word) (s : State) (n : Nat) : qpReady (traceLookup h s) n = qpReady s n := qpReady_of_qps (qps_traceLookup ..) n

end Sys2Proof.Machine
end

