-- ==== Sys2Proof/Laws/Taken.lean ====
section
/-!
SUPPORT. What each reader of the state finds once a message has left ingress: what it found before.
-/
namespace Sys2Proof.Machine

@[simp] theorem takeMsg_at_cfgWord (m : Msg) (s : State) (n k : Nat) : cfgWord (takeMsg m s) n k = cfgWord s n k := rfl
@[simp] theorem takeMsg_at_filterBound (m : Msg) (s : State) (f k : Nat) : filterBound (takeMsg m s) f k = filterBound s f k := rfl
@[simp] theorem takeMsg_at_liveConf (m : Msg) (s : State) (c : Nat) : liveConf (takeMsg m s) c = liveConf s c := rfl
@[simp] theorem takeMsg_at_pmuPasses (m : Msg) (s : State) (e : PmuEvent) (n : Nat) : pmuPasses (takeMsg m s) e n = pmuPasses s e n := rfl
@[simp] theorem takeMsg_at_modelOf (m : Msg) (s : State) (x : Session) : modelOf (takeMsg m s) x = modelOf s x := rfl
@[simp] theorem takeMsg_at_sessShape (m : Msg) (s : State) (i : Nat) : sessShape (takeMsg m s) i = sessShape s i := rfl
@[simp] theorem takeMsg_at_stripeFielder (m : Msg) (s : State) (p i : Nat) (h : Shape) (layer head k : Nat) : stripeFielder (takeMsg m s) p i h layer head k = stripeFielder s p i h layer head k := rfl
@[simp] theorem takeMsg_at_pageFielder (m : Msg) (s : State) (p i : Nat) (h : Shape) (layer head n : Nat) : pageFielder (takeMsg m s) p i h layer head n = pageFielder s p i h layer head n := rfl
@[simp] theorem takeMsg_at_mapFielder (m : Msg) (s : State) (p start : Nat) : mapFielder (takeMsg m s) p start = mapFielder s p start := rfl
@[simp] theorem takeMsg_at_leafStart (m : Msg) (s : State) (p i : Nat) (h : Shape) (layer head k : Nat) : leafStart (takeMsg m s) p i h layer head k = leafStart s p i h layer head k := rfl
@[simp] theorem takeMsg_at_mirrors (m : Msg) (s : State) (i : Nat) : mirrors (takeMsg m s) i = mirrors s i := rfl
@[simp] theorem takeMsg_at_filling (m : Msg) (s : State) (e : PageEntry) : filling (takeMsg m s) e = filling s e := rfl
@[simp] theorem takeMsg_at_sessionsIn (m : Msg) (s : State) (st : SessState) : sessionsIn (takeMsg m s) st = sessionsIn s st := rfl
@[simp] theorem takeMsg_at_sessionsCount (m : Msg) (s : State) (code : Nat) : sessionsCount (takeMsg m s) code = sessionsCount s code := rfl
@[simp] theorem takeMsg_at_framesIn (m : Msg) (s : State) (p : Frame → Bool) : framesIn (takeMsg m s) p = framesIn s p := rfl
@[simp] theorem takeMsg_at_tpredUs (m : Msg) (s : State) (p : Nat) : tpredUs (takeMsg m s) p = tpredUs s p := rfl
@[simp] theorem takeMsg_at_hostFree (m : Msg) (s : State) : hostFree (takeMsg m s) = hostFree s := rfl
@[simp] theorem takeMsg_at_poolFree (m : Msg) (s : State) : poolFree (takeMsg m s) = poolFree s := rfl
@[simp] theorem takeMsg_at_qpsInUse (m : Msg) (s : State) : qpsInUse (takeMsg m s) = qpsInUse s := rfl
@[simp] theorem takeMsg_at_gateState (m : Msg) (s : State) (k : Nat) : gateState (takeMsg m s) k = gateState s k := rfl
@[simp] theorem takeMsg_at_scanState (m : Msg) (s : State) : scanState (takeMsg m s) = scanState s := rfl
@[simp] theorem takeMsg_at_statusMachine (m : Msg) (s : State) (index sub : Nat) : statusMachine (takeMsg m s) index sub = statusMachine s index sub := rfl
@[simp] theorem takeMsg_at_statusSessions (m : Msg) (s : State) (index sub : Nat) : statusSessions (takeMsg m s) index sub = statusSessions s index sub := rfl
@[simp] theorem takeMsg_at_statusStores (m : Msg) (s : State) (index sub : Nat) : statusStores (takeMsg m s) index sub = statusStores s index sub := rfl
@[simp] theorem takeMsg_at_statusLinks (m : Msg) (s : State) (index sub : Nat) : statusLinks (takeMsg m s) index sub = statusLinks s index sub := rfl
@[simp] theorem takeMsg_at_statusVal (m : Msg) (s : State) (index sub : Nat) : statusVal (takeMsg m s) index sub = statusVal s index sub := rfl
@[simp] theorem takeMsg_at_numVal (m : Msg) (s : State) (r : EntryRow) (index sub : Nat) : numVal (takeMsg m s) r index sub = numVal s r index sub := rfl
@[simp] theorem takeMsg_at_itemBytes (m : Msg) (s : State) (r : EntryRow) (index sub : Nat) : itemBytes (takeMsg m s) r index sub = itemBytes s r index sub := rfl
@[simp] theorem takeMsg_at_readValue (m : Msg) (s : State) (i : DictItem) : readValue (takeMsg m s) i = readValue s i := rfl
@[simp] theorem takeMsg_at_upperBound (m : Msg) (s : State) (r : EntryRow) (sub : Nat) : upperBound (takeMsg m s) r sub = upperBound s r sub := rfl
@[simp] theorem takeMsg_at_describeValue (m : Msg) (s : State) (i : DictItem) : describeValue (takeMsg m s) i = describeValue s i := rfl
@[simp] theorem takeMsg_at_slotTag (m : Msg) (s : State) (k : LoadKind) (n : Nat) : slotTag (takeMsg m s) k n = slotTag s k n := rfl
@[simp] theorem takeMsg_at_tagsMatch (m : Msg) (s : State) (slot : Nat) (tag : Word) (images : List (LoadKind × Nat × Word)) : tagsMatch (takeMsg m s) slot tag images = tagsMatch s slot tag images := rfl
@[simp] theorem takeMsg_at_shadowFits (m : Msg) (s : State) (i : Nat) (b : MirrorBody) : shadowFits (takeMsg m s) i b = shadowFits s i b := rfl
@[simp] theorem takeMsg_at_pairLive (m : Msg) (s : State) : pairLive (takeMsg m s) = pairLive s := rfl
@[simp] theorem takeMsg_at_slotInUse (m : Msg) (s : State) (k : LoadKind) (slot : Nat) : slotInUse (takeMsg m s) k slot = slotInUse s k slot := rfl
@[simp] theorem takeMsg_at_storeUsed (m : Msg) (s : State) (k : LoadKind) (slot : Nat) : storeUsed (takeMsg m s) k slot = storeUsed s k slot := rfl
@[simp] theorem takeMsg_at_layerThere (m : Msg) (s : State) (i layer : Nat) : layerThere (takeMsg m s) i layer = layerThere s i layer := rfl
@[simp] theorem takeMsg_at_jobIssues (m : Msg) (s : State) (n : Nat) : jobIssues (takeMsg m s) n = jobIssues s n := rfl
@[simp] theorem takeMsg_at_unitTiles (m : Msg) (s : State) (i layer head block : Nat) (qs : List Nat) : unitTiles (takeMsg m s) i layer head block qs = unitTiles s i layer head block qs := rfl
@[simp] theorem takeMsg_at_tileThere (m : Msg) (s : State) (f tile : Nat) : tileThere (takeMsg m s) f tile = tileThere s f tile := rfl
@[simp] theorem takeMsg_at_passSession (m : Msg) (s : State) (idx : Nat) : passSession (takeMsg m s) idx = passSession s idx := rfl
@[simp] theorem takeMsg_at_passNeeded (m : Msg) (s : State) (i layer head block : Nat) : passNeeded (takeMsg m s) i layer head block = passNeeded s i layer head block := rfl
@[simp] theorem takeMsg_at_tileSession (m : Msg) (s : State) (t : TileWrite) : tileSession (takeMsg m s) t = tileSession s t := rfl
@[simp] theorem takeMsg_at_mirrorHeld (m : Msg) (s : State) (i seq : Nat) : mirrorHeld (takeMsg m s) i seq = mirrorHeld s i seq := rfl
@[simp] theorem takeMsg_at_parkTier (m : Msg) (s : State) (p want : Nat) : parkTier (takeMsg m s) p want = parkTier s p want := rfl
@[simp] theorem takeMsg_at_ropeHeld (m : Msg) (s : State) (i : Nat) : ropeHeld (takeMsg m s) i = ropeHeld s i := rfl
@[simp] theorem takeMsg_at_recordImage (m : Msg) (s : State) (f : Nat) : recordImage (takeMsg m s) f = recordImage s f := rfl
@[simp] theorem takeMsg_at_mapFrameImage (m : Msg) (s : State) (f : Nat) : mapFrameImage (takeMsg m s) f = mapFrameImage s f := rfl
@[simp] theorem takeMsg_at_indexFrameImage (m : Msg) (s : State) (f : Nat) : indexFrameImage (takeMsg m s) f = indexFrameImage s f := rfl
@[simp] theorem takeMsg_at_frameImage (m : Msg) (s : State) (f : Nat) : frameImage (takeMsg m s) f = frameImage s f := rfl
@[simp] theorem takeMsg_at_anyLive (m : Msg) (s : State) : anyLive (takeMsg m s) = anyLive s := rfl
@[simp] theorem takeMsg_at_qpPriv (m : Msg) (s : State) (n : Nat) : qpPriv (takeMsg m s) n = qpPriv s n := rfl
@[simp] theorem takeMsg_at_formAck (m : Msg) (s : State) (n : Nat) : formAck (takeMsg m s) n = formAck s n := rfl
@[simp] theorem takeMsg_at_peerHandleContext (m : Msg) (s : State) (n : Nat) (h : Word) : peerHandleContext (takeMsg m s) n h = peerHandleContext s n h := rfl
@[simp] theorem takeMsg_at_openContext (m : Msg) (s : State) (n : Nat) (p : Packet) : openContext (takeMsg m s) n p = openContext s n p := rfl
@[simp] theorem takeMsg_at_openPayload (m : Msg) (s : State) (n : Nat) (p : Packet) : openPayload (takeMsg m s) n p = openPayload s n p := rfl
@[simp] theorem takeMsg_at_isLocal (m : Msg) (s : State) (k : Nat) (p : Packet) : isLocal (takeMsg m s) k p = isLocal s k p := rfl
@[simp] theorem takeMsg_at_jobReady (m : Msg) (s : State) (n : Nat) (j : Job) : jobReady (takeMsg m s) n j = jobReady s n j := rfl
@[simp] theorem takeMsg_at_jobOutstanding (m : Msg) (s : State) (n : Nat) : jobOutstanding (takeMsg m s) n = jobOutstanding s n := rfl
@[simp] theorem takeMsg_at_jobHolds (m : Msg) (s : State) (n : Nat) (j : Job) : jobHolds (takeMsg m s) n j = jobHolds s n j := rfl
@[simp] theorem takeMsg_at_jobOver (m : Msg) (s : State) (n : Nat) (j : Job) : jobOver (takeMsg m s) n j = jobOver s n j := rfl
@[simp] theorem takeMsg_at_jobOf (m : Msg) (s : State) (i : Nat) : jobOf (takeMsg m s) i = jobOf s i := rfl
@[simp] theorem takeMsg_at_mergeOf (m : Msg) (s : State) (i : Nat) : mergeOf (takeMsg m s) i = mergeOf s i := rfl
@[simp] theorem takeMsg_at_storeFree (m : Msg) (s : State) (c : Nat) : storeFree (takeMsg m s) c = storeFree s c := rfl
@[simp] theorem takeMsg_at_mergeUnits (m : Msg) (s : State) (i layer : Nat) (h : Shape) (blocks : List Nat) (count : Nat) : mergeUnits (takeMsg m s) i layer h blocks count = mergeUnits s i layer h blocks count := rfl
@[simp] theorem takeMsg_at_mergeBlocks (m : Msg) (s : State) (i layer : Nat) (prefill : Bool) (qs : List Nat) : mergeBlocks (takeMsg m s) i layer prefill qs = mergeBlocks s i layer prefill qs := rfl
@[simp] theorem takeMsg_at_nextUnit (m : Msg) (s : State) (f : Nat) : nextUnit (takeMsg m s) f = nextUnit s f := rfl
@[simp] theorem takeMsg_at_fielderAt (m : Msg) (s : State) (f : Nat) : fielderAt (takeMsg m s) f = fielderAt s f := rfl
@[simp] theorem takeMsg_at_catcherAt (m : Msg) (s : State) (c : Nat) : catcherAt (takeMsg m s) c = catcherAt s c := rfl
@[simp] theorem takeMsg_at_jobCheck (m : Msg) (s : State) (j i : Nat) : jobCheck (takeMsg m s) j i = jobCheck s j i := rfl
@[simp] theorem takeMsg_at_maxLength (m : Msg) (s : State) (p : Nat) (h : Shape) : maxLength (takeMsg m s) p h = maxLength s p h := rfl
@[simp] theorem takeMsg_at_roomAt (m : Msg) (s : State) (p len : Nat) (h : Shape) : roomAt (takeMsg m s) p len h = roomAt s p len h := rfl
@[simp] theorem takeMsg_at_enabled (m : Msg) (s : State) (i : Nat) : enabled (takeMsg m s) i = enabled s i := rfl
@[simp] theorem takeMsg_at_lookupEntry (m : Msg) (s : State) (h : Word) : lookupEntry (takeMsg m s) h = lookupEntry s h := rfl
@[simp] theorem takeMsg_at_lookup (m : Msg) (s : State) (n : Nat) (h : Word) (tornOk : Bool) : lookup (takeMsg m s) n h tornOk = lookup s n h tornOk := rfl
@[simp] theorem takeMsg_at_ownIndex (m : Msg) (s : State) (i : Nat) : ownIndex (takeMsg m s) i = ownIndex s i := rfl
@[simp] theorem takeMsg_at_allocInQuarter (m : Msg) (s : State) (q : Nat) : allocInQuarter (takeMsg m s) q = allocInQuarter s q := rfl
@[simp] theorem takeMsg_at_allocIndex (m : Msg) (s : State) : allocIndex (takeMsg m s) = allocIndex s := rfl
@[simp] theorem takeMsg_at_nonFree (m : Msg) (s : State) (p : Nat) : nonFree (takeMsg m s) p = nonFree s p := rfl
@[simp] theorem takeMsg_at_timerLeft (m : Msg) (s : State) (i : Nat) : timerLeft (takeMsg m s) i = timerLeft s i := rfl
@[simp] theorem takeMsg_at_countedBytes (m : Msg) (s : State) (p : Nat) : countedBytes (takeMsg m s) p = countedBytes s p := rfl
@[simp] theorem takeMsg_at_overGoal (m : Msg) (s : State) (p bytes : Nat) : overGoal (takeMsg m s) p bytes = overGoal s p bytes := rfl
@[simp] theorem takeMsg_at_fits (m : Msg) (s : State) (p : Nat) : fits (takeMsg m s) p = fits s p := rfl
@[simp] theorem takeMsg_at_fromNv (m : Msg) (s : State) (r : RestoreRun) (c : CommitRec) (member : Option Nat) (off : Nat) : fromNv (takeMsg m s) r c member off = fromNv s r c member off := rfl
@[simp] theorem takeMsg_at_fromHost (m : Msg) (s : State) (r : RestoreRun) (c : CommitRec) (member : Option Nat) : fromHost (takeMsg m s) r c member = fromHost s r c member := rfl
@[simp] theorem takeMsg_at_readEnd (m : Msg) (s : State) (c : CommitRec) (off hi : Nat) : readEnd (takeMsg m s) c off hi = readEnd s c off hi := rfl
@[simp] theorem takeMsg_at_wantAfter (m : Msg) (s : State) (r : RestoreRun) (c : CommitRec) (member : Option Nat) : wantAfter (takeMsg m s) r c member = wantAfter s r c member := rfl
@[simp] theorem takeMsg_at_recordState (m : Msg) (s : State) (v : VIndex) (r : Nat) : recordState (takeMsg m s) v r = recordState s v r := rfl
@[simp] theorem takeMsg_at_entryOf (m : Msg) (s : State) (v : VIndex) (f e : Nat) : entryOf (takeMsg m s) v f e = entryOf s v f e := rfl
@[simp] theorem takeMsg_at_sharesOf (m : Msg) (s : State) (sub p : Nat) : sharesOf (takeMsg m s) sub p = sharesOf s sub p := rfl
@[simp] theorem takeMsg_at_rangeIdle (m : Msg) (s : State) (r : Nat) : rangeIdle (takeMsg m s) r = rangeIdle s r := rfl
@[simp] theorem takeMsg_at_mayLeaveRun (m : Msg) (s : State) : mayLeaveRun (takeMsg m s) = mayLeaveRun s := rfl
@[simp] theorem takeMsg_at_migrateCheck (m : Msg) (s : State) (o : MigrateOpen) : migrateCheck (takeMsg m s) o = migrateCheck s o := rfl
@[simp] theorem takeMsg_at_lengthKeys (m : Msg) (s : State) (i : Nat) : lengthKeys (takeMsg m s) i = lengthKeys s i := rfl
@[simp] theorem takeMsg_at_destOf (m : Msg) (s : State) (h : Word) : destOf (takeMsg m s) h = destOf s h := rfl
@[simp] theorem takeMsg_at_sourcePlan (m : Msg) (s : State) (i : Nat) : sourcePlan (takeMsg m s) i = sourcePlan s i := rfl
@[simp] theorem takeMsg_at_jobsIn (m : Msg) (s : State) (p : Nat) : jobsIn (takeMsg m s) p = jobsIn s p := rfl
@[simp] theorem takeMsg_at_prefillFirst (m : Msg) (s : State) (p : Nat) : prefillFirst (takeMsg m s) p = prefillFirst s p := rfl
@[simp] theorem takeMsg_at_jobRank (m : Msg) (s : State) (p : Nat) (j : Job) : jobRank (takeMsg m s) p j = jobRank s p j := rfl
@[simp] theorem takeMsg_at_chooseJob (m : Msg) (s : State) (p : Nat) : chooseJob (takeMsg m s) p = chooseJob s p := rfl
@[simp] theorem takeMsg_at_cutLimit (m : Msg) (s : State) (p : Nat) (j : Job) : cutLimit (takeMsg m s) p j = cutLimit s p j := rfl
@[simp] theorem takeMsg_at_nextRho (m : Msg) (s : State) (p : Nat) : nextRho (takeMsg m s) p = nextRho s p := rfl
@[simp] theorem takeMsg_at_fwSlot (m : Msg) (s : State) (k : Nat) : fwSlot (takeMsg m s) k = fwSlot s k := rfl
@[simp] theorem takeMsg_at_rollback (m : Msg) (s : State) : rollback (takeMsg m s) = rollback s := rfl
@[simp] theorem takeMsg_at_fwPasses (m : Msg) (s : State) (l : List Byte) : fwPasses (takeMsg m s) l = fwPasses s l := rfl
@[simp] theorem takeMsg_at_fwRunning (m : Msg) (s : State) : fwRunning (takeMsg m s) = fwRunning s := rfl
@[simp] theorem takeMsg_at_certBody (m : Msg) (s : State) (sign wrap : List Byte) : certBody (takeMsg m s) sign wrap = certBody s sign wrap := rfl
@[simp] theorem takeMsg_at_debugOn (m : Msg) (s : State) : debugOn (takeMsg m s) = debugOn s := rfl
@[simp] theorem takeMsg_at_scanOn (m : Msg) (s : State) : scanOn (takeMsg m s) = scanOn s := rfl
@[simp] theorem takeMsg_at_confLive (m : Msg) (s : State) : confLive (takeMsg m s) = confLive s := rfl
@[simp] theorem takeMsg_at_contextBusy (m : Msg) (s : State) (c : Nat) : contextBusy (takeMsg m s) c = contextBusy s c := rfl
@[simp] theorem takeMsg_at_reportBody (m : Msg) (s : State) (c : Nat) (nonce : List Byte) : reportBody (takeMsg m s) c nonce = reportBody s c nonce := rfl
@[simp] theorem takeMsg_at_keyBlock (m : Msg) (s : State) (c : Nat) (nonce cipher : List Byte) : keyBlock (takeMsg m s) c nonce cipher = keyBlock s c nonce cipher := rfl
@[simp] theorem takeMsg_at_ringOf (m : Msg) (s : State) (p : Nat) : ringOf (takeMsg m s) p = ringOf s p := rfl
@[simp] theorem takeMsg_at_localPos (m : Msg) (s : State) (p pos : Nat) : localPos (takeMsg m s) p pos = localPos s p pos := rfl
@[simp] theorem takeMsg_at_holdsPos (m : Msg) (s : State) (p pos : Nat) : holdsPos (takeMsg m s) p pos = holdsPos s p pos := rfl
@[simp] theorem takeMsg_at_globalPos (m : Msg) (s : State) (p lp : Nat) : globalPos (takeMsg m s) p lp = globalPos s p lp := rfl
@[simp] theorem takeMsg_at_frameOf (m : Msg) (s : State) (i : Nat) (h : Shape) (layer head pos : Nat) : frameOf (takeMsg m s) i h layer head pos = frameOf s i h layer head pos := rfl
@[simp] theorem takeMsg_at_rowOf (m : Msg) (s : State) (i : Nat) (h : Shape) (layer head pos : Nat) : rowOf (takeMsg m s) i h layer head pos = rowOf s i h layer head pos := rfl
@[simp] theorem takeMsg_at_groupRows (m : Msg) (s : State) (i layer head block j q : Nat) : groupRows (takeMsg m s) i layer head block j q = groupRows s i layer head block j q := rfl
@[simp] theorem takeMsg_at_unitPartial (m : Msg) (s : State) (i layer head block q : Nat) (rows : List Byte) : unitPartial (takeMsg m s) i layer head block q rows = unitPartial s i layer head block q rows := rfl
@[simp] theorem takeMsg_at_newestRecord (m : Msg) (s : State) : newestRecord (takeMsg m s) = newestRecord s := rfl
@[simp] theorem takeMsg_at_nextSlot (m : Msg) (s : State) : nextSlot (takeMsg m s) = nextSlot s := rfl
@[simp] theorem takeMsg_at_allFree (m : Msg) (s : State) : allFree (takeMsg m s) = allFree s := rfl
@[simp] theorem takeMsg_at_surveyBusy (m : Msg) (s : State) : surveyBusy (takeMsg m s) = surveyBusy s := rfl
@[simp] theorem takeMsg_at_nvAbsent (m : Msg) (s : State) : nvAbsent (takeMsg m s) = nvAbsent s := rfl
@[simp] theorem takeMsg_at_surveyCheck (m : Msg) (s : State) (kind qp : Nat) : surveyCheck (takeMsg m s) kind qp = surveyCheck s kind qp := rfl
@[simp] theorem takeMsg_at_pageG1 (m : Msg) (s : State) (i k : Nat) : pageG1 (takeMsg m s) i k = pageG1 s i k := rfl
@[simp] theorem takeMsg_at_gridHandle (m : Msg) (s : State) (i : Nat) : gridHandle (takeMsg m s) i = gridHandle s i := rfl
@[simp] theorem takeMsg_at_frameWritten (m : Msg) (s : State) (kind : Nat) (e : PageEntry) : frameWritten (takeMsg m s) kind e = frameWritten s kind e := rfl
@[simp] theorem takeMsg_at_heldRows (m : Msg) (s : State) (i k : Nat) : heldRows (takeMsg m s) i k = heldRows s i k := rfl
@[simp] theorem takeMsg_at_midPage (m : Msg) (s : State) (i k : Nat) : midPage (takeMsg m s) i k = midPage s i k := rfl
@[simp] theorem takeMsg_at_ringHead (m : Msg) (s : State) (p : Nat) : ringHead (takeMsg m s) p = ringHead s p := rfl
@[simp] theorem takeMsg_at_pageSource (m : Msg) (s : State) (i k : Nat) (e : PageEntry) : pageSource (takeMsg m s) i k e = pageSource s i k e := rfl
@[simp] theorem takeMsg_at_pageItem (m : Msg) (s : State) (r : CommitRec) (i k : Nat) (e : PageEntry) : pageItem (takeMsg m s) r i k e = pageItem s r i k e := rfl
@[simp] theorem takeMsg_at_planIndex (m : Msg) (s : State) (r : CommitRec) (x : Nat) (v : VIndex) (p : Plan) : planIndex (takeMsg m s) r x v p = planIndex s r x v p := rfl
@[simp] theorem takeMsg_at_controlImage (m : Msg) (s : State) : controlImage (takeMsg m s) = controlImage s := rfl
@[simp] theorem takeMsg_at_tablesImage (m : Msg) (s : State) : tablesImage (takeMsg m s) = tablesImage s := rfl
@[simp] theorem takeMsg_at_quiet (m : Msg) (s : State) : quiet (takeMsg m s) = quiet s := rfl
@[simp] theorem takeMsg_at_readByte (m : Msg) (s : State) (a : Nat) : readByte (takeMsg m s) a = readByte s a := rfl
@[simp] theorem takeMsg_at_readBytes (m : Msg) (s : State) (a n : Nat) : readBytes (takeMsg m s) a n = readBytes s a n := rfl
@[simp] theorem takeMsg_at_frameAt (m : Msg) (s : State) (f : Nat) : frameAt (takeMsg m s) f = frameAt s f := rfl
@[simp] theorem takeMsg_at_freeFrames (m : Msg) (s : State) (fielder : Nat) : freeFrames (takeMsg m s) fielder = freeFrames s fielder := rfl
@[simp] theorem takeMsg_at_lowestFree (m : Msg) (s : State) (fielder : Nat) : lowestFree (takeMsg m s) fielder = lowestFree s fielder := rfl
@[simp] theorem takeMsg_at_partGranules (m : Msg) (s : State) (p : Nat) : partGranules (takeMsg m s) p = partGranules s p := rfl
@[simp] theorem takeMsg_at_partFielders (m : Msg) (s : State) (p : Nat) : partFielders (takeMsg m s) p = partFielders s p := rfl
@[simp] theorem takeMsg_at_partOfFielder (m : Msg) (s : State) (f : Nat) : partOfFielder (takeMsg m s) f = partOfFielder s f := rfl
@[simp] theorem takeMsg_at_cacheQuarters (m : Msg) (s : State) (p : Nat) : cacheQuarters (takeMsg m s) p = cacheQuarters s p := rfl
@[simp] theorem takeMsg_at_sessAt (m : Msg) (s : State) (i : Nat) : sessAt (takeMsg m s) i = sessAt s i := rfl
@[simp] theorem takeMsg_at_ctxAt (m : Msg) (s : State) (c : Nat) : ctxAt (takeMsg m s) c = ctxAt s c := rfl
@[simp] theorem takeMsg_at_partAt (m : Msg) (s : State) (p : Nat) : partAt (takeMsg m s) p = partAt s p := rfl
@[simp] theorem takeMsg_at_recordAddr (m : Msg) (s : State) (i : Nat) : recordAddr (takeMsg m s) i = recordAddr s i := rfl
@[simp] theorem takeMsg_at_confOf (m : Msg) (s : State) (i : Nat) : confOf (takeMsg m s) i = confOf s i := rfl
@[simp] theorem takeMsg_at_keyOf (m : Msg) (s : State) (i : Nat) : keyOf (takeMsg m s) i = keyOf s i := rfl
@[simp] theorem takeMsg_at_recordsHeld (m : Msg) (s : State) (v : VIndex) : recordsHeld (takeMsg m s) v = recordsHeld s v := rfl
@[simp] theorem takeMsg_at_centroidCode (m : Msg) (s : State) (v : VIndex) (c : Nat) : centroidCode (takeMsg m s) v c = centroidCode s v c := rfl
@[simp] theorem takeMsg_at_nearest (m : Msg) (s : State) (v : VIndex) (code : List Byte) : nearest (takeMsg m s) v code = nearest s v code := rfl
@[simp] theorem takeMsg_at_stagingIn (m : Msg) (s : State) (p : Nat) : stagingIn (takeMsg m s) p = stagingIn s p := rfl
@[simp] theorem takeMsg_at_compassBlocked (m : Msg) (s : State) (x : Nat) (search : Bool) (before : Tab SearchWait) : compassBlocked (takeMsg m s) x search before = compassBlocked s x search before := rfl
@[simp] theorem takeMsg_at_scanCentroids (m : Msg) (s : State) (v : VIndex) (q : Search) (l : Slice) : scanCentroids (takeMsg m s) v q l = scanCentroids s v q l := rfl
@[simp] theorem takeMsg_at_scanList (m : Msg) (s : State) (v : VIndex) (q : Search) (l : Slice) : scanList (takeMsg m s) v q l = scanList s v q l := rfl
@[simp] theorem takeMsg_at_counterAt (m : Msg) (s : State) (c : Nat) : counterAt (takeMsg m s) c = counterAt s c := rfl
@[simp] theorem takeMsg_at_triggerValue (m : Msg) (s : State) (c : Nat) : triggerValue (takeMsg m s) c = triggerValue s c := rfl
@[simp] theorem takeMsg_at_wrHolds (m : Msg) (s : State) (w : WorkReq) : wrHolds (takeMsg m s) w = wrHolds s w := rfl
@[simp] theorem takeMsg_at_wrsReady (m : Msg) (s : State) : wrsReady (takeMsg m s) = wrsReady s := rfl
@[simp] theorem takeMsg_at_shipSession (m : Msg) (s : State) (w : WorkReq) : shipSession (takeMsg m s) w = shipSession s w := rfl
@[simp] theorem takeMsg_at_foreign (m : Msg) (s : State) (c ctx : Nat) : foreign (takeMsg m s) c ctx = foreign s c ctx := rfl
@[simp] theorem takeMsg_at_wrOk (m : Msg) (s : State) (ctx : Nat) (w : WorkReq) : wrOk (takeMsg m s) ctx w = wrOk s ctx w := rfl
@[simp] theorem takeMsg_at_ownerOf (m : Msg) (s : State) (x : Region) : ownerOf (takeMsg m s) x = ownerOf s x := rfl
@[simp] theorem takeMsg_at_freeSegment (m : Msg) (s : State) : freeSegment (takeMsg m s) = freeSegment s := rfl
@[simp] theorem takeMsg_at_escapesOf (m : Msg) (s : State) (i size : Nat) : escapesOf (takeMsg m s) i size = escapesOf s i size := rfl
@[simp] theorem takeMsg_at_formMask (m : Msg) (s : State) (i : Nat) (v : Vocab) (t : Tok) : formMask (takeMsg m s) i v t = formMask s i v t := rfl
@[simp] theorem takeMsg_at_tokenAllowed (m : Msg) (s : State) (i : Nat) (v : Vocab) (t : Tok) (tok : Nat) : tokenAllowed (takeMsg m s) i v t tok = tokenAllowed s i v t tok := rfl
@[simp] theorem takeMsg_at_kindBusy (m : Msg) (s : State) (p : Nat) (k : JobKind) : kindBusy (takeMsg m s) p k = kindBusy s p k := rfl
@[simp] theorem takeMsg_at_prefillHolds (m : Msg) (s : State) (p : Nat) : prefillHolds (takeMsg m s) p = prefillHolds s p := rfl
@[simp] theorem takeMsg_at_warnAt (m : Msg) (s : State) (sensor : Nat) : warnAt (takeMsg m s) sensor = warnAt s sensor := rfl
@[simp] theorem takeMsg_at_sensing (m : Msg) (s : State) : sensing (takeMsg m s) = sensing s := rfl
@[simp] theorem takeMsg_at_tapWorks (m : Msg) (s : State) : tapWorks (takeMsg m s) = tapWorks s := rfl
@[simp] theorem takeMsg_at_tapSelect (m : Msg) (s : State) (code : Byte) : tapSelect (takeMsg m s) code = tapSelect s code := rfl
@[simp] theorem takeMsg_at_alertLow (m : Msg) (s : State) : alertLow (takeMsg m s) = alertLow s := rfl
@[simp] theorem takeMsg_at_thermLow (m : Msg) (s : State) : thermLow (takeMsg m s) = thermLow s := rfl
@[simp] theorem takeMsg_at_perstHigh (m : Msg) (s : State) : perstHigh (takeMsg m s) = perstHigh s := rfl
@[simp] theorem takeMsg_at_now (m : Msg) (s : State) : now (takeMsg m s) = now s := rfl
@[simp] theorem takeMsg_at_qpDefault (m : Msg) (s : State) (n : Nat) : qpDefault (takeMsg m s) n = qpDefault s n := rfl
@[simp] theorem takeMsg_at_qpAt (m : Msg) (s : State) (n : Nat) : qpAt (takeMsg m s) n = qpAt s n := rfl
@[simp] theorem takeMsg_at_qpReady (m : Msg) (s : State) (n : Nat) : qpReady (takeMsg m s) n = qpReady s n := rfl
@[simp] theorem takeMsg_at_portAt (m : Msg) (s : State) (k : Nat) : portAt (takeMsg m s) k = portAt s k := rfl
@[simp] theorem takeMsg_at_qpClass (m : Msg) (s : State) (n : Nat) : qpClass (takeMsg m s) n = qpClass s n := rfl
@[simp] theorem takeMsg_at_nodeInTopology (m : Msg) (s : State) (n : Nat) : nodeInTopology (takeMsg m s) n = nodeInTopology s n := rfl
@[simp] theorem takeMsg_at_firstHop (m : Msg) (s : State) (node : Nat) : firstHop (takeMsg m s) node = firstHop s node := rfl
@[simp] theorem takeMsg_at_qpPort (m : Msg) (s : State) (n : Nat) : qpPort (takeMsg m s) n = qpPort s n := rfl
@[simp] theorem takeMsg_at_formPacket (m : Msg) (s : State) (n psn ext : Nat) (o : Outgoing) : formPacket (takeMsg m s) n psn ext o = formPacket s n psn ext o := rfl
@[simp] theorem takeMsg_at_gateMask (m : Msg) (s : State) (k t : Nat) : gateMask (takeMsg m s) k t = gateMask s k t := rfl
@[simp] theorem takeMsg_at_gateOpen (m : Msg) (s : State) (k c t : Nat) : gateOpen (takeMsg m s) k c t = gateOpen s k c t := rfl
@[simp] theorem takeMsg_at_gatePasses (m : Msg) (s : State) (k c lf : Nat) : gatePasses (takeMsg m s) k c lf = gatePasses s k c lf := rfl
@[simp] theorem takeMsg_at_evaluate (m : Msg) (s : State) (k : Nat) (p : Port) : evaluate (takeMsg m s) k p = evaluate s k p := rfl
@[simp] theorem takeMsg_at_shaperOk (m : Msg) (s : State) (k c : Nat) (e : EgressClass) : shaperOk (takeMsg m s) k c e = shaperOk s k c e := rfl
@[simp] theorem takeMsg_at_eligible (m : Msg) (s : State) (k : Nat) (p : Port) (c : Nat) : eligible (takeMsg m s) k p c = eligible s k p c := rfl
@[simp] theorem takeMsg_at_pick (m : Msg) (s : State) (k : Nat) (p : Port) : pick (takeMsg m s) k p = pick s k p := rfl
@[simp] theorem takeMsg_at_exhausted (m : Msg) (s : State) : exhausted (takeMsg m s) = exhausted s := rfl
@[simp] theorem takeMsg_at_sampleRecord (m : Msg) (s : State) (at_ k c : Nat) : sampleRecord (takeMsg m s) at_ k c = sampleRecord s at_ k c := rfl
@[simp] theorem takeMsg_at_sampleCapacity (m : Msg) (s : State) : sampleCapacity (takeMsg m s) = sampleCapacity s := rfl
@[simp] theorem takeMsg_at_poolAllows (m : Msg) (s : State) (c slot : Nat) (write : Bool) : poolAllows (takeMsg m s) c slot write = poolAllows s c slot write := rfl
@[simp] theorem takeMsg_at_tierAllows (m : Msg) (s : State) (c tier slot : Nat) (write : Bool) : tierAllows (takeMsg m s) c tier slot write = tierAllows s c tier slot write := rfl
@[simp] theorem takeMsg_at_tierForm (m : Msg) (s : State) (c addr : Nat) (data : List Byte) : tierForm (takeMsg m s) c addr data = tierForm s c addr data := rfl
@[simp] theorem takeMsg_at_hbmForm (m : Msg) (s : State) (c addr : Nat) (data : List Byte) : hbmForm (takeMsg m s) c addr data = hbmForm s c addr data := rfl
@[simp] theorem takeMsg_at_fetchQp (m : Msg) (s : State) (k : Nat) : fetchQp (takeMsg m s) k = fetchQp s k := rfl
@[simp] theorem takeMsg_at_mayIssue (m : Msg) (s : State) (k : Nat) : mayIssue (takeMsg m s) k = mayIssue s k := rfl
@[simp] theorem takeMsg_at_reviveOrder (m : Msg) (s : State) : reviveOrder (takeMsg m s) = reviveOrder s := rfl
@[simp] theorem takeMsg_at_setMv (m : Msg) (s : State) (d : Nat) : setMv (takeMsg m s) d = setMv s d := rfl
@[simp] theorem takeMsg_at_paceDemand (m : Msg) (s : State) (d : Nat) : paceDemand (takeMsg m s) d = paceDemand s d := rfl
@[simp] theorem takeMsg_at_paceTarget (m : Msg) (s : State) (d : Nat) : paceTarget (takeMsg m s) d = paceTarget s d := rfl
@[simp] theorem takeMsg_at_targetOf (m : Msg) (s : State) (d : Nat) : targetOf (takeMsg m s) d = targetOf s d := rfl
@[simp] theorem takeMsg_at_aimMv (m : Msg) (s : State) (r : PaceReadings) (d : Nat) : aimMv (takeMsg m s) r d = aimMv s r d := rfl
@[simp] theorem takeMsg_at_slewTo (m : Msg) (s : State) (v aim : Nat) : slewTo (takeMsg m s) v aim = slewTo s v aim := rfl
@[simp] theorem takeMsg_at_isHot (m : Msg) (s : State) (d : Nat) : isHot (takeMsg m s) d = isHot s d := rfl
@[simp] theorem takeMsg_at_nextMv (m : Msg) (s : State) (r : PaceReadings) (d : Nat) : nextMv (takeMsg m s) r d = nextMv s r d := rfl
@[simp] theorem takeMsg_at_ringMembers (m : Msg) (s : State) (p : Nat) : ringMembers (takeMsg m s) p = ringMembers s p := rfl
@[simp] theorem takeMsg_at_admitCheck (m : Msg) (s : State) (n p c slot : Nat) : admitCheck (takeMsg m s) n p c slot = admitCheck s n p c slot := rfl
@[simp] theorem takeMsg_at_ropePairs (m : Msg) (s : State) (t : Nat) : ropePairs (takeMsg m s) t = ropePairs s t := rfl
@[simp] theorem takeMsg_at_modelInUse (m : Msg) (s : State) (slot : Nat) : modelInUse (takeMsg m s) slot = modelInUse s slot := rfl
@[simp] theorem takeMsg_at_ropeUsed (m : Msg) (s : State) (l : RopeLoad) : ropeUsed (takeMsg m s) l = ropeUsed s l := rfl
@[simp] theorem takeMsg_at_shardOk (m : Msg) (s : State) (c : Capture) (off : Nat) (sh : Shard) : shardOk (takeMsg m s) c off sh = shardOk s c off sh := rfl
@[simp] theorem takeMsg_at_capControl (m : Msg) (s : State) (c : Capture) : capControl (takeMsg m s) c = capControl s c := rfl
@[simp] theorem takeMsg_at_capTables (m : Msg) (s : State) (c : Capture) : capTables (takeMsg m s) c = capTables s c := rfl
@[simp] theorem takeMsg_at_resolve (m : Msg) (s : State) (caps : List Capture) (c : Capture) (g0 : Word) (l : Locator) : resolve (takeMsg m s) caps c g0 l = resolve s caps c g0 l := rfl
@[simp] theorem takeMsg_at_candPages (m : Msg) (s : State) (caps : List Capture) (k : Candidate) (len : Nat) (mid : Bool) : candPages (takeMsg m s) caps k len mid = candPages s caps k len mid := rfl
@[simp] theorem takeMsg_at_allPages (m : Msg) (s : State) (caps : List Capture) (k : Candidate) (mid : Bool) : allPages (takeMsg m s) caps k mid = allPages s caps k mid := rfl
@[simp] theorem takeMsg_at_shapeKey (m : Msg) (s : State) (p : Nat) : shapeKey (takeMsg m s) p = shapeKey s p := rfl
@[simp] theorem takeMsg_at_sameShape (m : Msg) (s : State) (c : ControlImage) (p q : Nat) : sameShape (takeMsg m s) c p q = sameShape s c p q := rfl
@[simp] theorem takeMsg_at_stepShard (m : Msg) (s : State) (k : Candidate) : stepShard (takeMsg m s) k = stepShard s k := rfl
@[simp] theorem takeMsg_at_placeKey (m : Msg) (s : State) (i : Nat) (g1 : Word) : placeKey (takeMsg m s) i g1 = placeKey s i g1 := rfl
@[simp] theorem takeMsg_at_restoredIndex (m : Msg) (s : State) (h : Word) : restoredIndex (takeMsg m s) h = restoredIndex s h := rfl
@[simp] theorem takeMsg_at_rejectedShards (m : Msg) (s : State) (caps : List Capture) : rejectedShards (takeMsg m s) caps = rejectedShards s caps := rfl
@[simp] theorem takeMsg_at_vocabOf (m : Msg) (s : State) (w13 : Word) : vocabOf (takeMsg m s) w13 = vocabOf s w13 := rfl
@[simp] theorem takeMsg_at_grammarOf (m : Msg) (s : State) (w12 : Word) : grammarOf (takeMsg m s) w12 = grammarOf s w12 := rfl
@[simp] theorem takeMsg_at_bannedOf (m : Msg) (s : State) (w16 : Word) : bannedOf (takeMsg m s) w16 = bannedOf s w16 := rfl
@[simp] theorem takeMsg_at_forcedOf (m : Msg) (s : State) (w16 : Word) : forcedOf (takeMsg m s) w16 = forcedOf s w16 := rfl
@[simp] theorem takeMsg_at_boundTags (m : Msg) (s : State) (x : Session) : boundTags (takeMsg m s) x = boundTags s x := rfl
@[simp] theorem takeMsg_at_portUsed (m : Msg) (s : State) (k : Nat) : portUsed (takeMsg m s) k = portUsed s k := rfl
@[simp] theorem takeMsg_at_portEnabled (m : Msg) (s : State) (k : Nat) : portEnabled (takeMsg m s) k = portEnabled s k := rfl
@[simp] theorem takeMsg_at_partnerPort (m : Msg) (s : State) : partnerPort (takeMsg m s) = partnerPort s := rfl
@[simp] theorem takeMsg_at_forwardHeld (m : Msg) (s : State) (k c : Nat) : forwardHeld (takeMsg m s) k c = forwardHeld s k c := rfl
@[simp] theorem takeMsg_at_rwVal (m : Msg) (s : State) (index sub dflt : Nat) : rwVal (takeMsg m s) index sub dflt = rwVal s index sub dflt := rfl
@[simp] theorem takeMsg_at_rwsVal (m : Msg) (s : State) (index sub dflt : Nat) : rwsVal (takeMsg m s) index sub dflt = rwsVal s index sub dflt := rfl
@[simp] theorem takeMsg_at_paceModeVal (m : Msg) (s : State) : paceModeVal (takeMsg m s) = paceModeVal s := rfl
@[simp] theorem takeMsg_at_paceFixedMvVal (m : Msg) (s : State) : paceFixedMvVal (takeMsg m s) = paceFixedMvVal s := rfl
@[simp] theorem takeMsg_at_paceMarginPctVal (m : Msg) (s : State) : paceMarginPctVal (takeMsg m s) = paceMarginPctVal s := rfl
@[simp] theorem takeMsg_at_pacePowerCapWVal (m : Msg) (s : State) : pacePowerCapWVal (takeMsg m s) = pacePowerCapWVal s := rfl
@[simp] theorem takeMsg_at_paceUpdateUsVal (m : Msg) (s : State) : paceUpdateUsVal (takeMsg m s) = paceUpdateUsVal s := rfl
@[simp] theorem takeMsg_at_atlasEntriesVal (m : Msg) (s : State) : atlasEntriesVal (takeMsg m s) = atlasEntriesVal s := rfl
@[simp] theorem takeMsg_at_demoteMsVal (m : Msg) (s : State) (p : Nat) : demoteMsVal (takeMsg m s) p = demoteMsVal s p := rfl
@[simp] theorem takeMsg_at_ttlSVal (m : Msg) (s : State) (p : Nat) : ttlSVal (takeMsg m s) p = ttlSVal s p := rfl
@[simp] theorem takeMsg_at_tombHoldMsVal (m : Msg) (s : State) (p : Nat) : tombHoldMsVal (takeMsg m s) p = tombHoldMsVal s p := rfl
@[simp] theorem takeMsg_at_maxSessionsVal (m : Msg) (s : State) (p : Nat) : maxSessionsVal (takeMsg m s) p = maxSessionsVal s p := rfl
@[simp] theorem takeMsg_at_appendWaitMsVal (m : Msg) (s : State) : appendWaitMsVal (takeMsg m s) = appendWaitMsVal s := rfl
@[simp] theorem takeMsg_at_ropeLoadWaitMsVal (m : Msg) (s : State) : ropeLoadWaitMsVal (takeMsg m s) = ropeLoadWaitMsVal s := rfl
@[simp] theorem takeMsg_at_ringModeVal (m : Msg) (s : State) (p : Nat) : ringModeVal (takeMsg m s) p = ringModeVal s p := rfl
@[simp] theorem takeMsg_at_ringSizeVal (m : Msg) (s : State) (p : Nat) : ringSizeVal (takeMsg m s) p = ringSizeVal s p := rfl
@[simp] theorem takeMsg_at_ringMemberVal (m : Msg) (s : State) (p : Nat) : ringMemberVal (takeMsg m s) p = ringMemberVal s p := rfl
@[simp] theorem takeMsg_at_ringSegmentLog2Val (m : Msg) (s : State) (p : Nat) : ringSegmentLog2Val (takeMsg m s) p = ringSegmentLog2Val s p := rfl
@[simp] theorem takeMsg_at_mergeWindowMaxVal (m : Msg) (s : State) : mergeWindowMaxVal (takeMsg m s) = mergeWindowMaxVal s := rfl
@[simp] theorem takeMsg_at_segmentMaxAgeMsVal (m : Msg) (s : State) : segmentMaxAgeMsVal (takeMsg m s) = segmentMaxAgeMsVal s := rfl
@[simp] theorem takeMsg_at_granulesVal (m : Msg) (s : State) (p : Nat) : granulesVal (takeMsg m s) p = granulesVal s p := rfl
@[simp] theorem takeMsg_at_cacheSharesVal (m : Msg) (s : State) (p : Nat) : cacheSharesVal (takeMsg m s) p = cacheSharesVal s p := rfl
@[simp] theorem takeMsg_at_lcStepGoalUsVal (m : Msg) (s : State) (p : Nat) : lcStepGoalUsVal (takeMsg m s) p = lcStepGoalUsVal s p := rfl
@[simp] theorem takeMsg_at_beCutUsVal (m : Msg) (s : State) (p : Nat) : beCutUsVal (takeMsg m s) p = beCutUsVal s p := rfl
@[simp] theorem takeMsg_at_prefillCutUsVal (m : Msg) (s : State) (p : Nat) : prefillCutUsVal (takeMsg m s) p = prefillCutUsVal s p := rfl
@[simp] theorem takeMsg_at_jobIdleUsVal (m : Msg) (s : State) (p : Nat) : jobIdleUsVal (takeMsg m s) p = jobIdleUsVal s p := rfl
@[simp] theorem takeMsg_at_rolePrefillMinPctVal (m : Msg) (s : State) (p : Nat) : rolePrefillMinPctVal (takeMsg m s) p = rolePrefillMinPctVal s p := rfl
@[simp] theorem takeMsg_at_rolePrefillMaxPctVal (m : Msg) (s : State) (p : Nat) : rolePrefillMaxPctVal (takeMsg m s) p = rolePrefillMaxPctVal s p := rfl
@[simp] theorem takeMsg_at_frameLowWaterVal (m : Msg) (s : State) (p : Nat) : frameLowWaterVal (takeMsg m s) p = frameLowWaterVal s p := rfl
@[simp] theorem takeMsg_at_frameHighWaterVal (m : Msg) (s : State) (p : Nat) : frameHighWaterVal (takeMsg m s) p = frameHighWaterVal s p := rfl
@[simp] theorem takeMsg_at_preemptHoldoffMsVal (m : Msg) (s : State) (p : Nat) : preemptHoldoffMsVal (takeMsg m s) p = preemptHoldoffMsVal s p := rfl
@[simp] theorem takeMsg_at_searchTimeoutMsVal (m : Msg) (s : State) : searchTimeoutMsVal (takeMsg m s) = searchTimeoutMsVal s := rfl
@[simp] theorem takeMsg_at_searchQueueMaxVal (m : Msg) (s : State) : searchQueueMaxVal (takeMsg m s) = searchQueueMaxVal s := rfl
@[simp] theorem takeMsg_at_compassStageFramesVal (m : Msg) (s : State) (p : Nat) : compassStageFramesVal (takeMsg m s) p = compassStageFramesVal s p := rfl
@[simp] theorem takeMsg_at_fmQpVal (m : Msg) (s : State) : fmQpVal (takeMsg m s) = fmQpVal s := rfl
@[simp] theorem takeMsg_at_fetchQpsVal (m : Msg) (s : State) : fetchQpsVal (takeMsg m s) = fetchQpsVal s := rfl
@[simp] theorem takeMsg_at_fetchTimeoutUsVal (m : Msg) (s : State) : fetchTimeoutUsVal (takeMsg m s) = fetchTimeoutUsVal s := rfl
@[simp] theorem takeMsg_at_fetchRetriesVal (m : Msg) (s : State) : fetchRetriesVal (takeMsg m s) = fetchRetriesVal s := rfl
@[simp] theorem takeMsg_at_leaseTimeoutMsVal (m : Msg) (s : State) : leaseTimeoutMsVal (takeMsg m s) = leaseTimeoutMsVal s := rfl
@[simp] theorem takeMsg_at_regionRetainMsVal (m : Msg) (s : State) : regionRetainMsVal (takeMsg m s) = regionRetainMsVal s := rfl
@[simp] theorem takeMsg_at_publishIdleMsVal (m : Msg) (s : State) : publishIdleMsVal (takeMsg m s) = publishIdleMsVal s := rfl
@[simp] theorem takeMsg_at_scrubPeriodSVal (m : Msg) (s : State) : scrubPeriodSVal (takeMsg m s) = scrubPeriodSVal s := rfl
@[simp] theorem takeMsg_at_parkPoolRangeVal (m : Msg) (s : State) (p : Nat) : parkPoolRangeVal (takeMsg m s) p = parkPoolRangeVal s p := rfl
@[simp] theorem takeMsg_at_flatWindowVal (m : Msg) (s : State) (p : Nat) : flatWindowVal (takeMsg m s) p = flatWindowVal s p := rfl
@[simp] theorem takeMsg_at_flatHostSlotsVal (m : Msg) (s : State) (p : Nat) : flatHostSlotsVal (takeMsg m s) p = flatHostSlotsVal s p := rfl
@[simp] theorem takeMsg_at_flatDemoteSVal (m : Msg) (s : State) (p : Nat) : flatDemoteSVal (takeMsg m s) p = flatDemoteSVal s p := rfl
@[simp] theorem takeMsg_at_flatIdleParkSVal (m : Msg) (s : State) (p : Nat) : flatIdleParkSVal (takeMsg m s) p = flatIdleParkSVal s p := rfl
@[simp] theorem takeMsg_at_rtoUsVal (m : Msg) (s : State) : rtoUsVal (takeMsg m s) = rtoUsVal s := rfl
@[simp] theorem takeMsg_at_retryLimitVal (m : Msg) (s : State) : retryLimitVal (takeMsg m s) = retryLimitVal s := rfl
@[simp] theorem takeMsg_at_ackCoalesceVal (m : Msg) (s : State) : ackCoalesceVal (takeMsg m s) = ackCoalesceVal s := rfl
@[simp] theorem takeMsg_at_ackDelayNsVal (m : Msg) (s : State) : ackDelayNsVal (takeMsg m s) = ackDelayNsVal s := rfl
@[simp] theorem takeMsg_at_fastRepeatCountVal (m : Msg) (s : State) : fastRepeatCountVal (takeMsg m s) = fastRepeatCountVal s := rfl
@[simp] theorem takeMsg_at_timeStepNsVal (m : Msg) (s : State) : timeStepNsVal (takeMsg m s) = timeStepNsVal s := rfl
@[simp] theorem takeMsg_at_timeHoldoverMsVal (m : Msg) (s : State) : timeHoldoverMsVal (takeMsg m s) = timeHoldoverMsVal s := rfl
@[simp] theorem takeMsg_at_portEnableVal (m : Msg) (s : State) (k : Nat) : portEnableVal (takeMsg m s) k = portEnableVal s k := rfl
@[simp] theorem takeMsg_at_txPresetVal (m : Msg) (s : State) (k : Nat) : txPresetVal (takeMsg m s) k = txPresetVal s k := rfl
@[simp] theorem takeMsg_at_fecDownCountVal (m : Msg) (s : State) (k : Nat) : fecDownCountVal (takeMsg m s) k = fecDownCountVal s k := rfl
@[simp] theorem takeMsg_at_nodeIdVal (m : Msg) (s : State) : nodeIdVal (takeMsg m s) = nodeIdVal s := rfl
@[simp] theorem takeMsg_at_peerTopologyVal (m : Msg) (s : State) : peerTopologyVal (takeMsg m s) = peerTopologyVal s := rfl
@[simp] theorem takeMsg_at_torusDxVal (m : Msg) (s : State) : torusDxVal (takeMsg m s) = torusDxVal s := rfl
@[simp] theorem takeMsg_at_torusDyVal (m : Msg) (s : State) : torusDyVal (takeMsg m s) = torusDyVal s := rfl
@[simp] theorem takeMsg_at_ringNodesVal (m : Msg) (s : State) : ringNodesVal (takeMsg m s) = ringNodesVal s := rfl
@[simp] theorem takeMsg_at_doublesEnableVal (m : Msg) (s : State) : doublesEnableVal (takeMsg m s) = doublesEnableVal s := rfl
@[simp] theorem takeMsg_at_partnerNodeVal (m : Msg) (s : State) : partnerNodeVal (takeMsg m s) = partnerNodeVal s := rfl
@[simp] theorem takeMsg_at_failoverModeVal (m : Msg) (s : State) : failoverModeVal (takeMsg m s) = failoverModeVal s := rfl
@[simp] theorem takeMsg_at_pairBeatUsVal (m : Msg) (s : State) : pairBeatUsVal (takeMsg m s) = pairBeatUsVal s := rfl
@[simp] theorem takeMsg_at_pairDeadlineMsVal (m : Msg) (s : State) : pairDeadlineMsVal (takeMsg m s) = pairDeadlineMsVal s := rfl
@[simp] theorem takeMsg_at_routeOverrideVal (m : Msg) (s : State) (c : Nat) : routeOverrideVal (takeMsg m s) c = routeOverrideVal s c := rfl
@[simp] theorem takeMsg_at_ringNodeBaseVal (m : Msg) (s : State) (p : Nat) : ringNodeBaseVal (takeMsg m s) p = ringNodeBaseVal s p := rfl
@[simp] theorem takeMsg_at_mirrorPartVal (m : Msg) (s : State) (p : Nat) : mirrorPartVal (takeMsg m s) p = mirrorPartVal s p := rfl
@[simp] theorem takeMsg_at_kindClassVal (m : Msg) (s : State) (c : Nat) : kindClassVal (takeMsg m s) c = kindClassVal s c := rfl
@[simp] theorem takeMsg_at_sampleEnableVal (m : Msg) (s : State) : sampleEnableVal (takeMsg m s) = sampleEnableVal s := rfl
@[simp] theorem takeMsg_at_sampleRangeVal (m : Msg) (s : State) : sampleRangeVal (takeMsg m s) = sampleRangeVal s := rfl
@[simp] theorem takeMsg_at_sampleIntervalUsVal (m : Msg) (s : State) : sampleIntervalUsVal (takeMsg m s) = sampleIntervalUsVal s := rfl
@[simp] theorem takeMsg_at_sampleQueuesVal (m : Msg) (s : State) : sampleQueuesVal (takeMsg m s) = sampleQueuesVal s := rfl
@[simp] theorem takeMsg_at_sampleFlushUsVal (m : Msg) (s : State) : sampleFlushUsVal (takeMsg m s) = sampleFlushUsVal s := rfl
@[simp] theorem takeMsg_at_sampleRdVal (m : Msg) (s : State) : sampleRdVal (takeMsg m s) = sampleRdVal s := rfl
@[simp] theorem takeMsg_at_tcWeightVal (m : Msg) (s : State) (k c : Nat) : tcWeightVal (takeMsg m s) k c = tcWeightVal s k c := rfl
@[simp] theorem takeMsg_at_shapeRateMbpsVal (m : Msg) (s : State) (k c : Nat) : shapeRateMbpsVal (takeMsg m s) k c = shapeRateMbpsVal s k c := rfl
@[simp] theorem takeMsg_at_shapeBurstBytesVal (m : Msg) (s : State) (k c : Nat) : shapeBurstBytesVal (takeMsg m s) k c = shapeBurstBytesVal s k c := rfl
@[simp] theorem takeMsg_at_shaperOverheadVal (m : Msg) (s : State) (k : Nat) : shaperOverheadVal (takeMsg m s) k = shaperOverheadVal s k := rfl
@[simp] theorem takeMsg_at_gateEnableVal (m : Msg) (s : State) (k : Nat) : gateEnableVal (takeMsg m s) k = gateEnableVal s k := rfl
@[simp] theorem takeMsg_at_gateBaseNsVal (m : Msg) (s : State) (k : Nat) : gateBaseNsVal (takeMsg m s) k = gateBaseNsVal s k := rfl
@[simp] theorem takeMsg_at_gateCycleNsVal (m : Msg) (s : State) (k : Nat) : gateCycleNsVal (takeMsg m s) k = gateCycleNsVal s k := rfl
@[simp] theorem takeMsg_at_gateChangeNsVal (m : Msg) (s : State) (k : Nat) : gateChangeNsVal (takeMsg m s) k = gateChangeNsVal s k := rfl
@[simp] theorem takeMsg_at_gateCountVal (m : Msg) (s : State) (k : Nat) : gateCountVal (takeMsg m s) k = gateCountVal s k := rfl
@[simp] theorem takeMsg_at_gateCommitVal (m : Msg) (s : State) (k : Nat) : gateCommitVal (takeMsg m s) k = gateCommitVal s k := rfl
@[simp] theorem takeMsg_at_gateGuardVal (m : Msg) (s : State) (k : Nat) : gateGuardVal (takeMsg m s) k = gateGuardVal s k := rfl
@[simp] theorem takeMsg_at_meterCirMbpsVal (m : Msg) (s : State) (k c : Nat) : meterCirMbpsVal (takeMsg m s) k c = meterCirMbpsVal s k c := rfl
@[simp] theorem takeMsg_at_meterCbsBytesVal (m : Msg) (s : State) (k c : Nat) : meterCbsBytesVal (takeMsg m s) k c = meterCbsBytesVal s k c := rfl
@[simp] theorem takeMsg_at_meterPirMbpsVal (m : Msg) (s : State) (k c : Nat) : meterPirMbpsVal (takeMsg m s) k c = meterPirMbpsVal s k c := rfl
@[simp] theorem takeMsg_at_meterPbsBytesVal (m : Msg) (s : State) (k c : Nat) : meterPbsBytesVal (takeMsg m s) k c = meterPbsBytesVal s k c := rfl
@[simp] theorem takeMsg_at_yellowActionVal (m : Msg) (s : State) (k c : Nat) : yellowActionVal (takeMsg m s) k c = yellowActionVal s k c := rfl
@[simp] theorem takeMsg_at_yellowFloorVal (m : Msg) (s : State) (k : Nat) : yellowFloorVal (takeMsg m s) k = yellowFloorVal s k := rfl
@[simp] theorem takeMsg_at_gateEntryVal (m : Msg) (s : State) (k c : Nat) : gateEntryVal (takeMsg m s) k c = gateEntryVal s k c := rfl
@[simp] theorem takeMsg_at_surveyFreezeMaxUsVal (m : Msg) (s : State) : surveyFreezeMaxUsVal (takeMsg m s) = surveyFreezeMaxUsVal s := rfl
@[simp] theorem takeMsg_at_resumeHoldMsVal (m : Msg) (s : State) : resumeHoldMsVal (takeMsg m s) = resumeHoldMsVal s := rfl
@[simp] theorem takeMsg_at_nvQueueDepthVal (m : Msg) (s : State) : nvQueueDepthVal (takeMsg m s) = nvQueueDepthVal s := rfl
@[simp] theorem takeMsg_at_nvTimeoutMsVal (m : Msg) (s : State) : nvTimeoutMsVal (takeMsg m s) = nvTimeoutMsVal s := rfl
@[simp] theorem takeMsg_at_debugEnableVal (m : Msg) (s : State) : debugEnableVal (takeMsg m s) = debugEnableVal s := rfl
@[simp] theorem takeMsg_at_plcaEnableVal (m : Msg) (s : State) : plcaEnableVal (takeMsg m s) = plcaEnableVal s := rfl
@[simp] theorem takeMsg_at_plcaNodeCountVal (m : Msg) (s : State) : plcaNodeCountVal (takeMsg m s) = plcaNodeCountVal s := rfl
@[simp] theorem takeMsg_at_plcaToTimerVal (m : Msg) (s : State) : plcaToTimerVal (takeMsg m s) = plcaToTimerVal s := rfl
@[simp] theorem takeMsg_at_modeRequestVal (m : Msg) (s : State) : modeRequestVal (takeMsg m s) = modeRequestVal s := rfl
@[simp] theorem takeMsg_at_clearCountersVal (m : Msg) (s : State) : clearCountersVal (takeMsg m s) = clearCountersVal s := rfl
@[simp] theorem takeMsg_at_thermWarnMainCVal (m : Msg) (s : State) : thermWarnMainCVal (takeMsg m s) = thermWarnMainCVal s := rfl
@[simp] theorem takeMsg_at_thermWarnStackCVal (m : Msg) (s : State) : thermWarnStackCVal (takeMsg m s) = thermWarnStackCVal s := rfl
@[simp] theorem takeMsg_at_qpWords (m : Msg) (s : State) (n : Nat) : qpWords (takeMsg m s) n = qpWords s n := rfl
@[simp] theorem takeMsg_at_madeQp (m : Msg) (s : State) (n : Nat) : madeQp (takeMsg m s) n = madeQp s n := rfl
@[simp] theorem takeMsg_at_timerDue (m : Msg) (s : State) (i : Nat) : timerDue (takeMsg m s) i = timerDue s i := rfl
@[simp] theorem takeMsg_at_appendWaits (m : Msg) (s : State) (p : Nat) : appendWaits (takeMsg m s) p = appendWaits s p := rfl
@[simp] theorem takeMsg_at_shortChannels (m : Msg) (s : State) (p : Nat) : shortChannels (takeMsg m s) p = shortChannels s p := rfl
@[simp] theorem takeMsg_at_isVictim (m : Msg) (s : State) (p i : Nat) (x : Session) : isVictim (takeMsg m s) p i x = isVictim s p i x := rfl
@[simp] theorem takeMsg_at_chooseVictim (m : Msg) (s : State) (p : Nat) : chooseVictim (takeMsg m s) p = chooseVictim s p := rfl
@[simp] theorem takeMsg_at_preemptions (m : Msg) (s : State) (p : Nat) : preemptions (takeMsg m s) p = preemptions s p := rfl
@[simp] theorem takeMsg_at_tilesOut (m : Msg) (s : State) (n index : Nat) : tilesOut (takeMsg m s) n index = tilesOut s n index := rfl
@[simp] theorem takeMsg_at_frameUsers (m : Msg) (s : State) (f : Nat) : frameUsers (takeMsg m s) f = frameUsers s f := rfl
@[simp] theorem takeMsg_at_onAllowed (m : Msg) (s : State) (n : Nat) : onAllowed (takeMsg m s) n = onAllowed s n := rfl
@[simp] theorem takeMsg_at_stationServes (m : Msg) (s : State) : stationServes (takeMsg m s) = stationServes s := rfl
@[simp] theorem takeMsg_at_keyUnset (m : Msg) (s : State) : keyUnset (takeMsg m s) = keyUnset s := rfl
@[simp] theorem takeMsg_at_ringResolve (m : Msg) (s : State) (qp : Nat) (home : Word) : ringResolve (takeMsg m s) qp home = ringResolve s qp home := rfl
@[simp] theorem takeMsg_at_keyMatches (m : Msg) (s : State) (c : Nat) (key : Option Word) : keyMatches (takeMsg m s) c key = keyMatches s c key := rfl
@[simp] theorem takeMsg_at_joinCheck (m : Msg) (s : State) (r : RingJoin) : joinCheck (takeMsg m s) r = joinCheck s r := rfl
@[simp] theorem takeMsg_at_nodeLost (m : Msg) (s : State) (node : Nat) : nodeLost (takeMsg m s) node = nodeLost s node := rfl
@[simp] theorem takeMsg_at_stepNeeds (m : Msg) (s : State) (i : Nat) (st : Step) : stepNeeds (takeMsg m s) i st = stepNeeds s i st := rfl
@[simp] theorem takeMsg_at_surveyKey (m : Msg) (s : State) (c : Nat) (r : CommitRec) : surveyKey (takeMsg m s) c r = surveyKey s c r := rfl
@[simp] theorem takeMsg_at_storedPayload (m : Msg) (s : State) (r : CommitRec) (off : Nat) (sh : Shard) : storedPayload (takeMsg m s) r off sh = storedPayload s r off sh := rfl
@[simp] theorem takeMsg_at_shardBytes (m : Msg) (s : State) (r : CommitRec) (off : Nat) (sh : Shard) : shardBytes (takeMsg m s) r off sh = shardBytes s r off sh := rfl
@[simp] theorem takeMsg_at_entryBytes (m : Msg) (s : State) (r : CommitRec) (off : Nat) (sh : Shard) : entryBytes (takeMsg m s) r off sh = entryBytes s r off sh := rfl
@[simp] theorem takeMsg_at_manifestBytes (m : Msg) (s : State) (r : CommitRec) (entries : List Byte) : manifestBytes (takeMsg m s) r entries = manifestBytes s r entries := rfl
@[simp] theorem takeMsg_at_nvIdle (m : Msg) (s : State) : nvIdle (takeMsg m s) = nvIdle s := rfl
@[simp] theorem takeMsg_at_surveyState (m : Msg) (s : State) : surveyState (takeMsg m s) = surveyState s := rfl
@[simp] theorem takeMsg_at_logRoom (m : Msg) (s : State) (r : SurveyRun) (upTo : Nat) : logRoom (takeMsg m s) r upTo = logRoom s r upTo := rfl
end Sys2Proof.Machine
end

