-- ==== Sys2Proof/Laws/Does.lean ====
section
/-!
SUPPORT. How to show that a command completes: from what its own meaning gives on the state that the gate hands to it.
-/
namespace Sys2Proof.Machine

/-- A request that the module takes completes with what its own meaning gives. -/
theorem does_request {c : Instr} {f : Form} {m : Msg} {bad : Bool} {h : State → State} {s e : State} {l : List Sent}
    (hx : exec c s = .next (request f m bad h s)) (hs : Serves f.on m s) (need : f.need ≤ m.ops.length) (most : m.ops.length ≤ f.most)
    (run : f.setup = true → s.mode = .run) (hb : bad = false) (he : bare (h (takeMsg m s)) = bare e)
    (ho : (h (takeMsg m s)).out = s.out ++ l) : Does c s e l := by
  subst hb
  rw [request_serves hs need most run] at hx
  exact ⟨_, hx, he, ho⟩

/-- As `does_request`, for a peer message. -/
theorem does_peer {c : Instr} {f : Form} {m : Msg} {h : State → State} {s e : State} {l : List Sent}
    (hx : exec c s = .next (peerMessage f m h s)) (hs : Serves f.on m s) (need : f.need ≤ m.ops.length) (most : m.ops.length ≤ f.most)
    (run : f.setup = true → s.mode = .run) (he : bare (h (takeMsg m s)) = bare e) (ho : (h (takeMsg m s)).out = s.out ++ l) : Does c s e l := by
  rw [peerMessage_serves hs need most run] at hx
  exact ⟨_, hx, he, ho⟩

/-- A refusal that the module sends leaves the state as it was. -/
theorem does_refuse {c : Instr} {f : Form} {m : Msg} {bad : Bool} {h : State → State} {s : State} {st : Status}
    (hx : exec c s = .next (request f m bad h s)) (hs : Serves f.on m s) (need : f.need ≤ m.ops.length) (most : m.ops.length ≤ f.most)
    (run : f.setup = true → s.mode = .run) (hb : bad = false) (he : h (takeMsg m s) = refuse m st (takeMsg m s)) : Does c s s [answer m st] := by
  refine does_request hx hs need most run hb ?_ ?_
  · rw [he]; simp
  · rw [he, out_refuse]
    · rfl
    · exact hs.ready

/-- A request that the module grants with `OK` and a new state. -/
theorem does_ok {c : Instr} {f : Form} {m : Msg} {bad : Bool} {h : State → State} {s e u : State} {st : Status}
    (hx : exec c s = .next (request f m bad h s)) (hs : Serves f.on m s) (need : f.need ≤ m.ops.length) (most : m.ops.length ≤ f.most)
    (run : f.setup = true → s.mode = .run) (hb : bad = false) (he : h (takeMsg m s) = refuse m st u) (hu : bare u = bare e)
    (hr : qpReady u m.qp = true) (ho : u.out = s.out) : Does c s e [answer m st] := by
  refine does_request hx hs need most run hb ?_ ?_
  · rw [he]; simpa using hu
  · rw [he, out_refuse hr, ho]

/-- A request that the module grants with an answer of more than a status. -/
theorem does_answer {c : Instr} {f : Form} {m : Msg} {bad : Bool} {h : State → State} {s e u : State} {a : Answer}
    (hx : exec c s = .next (request f m bad h s)) (hs : Serves f.on m s) (need : f.need ≤ m.ops.length) (most : m.ops.length ≤ f.most)
    (run : f.setup = true → s.mode = .run) (hb : bad = false) (he : h (takeMsg m s) = respond m a u) (hu : bare u = bare e)
    (hr : qpReady u m.qp = true) (ho : u.out = s.out) : Does c s e [.msg (response m a)] := by
  refine does_request hx hs need most run hb ?_ ?_
  · rw [he]; simpa using hu
  · rw [he, out_respond hr, ho]

/-- A command whose end state is reached telling others, and then an answer. -/
theorem apart_answered {c : Instr} {m : Msg} {a : Answer} {s e u : State} (hx : exec c s = .next (respond m a u)) (hu : apart u = apart e)
    (hr : qpReady u m.qp = true) (ho : s.out <+: u.out) : DoesApart c s e [.msg (response m a)] := by
  obtain ⟨r, hr'⟩ := ho
  exact ⟨_, r, hx, by simpa using hu, by rw [out_respond hr, ← hr']⟩

/-- As `does_ok`, telling others. -/
theorem apart_ok {c : Instr} {f : Form} {m : Msg} {bad : Bool} {h : State → State} {s e u : State} {st : Status}
    (hx : exec c s = .next (request f m bad h s)) (hs : Serves f.on m s) (need : f.need ≤ m.ops.length) (most : m.ops.length ≤ f.most)
    (run : f.setup = true → s.mode = .run) (hb : bad = false) (he : h (takeMsg m s) = refuse m st u) (hu : apart u = apart e)
    (hr : qpReady u m.qp = true) (ho : s.out <+: u.out) : DoesApart c s e [answer m st] := by
  subst hb
  rw [request_serves hs need most run, he] at hx
  exact apart_answered (a := { status := st }) hx hu hr ho

/-- As `does_answer`, telling others. -/
theorem apart_answer {c : Instr} {f : Form} {m : Msg} {bad : Bool} {h : State → State} {s e u : State} {a : Answer}
    (hx : exec c s = .next (request f m bad h s)) (hs : Serves f.on m s) (need : f.need ≤ m.ops.length) (most : m.ops.length ≤ f.most)
    (run : f.setup = true → s.mode = .run) (hb : bad = false) (he : h (takeMsg m s) = respond m a u) (hu : apart u = apart e)
    (hr : qpReady u m.qp = true) (ho : s.out <+: u.out) : DoesApart c s e [.msg (response m a)] := by
  subst hb
  rw [request_serves hs need most run, he] at hx
  exact apart_answered hx hu hr ho

/-- Without an answer. -/
theorem apart_silent {c : Instr} {s e u : State} (hx : exec c s = .next u) (hu : apart u = apart e) (ho : s.out <+: u.out) : DoesApart c s e [] := by
  obtain ⟨r, hr⟩ := ho
  exact ⟨u, r, hx, hu, by rw [List.append_nil, hr]⟩

/-- An engine that may act does. -/
theorem engine_live {s t : State} (h : Live s) : engine s t = t := by
  unfold engine; simp [h.1, h.2]
theorem engineHeld_grants {s t : State} (h : Grants s) : engineHeld s t = t := by
  unfold engineHeld; rw [engine_live h.1, h.2]; rfl

/-- An engine's event that may act has its own effect. -/
theorem does_held {c : Instr} {s t e : State} {l : List Sent} (hx : exec c s = .next (engineHeld s t)) (hg : Grants s) (he : bare t = bare e)
    (ho : t.out = s.out ++ l) : Does c s e l := by
  rw [engineHeld_grants hg] at hx; exact ⟨_, hx, he, ho⟩
theorem does_live {c : Instr} {s t e : State} {l : List Sent} (hx : exec c s = .next (engine s t)) (hg : Live s) (he : bare t = bare e)
    (ho : t.out = s.out ++ l) : Does c s e l := by
  rw [engine_live hg] at hx; exact ⟨_, hx, he, ho⟩
theorem apart_held {c : Instr} {s t e : State} (hx : exec c s = .next (engineHeld s t)) (hg : Grants s) (he : apart t = apart e)
    (ho : s.out <+: t.out) : DoesApart c s e [] := by
  rw [engineHeld_grants hg] at hx; exact apart_silent hx he ho
theorem apart_live {c : Instr} {s t e : State} (hx : exec c s = .next (engine s t)) (hg : Live s) (he : apart t = apart e)
    (ho : s.out <+: t.out) : DoesApart c s e [] := by
  rw [engine_live hg] at hx; exact apart_silent hx he ho
theorem next_held {c : Instr} {s t : State} (hx : exec c s = .next (engineHeld s t)) (hg : Grants s) : exec c s = .next t := by
  rw [hx, engineHeld_grants hg]
theorem next_live {c : Instr} {s t : State} (hx : exec c s = .next (engine s t)) (hg : Live s) : exec c s = .next t := by
  rw [hx, engine_live hg]

/-- A request that the module takes: the next state. -/
theorem next_request {c : Instr} {f : Form} {m : Msg} {bad : Bool} {h : State → State} {s : State}
    (hx : exec c s = .next (request f m bad h s)) (hs : Serves f.on m s) (need : f.need ≤ m.ops.length) (most : m.ops.length ≤ f.most)
    (run : f.setup = true → s.mode = .run) (hb : bad = false) : exec c s = .next (h (takeMsg m s)) := by
  subst hb
  rw [hx, request_serves hs need most run]

/-- A request on a queue pair of another kind is answered `OPCODE_DENIED` and changes nothing (R433). -/
theorem does_denied {c : Instr} {f : Form} {m : Msg} {bad : Bool} {h : State → State} {s : State} {on : On}
    (hx : exec c s = .next (request f m bad h s)) (hs : Serves on m s) (kind : onAllowed s m.qp f.on = false) :
    Does c s s [answer m .opcodeDenied] := by
  have e3 : (s.mode == Mode.fatal) = false := by simpa using hs.works
  have e4 : (s.sec.state == SecState.recovery) = false := by simpa using hs.firmware
  have g : gate f m bad s = .deny .opcodeDenied := by
    unfold gate
    simp [linkAlive_running hs.powered, hs.powered, hs.ready, e3, e4, kind]
  unfold request at hx
  rw [g] at hx
  refine ⟨_, hx, by simp, ?_⟩
  rw [out_refuse (by simpa using hs.ready)]
  rfl

end Sys2Proof.Machine
end

