-- ==== Sys2Proof/Laws/Leaves.lean ====
section
/-!
SUPPORT. What allocating, writing to tiers and telling an owner leave alone.
-/
namespace Sys2Proof.Machine
theorem allocPool_eq {r c n k : Nat} {s v : State} (h : allocPool r c n s = some (k, v)) :
    v = { s with poolSlots := s.poolSlots ++ List.range' k n } := by
  unfold allocPool at h
  dsimp only at h
  split at h
  · cases h
  · rw [Option.map_eq_some_iff] at h
    obtain ⟨a, _, h⟩ := h
    cases h; rfl
theorem allocSlots_eq (r c : Nat) : ∀ (n : Nat) {s v : State} {l : List Nat}, allocSlots r c n s = some (l, v) → v = { s with poolSlots := s.poolSlots ++ l }
  | 0, s, v, l, h => by cases h; simp
  | n + 1, s, v, l, h => by
    simp only [allocSlots, Option.bind_eq_some_iff, Option.map_eq_some_iff] at h
    obtain ⟨⟨a, u⟩, h1, ⟨b, w⟩, h2, h3⟩ := h
    cases h3
    have e1 := allocSlots_eq r c n h1
    have e2 := allocPool_eq h2
    subst e1
    rw [e2]
    simp [List.append_assoc]
/-- Tiles are issued and put on their way by writing transfers, their numbers, and what a packet sent writes. -/
def Issued (s t : State) : Prop := ∃ l n, bare t = bare { s with transfers := l, nextTile := n }
theorem Issued.refl (s : State) : Issued s s := ⟨s.transfers, s.nextTile, rfl⟩
theorem Issued.trans {s t u : State} (h : Issued s t) (g : Issued t u) : Issued s u := by
  obtain ⟨l, n, h⟩ := h
  obtain ⟨k, m, g⟩ := g
  refine ⟨k, m, g.trans ?_⟩
  exact congrArg (fun v : State => { v with transfers := k, nextTile := m }) h
theorem issued_launch (n : Nat) (t : Transfer) (s : State) : Issued s (launch n t s) := by
  unfold launch
  exact ⟨_, s.nextTile, bare_sendTile ..⟩
theorem issued_issueTile (c : Consumer) (k tier slot tile x a : Nat) (w : Bool) (d : List Byte) (s : State) :
    Issued s (issueTile c k tier slot tile x a w d s) := by
  unfold issueTile
  dsimp only
  split
  · exact Issued.trans ⟨s.transfers, s.nextTile + 1, rfl⟩ (issued_launch ..)
  · exact ⟨_, _, rfl⟩
theorem issued_foldl {α : Type} {f : State → α → State} (h : ∀ s a, Issued s (f s a)) : ∀ (l : List α) (s : State), Issued s (l.foldl f s)
  | [], s => .refl s
  | a :: l, s => (h s a).trans (issued_foldl h l (f s a))
theorem issued_poolSlotWrite (c k j : Nat) (d : List Byte) (s : State) : Issued s (poolSlotWrite c k j d s) :=
  issued_foldl (fun _ _ => issued_issueTile ..) _ _
@[simp] theorem ready_launch (k : Nat) (t : Transfer) (s : State) (n : Nat) : qpReady (launch k t s) n = qpReady s n := by
  unfold launch; rw [ready_sendTile]; rfl
@[simp] theorem ready_issueTile (c : Consumer) (k tier slot tile x a : Nat) (w : Bool) (d : List Byte) (s : State) (n : Nat) :
    qpReady (issueTile c k tier slot tile x a w d s) n = qpReady s n := by
  unfold issueTile; dsimp only; split
  · rw [ready_launch]; rfl
  · rfl
theorem ready_foldRange {f : State → Nat → State} {n k : Nat} (h : ∀ s i, qpReady (f s i) k = qpReady s k) (s : State) :
    qpReady (foldRange n f s) k = qpReady s k := by
  unfold foldRange
  induction (List.range n) generalizing s with
  | nil => rfl
  | cons a l ih => rw [List.foldl_cons, ih, h]
@[simp] theorem ready_poolSlotWrite (c k j : Nat) (d : List Byte) (s : State) (n : Nat) : qpReady (poolSlotWrite c k j d s) n = qpReady s n :=
  ready_foldRange (fun _ _ => ready_issueTile ..) s
@[simp] theorem ready_modOwner (x : Region) (f : Word × Word → Word × Word) (s : State) (n : Nat) : qpReady (modOwner x f s) n = qpReady s n := by
  unfold modOwner; split
  · rfl
  · simp
theorem apart_modOwner {x : Region} {f : Word × Word → Word × Word} {u v : State} (h : apart u = apart v) :
    apart (modOwner x f u) = apart (modOwner x f v) := by
  have e : ownerOf u x = ownerOf v x := by unfold ownerOf; simp only [sessAt_of_apart h]
  unfold modOwner
  rw [e]
  cases ownerOf v x with
  | none => exact h
  | some i => simp only [apart_mirrorUpdate, apart_modSess, h, sessAt_of_apart h]
theorem bare_foldl {α : Type} {f : State → α → State} (h : ∀ s a, bare (f s a) = bare s) : ∀ (l : List α) (s : State), bare (l.foldl f s) = bare s
  | [], _ => rfl
  | a :: l, s => (bare_foldl h l (f s a)).trans (h s a)

theorem regionJudge_ok {al : Bool} {m : Msg} {x : Region} {s : State} (h : OnRegion al m x s) : regionJudge s m (opNat m 0) al = .ok := by
  unfold regionJudge
  dsimp only
  rw [if_neg, h.found]
  · exact if_neg (fun e => e h.own)
  · intro e
    simp only [Bool.and_eq_true, Bool.not_eq_true'] at e
    rw [h.whole e.1] at e
    cases e.2
theorem onRegion_at {al : Bool} {m : Msg} {x : Region} {s : State} {h : Region → State → State} (hr : OnRegion al m x s) :
    onRegion m al h (takeMsg m s) = h x (takeMsg m s) := by
  have e : regionJudge (takeMsg m s) m (opNat m 0) al = .ok := regionJudge_ok (s := s) hr
  unfold onRegion
  rw [e, show Tab.find (takeMsg m s).regions (opNat m 0) = some x from hr.found]
theorem onPublish_at {m : Msg} {p : Publish} {x : Region} {s : State} {h : Publish → Region → State → State} (hp : OnPublish m p x s) :
    onPublish m h (takeMsg m s) = h p x (noted m p (takeMsg m s)) := by
  have n : renewLease p.region p.lease { takeMsg m s with publishes := Tab.put (takeMsg m s).publishes (opNat m 0) { p with at_ := now (takeMsg m s) } } = noted m p (takeMsg m s) := rfl
  unfold onPublish
  dsimp only
  rw [if_neg (by simpa using hp.whole), show Tab.find (takeMsg m s).publishes (opNat m 0) = some p from hp.found]
  dsimp only
  rw [show Tab.find (takeMsg m s).regions p.region = some x from hp.region]
  dsimp only
  rw [if_neg (fun e => e hp.own)]
  cases hx : x.lease with
  | none =>
    dsimp only
    rw [← n]
    unfold renewLease
    dsimp only
    rw [show Tab.find (takeMsg m s).regions p.region = some x from hp.region]
    dsimp only
    simp only [hx]
  | some l =>
    dsimp only
    rw [if_neg]
    · rw [← n]
    · simpa using fun a b => hp.holder l hx a b

theorem renewLease_take (r id : Nat) (m : Msg) (s : State) : renewLease r id (takeMsg m s) = takeMsg m (renewLease r id s) := by
  unfold renewLease
  rw [show (takeMsg m s).regions = s.regions from rfl]
  cases Tab.find s.regions r with
  | none => rfl
  | some x =>
    dsimp only
    cases x.lease with
    | none => rfl
    | some l => dsimp only; split <;> rfl
theorem noted_take (m : Msg) (p : Publish) (s : State) : noted m p (takeMsg m s) = takeMsg m (noted m p s) :=
  renewLease_take p.region p.lease m { s with publishes := Tab.put s.publishes (opNat m 0) { p with at_ := now s } }

/-- Renewing a lease writes regions alone. -/
theorem renewLease_eq (r id : Nat) (s : State) : ∃ g, renewLease r id s = { s with regions := g } := by
  unfold renewLease
  split
  · split
    · split
      · exact ⟨_, rfl⟩
      · exact ⟨_, rfl⟩
    · exact ⟨_, rfl⟩
  · exact ⟨_, rfl⟩

theorem freeHome_take (t k : Nat) (m : Msg) (s : State) : freeHome t k (takeMsg m s) = takeMsg m (freeHome t k s) := by
  unfold freeHome
  split
  · rfl
  · rw [show (takeMsg m s).survey = s.survey from rfl]; split <;> rfl
theorem freeSlots_take (m : Msg) : ∀ (l : List Nat) (s : State), freeSlots l (takeMsg m s) = takeMsg m (freeSlots l s)
  | [], _ => rfl
  | k :: l, s => by
    have h := freeSlots_take m l (freeHome 2 k s)
    rw [← freeHome_take] at h
    exact h

/-- Freeing slots writes the tiers' slots, a survey's retained slots and a counter. -/
theorem freeHome_eq (t k : Nat) (s : State) : ∃ h p v d, freeHome t k s = { s with hostSlots := h, poolSlots := p, survey := v, dict := { s.dict with counters := d } } := by
  unfold freeHome
  split
  · exact ⟨_, _, _, _, rfl⟩
  · split
    · exact ⟨_, _, _, _, rfl⟩
    · exact ⟨_, _, _, _, rfl⟩
theorem freeSlots_eq : ∀ (l : List Nat) (s : State), ∃ h p v d, freeSlots l s = { s with hostSlots := h, poolSlots := p, survey := v, dict := { s.dict with counters := d } }
  | [], s => ⟨_, _, _, _, rfl⟩
  | k :: l, s => by
    obtain ⟨h, p, v, d, e⟩ := freeHome_eq 2 k s
    obtain ⟨h', p', v', d', e'⟩ := freeSlots_eq l (freeHome 2 k s)
    refine ⟨h', p', v', d', ?_⟩
    show freeSlots l (freeHome 2 k s) = _
    rw [e', e]

@[simp] theorem ready_freeSlots (l : List Nat) (s : State) (n : Nat) : qpReady (freeSlots l s) n = qpReady s n := by
  obtain ⟨h, p, v, d, e⟩ := freeSlots_eq l s
  rw [e]; rfl
@[simp] theorem out_freeSlots (l : List Nat) (s : State) : (freeSlots l s).out = s.out := by
  obtain ⟨h, p, v, d, e⟩ := freeSlots_eq l s
  rw [e]

theorem Tab.find_putAll {α : Type} (n : Nat) : ∀ (l : Tab α) (b : Tab α), Tab.rising l = true →
    Tab.find (l.foldl (fun t e => Tab.put t e.1 e.2) b) n = (Tab.find l n).or (Tab.find b n)
  | [], b, _ => by simp [Tab.find]
  | (i, a) :: l, b, h => by
    rw [List.foldl_cons, Tab.find_putAll n l _ (Tab.rising_tail h), Tab.find_put]
    conv => rhs; rw [Tab.find.eq_2]
    by_cases e : i = n
    · subst e
      rw [if_pos rfl, if_pos rfl]
      have : Tab.find l i = none := by
        have lt := Tab.rising_lt h
        clear h
        induction l with
        | nil => rfl
        | cons e l ih =>
          obtain ⟨j, c⟩ := e
          unfold Tab.find
          have := lt (j, c) (by simp)
          rw [if_neg (by simp at this; omega)]
          exact ih (fun e he => lt e (by simp [he]))
      rw [this]; simp
    · rw [if_neg e, if_neg e]

theorem ready_foldl {α : Type} {f : State → α → State} {k : Nat} (h : ∀ s a, qpReady (f s a) k = qpReady s k) : ∀ (l : List α) (s : State),
    qpReady (l.foldl f s) k = qpReady s k
  | [], _ => rfl
  | a :: l, s => (ready_foldl h l (f s a)).trans (h s a)

/-- What a commit writes (R368, R370), given its slots. -/
theorem commitPublish_some {x : Region} {p : Publish} {s v : State} {l : List Nat} (rise : Tab.rising p.staged = true)
    (al : allocSlots x.range x.context ((distinct ((Tab.keys p.staged).map (· / 8192))).length + 1) s = some (l, v)) :
    ∃ u y o, commitPublish x p s = some u ∧ Tab.find u.regions p.region = some y ∧
      y.version = (if x.version = 4294967295 then 1 else x.version + 1) ∧ y.root = l.headD 0 ∧ y.lines = x.lines ∧ y.owner = x.owner ∧
      (∀ n, Tab.find y.lineSlots n = (Tab.find p.staged n).or (Tab.find x.lineSlots n)) ∧ u.publishes = s.publishes ∧
      u.retained = s.retained ++ [o] ∧ o.region = p.region ∧ o.version = x.version ∧ o.at_ = now s ∧ x.root ∈ o.slots ∧
      ∀ n, qpReady u n = qpReady s n := by
  have ev := allocSlots_eq _ _ _ al
  unfold commitPublish
  dsimp only
  rw [al, Option.map_some]
  generalize e4 : (if x.version = 4294967295 then 1 else x.version + 1) = vn
  have key : ∀ (w : State) (lv : Tab Nat) (ol : List Nat), Issued v w → (∀ n, qpReady w n = qpReady v n) → x.root ∈ ol →
      ∃ u y o, some (bump ctrPublishesCommitted (setRegion p.region
          ({ x with version := vn, root := l.headD 0, leaves := lv, lineSlots := List.foldl (fun t e => Tab.put t e.1 e.2) x.lineSlots p.staged } : Region)
        ({ w with retained := w.retained ++ [{ region := p.region, version := x.version, at_ := now w, slots := ol }] } : State))) = some u ∧
      Tab.find u.regions p.region = some y ∧
      y.version = vn ∧ y.root = l.headD 0 ∧ y.lines = x.lines ∧ y.owner = x.owner ∧
      (∀ n, Tab.find y.lineSlots n = (Tab.find p.staged n).or (Tab.find x.lineSlots n)) ∧ u.publishes = s.publishes ∧
      u.retained = s.retained ++ [o] ∧ o.region = p.region ∧ o.version = x.version ∧ o.at_ = now s ∧ x.root ∈ o.slots ∧
      ∀ n, qpReady u n = qpReady s n := by
    intro w lv ol ⟨_, _, hb⟩ hq hol
    refine ⟨_, _, { region := p.region, version := x.version, at_ := now w, slots := ol }, rfl, Tab.find_put_self .., rfl, rfl, rfl, rfl, fun n => Tab.find_putAll n _ _ rise, ?_, ?_, ?_, ?_, ?_, ?_, ?_⟩
    · have g := congrArg State.publishes hb
      rw [ev] at g; exact g
    · have g := congrArg State.retained hb
      rw [ev] at g; exact congrArg (· ++ _) g
    · rfl
    · rfl
    · show now w = now s
      have g := congrArg (fun t => t.time.now) hb
      rw [ev] at g; exact g
    · exact hol
    · intro n
      exact (hq n).trans (by rw [ev]; rfl)
  refine key _ _ _ ?_ ?_ List.mem_cons_self
  · exact (issued_foldl (fun _ _ => issued_poolSlotWrite ..) _ _).trans (issued_poolSlotWrite ..)
  · exact fun n => by rw [ready_poolSlotWrite]; exact ready_foldl (fun _ _ => ready_poolSlotWrite ..) _ _

theorem whole_of {m : Msg} {x : Region} {s : State} (hr : OnRegion false m x s) : (ctxAt s (qpAt s m.qp).context).tornDown = false := by
  cases e : (ctxAt s (qpAt s m.qp).context).tornDown
  · rfl
  · exact absurd (hr.whole e) (by simp)
theorem abortPublish_take (k : Nat) (m : Msg) (s : State) : abortPublish k (takeMsg m s) = takeMsg m (abortPublish k s) := by
  unfold abortPublish
  rw [show (takeMsg m s).publishes = s.publishes from rfl]
  cases Tab.find s.publishes k with
  | none => rfl
  | some p => exact freeSlots_take m _ { s with publishes := Tab.drop s.publishes k }
theorem abortPublish_eq (k : Nat) (s : State) : ∃ h p v d b, abortPublish k s = { s with hostSlots := h, poolSlots := p, survey := v, dict := { s.dict with counters := d }, publishes := b } := by
  unfold abortPublish
  split
  · exact ⟨_, _, _, _, _, rfl⟩
  · obtain ⟨h, p, v, d, e⟩ := freeSlots_eq (Tab.vals ‹Publish›.staged) { s with publishes := Tab.drop s.publishes k }
    exact ⟨_, _, _, _, _, e⟩
theorem abortAll_take (m : Msg) : ∀ (l : List Nat) (s : State), l.foldl (fun t k => abortPublish k t) (takeMsg m s) = takeMsg m (l.foldl (fun t k => abortPublish k t) s)
  | [], _ => rfl
  | k :: l, s => by
    have h := abortAll_take m l (abortPublish k s)
    rw [← abortPublish_take] at h
    exact h
theorem abortAll_eq : ∀ (l : List Nat) (s : State), ∃ h p v d b, l.foldl (fun t k => abortPublish k t) s = { s with hostSlots := h, poolSlots := p, survey := v, dict := { s.dict with counters := d }, publishes := b }
  | [], s => ⟨_, _, _, _, _, rfl⟩
  | k :: l, s => by
    obtain ⟨h, p, v, d, b, e⟩ := abortPublish_eq k s
    obtain ⟨h', p', v', d', b', e'⟩ := abortAll_eq l (abortPublish k s)
    refine ⟨h', p', v', d', b', ?_⟩
    show l.foldl (fun t k => abortPublish k t) (abortPublish k s) = _
    rw [e', e]
theorem publishes_abort (k : Nat) (s : State) : (abortPublish k s).publishes = Tab.drop s.publishes k ∨ (abortPublish k s).publishes = s.publishes ∧ Tab.find s.publishes k = none := by
  unfold abortPublish
  split
  · rename_i h; exact .inr ⟨rfl, h⟩
  · obtain ⟨h, p, v, d, e⟩ := freeSlots_eq (Tab.vals ‹Publish›.staged) { s with publishes := Tab.drop s.publishes k }
    rw [e]; exact .inl rfl
theorem Tab.find_none {α : Type} {k : Nat} : ∀ {t : Tab α}, Tab.find t k = none → ∀ e ∈ t, e.1 ≠ k
  | [], _, _, h => by cases h
  | (i, a) :: t, h, e, he => by
    unfold Tab.find at h
    split at h
    · cases h
    · rcases List.mem_cons.mp he with rfl | he
      · assumption
      · exact Tab.find_none h e he
theorem publishes_abortAll : ∀ (l : List Nat) (s : State) (e : Nat × Publish), e ∈ (l.foldl (fun t k => abortPublish k t) s).publishes → e ∈ s.publishes ∧ e.1 ∉ l
  | [], s, e, h => ⟨h, by simp⟩
  | k :: l, s, e, h => by
    obtain ⟨h1, h2⟩ := publishes_abortAll l (abortPublish k s) e h
    rcases publishes_abort k s with g | ⟨g, g2⟩
    · rw [g] at h1
      unfold Tab.drop at h1
      rw [List.mem_filter] at h1
      refine ⟨h1.1, ?_⟩
      have := h1.2
      simp at this
      simp [h2, this]
    · rw [g] at h1
      exact ⟨h1, by simp [h2, Tab.find_none g2 e h1]⟩

end Sys2Proof.Machine
end

