-- ==== Sys2Proof/Laws/Keeps.lean ====
section
/-!
SUPPORT. What follows an event (steps and jobs that go on, parks that issue, partners and ring members that are told) leaves of every session: its
Atlas entry, its reason, its handle, its context.
-/
namespace Sys2Proof.Machine

/-- Two sessions that show the same Atlas entry, reason, handle, context, step sequence, length and innings. -/
def SameFace (x y : Session) : Prop :=
  y.entry = x.entry ∧ y.record.reason = x.record.reason ∧ y.record.handle = x.record.handle ∧ y.record.context = x.record.context ∧
    y.record.stepSeq = x.record.stepSeq ∧ y.record.length = x.record.length ∧ y.record.innings = x.record.innings

/-- Every session of the second state shows what it shows in the first. -/
structure Keeps (s t : State) : Prop where
  face : ∀ j, SameFace (sessAt s j) (sessAt t j)

theorem SameFace.refl (x : Session) : SameFace x x := ⟨rfl, rfl, rfl, rfl, rfl, rfl, rfl⟩
theorem SameFace.trans {x y z : Session} (h : SameFace x y) (g : SameFace y z) : SameFace x z :=
  ⟨g.1.trans h.1, g.2.1.trans h.2.1, g.2.2.1.trans h.2.2.1, g.2.2.2.1.trans h.2.2.2.1, g.2.2.2.2.1.trans h.2.2.2.2.1,
    g.2.2.2.2.2.1.trans h.2.2.2.2.2.1, g.2.2.2.2.2.2.trans h.2.2.2.2.2.2⟩

variable {s t u : State}

theorem Keeps.refl (s : State) : Keeps s s := ⟨fun _ => SameFace.refl _⟩
theorem Keeps.trans (h : Keeps s t) (g : Keeps t u) : Keeps s u := ⟨fun j => (h.face j).trans (g.face j)⟩
theorem keeps_of_sessions (h : t.sessions = s.sessions) : Keeps s t := ⟨fun j => by
  have e : sessAt t j = sessAt s j := by unfold sessAt; rw [h]
  rw [e]; exact SameFace.refl _⟩
theorem keeps_of_apart (h : apart t = apart s) : Keeps s t := keeps_of_sessions (sessions_of_apart h)
theorem keeps_of_bare (h : bare t = bare s) : Keeps s t := keeps_of_apart (apart_of_bare h)

theorem sessAt_setSess_ne {i j : Nat} (h : i ≠ j) (x : Session) (s : State) : sessAt (setSess i x s) j = sessAt s j := by
  unfold sessAt setSess; exact Tab.get_put_ne h ..
theorem keeps_setSess {i : Nat} {x : Session} (h : SameFace (sessAt s i) x) : Keeps s (setSess i x s) := ⟨fun j => by
  by_cases e : i = j
  · subst e; rw [sessAt_setSess]; exact h
  · rw [sessAt_setSess_ne e]; exact SameFace.refl _⟩
theorem keeps_modSess {i : Nat} {f : Session → Session} (h : ∀ x, SameFace x (f x)) : Keeps s (modSess i f s) := keeps_setSess (h _)
theorem keeps_foldl {α : Type} {f : State → α → State} (h : ∀ s a, Keeps s (f s a)) : ∀ (l : List α) (s : State), Keeps s (l.foldl f s)
  | [], s => Keeps.refl s
  | a :: l, s => (h s a).trans (keeps_foldl h l (f s a))
theorem keeps_foldRange {f : State → Nat → State} {n : Nat} (h : ∀ s a, Keeps s (f s a)) (s : State) : Keeps s (foldRange n f s) := keeps_foldl h _ s

theorem keeps_bump (k : Nat) (s : State) : Keeps s (bump k s) := keeps_of_sessions rfl
theorem keeps_pmu (e : PmuEvent) (s : State) : Keeps s (pmu e s) := keeps_of_bare (bare_pmu ..)
theorem keeps_mirrorItem (i : Nat) (b : MirrorBody) (s : State) : Keeps s (mirrorItem i b s) := keeps_of_apart (apart_mirrorItem ..)
theorem keeps_mirrorUpdate (i : Nat) (s : State) : Keeps s (mirrorUpdate i s) := keeps_of_apart (apart_mirrorUpdate ..)
theorem keeps_answerRing (i : Nat) (m : Msg) (a : Status) (s : State) : Keeps s (answerRing i m a s) := keeps_of_apart (apart_answerRing ..)
theorem keeps_refuse (m : Msg) (st : Status) (s : State) : Keeps s (refuse m st s) := keeps_of_bare (bare_refuse ..)
theorem keeps_sendPeer (node qp : Nat) (tag : BitVec 32) (h : Word) (c : Option Nat) (p : PeerMsg) (s : State) : Keeps s (sendPeer node qp tag h c p s) :=
  keeps_of_bare (bare_sendPeer ..)
theorem keeps_sendTile (n : Nat) (o : Outgoing) (s : State) : Keeps s (sendTile n o s) := keeps_of_bare (bare_sendTile ..)

/-! Frames, slots and bytes: no session is written. -/
theorem sessions_foldl {α : Type} {f : State → α → State} (h : ∀ s a, (f s a).sessions = s.sessions) : ∀ (l : List α) (s : State),
    (l.foldl f s).sessions = s.sessions
  | [], _ => rfl
  | a :: l, s => (sessions_foldl h l (f s a)).trans (h s a)
theorem sessions_sealFrame (f : Nat) (k : List Byte) (s : State) : (sealFrame f k s).sessions = s.sessions := by
  unfold sealFrame foldRange; exact sessions_foldl (fun _ _ => writeBytes_sessions ..) _ _
theorem sessions_freeFrame (f : Nat) (s : State) : (freeFrame f s).sessions = s.sessions := by
  unfold freeFrame
  dsimp only
  split
  · rfl
  · split
    · rfl
    · rw [setFrame_sessions]
      split
      · exact sessions_sealFrame ..
      · rfl
theorem sessions_dropRef (f : Nat) (s : State) : (dropRef f s).sessions = s.sessions := by
  unfold dropRef
  dsimp only
  split
  · rfl
  · split
    · exact sessions_freeFrame f { s with fills := Tab.drop s.fills f }
    · rfl
theorem sessions_freeHome (t k : Nat) (s : State) : (freeHome t k s).sessions = s.sessions := by
  obtain ⟨h, p, v, d, e⟩ := freeHome_eq t k s; rw [e]
theorem allocFrame_sessions {f n : Nat} {x : Frame} (h : allocFrame f x s = some (n, t)) : t.sessions = s.sessions := by
  unfold allocFrame at h
  rw [Option.map_eq_some_iff] at h
  obtain ⟨a, _, h⟩ := h
  cases h; rfl
theorem allocMapFrame_sessions {i a n : Nat} (h : allocMapFrame i a s = some (n, t)) : t.sessions = s.sessions := by
  unfold allocMapFrame at h
  dsimp only at h
  rw [Option.bind_eq_some_iff] at h
  obtain ⟨f, _, h⟩ := h
  exact allocFrame_sessions h
theorem allocTier_sessions {a p c n k : Nat} (h : allocTier a p c n s = some (k, t)) : t.sessions = s.sessions := by
  unfold allocTier at h
  split at h
  · unfold allocHost at h
    rw [Option.map_eq_some_iff] at h
    obtain ⟨a, _, h⟩ := h
    cases h; rfl
  · rw [allocPool_eq h]
theorem sessions_issued (h : Issued s t) : t.sessions = s.sessions := by
  obtain ⟨_, _, h⟩ := h
  exact (sessions_of_apart (apart_of_bare h)).trans rfl
theorem sessions_issueTile (c : Consumer) (k ti sl j cx a : Nat) (w : Bool) (d : List Byte) (s : State) :
    (issueTile c k ti sl j cx a w d s).sessions = s.sessions := sessions_issued (issued_issueTile ..)

/-! Pages. -/
theorem keeps_putPage (i k : Nat) (e : PageEntry) (s : State) : Keeps s (putPage i k e s) := by
  unfold putPage
  dsimp only
  split
  · exact keeps_setSess ⟨rfl, rfl, rfl, rfl, rfl, rfl, rfl⟩
  · refine Keeps.trans ?_ (keeps_mirrorItem _ _ _)
    exact keeps_setSess ⟨rfl, rfl, rfl, rfl, rfl, rfl, rfl⟩
theorem keeps_dropHome (i k : Nat) (s : State) : Keeps s (dropHome i k s) := by
  unfold dropHome
  dsimp only
  split
  · exact Keeps.refl s
  · split
    · exact keeps_putPage ..
    · exact (keeps_putPage ..).trans (keeps_of_sessions (sessions_freeHome ..))
theorem keeps_dirtyPage (i k : Nat) (s : State) : Keeps s (dirtyPage i k s) := by
  unfold dirtyPage
  exact (keeps_dropHome ..).trans (keeps_putPage ..)
theorem keeps_ensureLeaf {i l hd k : Nat} {h : Shape} (e : ensureLeaf i h l hd k s = some t) : Keeps s t := by
  unfold ensureLeaf at e
  dsimp only at e
  split at e
  · cases e; exact Keeps.refl s
  · rw [Option.map_eq_some_iff] at e
    obtain ⟨a, h1, e⟩ := e
    subst e
    exact (keeps_of_sessions (allocMapFrame_sessions h1)).trans (keeps_modSess (fun _ => ⟨rfl, rfl, rfl, rfl, rfl, rfl, rfl⟩))
theorem keeps_allocPage {i l hd n : Nat} {h : Shape} {st : FrameState} (e : allocPage i h l hd n st s = some t) : Keeps s t := by
  unfold allocPage at e
  simp only [Option.bind_eq_some_iff, Option.map_eq_some_iff] at e
  obtain ⟨f, _, a, h1, v, h2, e⟩ := e
  subst e
  exact ((keeps_of_sessions (allocFrame_sessions h1)).trans (keeps_ensureLeaf h2)).trans (keeps_putPage ..)
theorem sessions_writeRow (h : Shape) (f p : Nat) (k v : List Byte) (s : State) : (writeRow h f p k v s).sessions = s.sessions := by
  unfold writeRow foldRange; exact sessions_foldl (fun _ _ => writeBytes_sessions ..) _ _
theorem sessions_copyFrame (h : Shape) (a b c d : Nat) (s : State) : (copyFrame h a b c d s).sessions = s.sessions := by
  unfold copyFrame zeroRows foldRange
  refine (sessions_foldl (fun u j => ?_) _ _).trans (writeBytes_sessions ..)
  split
  · rfl
  · unfold zeroRow foldRange; exact sessions_foldl (fun _ _ => zeroBytes_sessions ..) _ _
theorem sessions_zeroRows (h : Shape) (a b c : Nat) (s : State) : (zeroRows h a b c s).sessions = s.sessions := by
  unfold zeroRows foldRange
  refine sessions_foldl (fun u j => ?_) _ _
  split
  · rfl
  · unfold zeroRow foldRange; exact sessions_foldl (fun _ _ => zeroBytes_sessions ..) _ _
theorem sessions_touchLine (p a : Nat) (q : Priv) (s : State) : (touchLine p a q s).sessions = s.sessions :=
  sessions_of_apart (apart_of_bare (bare_touchLine ..))
theorem sessions_touchMap (i k : Nat) (s : State) : (touchMap i k s).sessions = s.sessions := by
  unfold touchMap
  dsimp only
  split <;> split <;> simp only [sessions_touchLine]
theorem keeps_ownPage (i k f n : Nat) (h : Shape) (s : State) : Keeps s (ownPage i k h f n s) := by
  unfold ownPage
  dsimp only
  split
  · exact Keeps.refl s
  · exact (keeps_setSess (x := { sessAt s i with inherited := (sessAt s i).inherited.erase k }) ⟨rfl, rfl, rfl, rfl, rfl, rfl, rfl⟩).trans
      (keeps_of_sessions (sessions_zeroRows ..))
theorem keeps_writablePage {i l hd n len : Nat} {h : Shape} (e : writablePage i h l hd n len s = some t) : Keeps s t := by
  unfold writablePage at e
  dsimp only at e
  split at e
  · exact keeps_allocPage e
  · split at e
    · cases e; exact keeps_ownPage ..
    · split at e
      · cases e
      · rw [Option.map_eq_some_iff] at e
        obtain ⟨a, h1, e⟩ := e
        subst e
        refine (keeps_of_sessions ?_).trans ((keeps_putPage ..).trans ((keeps_bump ..).trans (keeps_pmu ..)))
        exact ((sessions_dropRef ..).trans (sessions_copyFrame ..)).trans (allocFrame_sessions h1)
theorem keeps_appendHeads {i l p len : Nat} {h : Shape} {kv : List Byte} : ∀ {n : Nat} {t : State}, appendHeads i h l p len kv n s = some t → Keeps s t
  | 0, t, e => by cases e; exact Keeps.refl s
  | n + 1, t, e => by
    simp only [appendHeads, Option.bind_eq_some_iff, Option.map_eq_some_iff] at e
    obtain ⟨v, h1, w, h2, e⟩ := e
    subst e
    refine (keeps_appendHeads h1).trans ((keeps_writablePage h2).trans (Keeps.trans (keeps_of_sessions ?_) ((keeps_dirtyPage ..).trans (keeps_pmu ..))))
    exact (sessions_writeRow ..).trans (sessions_touchMap ..)
theorem keeps_appendRow {i l p len : Nat} {kv : List Byte} (e : appendRow i l p len kv s = some t) : Keeps s t := by
  unfold appendRow at e
  rw [Option.map_eq_some_iff] at e
  obtain ⟨v, h1, e⟩ := e
  subst e
  exact (keeps_appendHeads h1).trans (keeps_mirrorItem ..)

/-! Steps and jobs. -/
theorem keeps_appendLayer (i : Nat) (s : State) : Keeps s (appendLayer i s) := by
  unfold appendLayer
  dsimp only
  split
  · exact Keeps.refl s
  · split
    · split
      · exact (keeps_sendPeer ..).trans (keeps_modSess (fun _ => ⟨rfl, rfl, rfl, rfl, rfl, rfl, rfl⟩))
      · exact Keeps.refl s
    · split
      · rename_i h; exact (keeps_appendRow h).trans (keeps_modSess (fun _ => ⟨rfl, rfl, rfl, rfl, rfl, rfl, rfl⟩))
      · exact keeps_modSess (fun _ => ⟨rfl, rfl, rfl, rfl, rfl, rfl, rfl⟩)
theorem keeps_retryAppends (s : State) : Keeps s (retryAppends s) := keeps_foldl (fun _ _ => keeps_appendLayer ..) _ _
theorem keeps_retryRope (s : State) : Keeps s (retryRope s) := by
  unfold retryRope
  refine keeps_foldl (fun t i => ?_) _ _
  split
  · exact Keeps.refl t
  · exact keeps_appendLayer ..
theorem sessions_releaseSet (n : Nat) (s : State) : (releaseSet n s).sessions = s.sessions := by
  unfold releaseSet
  split
  · rfl
  · dsimp only; split <;> rfl
theorem keeps_settleJobs (s : State) : Keeps s (settleJobs s) := by
  refine keeps_of_sessions ?_
  unfold settleJobs reapJobs touchJobs
  exact sessions_foldl (f := fun u (e : Nat × Job) => endJob e.1 u) (fun u e => sessions_releaseSet e.1 u) _ _
theorem keeps_settle (s : State) : Keeps s (settle s) := (keeps_retryAppends s).trans (keeps_settleJobs _)

/-! Parks. -/
theorem keeps_modPark (i : Nat) (f : ParkMove → ParkMove) (s : State) : Keeps s (modPark i f s) := by
  refine keeps_modSess (fun x => ?_)
  split <;> exact ⟨rfl, rfl, rfl, rfl, rfl, rfl, rfl⟩
theorem keeps_issuePage (i k sl : Nat) (p : ParkMove) (s : State) : Keeps s (issuePage i k sl p s) :=
  keeps_foldRange (fun _ _ => keeps_of_sessions (sessions_issueTile ..)) s
theorem keeps_issuePark (i : Nat) : ∀ (f : Nat) (s : State), Keeps s (issuePark i f s)
  | 0, s => Keeps.refl s
  | f + 1, s => by
    simp only [issuePark]
    split
    · split
      · exact Keeps.refl s
      · split
        · split
          · exact (keeps_modPark ..).trans (keeps_issuePark i f _)
          · split
            · exact Keeps.refl s
            · split
              · exact keeps_modPark ..
              · rename_i h
                split
                · exact (keeps_modPark ..).trans (keeps_bump ..)
                · exact (keeps_of_sessions (allocTier_sessions h)).trans ((keeps_issuePage ..).trans ((keeps_modPark ..).trans (keeps_issuePark i f _)))
        · split
          · exact Keeps.refl s
          · split
            · exact keeps_modPark ..
            · rename_i h
              exact (keeps_of_sessions (allocTier_sessions h)).trans
                ((keeps_foldRange (fun _ _ => keeps_of_sessions (sessions_issueTile ..)) _).trans (keeps_modPark ..))
    · exact Keeps.refl s
theorem keeps_pumpPark (i : Nat) (s : State) : Keeps s (pumpPark i s) := keeps_issuePark ..

end Sys2Proof.Machine
end

