-- ==== Sys2Proof/Tests/Slice0.lean ====
section
/-!
SUPPORT. The model's own tests: examples of the manual, the checks of WellFormed, and for each statement's piece states and operands that meet the
hypotheses of each of its clauses.
-/
namespace Sys2Proof.Tests

set_option maxRecDepth 20000
set_option Elab.async false
set_option linter.unusedVariables false
open Sys2Proof.Machine


/-- A message on queue pair `qp` with operand words `ops`. -/
def tmsg (qp : Nat) (ops : List Nat) (handle : Word := 0) (body : List Byte := []) : Msg :=
  { qp, opcode := 0, tag := 7, handle, ops := ops.map word, body }

/-- A running module in Run: context 1 is open, queue pair 512 is bound to it and READY. -/
def run0 : State :=
  { mode := .run, contexts := [(1, { mode := .open_ })]
    qps := [(512, { state := .ready, bound := true, context := 1, created := true })], sec.state := .ready }

/-- A session of context 1 in partition 0, entry 3, in state `st`. -/
def sess (st : SessState) : Session :=
  { entry := { state := st, generation := 1 }, record := { handle := handleOf 0 1 3, context := 1, innings := 1 } }

/-- `run0` with session 3. -/
def with3 (x : Session) (s : State := run0) : State := { s with sessions := [(3, x)] }

/-- `run0` with a pool range that context 1 may write and allocate from. -/
def pool0 : State := { run0 with poolRanges := [(1, { valid := true, access := 2, alloc := true, context := 1, limit := 1000 })] }

/-- A region of four lines in that range. -/
def reg4 : Region :=
  { table := true, context := 1, range := 1, lines := 4, rowBytesM1 := 32767, root := 10, leaves := [(0, 11)]
    lineSlots := [(0, 12), (1, 13), (2, 14), (3, 15)] }

/-- `pool0` with region 5. -/
def regs0 (x : Region := reg4) : State := { pool0 with poolSlots := [10, 11, 12, 13, 14, 15], regions := [(5, x)] }

/-- A vocabulary of 257 tokens: every byte alone, and "ab" as token 256. -/
def vocabImage : List Byte :=
  wordsBytes [word (257 * 2 ^ 43), word (3 * 2 ^ 39 + 258), 5,
    word (at' 97 34 8 + at' 1 25 9 + 1), word (at' 98 34 8 + at' 1 25 9 + 2), word (2 ^ 63 + at' 256 42 21)] ++
  ((List.range 257 ++ [258]).map (leBytes 4)).flatten ++ (List.range 256).map byte ++ [97, 98]

/-- The handle of `sess`. -/
def h3 : Word := handleOf 0 1 3

/-- Queue pair `n` of `run0` as `q`. -/
def withQp (n : Nat) (q : Qp) (s : State := run0) : State := { s with qps := s.qps ++ [(n, q)] }

/-- That vocabulary as a slot holds it. -/
def vocab0 : Vocab :=
  { size := 257, fallback := 0, nodes := [word (at' 97 34 8 + at' 1 25 9 + 1), word (at' 98 34 8 + at' 1 25 9 + 2), word (2 ^ 63 + at' 256 42 21)]
    offsets := List.range 257 ++ [258], strings := (List.range 256).map byte ++ [97, 98], tag := 5, bytes := vocabImage.length, image := vocabImage }

/-- A list image of one banned sequence of one token, 7. -/
def listImage : List Byte := wordsBytes [word (at' 1 45 17 + at' 1 21 24 + 7), 9] ++ leBytes 4 (2 ^ 25) ++ leBytes 4 7

/-- `run0` whose partition 0 holds granule 0, with a model of one layer and one head in slot 0. -/
def part0 : State :=
  { run0 with
    dict.run := [(0x300001, 1)], models := [(0, { layers := 1, kvHeads := 1, group := 1, entries := List.replicate 256 {}, tag := 9 })] }

/-- A step of the session, at layer 0. -/
def step0 : Step := { qp := 512, tag := 4, outQp := 512, outTag := 5, job := 1, seq0 := 0, len0 := 0 }

/-- A frame of the station port: to `dst`, from station address 3…3, holding `b`, its tag under `key` and the check sequence. -/
def frameOf (dst key b : List Byte) : List Byte :=
  let p := dst ++ List.replicate 6 3 ++ [0x88, 0xB5] ++ b ++ hmac key b
  p ++ fcsBytes p
/-- A request PDU of `l` from station 15. -/
def pduOf (seq epoch : Nat) (l : List DictItem) (target : Nat := moduleSerial.toNat) : List Byte :=
  let b := (l.map requestItem).flatten
  pduHeader { station := 15, count := l.length, bodyBytes := b.length, seq, target, epoch } 0 ++ b

/-- `Serves`, computed. -/
def servesB (on : On) (m : Msg) (s : State) : Bool :=
  decide (s.power.phase = .running ∧ qpReady s m.qp = true ∧ s.mode ≠ .fatal ∧ s.sec.state ≠ .recovery ∧ onAllowed s m.qp on = true ∧
    m.cut = false ∧ s.survey.frozen = false)
theorem serves_of {on : On} {m : Msg} {s : State} (h : servesB on m s = true) : Serves on m s := by
  obtain ⟨a, b, c, d, e, f, g⟩ := of_decide_eq_true h; exact ⟨a, b, c, d, e, f, g⟩
/-- `Reaches`, computed. -/
def reachesB (torn : Bool) (m : Msg) (i : Nat) (s : State) : Bool :=
  servesB .bound m s && decide (s.mode = .run ∧ lookup s m.qp m.handle torn = .at_ i ∧ (sessAt s i).shadow = none ∧ entryHeld s i = false)
theorem reaches_of {torn : Bool} {m : Msg} {i : Nat} {s : State} (h : reachesB torn m i s = true) : Reaches torn m i s := by
  obtain ⟨h, k⟩ := Bool.and_eq_true_iff.1 h; obtain ⟨b, c, d, e⟩ := of_decide_eq_true k; exact ⟨serves_of h, b, c, d, e⟩
/-- `OnRegion`, computed. -/
def onRegionB (always : Bool) (m : Msg) (x : Region) (s : State) : Bool :=
  servesB .bound m s && decide (s.mode = .run ∧ ((ctxAt s (qpAt s m.qp).context).tornDown = true → always = true) ∧
    Tab.find s.regions (opNat m 0) = some x ∧ x.context = (qpAt s m.qp).context)
theorem onRegion_of {always : Bool} {m : Msg} {x : Region} {s : State} (h : onRegionB always m x s = true) : OnRegion always m x s := by
  obtain ⟨h, k⟩ := Bool.and_eq_true_iff.1 h; obtain ⟨b, c, d, e⟩ := of_decide_eq_true k; exact ⟨serves_of h, b, c, d, e⟩
/-- `OnPublish`, computed. -/
def onPublishB (m : Msg) (p : Publish) (x : Region) (s : State) : Bool :=
  servesB .bound m s && decide (s.mode = .run ∧ (ctxAt s (qpAt s m.qp).context).tornDown = false ∧ Tab.find s.publishes (opNat m 0) = some p ∧
    Tab.find s.regions p.region = some x ∧ p.context = (qpAt s m.qp).context ∧ ∀ l ∈ x.lease, p.lease ≠ 0 → l.id = p.lease → l.qp = m.qp)
theorem onPublish_of {m : Msg} {p : Publish} {x : Region} {s : State} (h : onPublishB m p x s = true) : OnPublish m p x s := by
  obtain ⟨h, k⟩ := Bool.and_eq_true_iff.1 h; obtain ⟨b, c, d, e, f, g⟩ := of_decide_eq_true k
  exact ⟨serves_of h, b, c, d, e, f, fun l hl => g l hl⟩
theorem live_of {s : State} (h : (s.power.phase == .running && s.mode != .fatal) = true) : Live s := by simpa [Live] using h
theorem grants_of {s : State} (h : (s.power.phase == .running && s.mode != .fatal && !s.survey.frozen) = true) : Grants s := by
  simp only [Bool.and_eq_true] at h
  exact ⟨live_of (by simp [h.1.1, h.1.2]), by simpa using h.2⟩
/-- `ItemTaken`, computed. -/
def itemTakenB (p : DictPath) (s : State) : Bool :=
  s.power.phase == .running && !s.power.warm && s.mode != .fatal && s.sec.state != .recovery &&
  match p with
  | .mailbox _ => qpReady s 0
  | .station _ n seq => !keyUnset s && decide (n ≤ 15) && decide (seq < 2 ^ 64) && decide (Tab.get s.mgmt.lastSeq n 0 < seq)
theorem itemTaken_of {p : DictPath} {s : State} (h : itemTakenB p s = true) : ItemTaken p s := by
  cases p <;> simpa [itemTakenB, ItemTaken, and_assoc] using h
theorem itemFits_of {i : DictItem}
    (h : decide (i.index < 65536 ∧ i.sub < 256 ∧ i.offset < 65536 ∧ i.length ≤ 1024 ∧ i.value.length = i.length) = true) : ItemFits i := by
  have := of_decide_eq_true h; exact this

/-! Examples of the manual, each with the value that the manual states. -/

/-- The reference model of chapter 01: 80 layers, 8 heads of dimension 128, group 8, BF16. -/
def reference : Shape := shapeOf { layers := 80, kvHeads := 8, group := 8, headCode := 2 }
/-- `run0` with the RWS settings `l` in force. -/
def settings (l : List (Nat × Nat)) : State := { run0 with dict.run := l }

/-- 04, example: stripes 63 and 64 of layer 5, head 3 of entry 1,000 lie in pseudo-channels 11 and 19. -/
theorem test_stripe : stripeFielder run0 0 1000 reference 5 3 63 = some 11 ∧ stripeFielder run0 0 1000 reference 5 3 64 = some 19 := by decide +kernel
/-- 04, example: pages hold 128 positions; element 100 of K of position 32,767 lies at offset 65,352 of page 255, whose root index is 86. -/
theorem test_page_layout :
    reference.run = 128 ∧ 32767 / reference.run = 255 ∧ rowOffset reference 32767 1 + 36 * 2 = 65352 ∧ reference.nMax = 2097152 ∧
    rootIndex reference 5 3 0 = 86 := by decide +kernel
/-- 05, example: global position 300,000 is position 103,392 at member 0 of four. -/
theorem test_ring_position :
    localPos (settings [(0x301001, 1), (0x301002, 4), (0x301003, 0), (0x301004, 16)]) 0 300000 = 103392 ∧
    globalPos (settings [(0x301001, 1), (0x301002, 4), (0x301003, 0), (0x301004, 16)]) 0 103392 = 300000 := by decide +kernel
/-- 05, example: the cosine and sine of three radians are within 2 to the -23 of cos 3 and sin 3. -/
theorem test_rotary_phase :
    3 * 0x28BE60DB9391054A % 2 ^ 64 = 0x7A3B2292BAB30FDE ∧
    (0xBF7D7026 : Nat) ≤ (Fp.cosSin 0x7A3B2292BAB30FDE).1.toNat + 2 ∧ (Fp.cosSin 0x7A3B2292BAB30FDE).1.toNat ≤ (0xBF7D7026 : Nat) + 2 ∧
    (0x3E1081C3 : Nat) ≤ (Fp.cosSin 0x7A3B2292BAB30FDE).2.toNat + 8 ∧ (Fp.cosSin 0x7A3B2292BAB30FDE).2.toNat ≤ (0x3E1081C3 : Nat) + 8 := by decide +kernel
/-- 06, example: a merge of the reference model at 128 Ki keeps its eight heads and its window of 64 blocks. -/
theorem test_merge_fits : fitMerge 1 0 4160 20 8 64 = (8, 64) := by decide +kernel
/-- 08, example: the runs of a mask of the tokens 48 to 57 and 1,000. -/
theorem test_mask_runs :
    encodeMask 1 131072 (.tokens [(48, 57), (1000, 1000)]) =
      (1, false, false, 11, ([0x0030, 0x000A, 0x03AE, 0x0001, 0x8003, 0x7C17].map (leBytes 2)).flatten) := by decide +kernel
/-- 11, example: three status codes. -/
theorem test_status_codes : Status.sessionExpired.code = 0x030F ∧ Status.deadEnd.code = 0x080D ∧ Status.contextDenied.code = 0x0304 := by decide
/-- 12, example: in a torus of 4 by 4, node 5 sends to node 14 in the positive X direction, then node 6 in the positive Y direction. -/
theorem test_torus_route :
    firstHop (settings [(0x208001, 5), (0x208002, 2), (0x208003, 4), (0x208004, 4)]) 14 = some 2 ∧
    firstHop (settings [(0x208001, 6), (0x208002, 2), (0x208003, 4), (0x208004, 4)]) 14 = some 4 := by decide +kernel
/-- 13, example: a shaper of 80,000 Mb/s gains 10 bytes in a nanosecond. -/
theorem test_shaper_gains : (refillBucket { t := 0, r := 0, last := 0 } 442 80000 65536 false).t = 4420 := by decide +kernel
/-- 15, example: tier addresses of tile 15 of a frame and of the host slot that it is parked in. -/
theorem test_tier_addresses : hbmAddr 0x000B0FA0 (15 * 4096) = 0x0000000B0FA0F000 ∧ tierAddr 1 0x1234 (15 * 4096) = 0x400000001234F000 := by decide +kernel
/-- 16, example: 30 written to `PACE_MARGIN_PCT` is held as 20; 7 written to `PACE_MODE` is 0; a setting of Setup is not written in Run. -/
theorem test_dictionary_writes :
    (∃ t, exec (.dictWriteItem (.mailbox 7) { op := 2, index := 0x2100, sub := 3, length := 1, value := [30] }) run0 = .next t ∧ paceMarginPctVal t = 20) ∧
    (∃ t, exec (.dictWriteItem (.mailbox 7) { op := 2, index := 0x2100, sub := 1, length := 1, value := [7] }) run0 = .next t ∧ paceModeVal t = 0) ∧
    (∃ t, exec (.dictWriteItem (.mailbox 7) { op := 2, index := 0x3000, sub := 1, length := 8, value := [255, 255, 255, 255, 0, 0, 0, 0] }) run0 = .next t ∧
      granulesVal t 0 = 0xFFFFFFFFFFFFFFFF) := by
  refine ⟨⟨_, rfl, ?_⟩, ⟨_, rfl, ?_⟩, ⟨_, rfl, ?_⟩⟩ <;> decide +kernel
/-- The published check values: SHA-256 of "abc" (FIPS 180-4), CRC-32C and the Ethernet check sequence of "123456789". -/
theorem test_published_checks :
    sha256 [0x61, 0x62, 0x63] = [
      0xba, 0x78, 0x16, 0xbf, 0x8f, 0x01, 0xcf, 0xea, 0x41, 0x41, 0x40, 0xde, 0x5d, 0xae, 0x22, 0x23,
      0xb0, 0x03, 0x61, 0xa3, 0x96, 0x17, 0x7a, 0x9c, 0xb4, 0x10, 0xff, 0x61, 0xf2, 0x00, 0x15, 0xad] ∧
    crc32c [0x31, 0x32, 0x33, 0x34, 0x35, 0x36, 0x37, 0x38, 0x39] = 0xE3069283 ∧
    fcsBytes [0x31, 0x32, 0x33, 0x34, 0x35, 0x36, 0x37, 0x38, 0x39] = leBytes 4 0xCBF43926 := by decide +kernel

/-! The interface: no word spells a command, as the table gives no row bits; a step takes the front command; the queue's end lets time pass. -/

theorem test_no_word_spells (s : State) (n w : Nat) : decodeTableWord n w = none ∧ s.withFetchWord n w = s := ⟨rfl, rfl⟩
theorem test_front_first : step { run0 with pending := [.pairBeatSend, .maskForm] } = exec .pairBeatSend { run0 with pending := [.maskForm] } := rfl
theorem test_time_passes : ∃ t, step State.reset = .next t ∧ t.time.now = 1 := ⟨_, rfl, by decide +kernel⟩

/-! WellFormed refuses, for each of its checks, a term that fails it. -/

theorem test_wf_messages :
    (Instr.step { qp := 65536, opcode := 0, tag := 0, handle := 0 }).wf = false ∧
    (Instr.step { qp := 0, opcode := 0, tag := 0, handle := 0, ops := List.replicate 256 0 }).wf = false ∧
    (Instr.step { qp := 65535, opcode := 0, tag := 0, handle := 0, ops := List.replicate 255 0 }).wf = true ∧
    (Instr.dictAccess (.mailbox (tmsg 1 []))).wf = false ∧ (Instr.dictAccess (.frame [])).wf = false ∧ (Instr.mgmtHello []).wf = false := by decide +kernel
theorem test_wf_paths :
    (Instr.modeRun (.station [] 0 0)).wf = false ∧ (Instr.modeRun (.station [1, 2, 3, 4, 5, 6] 16 0)).wf = false ∧
    (Instr.modeRun (.station [1, 2, 3, 4, 5, 6] 15 (2 ^ 64))).wf = false ∧ (Instr.modeRun (.station [1, 2, 3, 4, 5, 6] 15 0)).wf = true ∧
    (Instr.dictReadItem (.mailbox 0) { op := 0, index := 0, sub := 0 }).wf = false ∧
    (Instr.dictReadItem (.mailbox 0) { op := 1, index := 65536, sub := 0 }).wf = false ∧
    (Instr.dictReadItem (.mailbox 0) { op := 1, index := 0, sub := 256 }).wf = false ∧
    (Instr.dictReadItem (.mailbox 0) { op := 1, index := 0, sub := 0, offset := 65536 }).wf = false ∧
    (Instr.dictReadItem (.mailbox 0) { op := 1, index := 0, sub := 0, length := 65536 }).wf = false := by decide +kernel
theorem test_wf_numbers :
    (Instr.ropeLoadApply 32).wf = false ∧ (Instr.loadPieceTimeout .vocab 256).wf = false ∧ (Instr.compassSliceIssue 256).wf = false ∧
    (Instr.searchTimeout (2 ^ 32)).wf = false ∧ (Instr.publishIdleTimeout (2 ^ 32)).wf = false ∧ (Instr.leaseDeadline (2 ^ 32)).wf = false ∧
    (Instr.stepResumed (2 ^ 25)).wf = false ∧ (Instr.clearCounters (.mailbox 0) (2 ^ 64)).wf = false ∧
    (Instr.gateCommit (.mailbox 0) 5 0).wf = false ∧ (Instr.mgmtKey (.mailbox 0) []).wf = false ∧ (Instr.sampleEnable (.mailbox 0) (2 ^ 64)).wf = false ∧
    (Instr.tcWeight (.mailbox 0) 0 8 0).wf = false ∧ (Instr.portUp 5).wf = false ∧ (Instr.codewordUncorrectable 0 4).wf = false ∧
    (Instr.thermWarnEnd []).wf = false ∧ (Instr.ackDelayExpiry 65536).wf = false ∧ (Instr.creditRx 0 []).wf = false ∧
    (Instr.timeBlockRx (2 ^ 64)).wf = false ∧ (Instr.appendAck (2 ^ 25)).wf = false ∧ (Instr.unitComplete 256).wf = false ∧
    (Instr.partialAccept 32).wf = false ∧ (Instr.withdrawAckRx 0 256).wf = false ∧ (Instr.jobGrant 64).wf = false ∧
    (Instr.paceUpdate { inputW := 0 }).wf = false ∧ (Instr.paceMonitorWindow 9 0).wf = false ∧ (Instr.preemptionStart 64).wf = false ∧
    (Instr.tileFetchDone 0 (.done [1])).wf = false ∧ (Instr.hbmUncorrectable (2 ^ 24) 0 0).wf = false ∧ (Instr.scrubPass 8 [] []).wf = false ∧
    (Instr.sramFatal 3).wf = false ∧ (Instr.keySlotError 4096).wf = false ∧ (Instr.tileWrite { qp := 0, addr := 0, data := [] }).wf = false ∧
    (Instr.packetRx 0 ⟨0, 0, 0, 0, [1]⟩).wf = false := by decide +kernel

/-! Witnesses: for each clause of a statement with hypotheses, operands and a state that meet them together. -/

theorem test_HostRangesAreRegistered :
    (∃ (m : Msg) (s : State), Serves .mailbox m s ∧ m.ops.length = 3 ∧ opNat m 0 ≤ 63 ∧ opNat m 1 % 65536 = 0 ∧ 0 < opNat m 2 ∧ opNat m 2 % 65536 = 0 ∧ opNat m 2 / 65536 ≤ 2 ^ 29 ∧
      Tab.find s.hostRanges (opNat m 0) = none) ∧
    (∃ (m : Msg) (s : State), Serves .mailbox m s ∧ m.ops.length = 3 ∧ (63 < opNat m 0 ∨ opNat m 1 % 65536 ≠ 0 ∨ opNat m 2 = 0 ∨ opNat m 2 % 65536 ≠ 0 ∨ 2 ^ 29 < opNat m 2 / 65536
      ∨ (Tab.find s.hostRanges (opNat m 0)).isSome)) ∧
    (∃ (m : Msg) (s : State), Serves .mailbox m s ∧ m.ops.length = 1 ∧ (63 < opNat m 0 ∨ Tab.find s.hostRanges (opNat m 0) = none)) ∧
    (∃ (m : Msg) (s : State), Serves .mailbox m s ∧ m.ops.length = 1 ∧ opNat m 0 ≤ 63 ∧ (Tab.find s.hostRanges (opNat m 0)).isSome ∧ (∃ k ∈ s.hostSlots, k / 2 ^ 29 = opNat m 0)) ∧
    (∃ (m : Msg) (s : State), Serves .mailbox m s ∧ m.ops.length = 1 ∧ opNat m 0 ≤ 63 ∧ (Tab.find s.hostRanges (opNat m 0)).isSome ∧ s.sampler.range = some (opNat m 0)) ∧
    (∃ (m : Msg) (s : State), Serves .mailbox m s ∧ m.ops.length = 1 ∧ opNat m 0 ≤ 63 ∧ (Tab.find s.hostRanges (opNat m 0)).isSome ∧ (∀ k ∈ s.hostSlots, k / 2 ^ 29 ≠ opNat m 0) ∧
      s.sampler.range ≠ some (opNat m 0)) :=
  ⟨⟨(tmsg 0 [63, 65536, 65536]), run0, serves_of (by decide +kernel), by decide +kernel⟩,
   ⟨(tmsg 0 [64, 0, 65536]), run0, serves_of (by decide +kernel), by decide +kernel⟩,
   ⟨(tmsg 0 [64]), run0, serves_of (by decide +kernel), by decide +kernel⟩,
   ⟨(tmsg 0 [1]), ({ run0 with hostRanges := [(1, ⟨0, 1⟩)], hostSlots := [2 ^ 29] }), serves_of (by decide +kernel), by decide +kernel⟩,
   ⟨(tmsg 0 [1]), ({ run0 with hostRanges := [(1, ⟨0, 1⟩)], sampler.range := some 1 }), serves_of (by decide +kernel), by decide +kernel⟩,
   ⟨(tmsg 0 [1]), ({ run0 with hostRanges := [(1, ⟨0, 1⟩)] }), serves_of (by decide +kernel), by decide +kernel⟩⟩

theorem test_PoolManagementApplies :
    (∃ (m : Msg) (s : State), Serves .fm m s ∧ m.ops.length = 3 ∧ opNat m 0 ≤ 255) ∧
    (∃ (m : Msg) (s : State), Serves .fm m s ∧ m.ops.length = 2 ∧ opNat m 0 ≤ 65535 ∧ 1 ≤ opNat m 1 ∧ opNat m 1 ≤ 64) ∧
    (∃ (on : On) (m : Msg) (s : State), Serves on m s ∧ m.qp ≠ fmQpVal s) ∧
    (∃ (on : On) (m : Msg) (s : State), Serves on m s ∧ m.qp ≠ fmQpVal s) :=
  ⟨⟨(tmsg 0 [255, 0xFFFFFFFF12345678, 0xFFFFFFFFFFFFFFFF]), run0, serves_of (by decide +kernel), by decide +kernel⟩,
   ⟨(tmsg 0 [65535, 64]), run0, serves_of (by decide +kernel), by decide +kernel⟩,
   ⟨.bound, (tmsg 512 [0, 0, 0]), run0, serves_of (by decide +kernel), by decide +kernel⟩,
   ⟨.bound, (tmsg 512 [0, 0]), run0, serves_of (by decide +kernel), by decide +kernel⟩⟩

theorem test_RegionsAreCreatedAndDropped :
    (∃ (m : Msg) (s : State) (v : State) (l : List Nat), Serves .bound m s ∧ s.mode = .run ∧ m.ops.length = 6 ∧ opNat m 1 ≤ 1 ∧ opNat m 4 ≤ 255 ∧ (opNat m 1 = 1 → 1 ≤ opNat m 3 ∧ opNat m 3 ≤ 65536) ∧ opNat m
      0 ≤ 16383 ∧ Tab.find s.regions (opNat m 0) = none ∧ 1 ≤ opNat m 2 ∧ opNat m 2 ≤ 16777216 ∧
      let c := (qpAt s m.qp).context
      let owner := if opWord m 5 = allOnes then 0 else opWord m 5
      let range := Tab.get s.poolRanges (opNat m 4) {}
      let n := ceilDiv (opNat m 2) 8192
      (ctxAt s c).mode ≠ .none ∧ (ctxAt s c).tornDown = false ∧ (owner ≠ 0 → ∃ i, lookup s m.qp owner false = .at_ i ∧ bit (sessAt s i).record.lease 63 =
      false) ∧ range.valid = true ∧ range.alloc = true ∧ range.access = 2 ∧ range.context = c ∧ allocSlots (opNat m 4) c (1 + n + opNat m 2) s = some (l, v)) ∧
    (∃ (m : Msg) (x : Region) (s : State), OnRegion true m x s ∧ m.ops.length = 1) :=
  ⟨⟨(tmsg 512 [5, 1, 2, 65536, 1, 2 ^ 64 - 1]), pool0, (((allocSlots 1 1 4 pool0).getD ([], pool0)).2), ([0, 1, 2, 3]), serves_of (by decide +kernel), by decide +kernel, by decide +kernel, by decide +kernel, by decide +kernel, by decide +kernel, by decide +kernel, by decide +kernel, by decide +kernel, by decide +kernel, by decide +kernel, by decide +kernel, fun h => absurd (by decide +kernel) h, by decide +kernel⟩,
   ⟨(tmsg 512 [5]), reg4, regs0, onRegion_of (by decide +kernel), by decide +kernel⟩⟩

theorem test_PublishesCommitVersions :
    (∃ (m : Msg) (x : Region) (s : State), OnRegion false m x s ∧ m.ops.length = 3 ∧ opNat m 1 < 2 ^ 32 ∧ leaseJudge s m (opNat m 0) (opNat m 2) = .ok ∧ s.publishes.length < 1024) ∧
    (∃ (m : Msg) (p : Publish) (x : Region) (s : State) (v : State) (k : Nat), OnPublish m p x s ∧ m.ops.length = 2 ∧ 65536 ≤ m.body.length ∧ opNat m 1 < x.lines ∧ Tab.find p.staged (opNat m 1) = none ∧ allocPool x.range
      x.context 1 s = some (k, v) ∧ poolAllows s x.context k true = true) ∧
    (∃ (m : Msg) (p : Publish) (x : Region) (s : State) (k : Nat), OnPublish m p x s ∧ m.ops.length = 2 ∧ 65536 ≤ m.body.length ∧ opNat m 1 < x.lines ∧ Tab.find p.staged (opNat m 1) = some k ∧ poolAllows s x.context k
      true = true) ∧
    (∃ (m : Msg) (p : Publish) (x : Region) (s : State) (v : State) (l : List Nat), OnPublish m p x s ∧ m.ops.length = 1 ∧ Tab.rising p.staged = true ∧ (∀ q, x.lease = some q → q.id = p.lease) ∧ (x.lease = none → p.lease = 0) ∧
      x.version = p.expected ∧ allocSlots x.range x.context ((distinct ((Tab.keys p.staged).map (· / 8192))).length + 1) s = some (l, v)) ∧
    (∃ (m : Msg) (p : Publish) (x : Region) (s : State), OnPublish m p x s ∧ m.ops.length = 1) ∧
    (∃ (k : Nat) (p : Publish) (s : State), Grants s ∧ Tab.find s.publishes k = some p ∧ p.at_ + publishIdleMsVal s * 1000000 ≤ now s) ∧
    (∃ (s : State), Grants s) :=
  ⟨⟨(tmsg 512 [5, 0, 0]), reg4, regs0, onRegion_of (by decide +kernel), by decide +kernel⟩,
   ⟨(tmsg 512 [1, 3] 0 (List.replicate 65536 9)), ({region := 5, context := 1, expected := 0, lease := 0, qp := 512, at_ := 0}), reg4, ({ regs0 (reg4) with publishes := [(1, {region := 5, context := 1, expected := 0, lease := 0, qp := 512, at_ := 0})], publishCount := 1, poolSlots := [10, 11, 12, 13, 14, 15, 20, 21] }), (((allocPool 1 1 1 ({ regs0 (reg4) with publishes := [(1, {region := 5, context := 1, expected := 0, lease := 0, qp := 512, at_ := 0})], publishCount := 1, poolSlots := [10, 11, 12, 13, 14, 15, 20, 21] })).getD (0, run0)).2), 0, onPublish_of (by decide +kernel), by decide +kernel⟩,
   ⟨(tmsg 512 [1, 2] 0 (List.replicate 65536 9)), ({region := 5, context := 1, expected := 0, lease := 0, qp := 512, at_ := 0, staged := [(1, 20), (2, 21)]}), reg4, ({ regs0 (reg4) with publishes := [(1, {region := 5, context := 1, expected := 0, lease := 0, qp := 512, at_ := 0, staged := [(1, 20), (2, 21)]})], publishCount := 1, poolSlots := [10, 11, 12, 13, 14, 15, 20, 21] }), 21, onPublish_of (by decide +kernel), by decide +kernel⟩,
   ⟨(tmsg 512 [1]), ({region := 5, context := 1, expected := 0, lease := 0, qp := 512, at_ := 0, staged := [(1, 20), (2, 21)]}), reg4, ({ regs0 (reg4) with publishes := [(1, {region := 5, context := 1, expected := 0, lease := 0, qp := 512, at_ := 0, staged := [(1, 20), (2, 21)]})], publishCount := 1, poolSlots := [10, 11, 12, 13, 14, 15, 20, 21] }), (((allocSlots 1 1 2 ({ regs0 (reg4) with publishes := [(1, {region := 5, context := 1, expected := 0, lease := 0, qp := 512, at_ := 0, staged := [(1, 20), (2, 21)]})], publishCount := 1, poolSlots := [10, 11, 12, 13, 14, 15, 20, 21] })).getD ([], run0)).2), ([0, 1]), onPublish_of (by decide +kernel), by decide +kernel⟩,
   ⟨(tmsg 512 [1]), ({region := 5, context := 1, expected := 0, lease := 0, qp := 512, at_ := 0, staged := [(1, 20), (2, 21)]}), reg4, ({ regs0 (reg4) with publishes := [(1, {region := 5, context := 1, expected := 0, lease := 0, qp := 512, at_ := 0, staged := [(1, 20), (2, 21)]})], publishCount := 1, poolSlots := [10, 11, 12, 13, 14, 15, 20, 21] }), onPublish_of (by decide +kernel), by decide +kernel⟩,
   ⟨1, ({region := 5, context := 1, expected := 0, lease := 0, qp := 512, at_ := 0, staged := [(1, 20), (2, 21)]}), ({ { regs0 (reg4) with publishes := [(1, {region := 5, context := 1, expected := 0, lease := 0, qp := 512, at_ := 0, staged := [(1, 20), (2, 21)]})], publishCount := 1, poolSlots := [10, 11, 12, 13, 14, 15, 20, 21] } with time.now := 5000000000 }), grants_of (by decide +kernel), by decide +kernel⟩,
   ⟨({ regs0 with retained := [⟨5, 0, 0, [21]⟩, ⟨6, 0, 5, [22]⟩], time.now := 60000000000, poolSlots := [10, 11, 12, 13, 14, 15, 20, 21, 22] }), grants_of (by decide +kernel)⟩⟩

/-- A range that covers every slot allows any slot a drawn word names. -/
theorem poolAllows_drawn (w : Word) :
    poolAllows { run0 with poolRanges := [(1, { valid := true, access := 2, alloc := true, context := 1, limit := 34359738367 })] } 1
      (bits w 34 0) false = true := by
  have : bits w 34 0 < 2 ^ 35 := by simp only [bits]; omega
  simp [poolAllows, poolEntryAllows]; omega
theorem test_RegionReadsFetchLines :
    (∃ (m : Msg) (x : Region) (s : State) (n : Nat), Serves .bound m s ∧ s.mode = .run ∧ (ctxAt s (qpAt s m.qp).context).tornDown = false ∧ m.ops.length = 2 ∧ opNat m 0 ≤ 63 ∧ opNat m 0 = nodeIdVal s ∧
      Tab.find s.regions (opNat m 1) = some x ∧ (x.context = (qpAt s m.qp).context ∨ (ctxAt s x.context).mode ≠ .confidential) ∧ leastUnused (Tab.keys
      s.attachments) 0 4095 = some n ∧ poolAllows s (qpAt s m.qp).context x.root false = true) ∧
    (∃ (m : Msg) (s : State) (n : Nat), Serves .bound m s ∧ s.mode = .run ∧ (ctxAt s (qpAt s m.qp).context).tornDown = false ∧ m.ops.length = 2 ∧ opNat m 0 ≤ 63 ∧ opNat m 0 ≠ nodeIdVal s ∧
      leastUnused (Tab.keys s.attachments) 0 4095 = some n ∧
      let a := (draw s).1
      poolAllows s (qpAt s m.qp).context (bits a 34 0) false = true) ∧
    (∃ (m : Msg) (x : Region) (s : State), OnRegion false m x s ∧ m.ops.length = 2 ∧ opNat m 0 < 16384 ∧ opNat m 1 < x.lines ∧ poolAllows s x.context (Tab.get x.lineSlots (opNat m 1) 0) false =
      true) ∧
    (∃ (m : Msg) (a : Attachment) (s : State), Serves .bound m s ∧ s.mode = .run ∧ (ctxAt s (qpAt s m.qp).context).tornDown = false ∧ m.ops.length = 2 ∧ 16384 ≤ opNat m 0 ∧ Tab.find s.attachments
      (opNat m 0 - 16384) = some a ∧ a.home ≠ nodeIdVal s ∧ a.stale = false ∧ now s < a.at_ + regionRetainMsVal s * 1000000 ∧ a.context = (qpAt s
      m.qp).context ∧ opNat m 1 < a.lines ∧ poolAllows s a.context a.root false = true ∧ a.lineSlots = []) ∧
    (∃ (m : Msg) (x : Region) (s : State) (rows : List Nat), OnRegion false m x s ∧ m.ops.length = 1 ∧ opNat m 0 < 16384 ∧ badCount 4096 m.body = false ∧ (listWords m.body).map (List.map BitVec.toNat) = some
      rows ∧ x.table = true ∧ x.rowBytesM1 < 65536 ∧ (∀ r ∈ rows, r < 65536 / (x.rowBytesM1 + 1) * x.lines) ∧ (∀ r ∈ rows, poolAllows s x.context (Tab.get
      x.lineSlots (r / (65536 / (x.rowBytesM1 + 1))) 0) false = true)) ∧
    (∃ (m : Msg) (x : Region) (s : State), OnRegion false m x s ∧ m.ops.length = 2 ∧ opNat m 0 < 16384 ∧ x.lines ≤ opNat m 1) ∧
    (∃ (m : Msg) (x : Region) (s : State) (rows : List Nat), OnRegion false m x s ∧ m.ops.length = 1 ∧ opNat m 0 < 16384 ∧ badCount 4096 m.body = false ∧ (listWords m.body).map (List.map BitVec.toNat) = some
      rows ∧ (x.table = false ∨ ∃ r ∈ rows, 65536 / (x.rowBytesM1 + 1) * x.lines ≤ r)) ∧
    (∃ (m : Msg) (a : Attachment) (s : State), Serves .bound m s ∧ s.mode = .run ∧ (ctxAt s (qpAt s m.qp).context).tornDown = false ∧ 16384 ≤ opNat m 0 ∧ Tab.find s.attachments (opNat m 0 - 16384)
      = some a ∧ a.home = nodeIdVal s ∧ (∀ x, Tab.find s.regions a.region = some x → x.version ≠ a.version) ∧ (∀ e ∈ s.retained, e.region = a.region →
      e.version ≠ a.version) ∧ m.ops.length = 2) ∧
    (∃ (m : Msg) (a : Attachment) (s : State), Serves .bound m s ∧ s.mode = .run ∧ (ctxAt s (qpAt s m.qp).context).tornDown = false ∧ 16384 ≤ opNat m 0 ∧ Tab.find s.attachments (opNat m 0 - 16384)
      = some a ∧ a.home = nodeIdVal s ∧ (∀ x, Tab.find s.regions a.region = some x → x.version ≠ a.version) ∧ (∀ e ∈ s.retained, e.region = a.region →
      e.version ≠ a.version) ∧ m.ops.length = 1 ∧ badCount 4096 m.body = false ∧ (listWords m.body).isSome) :=
  ⟨⟨(tmsg 512 [0, 5]), reg4, regs0, 0, serves_of (by decide +kernel), by decide +kernel⟩,
   ⟨(tmsg 512 [5, 3]), ({ run0 with poolRanges := [(1, { valid := true, access := 2, alloc := true, context := 1, limit := 34359738367 })] }), 0, serves_of (by decide +kernel), by decide +kernel, by decide +kernel, by decide +kernel, by decide +kernel, by decide +kernel, by decide +kernel, poolAllows_drawn _⟩,
   ⟨(tmsg 512 [5, 3]), reg4, regs0, onRegion_of (by decide +kernel), by decide +kernel⟩,
   ⟨(tmsg 512 [16384, 1]), ({ home := 5, region := 3, context := 1, root := 7, version := 4, lines := 2, rowBytesM1 := 0, at_ := 5 }), ({ regs0 with attachments := [(0, { home := 5, region := 3, context := 1, root := 7, version := 4, lines := 2, rowBytesM1 := 0, at_ := 5 })] }), serves_of (by decide +kernel), by decide +kernel⟩,
   ⟨(tmsg 512 [5] 0 (wordsBytes [2, 0, 7])), reg4, regs0, ([0, 7]), onRegion_of (by decide +kernel), by decide +kernel⟩,
   ⟨(tmsg 512 [5, 4]), reg4, regs0, onRegion_of (by decide +kernel), by decide +kernel⟩,
   ⟨(tmsg 512 [5] 0 (wordsBytes [2, 0, 8])), reg4, regs0, ([0, 8]), onRegion_of (by decide +kernel), by decide +kernel⟩,
   ⟨(tmsg 512 [16384, 1]), ({ home := 0, region := 5, context := 1, root := 7, version := 4, lines := 2, rowBytesM1 := 0, at_ := 5 }), ({ regs0 with attachments := [(0, { home := 0, region := 5, context := 1, root := 7, version := 4, lines := 2, rowBytesM1 := 0, at_ := 5 })] }), serves_of (by decide +kernel), by decide +kernel⟩,
   ⟨(tmsg 512 [16384] 0 (wordsBytes [1, 5])), ({ home := 0, region := 5, context := 1, root := 7, version := 4, lines := 2, rowBytesM1 := 0, at_ := 5 }), ({ regs0 with attachments := [(0, { home := 0, region := 5, context := 1, root := 7, version := 4, lines := 2, rowBytesM1 := 0, at_ := 5 })] }), serves_of (by decide +kernel), by decide +kernel⟩⟩

theorem test_LeasesAreHeldAndVoided :
    (∃ (m : Msg) (x : Region) (s : State), OnRegion false m x s ∧ m.ops.length = 3 ∧ x.lease = none ∧ (opNat m 2 = 0 ∨ 10 ≤ opNat m 2 ∧ opNat m 2 ≤ 60000)) ∧
    (∃ (m : Msg) (x : Region) (l : Lease) (s : State), OnRegion false m x s ∧ m.ops.length = 3 ∧ x.lease = some l ∧ l.id = opNat m 1 ∧ l.qp = m.qp ∧ l.id ≠ 0) ∧
    (∃ (m : Msg) (x : Region) (l : Lease) (s : State), OnRegion false m x s ∧ m.ops.length = 3 ∧ x.lease = some l ∧ l.id = opNat m 1 ∧ l.qp = m.qp) ∧
    (∃ (m : Msg) (x : Region) (s : State), OnRegion true m x s ∧ m.ops.length = 3) ∧
    (∃ (m : Msg) (x : Region) (s : State), OnRegion false m x s ∧ m.ops.length = 3 ∧ (∀ l, x.lease = some l → l.id ≠ opNat m 1)) ∧
    (∃ (m : Msg) (x : Region) (s : State), OnRegion false m x s ∧ m.ops.length = 3 ∧ (∀ l, x.lease = some l → l.id ≠ opNat m 1)) ∧
    (∃ (m : Msg) (x : Region) (l : Lease) (s : State), OnRegion false m x s ∧ m.ops.length = 3 ∧ x.lease = some l ∧ l.id = opNat m 1 ∧ l.qp ≠ m.qp) ∧
    (∃ (m : Msg) (x : Region) (l : Lease) (s : State), OnRegion false m x s ∧ m.ops.length = 3 ∧ x.lease = some l ∧ l.id = opNat m 1 ∧ l.qp ≠ m.qp) ∧
    (∃ (r : Nat) (x : Region) (l : Lease) (s : State), Grants s ∧ Tab.find s.regions r = some x ∧ x.lease = some l ∧ l.deadline ≤ now s) :=
  ⟨⟨(tmsg 512 [5, 0, 0]), reg4, regs0, onRegion_of (by decide +kernel), by decide +kernel⟩,
   ⟨(tmsg 512 [5, 7, 9]), ({ reg4 with lease := some ⟨7, 512, 1000000000, 500⟩ }), (⟨7, 512, 1000000000, 500⟩), (regs0 ({ reg4 with lease := some ⟨7, 512, 1000000000, 500⟩ })), onRegion_of (by decide +kernel), by decide +kernel⟩,
   ⟨(tmsg 512 [5, 7, 9]), ({ reg4 with lease := some ⟨7, 512, 1000000000, 500⟩ }), (⟨7, 512, 1000000000, 500⟩), (regs0 ({ reg4 with lease := some ⟨7, 512, 1000000000, 500⟩ })), onRegion_of (by decide +kernel), by decide +kernel⟩,
   ⟨(tmsg 512 [5, 7, 9]), ({ reg4 with lease := some ⟨7, 512, 1000000000, 500⟩ }), (regs0 ({ reg4 with lease := some ⟨7, 512, 1000000000, 500⟩ })), onRegion_of (by decide +kernel), by decide +kernel⟩,
   ⟨(tmsg 512 [5, 8, 9]), ({ reg4 with lease := some ⟨7, 512, 1000000000, 500⟩ }), (regs0 ({ reg4 with lease := some ⟨7, 512, 1000000000, 500⟩ })), onRegion_of (by decide +kernel), by decide +kernel⟩,
   ⟨(tmsg 512 [5, 8, 9]), ({ reg4 with lease := some ⟨7, 512, 1000000000, 500⟩ }), (regs0 ({ reg4 with lease := some ⟨7, 512, 1000000000, 500⟩ })), onRegion_of (by decide +kernel), by decide +kernel⟩,
   ⟨(tmsg 512 [5, 7, 9]), ({ reg4 with lease := some ⟨7, 513, 1000000000, 500⟩ }), (⟨7, 513, 1000000000, 500⟩), (regs0 { reg4 with lease := some ⟨7, 513, 1000000000, 500⟩ }), onRegion_of (by decide +kernel), by decide +kernel⟩,
   ⟨(tmsg 512 [5, 7, 9]), ({ reg4 with lease := some ⟨7, 513, 1000000000, 500⟩ }), (⟨7, 513, 1000000000, 500⟩), (regs0 { reg4 with lease := some ⟨7, 513, 1000000000, 500⟩ }), onRegion_of (by decide +kernel), by decide +kernel⟩,
   ⟨5, ({ reg4 with lease := some ⟨7, 512, 1000000000, 500⟩ }), (⟨7, 512, 1000000000, 500⟩), ({ { regs0 ({ reg4 with lease := some ⟨7, 512, 1000000000, 500⟩ }) with publishes := [(1, {region := 5, context := 1, expected := 0, lease := 7, qp := 512, at_ := 0, staged := [(1, 20), (2, 21)]})], publishCount := 1, poolSlots := [10, 11, 12, 13, 14, 15, 20, 21] } with time.now := 500 }), grants_of (by decide +kernel), by decide +kernel⟩⟩

theorem test_QueuePairsAreManaged :
    (∃ (m : Msg) (s : State) (n : Nat), Serves .mailbox m s ∧ m.ops.length = 4 ∧ opNat m 1 ≤ 4 ∧ opNat m 2 ≤ 7 ∧ opNat m 3 ≤ 1 ∧ (opWord m 0 = allOnes → opNat m 3 = 0) ∧ (opWord m 0 ≠
      allOnes → contextHeld s (opNat m 0) = false ∧ (ctxAt s (opNat m 0)).mode ≠ .none ∧ (opNat m 3 = 1 ↔ (ctxAt s (opNat m 0)).mode = .confidential)) ∧
      (leastFrom (fun k => !(qpAt s k).created) 512 (s.qps.length + 1) = some n) ∧ n ≤ 65535) ∧
    (∃ (m : Msg) (s : State), Serves .mailbox m s ∧ m.ops.length = 8 ∧ madeQp s (opNat m 0) = true ∧ readyOperandsBad m = false ∧ (qpAt s (opNat m 0)).state = .reset ∧ opNat m 1 =
      1 ∧ s.time.everValid = true ∧ ((qpAt s (opNat m 0)).enc = true → (qpAt s (opNat m 0)).salted = true)) ∧
    (∃ (m : Msg) (s : State), Serves .mailbox m s ∧ m.ops.length = 8 ∧ madeQp s (opNat m 0) = true ∧ (qpAt s (opNat m 0)).state ≠ .reset ∧ opNat m 1 = 0) ∧
    (∃ (m : Msg) (s : State), Serves .mailbox m s ∧ m.ops.length = 8 ∧ madeQp s (opNat m 0) = true ∧ (qpAt s (opNat m 0)).state = .ready ∧ opNat m 1 = 2) ∧
    (∃ (m : Msg) (s : State), Serves .mailbox m s ∧ m.ops.length = 8 ∧ readyOperandsBad m = false ∧ (madeQp s (opNat m 0) = false ∨ (qpAt s (opNat m 0)).state = .error ∧ opNat m 1
      ≠ 0 ∨ (qpAt s (opNat m 0)).state = .reset ∧ opNat m 1 ≠ 1 ∨ (qpAt s (opNat m 0)).state = .ready ∧ opNat m 1 ≠ 0 ∧ opNat m 1 ≠ 2)) ∧
    (∃ (m : Msg) (s : State), Serves .mailbox m s ∧ m.ops.length = 1 ∧ madeQp s (opNat m 0) = true ∧ (qpAt s (opNat m 0)).state = .reset) ∧
    (∃ (m : Msg) (s : State), Serves .mailbox m s ∧ m.ops.length = 1 ∧ opNat m 0 ≤ 65535) ∧
    (∃ (m : Msg) (s : State), Serves .mailbox m s ∧ m.ops.length = 2 ∧ s.sec.state ≠ .notReady ∧ madeQp s (opNat m 0) = true ∧ (qpAt s (opNat m 0)).state = .reset ∧ (qpAt s (opNat
      m 0)).enc = true) ∧
    (∃ (m : Msg) (s : State), Serves .peer m s ∧ m.ops.length = 1) :=
  ⟨⟨(tmsg 0 [0xFFFFFFFFFFFFFFFF, 4, 7, 0]), run0, 513, serves_of (by decide +kernel), by decide +kernel⟩,
   ⟨(tmsg 0 [513, 1, 255, 65535, 16777215, 16777215, 4096, 0]), ({ withQp 513 ({ state := .reset, created := true }) with time.everValid := true }), serves_of (by decide +kernel), by decide +kernel⟩,
   ⟨(tmsg 0 [513, 0, 0, 0, 0, 0, 0, 0]), (withQp 513 { state := .error, created := true }), serves_of (by decide +kernel), by decide +kernel⟩,
   ⟨(tmsg 0 [513, 2, 0, 0, 0, 0, 0, 0]), (withQp 513 { state := .ready, created := true }), serves_of (by decide +kernel), by decide +kernel⟩,
   ⟨(tmsg 0 [511, 0, 0, 0, 0, 0, 0, 0]), run0, serves_of (by decide +kernel), by decide +kernel⟩,
   ⟨(tmsg 0 [513]), (withQp 513 { state := .reset, created := true }), serves_of (by decide +kernel), by decide +kernel⟩,
   ⟨(tmsg 0 [512]), run0, serves_of (by decide +kernel), by decide +kernel⟩,
   ⟨(tmsg 0 [513, 77]), (withQp 513 { state := .reset, created := true, enc := true }), serves_of (by decide +kernel), by decide +kernel⟩,
   ⟨(tmsg 258 [9]), ({ run0 with qps := [(258, { state := .ready, kind := 3 })] }), serves_of (by decide +kernel), by decide +kernel⟩⟩

theorem manyWaiting (l : List (Nat × WorkReq)) (n k : Nat) (hk : 0 < k) (h : (l.filter (fun e => !e.2.fired)).length = n) :
    n < (l.filter (fun e => !e.2.fired)).length + k := by omega
/-- One work request: FETCH_ADD-like operation 3 of queue pair 512 on counters 7 and 8. -/
def wr3 : Msg := tmsg 512 [] 0 (wordsBytes [word (3 * 2 ^ 56 + 512 * 2 ^ 32 + 7 * 2 ^ 18 + 8 * 2 ^ 4), word (5 * 2 ^ 32), 0, 9, 0, 0, 0, 0])
theorem wr3_ok : (((List.range (wr3.body.length / 64)).map (fun j => ({ words := wordsAt wr3.body (64 * j) 8, context := 1 } : WorkReq))).all (wrOk run0 1)) = true := by
  decide +kernel
/-- With `l` waiting, as many as the store holds, one more passes the limit. -/
theorem full_of (l : List (Nat × WorkReq)) (h : (l.filter (fun e => !e.2.fired)).length = 262144) : (∃ (m : Msg) (s : State), Serves .bound m s ∧ s.mode = .run ∧ m.ops.length = 0 ∧ m.body.length % 64 = 0 ∧ 64 ≤ m.body.length ∧ m.body.length ≤ 4096 ∧
      let c := (qpAt s m.qp).context
      let k := m.body.length / 64
      let ws : List WorkReq := (List.range k).map (fun j => { words := wordsAt m.body (64 * j) 8, context := c })
      (ctxAt s c).tornDown = false ∧ ws.all (wrOk s c) = true ∧ (262144 < (s.wrs.filter (fun e => !e.2.fired)).length + k)) :=
  ⟨wr3, { run0 with wrs := l }, serves_of rfl, rfl, rfl, rfl, by decide +kernel, by decide +kernel, rfl, wr3_ok, manyWaiting l _ _ (by decide +kernel) h⟩
theorem full_exists : ∃ l : List (Nat × WorkReq), (l.filter (fun e => !e.2.fired)).length = 262144 :=
  ⟨List.replicate 262144 (1, { words := [], context := 1 }), by simp only [List.filter_replicate, Bool.not_false, if_true, List.length_replicate]⟩
theorem test_TriggersFireWorkRequests :
    (∃ (m : Msg) (s : State), Serves .mailbox m s ∧ m.ops.length = 3 ∧ 1 ≤ opNat m 0 ∧ opNat m 0 ≤ 16383 ∧ opNat m 2 < 2 ^ 32 ∧ (ctxAt s (opNat m 1)).mode ≠ .none ∧ (ctxAt s (opNat
      m 1)).tornDown = false) ∧
    (∃ (m : Msg) (s : State), Serves .mailbox m s ∧ m.ops.length = 3 ∧ opNat m 0 = 0 ∧ opNat m 2 < 2 ^ 32 ∧ (ctxAt s (opNat m 1)).mode ≠ .none ∧ (ctxAt s (opNat m 1)).tornDown =
      false) ∧
    (∃ (m : Msg) (s : State), Serves .bound m s ∧ s.mode = .run ∧ m.ops.length = 2 ∧ opNat m 0 ≤ 16383 ∧ opNat m 1 < 2 ^ 32 ∧ opNat m 0 ≠ 0 ∧
      let c := (qpAt s m.qp).context
      let k := counterAt s (opNat m 0)
      (ctxAt s c).tornDown = false ∧ k.context = some c) ∧
    (∃ (m : Msg) (s : State), Serves .bound m s ∧ s.mode = .run ∧ m.ops.length = 2 ∧ opNat m 0 ≤ 16383 ∧ opNat m 1 < 2 ^ 32 ∧ opNat m 0 = 0 ∧
      let c := (qpAt s m.qp).context
      (ctxAt s c).tornDown = false) ∧
    (∃ (m : Msg) (s : State), Serves .bound m s ∧ s.mode = .run ∧ m.ops.length = 2 ∧ opNat m 0 ≤ 16383 ∧ opNat m 1 < 2 ^ 32 ∧ opNat m 0 ≠ 0 ∧
      let c := (qpAt s m.qp).context
      let k := counterAt s (opNat m 0)
      (ctxAt s c).tornDown = false ∧ k.context ≠ some c) ∧
    (∃ (m : Msg) (s : State), Serves .bound m s ∧ s.mode = .run ∧ m.ops.length = 0 ∧ m.body.length % 64 = 0 ∧ 64 ≤ m.body.length ∧ m.body.length ≤ 4096 ∧
      let c := (qpAt s m.qp).context
      let k := m.body.length / 64
      let ws : List WorkReq := (List.range k).map (fun j => { words := wordsAt m.body (64 * j) 8, context := c })
      (ctxAt s c).tornDown = false ∧ ws.all (wrOk s c) = true ∧ ((s.wrs.filter (fun e => !e.2.fired)).length + k ≤ 262144)) ∧
    (∃ (m : Msg) (s : State), Serves .bound m s ∧ s.mode = .run ∧ m.ops.length = 0 ∧ m.body.length % 64 = 0 ∧ 64 ≤ m.body.length ∧ m.body.length ≤ 4096 ∧
      let c := (qpAt s m.qp).context
      let k := m.body.length / 64
      let ws : List WorkReq := (List.range k).map (fun j => { words := wordsAt m.body (64 * j) 8, context := c })
      (ctxAt s c).tornDown = false ∧ ws.all (wrOk s c) = false) ∧
    (∃ (m : Msg) (s : State), Serves .bound m s ∧ s.mode = .run ∧ m.ops.length = 0 ∧ m.body.length % 64 = 0 ∧ 64 ≤ m.body.length ∧ m.body.length ≤ 4096 ∧
      let c := (qpAt s m.qp).context
      let k := m.body.length / 64
      let ws : List WorkReq := (List.range k).map (fun j => { words := wordsAt m.body (64 * j) 8, context := c })
      (ctxAt s c).tornDown = false ∧ ws.all (wrOk s c) = true ∧ (262144 < (s.wrs.filter (fun e => !e.2.fired)).length + k)) ∧
    (∃ (m : Msg) (s : State) (w : WorkReq), Serves .bound m s ∧ s.mode = .run ∧ m.ops.length = 1 ∧ Tab.find s.wrs (opNat m 0) = some w ∧ w.fired = false ∧
      let c := (qpAt s m.qp).context
      (ctxAt s c).tornDown = false ∧ w.context = c) ∧
    (∃ (m : Msg) (s : State), Serves .bound m s ∧ s.mode = .run ∧ m.ops.length = 1 ∧
      let c := (qpAt s m.qp).context
      (ctxAt s c).tornDown = false ∧ (∀ w, Tab.find s.wrs (opNat m 0) = some w → w.fired = true ∨ w.context ≠ c)) ∧
    (∃ (m : Msg) (s : State), Serves .bound m s ∧ s.mode = .run ∧ m.ops.length = 0) ∧
    (∃ (n : Nat) (w : WorkReq) (s : State) (f : Nat), s.wrs = [(n, w)] ∧ w.fired = false ∧ wrOp w = 3 ∧ 2 ≤ f) :=
  ⟨⟨(tmsg 0 [1, 1, 0xFFFFFFFF]), run0, serves_of (by decide +kernel), by decide +kernel⟩,
   ⟨(tmsg 0 [0, 1, 3]), run0, serves_of (by decide +kernel), by decide +kernel⟩,
   ⟨(tmsg 512 [7, 1]), ({ run0 with triggers := [(7, { context := some 1, value := 4 })] }), serves_of (by decide +kernel), by decide +kernel⟩,
   ⟨(tmsg 512 [0, 1]), ({ run0 with triggers := [(7, { context := some 1, value := 4 })] }), serves_of (by decide +kernel), by decide +kernel⟩,
   ⟨(tmsg 512 [8, 1]), ({ run0 with triggers := [(7, { context := some 1, value := 4 })] }), serves_of (by decide +kernel), by decide +kernel⟩,
   ⟨(tmsg 512 [] 0 (wordsBytes [word (3 * 2 ^ 56 + 512 * 2 ^ 32 + 7 * 2 ^ 18 + 8 * 2 ^ 4), word (5 * 2 ^ 32), 0, 9, 0, 0, 0, 0])), ({ run0 with triggers := [(7, { context := some 1, value := 4 })] }), serves_of (by decide +kernel), by decide +kernel⟩,
   ⟨(tmsg 512 [] 0 (wordsBytes [word (3 * 2 ^ 56 + 512 * 2 ^ 32 + 7 * 2 ^ 18 + 8 * 2 ^ 4), word (5 * 2 ^ 32), 0, 9, 0, 0, 0, 0])), ({ run0 with triggers := [(7, { context := some 2, value := 4 })] }), serves_of (by decide +kernel), by decide +kernel⟩,
   full_exists.elim full_of,
   ⟨(tmsg 512 [4]), ({ run0 with wrs := [(4, { words := [], context := 1 })] }), ({ words := [], context := 1 }), serves_of (by decide +kernel), by decide +kernel⟩,
   ⟨(tmsg 512 [4]), run0, serves_of (by decide +kernel), by decide +kernel⟩,
   ⟨(tmsg 512 []), ({ run0 with wrs := [(4, { words := [word (3 * 2 ^ 56 + 1 * 2 ^ 54 + 512 * 2 ^ 32 + 8 * 2 ^ 4), 7, 0, word (9 + 2 ^ 32)], context := 1 })], triggers := [(8, { context := some 1, value := 4 }), (9, { context := some 1, value := 4 })] }), serves_of (by decide +kernel), by decide +kernel⟩,
   ⟨4, ({ words := [word (3 * 2 ^ 56 + 1 * 2 ^ 54 + 512 * 2 ^ 32 + 8 * 2 ^ 4), 7, 0, word (9 + 2 ^ 32)], context := 1 }), ({ run0 with wrs := [(4, { words := [word (3 * 2 ^ 56 + 1 * 2 ^ 54 + 512 * 2 ^ 32 + 8 * 2 ^ 4), 7, 0, word (9 + 2 ^ 32)], context := 1 })], triggers := [(8, { context := some 1, value := 4 }), (9, { context := some 1, value := 4 })] }), 2, by decide +kernel⟩⟩

theorem test_TablesAreLoaded :
    (∃ (m : Msg) (s : State), Serves .mailbox m s ∧ m.ops.length = 1 ∧ m.body.length = 4112 ∧ opNat m 0 ≤ 255 ∧ slotHeld s (opNat m 0) = false ∧ modelInUse s (opNat m 0) = false ∧
      let x := parseModel m.body
      modelOk x (ropePairs s) = true) ∧
    (∃ (m : Msg) (s : State), Serves .mailbox m s ∧ m.ops.length = 1 ∧ m.body.length = 4112 ∧ opNat m 0 ≤ 255 ∧ slotHeld s (opNat m 0) = false ∧ modelInUse s (opNat m 0) = true ∧
      let x := parseModel m.body
      modelOk x (ropePairs s) = true) ∧
    (∃ (m : Msg) (s : State), Serves .mailbox m s ∧ m.ops.length = 1 ∧ m.body.length = 4112 ∧ opNat m 0 ≤ 255 ∧ slotHeld s (opNat m 0) = false ∧
      let x := parseModel m.body
      modelOk x (ropePairs s) = false) ∧
    (∃ (m : Msg) (s : State), Serves .mailbox m s ∧ m.ops.length = 1 ∧ opNat m 0 ≤ 255) ∧
    (∃ (m : Msg) (s : State), Serves .mailbox m s ∧ m.ops.length = 1 ∧ m.body.length = 1032 ∧ opNat m 0 ≤ 31 ∧
      let x := parseRope m.body
      let small := s.models.any (fun e => (e.2.entries.take e.2.layers).any (fun l =>
        l.ropeOn && l.ropeTable == opNat m 0 && headDim e.2 < 2 * x.pairs))
      x.pairs ≤ 128 ∧ small = false) ∧
    (∃ (m : Msg) (s : State), Serves .mailbox m s ∧ m.ops.length = 1 ∧ m.body.length = 1032 ∧
      let x := parseRope m.body
      let small := s.models.any (fun e => (e.2.entries.take e.2.layers).any (fun l =>
        l.ropeOn && l.ropeTable == opNat m 0 && headDim e.2 < 2 * x.pairs))
      (31 < opNat m 0 ∨ 128 < x.pairs ∨ small = true)) ∧
    (∃ (k : Nat) (l : RopeLoad) (s : State), Grants s ∧ (s.ropeLoads.find? (fun l => l.table == k) = some l) ∧ ropeUsed s l = false) ∧
    (∃ (k : Nat) (l : RopeLoad) (s : State), Grants s ∧ (s.ropeLoads.find? (fun l => l.table == k) = some l) ∧ ropeUsed s l = true) ∧
    (∃ (k : Nat) (l : RopeLoad) (s : State), Live s ∧ (s.ropeLoads.find? (fun l => l.table == k && l.deadline ≤ now s) = some l)) ∧
    (∃ (m : Msg) (s : State), Serves .mailbox m s ∧ m.ops.length = 1 ∧ (ctxAt s (opNat m 0)).mode ≠ .none ∧
      let live := s.sessions.any (fun e => e.2.record.context == opNat m 0 && e.2.entry.state != .free && e.2.entry.state != .tombstone)
      live = false) ∧
    (∃ (m : Msg) (s : State), Serves .mailbox m s ∧ m.ops.length = 1 ∧ (ctxAt s (opNat m 0)).mode ≠ .none ∧
      let live := s.sessions.any (fun e => e.2.record.context == opNat m 0 && e.2.entry.state != .free && e.2.entry.state != .tombstone)
      live = true) :=
  ⟨⟨(tmsg 0 [255] 0 (wordsBytes [word (2 ^ 55 + 2 ^ 46 + 2 ^ 41), 7] ++ List.replicate 4096 0)), run0, serves_of (by decide +kernel), by decide +kernel⟩,
   ⟨(tmsg 0 [0] 0 (wordsBytes [word (2 ^ 55 + 2 ^ 46 + 2 ^ 41), 7] ++ List.replicate 4096 0)), (with3 (sess .ready)), serves_of (by decide +kernel), by decide +kernel⟩,
   ⟨(tmsg 0 [0] 0 (wordsBytes [word (2 ^ 55 + 2 ^ 46), 7] ++ List.replicate 4096 0)), run0, serves_of (by decide +kernel), by decide +kernel⟩,
   ⟨(tmsg 0 [255]), run0, serves_of (by decide +kernel), by decide +kernel⟩,
   ⟨(tmsg 0 [31] 0 (wordsBytes [word (128 * 2 ^ 56)] ++ List.replicate 1024 0)), run0, serves_of (by decide +kernel), by decide +kernel⟩,
   ⟨(tmsg 0 [32] 0 (List.replicate 1032 0)), run0, serves_of (by decide +kernel), by decide +kernel⟩,
   ⟨3, (⟨3, {}, 512, 9, 0, 100⟩), ({ run0 with ropeLoads := [⟨3, {}, 512, 9, 0, 100⟩] }), grants_of (by decide +kernel), by decide +kernel⟩,
   ⟨3, (⟨3, {}, 512, 9, 0, 100⟩), (with3 { sess .active with step := some { qp := 512, tag := 0, outQp := 512, outTag := 0, job := 0, seq0 := 0, len0 := 0 } } { run0 with ropeLoads := [⟨3, {}, 512, 9, 0, 100⟩], models := [(0, { layers := 1, entries := [{ ropeTable := 3, ropeOn := true }] })] }), grants_of (by decide +kernel), by decide +kernel⟩,
   ⟨3, (⟨3, {}, 512, 9, 0, 100⟩), ({ run0 with ropeLoads := [⟨3, {}, 512, 9, 0, 100⟩], time.now := 100 }), live_of (by decide +kernel), by decide +kernel⟩,
   ⟨(tmsg 0 [1]), run0, serves_of (by decide +kernel), by decide +kernel⟩,
   ⟨(tmsg 0 [1]), (with3 (sess .faulted)), serves_of (by decide +kernel), by decide +kernel⟩⟩

theorem test_ImageLoadsAreStagedAndCommitted :
    (∃ (k : LoadKind) (m : Msg) (s : State), Serves .mailbox m s ∧ m.ops.length = 3 ∧ opNat m 0 < kindSlots k ∧ bit (opWord m 2) 0 = false ∧
      let mine (g : Stage) : Bool := g.kind == k && g.slot == opNat m 0
      (∀ g, s.stages.find? mine = some g → g.qp = m.qp)) ∧
    (∃ (k : LoadKind) (m : Msg) (s : State), Serves .mailbox m s ∧ m.ops.length = 3 ∧ opNat m 0 < kindSlots k ∧ bit (opWord m 2) 0 = true ∧ slotInUse s k (opNat m 0) = false ∧
      let mine (g : Stage) : Bool := g.kind == k && g.slot == opNat m 0
      let old := (s.stages.find? mine).map (·.data)
      let data := placeBytes (old.getD []) (opNat m 1) m.body
      (∀ g, s.stages.find? mine = some g → g.qp = m.qp) ∧ data = []) ∧
    (∃ (k : LoadKind) (m : Msg) (s : State), Serves .mailbox m s ∧ m.ops.length = 3 ∧ opNat m 0 < kindSlots k ∧ bit (opWord m 2) 0 = true ∧ slotInUse s k (opNat m 0) = true ∧
      let mine (g : Stage) : Bool := g.kind == k && g.slot == opNat m 0
      let old := (s.stages.find? mine).map (·.data)
      let data := placeBytes (old.getD []) (opNat m 1) m.body
      (∀ g, s.stages.find? mine = some g → g.qp = m.qp) ∧ data = []) ∧
    (∃ (m : Msg) (s : State) (v : Vocab), Serves .mailbox m s ∧ m.ops.length = 3 ∧ opNat m 0 < 8 ∧ bit (opWord m 2) 0 = true ∧ m.body ≠ [] ∧ (s.stages.find? (fun g => g.kind == .vocab &&
      g.slot == opNat m 0) = none) ∧ parseVocab (placeBytes [] (opNat m 1) m.body) = some v ∧ vocabOk v = true ∧ storeUsed s .vocab (opNat m 0) + v.bytes ≤
      134217728 ∧ slotInUse s .vocab (opNat m 0) = false) ∧
    (∃ (m : Msg) (s : State), Serves .mailbox m s ∧ m.ops.length = 3 ∧ opNat m 0 < 64 ∧ bit (opWord m 2) 0 = true ∧ m.body ≠ [] ∧ (s.stages.find? (fun g => g.kind == .grammar &&
      g.slot == opNat m 0) = none) ∧ parseGrammar (placeBytes [] (opNat m 1) m.body) = none) ∧
    (∃ (m : Msg) (s : State) (x : SeqList), Serves .mailbox m s ∧ m.ops.length = 3 ∧ opNat m 0 < 64 ∧ bit (opWord m 2) 0 = true ∧ m.body ≠ [] ∧ (s.stages.find? (fun g => g.kind == .list &&
      g.slot == opNat m 0) = none) ∧ parseList (placeBytes [] (opNat m 1) m.body) = some x ∧ storeUsed s .list (opNat m 0) + x.total ≤ 16777216 ∧ slotInUse
      s .list (opNat m 0) = false) ∧
    (∃ (k : LoadKind) (slot : Nat) (s : State), Live s) :=
  ⟨⟨.vocab, (tmsg 0 [7, 4, 0] 0 [1, 2]), ({ run0 with stages := [⟨.vocab, 7, 0, [9, 9, 9, 9, 9, 9, 9], 0⟩, ⟨.grammar, 7, 0, [9], 0⟩] }), serves_of (by decide +kernel), by decide +kernel⟩,
   ⟨.list, (tmsg 0 [63, 0, 1]), ({ run0 with lists := [(63, { forced := false, seqs := [], maxToken := 0, total := 0, tag := 0 })] }), serves_of (by decide +kernel), by decide +kernel⟩,
   ⟨.vocab, (tmsg 0 [0, 0, 1]), (with3 { sess .ready with record.tokenCarry := word (2 ^ 60) }), serves_of (by decide +kernel), by decide +kernel⟩,
   ⟨(tmsg 0 [7, 0, 1] 0 vocabImage), run0, vocab0, serves_of (by decide +kernel), by decide +kernel⟩,
   ⟨(tmsg 0 [63, 0, 1] 0 [1]), run0, serves_of (by decide +kernel), by decide +kernel⟩,
   ⟨(tmsg 0 [63, 0, 1] 0 listImage), run0, ((parseList listImage).getD { forced := false, seqs := [], maxToken := 0, total := 0, tag := 0 }), serves_of (by decide +kernel), by decide +kernel⟩,
   ⟨.list, 3, ({ run0 with stages := [⟨.list, 3, 0, [1], 0⟩, ⟨.vocab, 3, 0, [1], 0⟩], time.now := 10000000000 }), live_of (by decide +kernel)⟩⟩

theorem test_TokenCommandsWriteTheirWords :
    (∃ (m : Msg) (i : Nat) (s : State), Reaches false m i s ∧ m.ops.length = 6 ∧ opNat m 4 ≤ 2 ∧ opNat m 5 ≤ 1 ∧ bindCheck s m = .ok ∧
      let x := sessAt s i
      (x.entry.state = .ready ∨ x.entry.state = .waiting ∨ x.entry.state = .parked)) ∧
    (∃ (m : Msg) (i : Nat) (v : Vocab) (s : State), Reaches false m i s ∧ m.ops.length = 1 ∧ m.body ≠ [] ∧ m.body.length ≤ 65536 ∧ textStatus (sessAt s i) = .ok ∧ vocabOf s (sessAt s
      i).record.tokenCarry = some v) ∧
    (∃ (m : Msg) (i : Nat) (s : State), Reaches false m i s ∧ m.ops.length = 0 ∧ textStatus (sessAt s i) = .ok ∧
      let x := sessAt s i
      x.step = none) ∧
    (∃ (m : Msg) (i : Nat) (s : State) (st : Step), Reaches false m i s ∧ m.ops.length = 0 ∧ textStatus (sessAt s i) = .ok ∧
      let x := sessAt s i
      x.step = some st) ∧
    (∃ (m : Msg) (s : State) (ids : List Word), Serves .bound m s ∧ s.mode = .run ∧ m.ops.length = 0 ∧ listWords m.body = some ids ∧ ids.length ≤ 16 ∧
      let c := (qpAt s m.qp).context
      (ctxAt s c).tornDown = false ∧
      let used := s.sessions.any (fun e => e.2.record.context == c && e.2.entry.state != .free && e.2.entry.state != .tombstone &&
        tokOn e.2.record.tokenCarry)
      used = false) ∧
    (∃ (m : Msg) (s : State) (ids : List Word), Serves .bound m s ∧ s.mode = .run ∧ m.ops.length = 0 ∧ listWords m.body = some ids ∧ ids.length ≤ 16 ∧
      let c := (qpAt s m.qp).context
      (ctxAt s c).tornDown = false ∧
      let used := s.sessions.any (fun e => e.2.record.context == c && e.2.entry.state != .free && e.2.entry.state != .tombstone &&
        tokOn e.2.record.tokenCarry)
      used = true) :=
  ⟨⟨(tmsg 512 [0, 0xFFFFFFFFFFFFFFFF, 0xFFFFFFFFFFFFFFFF, 0xFFFFFFFFFFFFFFFF, 2, 1] h3), 3, (with3 ({ sess .ready with record := { (sess .ready).record with tokenCarry := word (2 ^ 60) } }) { run0 with vocabs := [(0, vocab0)] }), reaches_of (by decide +kernel), by decide +kernel⟩,
   ⟨(tmsg 512 [0] h3 [97, 98, 97, 0xC3]), 3, vocab0, (with3 ({ sess .ready with record := { (sess .ready).record with tokenCarry := word (2 ^ 60) } }) { run0 with vocabs := [(0, vocab0)] }), reaches_of (by decide +kernel), by decide +kernel⟩,
   ⟨(tmsg 512 [] h3), 3, (with3 ({ sess .ready with record := { (sess .ready).record with tokenCarry := word (2 ^ 60 + 2 ^ 32 + 0xC3 * 2 ^ 8) } }) { run0 with vocabs := [(0, vocab0)] }), reaches_of (by decide +kernel), by decide +kernel⟩,
   ⟨(tmsg 512 [] h3), 3, (with3 ({ sess .active with record := { (sess .ready).record with tokenCarry := word (2 ^ 60 + 2 ^ 32 + 0xC3 * 2 ^ 8) }, step := some { qp := 512, tag := 4, outQp := 512, outTag := 5, job := 0, seq0 := 0, len0 := 0, tokenCarry := word (2 ^ 60) } }) { run0 with vocabs := [(0, vocab0)] }), ({ qp := 512, tag := 4, outQp := 512, outTag := 5, job := 0, seq0 := 0, len0 := 0, tokenCarry := word (2 ^ 60) }), reaches_of (by decide +kernel), by decide +kernel⟩,
   ⟨(tmsg 512 [] 0 (wordsBytes [2, 5, 0xFFFFFFFFFFFFFFFF])), run0, ([5, 0xFFFFFFFFFFFFFFFF]), serves_of (by decide +kernel), by decide +kernel⟩,
   ⟨(tmsg 512 [] 0 (wordsBytes [2, 5, 0xFFFFFFFFFFFFFFFF])), (with3 ({ sess .ready with record := { (sess .ready).record with tokenCarry := word (2 ^ 60) } }) { run0 with vocabs := [(0, vocab0)] }), ([5, 0xFFFFFFFFFFFFFFFF]), serves_of (by decide +kernel), by decide +kernel⟩⟩

theorem test_MasksAreFormed :
    (∃ (r : MaskReq) (rest : List MaskReq) (st : Step) (v : Vocab) (s : State), Grants s ∧ s.masks = r :: rest ∧ (sessAt s r.index).step = some st ∧ vocabOf s st.tokenCarry = some v ∧ qpReady s r.qp = true ∧ st.ending = false) :=
  ⟨(⟨3, 512, 9, 4, 0⟩), ([⟨3, 512, 10, 5, 0⟩]), ({ qp := 512, tag := 4, outQp := 512, outTag := 5, job := 0, seq0 := 0, len0 := 0, tokenCarry := word (2 ^ 60) }), vocab0, ({ with3 ({ sess .active with step := some { qp := 512, tag := 4, outQp := 512, outTag := 5, job := 0, seq0 := 0, len0 := 0, tokenCarry := word (2 ^ 60) } }) { run0 with vocabs := [(0, vocab0)] } with masks := [⟨3, 512, 9, 4, 0⟩, ⟨3, 512, 10, 5, 0⟩] }), grants_of (by decide +kernel), by decide +kernel⟩

theorem test_JobsTakeTurns :
    (∃ (m : Msg) (s : State) (hs : List Word) (l : List Nat) (n : Nat), Serves .bound m s ∧ s.mode = .run ∧ m.ops.length = 4 ∧ opNat m 2 ≤ 1 ∧ opNat m 3 ≤ 1 ∧ listWords m.body = some hs ∧ hs ≠ [] ∧ hs.length ≤ 256 ∧ (ctxAt
      s (opNat m 1)).mode ≠ .none ∧ (ctxAt s (opNat m 1)).tornDown = false ∧ s.jobs.length < 4096 ∧ jobsIn s (opNat m 0) < 256 ∧ (qpAt s m.qp).context =
      opNat m 1 ∧ (ctxAt s (opNat m 1)).partition = opNat m 0 ∧ judgeMembers s m.qp (opNat m 0) (opNat m 1) (opNat m 2) none hs = (.ok, l) ∧ leastUnused
      (Tab.keys s.jobs) 1 65535 = some n) ∧
    (∃ (m : Msg) (s : State) (hs : List Word) (l : List Nat) (j : Job), Serves .bound m s ∧ s.mode = .run ∧ m.ops.length = 1 ∧ listWords m.body = some hs ∧ hs ≠ [] ∧ (ctxAt s (qpAt s m.qp).context).tornDown = false ∧
      Tab.find s.jobs (opNat m 0) = some j ∧ j.closed = false ∧ (qpAt s m.qp).context = j.context ∧ judgeMembers s m.qp j.partition j.context j.cls (some
      (opNat m 0)) hs = (.ok, l) ∧ (distinct (j.members ++ l)).length ≤ 256) ∧
    (∃ (m : Msg) (s : State) (j : Job), Serves .bound m s ∧ s.mode = .run ∧ m.ops.length = 1 ∧ (ctxAt s (qpAt s m.qp).context).tornDown = false ∧ Tab.find s.jobs (opNat m 0) = some j ∧ (qpAt
      s m.qp).context = j.context) ∧
    (∃ (p : Nat) (n : Nat) (j : Job) (s : State), Grants s ∧ (partAt s p).holder = none ∧ chooseJob s p = some (n, j)) ∧
    (∃ (p : Nat) (n : Nat) (us : Nat) (t0 : Nat) (j : Job) (s : State), Grants s ∧ (partAt s p).holder = some n ∧ Tab.find s.jobs n = some j ∧ cutLimit s p j = some us ∧ j.heldAt = some t0 ∧ t0 + us * 1000 ≤ now s ∧ (∃ e ∈
      s.jobs, e.1 ≠ n ∧ e.2.partition = p ∧ e.2.eligibleAt.isSome)) ∧
    (∃ (p : Nat) (n : Nat) (t0 : Nat) (s : State), Grants s ∧ (partAt s p).holder = some n ∧ (Tab.find s.jobs n).bind (·.idleAt) = some t0 ∧ t0 + jobIdleUsVal s p * 1000 ≤ now s) ∧
    (∃ (s : State), Live s ∧ s.roleAt + 10000000 ≤ now s) :=
  ⟨⟨(tmsg 512 [0, 1, 0, 0] 0 (wordsBytes [1, h3])), (with3 (sess .ready)), [h3], [3], 1, serves_of (by decide +kernel), by decide +kernel⟩,
   ⟨(tmsg 512 [1] 0 (wordsBytes [1, h3])), ({ with3 (sess .ready) with jobs := [(1, ({ partition := 0, context := 1, cls := 0, kind := .decode, members := [] } : Job))] }), [h3], [3], (({ partition := 0, context := 1, cls := 0, kind := .decode, members := [] } : Job)), serves_of (by decide +kernel), by decide +kernel⟩,
   ⟨(tmsg 512 [1]), ({ with3 (sess .ready) with jobs := [(1, ({ partition := 0, context := 1, cls := 0, kind := .decode, members := [3] } : Job))] }), (({ partition := 0, context := 1, cls := 0, kind := .decode, members := [3] } : Job)), serves_of (by decide +kernel), by decide +kernel⟩,
   ⟨0, 1, (({ partition := 0, context := 1, cls := 0, kind := .decode, members := [], eligibleAt := some 5 } : Job)), ({ run0 with jobs := [(1, ({ partition := 0, context := 1, cls := 0, kind := .decode, members := [], eligibleAt := some 5 } : Job)), (2, ({ partition := 0, context := 1, cls := 1, kind := .decode, members := [], eligibleAt := some 4 } : Job))] }), grants_of (by decide +kernel), by decide +kernel⟩,
   ⟨0, 1, 2000, 5, ({ ({ partition := 0, context := 1, cls := 1, kind := .decode, members := [], eligibleAt := some 5 } : Job) with heldAt := some 5 }), ({ run0 with time.now := 2000005, parts := [(0, { holder := some 1 })], jobs := [(1, { ({ partition := 0, context := 1, cls := 1, kind := .decode, members := [], eligibleAt := some 5 } : Job) with heldAt := some 5 }), (2, ({ partition := 0, context := 1, cls := 1, kind := .decode, members := [], eligibleAt := some 4 } : Job))] }), grants_of (by decide +kernel), by decide +kernel⟩,
   ⟨0, 1, 7, ({ run0 with time.now := 5000007, parts := [(0, { holder := some 1 })], jobs := [(1, { ({ partition := 0, context := 1, cls := 0, kind := .decode, members := [] } : Job) with heldAt := some 1, idleAt := some 7 })] }), grants_of (by decide +kernel), by decide +kernel⟩,
   ⟨({ run0 with time.now := 10000000, parts := [(0, { rho := 4, wp := 5, wd := 7, prefillHeld := 9 }), (63, { wp := 5 })] }), live_of (by decide +kernel), by decide +kernel⟩⟩

theorem test_SessionStatesFollowCommands :
    (∃ (m : Msg) (i : Nat) (s : State), Reaches false m i s ∧ m.ops.length ≤ 1 ∧
      let x := sessAt s i
      x.entry.state = .ready) ∧
    (∃ (m : Msg) (i : Nat) (s : State), Reaches false m i s ∧ m.ops.length ≤ 1 ∧
      let x := sessAt s i
      x.entry.state = .active) ∧
    (∃ (m : Msg) (i : Nat) (s : State), Reaches false m i s ∧ m.ops.length ≤ 1 ∧
      let x := sessAt s i
      x.entry.state = .waiting) ∧
    (∃ (m : Msg) (i : Nat) (s : State), Reaches false m i s ∧ m.ops.length ≤ 1 ∧
      let x := sessAt s i
      x.entry.state ≠ .ready ∧ x.entry.state ≠ .active ∧ x.entry.state ≠ .waiting) ∧
    (∃ (m : Msg) (i : Nat) (s : State), Reaches false m i s ∧ m.ops.length = 0 ∧
      let x := sessAt s i
      (x.entry.state = .ready ∨ x.entry.state = .active)) ∧
    (∃ (m : Msg) (i : Nat) (s : State), Reaches false m i s ∧ m.ops.length = 0 ∧
      let x := sessAt s i
      x.entry.state = .waiting) ∧
    (∃ (m : Msg) (i : Nat) (s : State) (v : State) (w : State), Reaches false m i s ∧ m.ops.length = 0 ∧
      let x := sessAt s i
      x.entry.state = .parked ∧ admissionHeld s x.entry.partition = false ∧ admission x.entry.partition x.record.cls (stepBytes (modelOf s x)
      x.record.length) (reviveFrames i) (taken m s) = (some v, w)) ∧
    (∃ (m : Msg) (i : Nat) (s : State) (w : State), Reaches false m i s ∧ m.ops.length = 0 ∧
      let x := sessAt s i
      x.entry.state = .parked ∧ admissionHeld s x.entry.partition = false ∧ admission x.entry.partition x.record.cls (stepBytes (modelOf s x)
      x.record.length) (reviveFrames i) (taken m s) = (none, w)) ∧
    (∃ (m : Msg) (i : Nat) (s : State) (p : ParkMove), Reaches false m i s ∧ m.ops.length = 0 ∧
      let x := sessAt s i
      x.entry.state = .moving ∧ x.move = some (.park p)) ∧
    (∃ (m : Msg) (i : Nat) (s : State), Reaches false m i s ∧ m.ops.length = 0 ∧
      let x := sessAt s i
      (x.entry.state = .ready ∨ x.entry.state = .waiting ∨ x.entry.state = .parked)) ∧
    (∃ (m : Msg) (i : Nat) (s : State), Reaches false m i s ∧ m.ops.length = 0 ∧
      let x := sessAt s i
      x.entry.state = .frozen) ∧
    (∃ (m : Msg) (i : Nat) (s : State), Reaches false m i s ∧ m.ops.length = 0 ∧
      let x := sessAt s i
      x.entry.state = .frozen) ∧
    (∃ (m : Msg) (i : Nat) (s : State), Reaches false m i s ∧ m.ops.length = 0 ∧
      let x := sessAt s i
      x.entry.state ≠ .frozen ∧ x.entry.state ≠ .faulted ∧ x.entry.state ≠ .tombstone) :=
  ⟨⟨(tmsg 512 [10] h3), 3, (with3 (sess .ready)), reaches_of (by decide +kernel), by decide +kernel⟩,
   ⟨(tmsg 512 [10] h3), 3, (with3 { sess .active with step := some step0 }), reaches_of (by decide +kernel), by decide +kernel⟩,
   ⟨(tmsg 512 [] h3), 3, (with3 (sess .waiting)), reaches_of (by decide +kernel), by decide +kernel⟩,
   ⟨(tmsg 512 [] h3), 3, (with3 (sess .parked)), reaches_of (by decide +kernel), by decide +kernel⟩,
   ⟨(tmsg 512 [] h3), 3, (with3 (sess .ready)), reaches_of (by decide +kernel), by decide +kernel⟩,
   ⟨(tmsg 512 [] h3), 3, (with3 { sess .waiting with timerOn := true, record := { (sess .ready).record with timerNs := 5 } }), reaches_of (by decide +kernel), by decide +kernel⟩,
   ⟨(tmsg 512 [] h3), 3, (with3 (sess .parked) part0), (((admission 0 0 (stepBytes (modelOf (with3 (sess .parked) part0) (sess .parked)) 0) (reviveFrames 3) (taken (tmsg 512 [] h3) (with3 (sess .parked) part0))).1).getD run0), ((admission 0 0 (stepBytes (modelOf (with3 (sess .parked) part0) (sess .parked)) 0) (reviveFrames 3) (taken (tmsg 512 [] h3) (with3 (sess .parked) part0))).2), reaches_of (by decide +kernel), by decide +kernel⟩,
   ⟨(tmsg 512 [] h3), 3, (with3 (sess .parked) { part0 with dict.vals := [(0x301807, 61035)] }), ((admission 0 0 (stepBytes (modelOf (with3 (sess .parked) { part0 with dict.vals := [(0x301807, 61035)] }) (sess .parked)) 0) (reviveFrames 3) (taken (tmsg 512 [] h3) (with3 (sess .parked) { part0 with dict.vals := [(0x301807, 61035)] }))).2), reaches_of (by decide +kernel), by decide +kernel⟩,
   ⟨(tmsg 512 [] h3), 3, (with3 { sess .moving with move := some (.park { tier := 1, reason := .demoted }), record := { (sess .ready).record with returnState := .waiting } }), ({ tier := 1, reason := .demoted }), reaches_of (by decide +kernel), by decide +kernel⟩,
   ⟨(tmsg 512 [] h3), 3, (with3 (sess .ready)), reaches_of (by decide +kernel), by decide +kernel⟩,
   ⟨(tmsg 512 [] h3), 3, (with3 (sess .frozen)), reaches_of (by decide +kernel), by decide +kernel⟩,
   ⟨(tmsg 512 [] h3), 3, ({ with3 { sess .frozen with timerOn := true, record := { (sess .ready).record with timerNs := 50, returnState := .waiting } } with time.now := 20 }), reaches_of (by decide +kernel), by decide +kernel⟩,
   ⟨(tmsg 512 [] h3), 3, (with3 (sess .ready)), reaches_of (by decide +kernel), by decide +kernel⟩⟩

theorem test_RecordsAreSetAndRead :
    (∃ (m : Msg) (i : Nat) (s : State), Reaches false m i s ∧ m.ops.length = 5 ∧
      let mask := opWord m 0
      let x := sessAt s i
      (bit mask 0 = true → opNat m 1 ≤ 1) ∧ (bit mask 1 = true → opNat m 2 < 2 ^ 32) ∧ (bit mask 2 = true → opNat m 3 < 2 ^ 32) ∧ x.entry.state ≠ .tombstone) ∧
    (∃ (m : Msg) (i : Nat) (s : State), Reaches false m i s ∧ m.ops.length = 5 ∧
      let mask := opWord m 0
      let x := sessAt s i
      (bit mask 0 = true → opNat m 1 ≤ 1) ∧ (bit mask 1 = true → opNat m 2 < 2 ^ 32) ∧ (bit mask 2 = true → opNat m 3 < 2 ^ 32) ∧ x.entry.state = .tombstone) ∧
    (∃ (m : Msg) (i : Nat) (s : State), Reaches false m i s ∧ m.ops.length = 1 ∧
      let x := sessAt s i
      let len := x.record.length + opNat m 0
      x.entry.state = .ready ∧ len ≤ maxLength s x.entry.partition (sessShape s i)) ∧
    (∃ (m : Msg) (i : Nat) (s : State), Reaches false m i s ∧ m.ops.length = 1 ∧
      let x := sessAt s i
      let len := x.record.length + opNat m 0
      x.entry.state = .ready ∧ maxLength s x.entry.partition (sessShape s i) < len) ∧
    (∃ (m : Msg) (i : Nat) (s : State), Reaches false m i s ∧ m.ops.length = 1 ∧
      let x := sessAt s i
      x.entry.state ≠ .ready ∧ tileStatus x ≠ .ok) ∧
    (∃ (m : Msg) (i : Nat) (s : State), Reaches true m i s ∧ m.ops.length = 0) ∧
    (∃ (m : Msg) (i : Nat) (s : State), Reaches true m i s ∧ m.ops.length = 0) :=
  ⟨⟨(tmsg 512 [15, 1, 4294967295, 4294967295, 1] h3), 3, (with3 { sess .ready with record := { (sess .ready).record with flags := 3 } }), reaches_of (by decide +kernel), by decide +kernel⟩,
   ⟨(tmsg 512 [15, 1, 5, 5, 1] h3), 3, (with3 (sess .tombstone)), reaches_of (by decide +kernel), by decide +kernel⟩,
   ⟨(tmsg 512 [64] h3), 3, (with3 (sess .ready) part0), reaches_of (by decide +kernel), by decide +kernel⟩,
   ⟨(tmsg 512 [16777217] h3), 3, (with3 (sess .ready) part0), reaches_of (by decide +kernel), by decide +kernel⟩,
   ⟨(tmsg 512 [1] h3), 3, (with3 (sess .waiting)), reaches_of (by decide +kernel), by decide +kernel⟩,
   ⟨(tmsg 512 [] h3), 3, (with3 (sess .tombstone)), reaches_of (by decide +kernel), by decide +kernel⟩,
   ⟨(tmsg 512 [] h3), 3, ({ run0 with sessions := [(2, { entry := { state := .ready, generation := 4 }, record := { handle := handleOf 0 4 2, context := 1 } }), (3, { sess .ready with record := { (sess .ready).record with parent := handleOf 0 4 2 } })] }), reaches_of (by decide +kernel), by decide +kernel⟩⟩

theorem test_CancelEndsSessions :
    (∃ (m : Msg) (i : Nat) (s : State), Reaches true m i s ∧ m.ops.length = 0 ∧
      let x := sessAt s i
      x.entry.state ≠ .active ∧ x.entry.state ≠ .tombstone ∧ x.entry.state ≠ .free) ∧
    (∃ (m : Msg) (i : Nat) (s : State) (st : Step), Reaches true m i s ∧ m.ops.length = 0 ∧
      let x := sessAt s i
      x.entry.state = .active ∧ x.step = some st ∧
      let ph := if st.phase = .held then st.heldPhase else st.phase
      (st.ending = true ∨ ph = .idle ∨ ph = .waitFrame ∨ ph = .waitRope)) ∧
    (∃ (m : Msg) (i : Nat) (s : State) (st : Step), Reaches true m i s ∧ m.ops.length = 0 ∧ st.ending = false ∧
      let x := sessAt s i
      x.entry.state = .active ∧ x.step = some st ∧
      let ph := if st.phase = .held then st.heldPhase else st.phase
      ph ≠ .idle ∧ ph ≠ .waitFrame ∧ ph ≠ .waitRope) ∧
    (∃ (m : Msg) (i : Nat) (s : State), Reaches true m i s ∧ m.ops.length = 0 ∧
      let x := sessAt s i
      x.entry.state = .tombstone) :=
  ⟨⟨(tmsg 512 [] h3), 3, (with3 (sess .ready)), reaches_of (by decide +kernel), by decide +kernel⟩,
   ⟨(tmsg 512 [] h3), 3, (with3 { sess .active with step := some { step0 with phase := .idle } }), ({ step0 with phase := .idle }), reaches_of (by decide +kernel), by decide +kernel⟩,
   ⟨(tmsg 512 [] h3), 3, (with3 { sess .active with step := some step0 }), step0, reaches_of (by decide +kernel), by decide +kernel⟩,
   ⟨(tmsg 512 [] h3), 3, (with3 { sess .tombstone with record := { (sess .ready).record with reason := .migrated } }), reaches_of (by decide +kernel), by decide +kernel⟩⟩

theorem test_ParksBegin :
    (∃ (m : Msg) (i : Nat) (s : State), Reaches false m i s ∧ m.ops.length = 1 ∧ (opNat m 0 = 1 ∨ opNat m 0 = 2) ∧
      let x := sessAt s i
      (x.entry.state = .ready ∨ x.entry.state = .waiting)) ∧
    (∃ (m : Msg) (i : Nat) (s : State), Reaches false m i s ∧ m.ops.length = 1 ∧ (opNat m 0 = 1 ∨ opNat m 0 = 2) ∧
      let x := sessAt s i
      x.entry.state = .parked) ∧
    (∃ (m : Msg) (i : Nat) (s : State), Reaches false m i s ∧ m.ops.length = 1 ∧ (opNat m 0 = 1 ∨ opNat m 0 = 2) ∧
      let x := sessAt s i
      x.entry.state ≠ .ready ∧ x.entry.state ≠ .waiting ∧ x.entry.state ≠ .parked) ∧
    (∃ (i : Nat) (s : State), Grants s ∧ (sessAt s i).entry.state = .waiting ∧ timerDue s i = true) ∧
    (∃ (p : Nat) (i : Nat) (s : State), Grants s ∧ shortChannels s p ≠ [] ∧ preemptions s p < 4 ∧ (chooseVictim (modPart p (fun x => { x with short := shortChannels s p }) s) p = some i)) ∧
    (∃ (i : Nat) (s : State), Grants s ∧ jobOf s i = none ∧
      let x := sessAt s i
      let p := x.entry.partition
      flatWindowVal s p = 1 ∧ flatIdleParkSVal s p ≠ 0 ∧ x.entry.state = .ready ∧ x.shadow = none ∧ max x.record.lastStepNs x.record.createdNs +
      flatIdleParkSVal s p * 1000000000 ≤ now s) :=
  ⟨⟨(tmsg 512 [1] h3), 3, (with3 (sess .ready) part0), reaches_of (by decide +kernel), by decide +kernel⟩,
   ⟨(tmsg 512 [1] h3), 3, (with3 (sess .parked)), reaches_of (by decide +kernel), by decide +kernel⟩,
   ⟨(tmsg 512 [1] h3), 3, (with3 (sess .frozen)), reaches_of (by decide +kernel), by decide +kernel⟩,
   ⟨3, (with3 { sess .waiting with timerOn := true } part0), grants_of (by decide +kernel), by decide +kernel⟩,
   ⟨0, 3, ({ with3 { sess .waiting with pages := [(0, { tier := 0, frame := 0 })] } { part0 with dict.vals := [(0x301807, 61035), (0x301808, 61035)] } with frames := [(0, { state := .kv, context := 1, owner := 3, refCount := 1 })] }), grants_of (by decide +kernel), by decide +kernel⟩,
   ⟨3, ({ with3 (sess .ready) { part0 with dict.run := [(0x302802, 1)] } with time.now := 60000000000 }), grants_of (by decide +kernel), by decide +kernel⟩⟩

theorem test_MovesEnd :
    (∃ (i : Nat) (p : ParkMove) (s : State), Grants s ∧ (sessAt s i).move = some (.park p) ∧ parkDone p = true) ∧
    (∃ (i : Nat) (v : SourceMove) (s : State), Grants s ∧ (sessAt s i).move = some (.source v) ∧ v.opened = true ∧ v.todo = [] ∧ v.failed = false ∧ (∀ e ∈ s.transfers, servesSession i e.2 = false)
      ∧ tilesOut s (migrateQp v.node) (handleIndex v.newHandle) = false) ∧
    (∃ (i : Nat) (s : State), Grants s ∧ ((∃ p, (sessAt s i).move = some (.park p) ∧ p.failed = true) ∨ (∃ v, (sessAt s i).move = some (.source v) ∧ v.failed = true))) :=
  ⟨⟨3, ({ tier := 1, reason := .hostPark, cmd := some (512, 9), mapIssued := true }), (with3 { sess .moving with move := some (.park { tier := 1, reason := .hostPark, cmd := some (512, 9), mapIssued := true }) } part0), grants_of (by decide +kernel), by decide +kernel⟩,
   ⟨3, ({ node := 1, part := 0, qp := 512, tag := 3, opened := true }), (with3 { sess .moving with move := some (.source { node := 1, part := 0, qp := 512, tag := 3, opened := true }) } part0), grants_of (by decide +kernel), by decide +kernel⟩,
   ⟨3, (with3 { sess .moving with move := some (.park { tier := 1, reason := .hostPark, failed := true }), record := { (sess .ready).record with returnState := .waiting } } part0), grants_of (by decide +kernel), .inl ⟨_, rfl, rfl⟩⟩⟩

theorem test_TombstonesEnd :
    (∃ (i : Nat) (s : State), Grants s ∧ (sessAt s i).entry.state = .parked ∧ timerDue s i = true) ∧
    (∃ (i : Nat) (s : State), Grants s ∧
      let x := sessAt s i
      x.entry.state = .tombstone ∧ x.shadow = none ∧ x.record.childCount = 0 ∧ x.tombAt + tombHoldMsVal s x.entry.partition * 1000000 ≤ now s) ∧
    (∃ (c : Instr) (i : Nat) (s : State), Grants s ∧ (c = .ttlExpiry i ∧ ((sessAt s i).entry.state ≠ .parked ∨ timerDue s i = false) ∨ c = .demoteTimer i ∧ ((sessAt s i).entry.state ≠ .waiting
      ∨ timerDue s i = false) ∨ c = .lastRef i ∧ ((sessAt s i).entry.state ≠ .tombstone ∨ (sessAt s i).record.childCount ≠ 0))) :=
  ⟨⟨3, (with3 { sess .parked with timerOn := true }), grants_of (by decide +kernel), by decide +kernel⟩,
   ⟨3, ({ with3 { sess .tombstone with tombAt := 5 } with time.now := 1000000005 }), grants_of (by decide +kernel), by decide +kernel⟩,
   ⟨(.ttlExpiry 3), 3, (with3 (sess .ready)), grants_of (by decide +kernel), by decide +kernel⟩⟩

theorem test_InningsRiseAndFlatPagesSink :
    (∃ (i : Nat) (s : State), Grants s ∧
      let x := sessAt s i
      x.inningsDue ≠ 0 ∧ x.inningsAt.getD 0 + 100000 ≤ now s) ∧
    (∃ (i : Nat) (k : Nat) (slot : Nat) (rest : List Nat) (u : State) (s : State), Grants s ∧
      let x := sessAt s i
      let p := x.entry.partition
      allocTier 2 p x.record.context 1 s = some (slot, u) ∧ x.entry.state = .parked ∧ x.copy = none ∧ flatWindowVal s p = 1 ∧ flatDemoteSVal s p ≠ 0 ∧
      x.shadow = none ∧ x.record.mapTier = 1 ∧ x.beneathMap = false ∧ x.parkedAt + flatDemoteSVal s p * 1000000000 ≤ now s ∧ (Tab.keysWhere x.pages (fun e
      => e.homeValid && e.homeTier == 0) = k :: rest)) ∧
    (∃ (i : Nat) (k : Nat) (slot : Nat) (rest : List Nat) (u : State) (s : State), Grants s ∧
      let x := sessAt s i
      let p := x.entry.partition
      allocTier 2 p x.record.context 1 s = some (slot, u) ∧ x.entry.state = .parked ∧ x.copy = none ∧ x.beneathMap = true ∧ x.beneath = k :: rest) ∧
    (∃ (i : Nat) (slot : Nat) (u : State) (s : State), Grants s ∧
      let x := sessAt s i
      let n := x.mapHome.length
      x.entry.state = .parked ∧ x.copy = none ∧ x.beneathMap = true ∧ x.beneath = [] ∧ allocTier 2 x.entry.partition x.record.context n s = some (slot, u)) ∧
    (∃ (i : Nat) (k : Nat) (slot : Nat) (s : State), Grants s ∧
      let x := sessAt s i
      let e := pageAt x k
      x.copy = some { key := some k, slots := [slot], left := 0 } ∧ x.revive = none ∧ e.homeValid = true ∧ e.homeTier = 0) ∧
    (∃ (i : Nat) (l : List Nat) (s : State), Grants s ∧
      let x := sessAt s i
      x.copy = some { key := none, slots := l, left := 0 }) ∧
    (∃ (i : Nat) (c : BeneathCopy) (s : State), Grants s ∧ (sessAt s i).copy = some c ∧ c.left ≠ 0) :=
  ⟨⟨3, ({ with3 { sess .ready with inningsDue := 2, inningsAt := some 7 } with time.now := 100007 }), grants_of (by decide +kernel), by decide +kernel⟩,
   ⟨3, 0, (((allocTier 2 0 1 1 ({ with3 { sess .parked with record := { (sess .parked).record with mapTier := 1 }, mapHome := [(1, 9)], pages := [(0, { homeValid := true, homeSlot := 3, tier := 1 }), (1, { homeValid := true, homeTier := 1, tier := 1 })] } { pool0 with dict.run := [(0x300001, 1), (0x302802, 1)], dict.vals := [(0x302801, 1)] } with hostSlots := [3, 9], time.now := 600000000000 })).getD (0, run0)).1), [], (((allocTier 2 0 1 1 ({ with3 { sess .parked with record := { (sess .parked).record with mapTier := 1 }, mapHome := [(1, 9)], pages := [(0, { homeValid := true, homeSlot := 3, tier := 1 }), (1, { homeValid := true, homeTier := 1, tier := 1 })] } { pool0 with dict.run := [(0x300001, 1), (0x302802, 1)], dict.vals := [(0x302801, 1)] } with hostSlots := [3, 9], time.now := 600000000000 })).getD (0, run0)).2), ({ with3 { sess .parked with record := { (sess .parked).record with mapTier := 1 }, mapHome := [(1, 9)], pages := [(0, { homeValid := true, homeSlot := 3, tier := 1 }), (1, { homeValid := true, homeTier := 1, tier := 1 })] } { pool0 with dict.run := [(0x300001, 1), (0x302802, 1)], dict.vals := [(0x302801, 1)] } with hostSlots := [3, 9], time.now := 600000000000 }), grants_of (by decide +kernel), by decide +kernel⟩,
   ⟨3, 0, (((allocTier 2 0 1 1 ({ with3 { sess .parked with record := { (sess .parked).record with mapTier := 1 }, beneathMap := true, beneath := [0, 1], mapHome := [(1, 9)], pages := [(0, { homeValid := true, homeSlot := 3, tier := 1 }), (1, { homeValid := true, homeTier := 1, tier := 1 })] } { pool0 with dict.run := [(0x300001, 1), (0x302802, 1)], dict.vals := [(0x302801, 1)] } with hostSlots := [3, 9] })).getD (0, run0)).1), [1], (((allocTier 2 0 1 1 ({ with3 { sess .parked with record := { (sess .parked).record with mapTier := 1 }, beneathMap := true, beneath := [0, 1], mapHome := [(1, 9)], pages := [(0, { homeValid := true, homeSlot := 3, tier := 1 }), (1, { homeValid := true, homeTier := 1, tier := 1 })] } { pool0 with dict.run := [(0x300001, 1), (0x302802, 1)], dict.vals := [(0x302801, 1)] } with hostSlots := [3, 9] })).getD (0, run0)).2), ({ with3 { sess .parked with record := { (sess .parked).record with mapTier := 1 }, beneathMap := true, beneath := [0, 1], mapHome := [(1, 9)], pages := [(0, { homeValid := true, homeSlot := 3, tier := 1 }), (1, { homeValid := true, homeTier := 1, tier := 1 })] } { pool0 with dict.run := [(0x300001, 1), (0x302802, 1)], dict.vals := [(0x302801, 1)] } with hostSlots := [3, 9] }), grants_of (by decide +kernel), by decide +kernel⟩,
   ⟨3, (((allocTier 2 0 1 1 ({ with3 { sess .parked with record := { (sess .parked).record with mapTier := 1 }, beneathMap := true, mapHome := [(1, 9)], pages := [(0, { homeValid := true, homeSlot := 3, tier := 1 }), (1, { homeValid := true, homeTier := 1, tier := 1 })] } { pool0 with dict.run := [(0x300001, 1), (0x302802, 1)], dict.vals := [(0x302801, 1)] } with hostSlots := [3, 9] })).getD (0, run0)).1), (((allocTier 2 0 1 1 ({ with3 { sess .parked with record := { (sess .parked).record with mapTier := 1 }, beneathMap := true, mapHome := [(1, 9)], pages := [(0, { homeValid := true, homeSlot := 3, tier := 1 }), (1, { homeValid := true, homeTier := 1, tier := 1 })] } { pool0 with dict.run := [(0x300001, 1), (0x302802, 1)], dict.vals := [(0x302801, 1)] } with hostSlots := [3, 9] })).getD (0, run0)).2), ({ with3 { sess .parked with record := { (sess .parked).record with mapTier := 1 }, beneathMap := true, mapHome := [(1, 9)], pages := [(0, { homeValid := true, homeSlot := 3, tier := 1 }), (1, { homeValid := true, homeTier := 1, tier := 1 })] } { pool0 with dict.run := [(0x300001, 1), (0x302802, 1)], dict.vals := [(0x302801, 1)] } with hostSlots := [3, 9] }), grants_of (by decide +kernel), by decide +kernel⟩,
   ⟨3, 0, 7, ({ with3 { sess .parked with record := { (sess .parked).record with mapTier := 1 }, beneathMap := true, beneath := [1], copy := some { key := some 0, slots := [7], left := 0 }, mapHome := [(1, 9)], pages := [(0, { homeValid := true, homeSlot := 3, tier := 1 }), (1, { homeValid := true, homeTier := 1, tier := 1 })] } { pool0 with dict.run := [(0x300001, 1), (0x302802, 1)], dict.vals := [(0x302801, 1)] } with hostSlots := [3, 9] }), grants_of (by decide +kernel), by decide +kernel⟩,
   ⟨3, [7], ({ with3 { sess .parked with record := { (sess .parked).record with mapTier := 1 }, beneathMap := true, beneath := [], copy := some { key := none, slots := [7], left := 0 }, mapHome := [(1, 9)], pages := [(0, { homeValid := true, homeSlot := 3, tier := 1 }), (1, { homeValid := true, homeTier := 1, tier := 1 })] } { pool0 with dict.run := [(0x300001, 1), (0x302802, 1)], dict.vals := [(0x302801, 1)] } with hostSlots := [3, 9] }), grants_of (by decide +kernel), by decide +kernel⟩,
   ⟨3, ({ key := none, slots := [7], left := 4 }), ({ with3 { sess .parked with record := { (sess .parked).record with mapTier := 1 }, beneathMap := true, beneath := [1], copy := some { key := none, slots := [7], left := 4 }, mapHome := [(1, 9)], pages := [(0, { homeValid := true, homeSlot := 3, tier := 1 }), (1, { homeValid := true, homeTier := 1, tier := 1 })] } { pool0 with dict.run := [(0x300001, 1), (0x302802, 1)], dict.vals := [(0x302801, 1)] } with hostSlots := [3, 9] }), grants_of (by decide +kernel), by decide +kernel⟩⟩

theorem test_StepsOpen :
    (∃ (m : Msg) (i : Nat) (s : State), Reaches false m i s ∧ m.ops.length = 0 ∧ jobCheck s m.job.toNat i = .ok ∧
      let x := sessAt s i
      let md := modelOf s x
      let h := sessShape s i
      (x.entry.state = .ready ∨ x.entry.state = .waiting) ∧ roomAt s x.entry.partition x.record.length h = true ∧ queryBytes md + kvBytes h ≤ m.body.length
      ∧ storeFull s m.job.toNat (queryBytes md) = false ∧
      let st : Step :=
        { qp := m.qp, tag := m.tag, outQp := m.qp, outTag := m.tag, job := m.job.toNat, seq0 := x.record.stepSeq, len0 := x.record.length
          query := slice m.body 0 (queryBytes md), kv := slice m.body (queryBytes md) (kvBytes h), grammar := x.record.grammar
          tokenCarry := x.record.tokenCarry, seqLists := x.record.seqLists, reserved := x.reservedSeg }
      let decode := match Tab.find s.jobs m.job.toNat with | some j => j.kind == .decode | none => false
      let f := if decode && tokOn st.tokenCarry then feedStep i (if argFedValid m then some (argFed m) else none) st (taken m s)
        else ({ st with masked := true }, true, taken m s)
      f.2.1 = true ∧ (stepNeeds s i st).any (nodeLost s) = false) ∧
    (∃ (m : Msg) (i : Nat) (s : State), Reaches false m i s ∧ m.ops.length = 0 ∧ jobCheck s m.job.toNat i = .ok ∧ qpReady s m.qp = true ∧
      let x := sessAt s i
      let md := modelOf s x
      let h := sessShape s i
      (x.entry.state = .ready ∨ x.entry.state = .waiting) ∧ roomAt s x.entry.partition x.record.length h = true ∧ queryBytes md + kvBytes h ≤ m.body.length
      ∧ storeFull s m.job.toNat (queryBytes md) = false ∧
      let st : Step :=
        { qp := m.qp, tag := m.tag, outQp := m.qp, outTag := m.tag, job := m.job.toNat, seq0 := x.record.stepSeq, len0 := x.record.length
          query := slice m.body 0 (queryBytes md), kv := slice m.body (queryBytes md) (kvBytes h), grammar := x.record.grammar
          tokenCarry := x.record.tokenCarry, seqLists := x.record.seqLists, reserved := x.reservedSeg }
      let decode := match Tab.find s.jobs m.job.toNat with | some j => j.kind == .decode | none => false
      let f := if decode && tokOn st.tokenCarry then feedStep i (if argFedValid m then some (argFed m) else none) st (taken m s)
        else ({ st with masked := true }, true, taken m s)
      f.2.1 = false) ∧
    (∃ (m : Msg) (i : Nat) (s : State), Reaches false m i s ∧ m.ops.length = 0 ∧ jobCheck s m.job.toNat i = .ok ∧ qpReady s m.qp = true ∧
      let x := sessAt s i
      let md := modelOf s x
      let h := sessShape s i
      (x.entry.state = .ready ∨ x.entry.state = .waiting) ∧ roomAt s x.entry.partition x.record.length h = true ∧ queryBytes md + kvBytes h ≤ m.body.length
      ∧ storeFull s m.job.toNat (queryBytes md) = false ∧
      let st : Step :=
        { qp := m.qp, tag := m.tag, outQp := m.qp, outTag := m.tag, job := m.job.toNat, seq0 := x.record.stepSeq, len0 := x.record.length
          query := slice m.body 0 (queryBytes md), kv := slice m.body (queryBytes md) (kvBytes h), grammar := x.record.grammar
          tokenCarry := x.record.tokenCarry, seqLists := x.record.seqLists, reserved := x.reservedSeg }
      let decode := match Tab.find s.jobs m.job.toNat with | some j => j.kind == .decode | none => false
      let f := if decode && tokOn st.tokenCarry then feedStep i (if argFedValid m then some (argFed m) else none) st (taken m s)
        else ({ st with masked := true }, true, taken m s)
      f.2.1 = true ∧ (stepNeeds s i st).any (nodeLost s) = true) ∧
    (∃ (m : Msg) (i : Nat) (s : State), Reaches false m i s ∧ m.ops.length = 0 ∧ jobCheck s m.job.toNat i ≠ .ok ∧
      let x := sessAt s i
      (x.entry.state = .ready ∨ x.entry.state = .waiting)) ∧
    (∃ (m : Msg) (i : Nat) (s : State), Reaches false m i s ∧ m.ops.length = 0 ∧ jobCheck s m.job.toNat i = .ok ∧
      let x := sessAt s i
      let h := sessShape s i
      (x.entry.state = .ready ∨ x.entry.state = .waiting) ∧ roomAt s x.entry.partition x.record.length h = false) ∧
    (∃ (m : Msg) (i : Nat) (s : State), Reaches false m i s ∧ m.ops.length = 0 ∧
      let x := sessAt s i
      x.entry.state ≠ .ready ∧ x.entry.state ≠ .waiting) :=
  ⟨⟨({ tmsg 512 [] h3 (List.replicate 384 1) with job := 1 }), 3, (with3 (sess .ready) { part0 with jobs := [(1, { partition := 0, context := 1, cls := 0, kind := .decode, members := [3] })], parts := [(0, { holder := some 1 })] }), reaches_of (by decide +kernel), by decide +kernel⟩,
   ⟨({ tmsg 512 [] h3 (List.replicate 384 1) with job := 1, args := word (2 ^ 55 + 300 * 2 ^ 34) }), 3, (with3 ({ sess .ready with record := { (sess .ready).record with tokenCarry := word (2 ^ 60 + 2 ^ 5) } }) { part0 with jobs := [(1, { partition := 0, context := 1, cls := 0, kind := .decode, members := [3] })], parts := [(0, { holder := some 1 })], vocabs := [(0, vocab0)] }), reaches_of (by decide +kernel), by decide +kernel⟩,
   ⟨({ tmsg 512 [] h3 (List.replicate 384 1) with job := 1 }), 3, (with3 { sess .ready with record := { (sess .ready).record with length := 2 } } { part0 with dict.run := [(0x208001, 0), (0x208002, 1), (0x208005, 4), (0x208006, 1), (0x208007, 1), (0x300001, 1), (0x301001, 1), (0x301002, 2), (0x301003, 0), (0x301004, 0), (0x301005, 0)], jobs := [(1, { partition := 0, context := 1, cls := 0, kind := .decode, members := [3] })], parts := [(0, { holder := some 1 })] }), reaches_of (by decide +kernel), by decide +kernel⟩,
   ⟨({ tmsg 512 [] h3 (List.replicate 384 1) with job := 1 }), 3, (with3 (sess .ready) part0), reaches_of (by decide +kernel), by decide +kernel⟩,
   ⟨({ tmsg 512 [] h3 (List.replicate 384 1) with job := 1 }), 3, (with3 { sess .ready with record := { (sess .ready).record with length := 16777216 } } { part0 with jobs := [(1, { partition := 0, context := 1, cls := 0, kind := .decode, members := [3] })], parts := [(0, { holder := some 1 })] }), reaches_of (by decide +kernel), by decide +kernel⟩,
   ⟨({ tmsg 512 [] h3 (List.replicate 384 1) with job := 1 }), 3, (with3 (sess .frozen) { part0 with jobs := [(1, { partition := 0, context := 1, cls := 0, kind := .decode, members := [3] })], parts := [(0, { holder := some 1 })] }), reaches_of (by decide +kernel), by decide +kernel⟩⟩

theorem test_LayersFollowInOrder :
    (∃ (m : Msg) (i : Nat) (s : State) (st : Step), Reaches false m i s ∧ m.ops.length = 0 ∧ st.phase = .idle ∧ st.ending = false ∧ argLayer m = st.layer + 1 ∧
      let x := sessAt s i
      let md := modelOf s x
      let h := sessShape s i
      x.step = some st ∧ queryBytes md + kvBytes h ≤ m.body.length ∧ storeFull s st.job (queryBytes md) = false) ∧
    (∃ (m : Msg) (i : Nat) (s : State) (st : Step), Reaches false m i s ∧ m.ops.length = 0 ∧ (st.phase ≠ .idle ∨ st.ending = true ∨ argLayer m ≠ st.layer + 1) ∧
      let x := sessAt s i
      x.step = some st) ∧
    (∃ (m : Msg) (i : Nat) (s : State), Reaches false m i s ∧ m.ops.length = 0 ∧
      let x := sessAt s i
      x.step = none ∧ x.ended = some .stepRestart) ∧
    (∃ (m : Msg) (i : Nat) (s : State), Reaches false m i s ∧ m.ops.length = 0 ∧
      let x := sessAt s i
      x.step = none ∧ x.ended ≠ some .stepRestart ∧ stateStatus x = .ok) :=
  ⟨⟨({ tmsg 512 [] h3 (List.replicate 384 1) with job := 1, args := word (2 ^ 56) }), 3, (with3 { sess .active with step := some { step0 with phase := .idle } } { part0 with jobs := [(1, { partition := 0, context := 1, cls := 0, kind := .decode, members := [3] })], parts := [(0, { holder := some 1 })], models := [(0, { layers := 2, kvHeads := 1, group := 1, entries := List.replicate 256 {}, tag := 9 })] }), ({ step0 with phase := .idle }), reaches_of (by decide +kernel), by decide +kernel⟩,
   ⟨({ tmsg 512 [] h3 (List.replicate 384 1) with job := 1, args := word (2 ^ 56) }), 3, (with3 { sess .active with step := some step0 } { part0 with jobs := [(1, { partition := 0, context := 1, cls := 0, kind := .decode, members := [3] })], parts := [(0, { holder := some 1 })], models := [(0, { layers := 2, kvHeads := 1, group := 1, entries := List.replicate 256 {}, tag := 9 })] }), step0, reaches_of (by decide +kernel), by decide +kernel⟩,
   ⟨({ tmsg 512 [] h3 (List.replicate 384 1) with job := 1, args := word (2 ^ 56) }), 3, (with3 { sess .ready with ended := some .stepRestart } { part0 with jobs := [(1, { partition := 0, context := 1, cls := 0, kind := .decode, members := [3] })], parts := [(0, { holder := some 1 })], models := [(0, { layers := 2, kvHeads := 1, group := 1, entries := List.replicate 256 {}, tag := 9 })] }), reaches_of (by decide +kernel), by decide +kernel⟩,
   ⟨({ tmsg 512 [] h3 (List.replicate 384 1) with job := 1, args := word (2 ^ 56) }), 3, (with3 (sess .ready) { part0 with jobs := [(1, { partition := 0, context := 1, cls := 0, kind := .decode, members := [3] })], parts := [(0, { holder := some 1 })], models := [(0, { layers := 2, kvHeads := 1, group := 1, entries := List.replicate 256 {}, tag := 9 })] }), reaches_of (by decide +kernel), by decide +kernel⟩⟩

theorem test_QueryBlocksAreTaken :
    (∃ (m : Msg) (i : Nat) (s : State), Reaches false m i s ∧ m.ops.length = 1 ∧ jobCheck s m.job.toNat i = .ok ∧
      let x := sessAt s i
      let md := modelOf s x
      (x.entry.state = .ready ∨ x.entry.state = .waiting) ∧ argLayer m < md.layers ∧ opNat m 0 + argCount m ≤ x.record.length ∧ argCount m * queryBytes md ≤
      m.body.length ∧ storeFull s m.job.toNat (argCount m * queryBytes md) = false ∧ x.qblock = none) ∧
    (∃ (m : Msg) (i : Nat) (s : State), Reaches false m i s ∧ m.ops.length = 1 ∧ jobCheck s m.job.toNat i = .ok ∧
      let x := sessAt s i
      let md := modelOf s x
      (x.entry.state = .ready ∨ x.entry.state = .waiting) ∧ argLayer m < md.layers ∧ opNat m 0 + argCount m ≤ x.record.length ∧ argCount m * queryBytes md ≤
      m.body.length ∧ storeFull s m.job.toNat (argCount m * queryBytes md) = false ∧ x.qblock.isSome) ∧
    (∃ (m : Msg) (i : Nat) (s : State), Reaches false m i s ∧ m.ops.length = 1 ∧ jobCheck s m.job.toNat i = .ok ∧
      let x := sessAt s i
      let md := modelOf s x
      (x.entry.state = .ready ∨ x.entry.state = .waiting) ∧ (md.layers ≤ argLayer m ∨ x.record.length < opNat m 0 + argCount m)) :=
  ⟨⟨({ tmsg 512 [8] h3 (List.replicate 384 1) with job := 1, args := word (2 ^ 25) }), 3, (with3 { sess .ready with record := { (sess .ready).record with length := 10 } } { part0 with jobs := [(1, { partition := 0, context := 1, cls := 0, kind := .decode, members := [3] })], parts := [(0, { holder := some 1 })] }), reaches_of (by decide +kernel), by decide +kernel⟩,
   ⟨({ tmsg 512 [0] h3 (List.replicate 384 1) with job := 1 }), 3, (with3 { { sess .ready with record := { (sess .ready).record with length := 10 } } with qblock := some { qp := 512, tag := 3, job := 1, layer := 0, first := 0, count := 1 } } { part0 with jobs := [(1, { partition := 0, context := 1, cls := 0, kind := .decode, members := [3] })], parts := [(0, { holder := some 1 })] }), reaches_of (by decide +kernel), by decide +kernel⟩,
   ⟨({ tmsg 512 [10] h3 (List.replicate 384 1) with job := 1 }), 3, (with3 { sess .ready with record := { (sess .ready).record with length := 10 } } { part0 with jobs := [(1, { partition := 0, context := 1, cls := 0, kind := .decode, members := [3] })], parts := [(0, { holder := some 1 })] }), reaches_of (by decide +kernel), by decide +kernel⟩⟩

theorem test_AppendsAreAcknowledged :
    (∃ (i : Nat) (st : Step) (s : State), Live s ∧ (sessAt s i).step = some st ∧ st.phase = .appended) ∧
    (∃ (i : Nat) (w : Nat) (st : Step) (s : State), Grants s ∧ (sessAt s i).step = some st ∧ st.phase = .waitFrame ∧ st.waitUntil = some w ∧ w ≤ now s ∧ (sessAt s i).entry.cancelPending = false ∧
      (sessAt s i).entry.waitPending = false ∧ qpReady s st.qp = true) ∧
    (∃ (i : Nat) (st : Step) (s : State), Grants s ∧ (sessAt s i).step = some st ∧ st.phase = .waitFrame ∧ (∀ w, st.waitUntil = some w → now s < w)) :=
  ⟨⟨3, step0, (with3 { sess .active with step := some step0 } { part0 with jobs := [(1, { partition := 0, context := 1, cls := 0, kind := .decode, members := [3] })], parts := [(0, { holder := some 1 })] }), live_of (by decide +kernel), by decide +kernel⟩,
   ⟨3, 50, ({ step0 with phase := .waitFrame, waitUntil := some 50 }), ({ with3 { sess .active with step := some { step0 with phase := .waitFrame, waitUntil := some 50 } } { part0 with jobs := [(1, { partition := 0, context := 1, cls := 0, kind := .decode, members := [3] })], parts := [(0, { holder := some 1 })] } with time.now := 50 }), grants_of (by decide +kernel), by decide +kernel⟩,
   ⟨3, ({ step0 with phase := .waitFrame, waitUntil := some 50 }), ({ with3 { sess .active with step := some { step0 with phase := .waitFrame, waitUntil := some 50 } } { part0 with jobs := [(1, { partition := 0, context := 1, cls := 0, kind := .decode, members := [3] })], parts := [(0, { holder := some 1 })] } with time.now := 49 }), grants_of (by decide +kernel), by decide +kernel⟩⟩

theorem test_MergesOpenUnderTheNextTag :
    (∃ (i : Nat) (st : Step) (s : State) (u : State) (g : Merge), Grants s ∧ mergeOf s i = none ∧ (sessAt s i).step = some st ∧ st.phase = .ready ∧ jobIssues s st.job = true ∧ layerThere s i st.layer = true ∧
      openMerge i st.layer st.job false st.len0 [st.len0] st.query none s = some u ∧ Tab.find u.merges u.mergeTag = some g ∧ mergeComplete u g = false) ∧
    (∃ (i : Nat) (st : Step) (s : State), Grants s ∧ mergeOf s i = none ∧ (sessAt s i).step = some st ∧ st.phase = .ready ∧ jobIssues s st.job = true ∧ layerThere s i st.layer = true ∧
      openMerge i st.layer st.job false st.len0 [st.len0] st.query none s = none) ∧
    (∃ (i : Nat) (b : QBlock) (u : State) (s : State), Grants s ∧ mergeOf s i = none ∧ (∀ st, (sessAt s i).step = some st → st.phase ≠ .ready) ∧ (sessAt s i).qblock = some b ∧ b.phase = .ready ∧ jobIssues
      s b.job = true ∧ layerThere s i b.layer = true ∧
      let offs := (List.range b.count).filter (fun o => holdsPos s (sessAt s i).entry.partition (b.first + o))
      let qb := queryBytes (modelOf s (sessAt s i))
      let query := (offs.map (fun o => slice b.query (o * qb) qb)).flatten
      offs ≠ [] ∧ openMerge i b.layer b.job true b.first (offs.map (b.first + ·)) query none s = some u) :=
  ⟨⟨3, (({ step0 with phase := .ready, query := List.replicate 128 0 } : Step)), (with3 { sess .active with step := some ({ step0 with phase := .ready, query := List.replicate 128 0 } : Step) } { part0 with jobs := [(1, { partition := 0, context := 1, cls := 0, kind := .decode, members := [3] })], parts := [(0, { holder := some 1 })] }), (((openMerge 3 0 1 false 0 [0] (List.replicate 128 0) none (with3 { sess .active with step := some ({ step0 with phase := .ready, query := List.replicate 128 0 } : Step) } { part0 with jobs := [(1, { partition := 0, context := 1, cls := 0, kind := .decode, members := [3] })], parts := [(0, { holder := some 1 })] })).getD run0)), (((Tab.find ((openMerge 3 0 1 false 0 [0] (List.replicate 128 0) none (with3 { sess .active with step := some ({ step0 with phase := .ready, query := List.replicate 128 0 } : Step) } { part0 with jobs := [(1, { partition := 0, context := 1, cls := 0, kind := .decode, members := [3] })], parts := [(0, { holder := some 1 })] })).getD run0).merges ((openMerge 3 0 1 false 0 [0] (List.replicate 128 0) none (with3 { sess .active with step := some ({ step0 with phase := .ready, query := List.replicate 128 0 } : Step) } { part0 with jobs := [(1, { partition := 0, context := 1, cls := 0, kind := .decode, members := [3] })], parts := [(0, { holder := some 1 })] })).getD run0).mergeTag).getD ({ catcher := 0, index := 0, innings := 0, layer := 0, job := 0, prefill := false, first := 0, count := 0, blocks := [], hg := 0, wb := 0, ws := 0, passSize := 0, reserve := 0, todo := [] } : Merge))), grants_of (by decide +kernel), by decide +kernel⟩,
   ⟨3, (({ step0 with phase := .ready, query := List.replicate 128 0 } : Step)), ({ with3 { sess .active with step := some ({ step0 with phase := .ready, query := List.replicate 128 0 } : Step) } { part0 with jobs := [(1, { partition := 0, context := 1, cls := 0, kind := .decode, members := [3] })], parts := [(0, { holder := some 1 })] } with merges := (List.range 32).map (fun c => (c, ({ catcher := c, index := 9, innings := 1, layer := 0, job := 1, prefill := false, first := 0, count := 1, blocks := [], hg := 1, wb := 1, ws := 0, passSize := 1, reserve := 2 ^ 40, todo := [] } : Merge))) }), grants_of (by decide +kernel), by decide +kernel⟩,
   ⟨3, (({ qp := 512, tag := 3, job := 1, layer := 0, first := 0, count := 1, phase := .ready, query := List.replicate 128 0 } : QBlock)), (((openMerge 3 0 1 true 0 [0] (List.replicate 128 0) none (with3 { { sess .ready with record := { (sess .ready).record with length := 10 } } with qblock := some ({ qp := 512, tag := 3, job := 1, layer := 0, first := 0, count := 1, phase := .ready, query := List.replicate 128 0 } : QBlock) } { part0 with jobs := [(1, { partition := 0, context := 1, cls := 0, kind := .decode, members := [3] })], parts := [(0, { holder := some 1 })] })).getD run0)), (with3 { { sess .ready with record := { (sess .ready).record with length := 10 } } with qblock := some ({ qp := 512, tag := 3, job := 1, layer := 0, first := 0, count := 1, phase := .ready, query := List.replicate 128 0 } : QBlock) } { part0 with jobs := [(1, { partition := 0, context := 1, cls := 0, kind := .decode, members := [3] })], parts := [(0, { holder := some 1 })] }), grants_of (by decide +kernel), by decide +kernel⟩⟩

theorem test_UnitsBecomePartials :
    (∃ (f : Nat) (tag : Nat) (m : Merge) (u : WorkUnit) (s : State), Live s ∧ s.mode ≠ .setup ∧ (fielderAt s f).emitter.length < 4 ∧ (fielderAt s f).slice = none ∧ s.survey.quiet.contains f = false ∧ nextUnit s f = some
      (tag, m, u) ∧ Tab.rising s.fielders = true ∧
      let q := m.positions.getD u.qoff 0
      (((unitTiles s m.index m.layer u.head u.block [q]).find? (fun a => !tileThere s a.1 a.2)) = none)) ∧
    (∃ (f : Nat) (tag : Nat) (m : Merge) (u : WorkUnit) (s : State) (a : Nat × Nat), Live s ∧ s.mode ≠ .setup ∧ (fielderAt s f).emitter.length < 4 ∧ (fielderAt s f).slice = none ∧ s.survey.quiet.contains f = false ∧ nextUnit s f = some
      (tag, m, u) ∧ Tab.rising s.fielders = true ∧ (fielderAt s f).waiting ≠ some a ∧
      let q := m.positions.getD u.qoff 0
      ((unitTiles s m.index m.layer u.head u.block [q]).find? (fun a => !tileThere s a.1 a.2) = some a)) :=
  ⟨⟨3, 1, (({ catcher := 2, index := 3, innings := 1, layer := 0, job := 1, prefill := false, first := 0, count := 1, blocks := [0], hg := 1, wb := 1, ws := 0, passSize := 1, reserve := 100, todo := [⟨3, 0, 0, 0⟩], query := List.replicate 128 0, positions := [0] } : Merge)), (⟨3, 0, 0, 0⟩), ({ with3 { sess .active with step := some { step0 with phase := .merging } } { part0 with jobs := [(1, { partition := 0, context := 1, cls := 0, kind := .decode, members := [3] })], parts := [(0, { holder := some 1 })] } with merges := [(1, ({ catcher := 2, index := 3, innings := 1, layer := 0, job := 1, prefill := false, first := 0, count := 1, blocks := [0], hg := 1, wb := 1, ws := 0, passSize := 1, reserve := 100, todo := [⟨3, 0, 0, 0⟩], query := List.replicate 128 0, positions := [0] } : Merge))], mergeTag := 1 }), live_of (by decide +kernel), by decide +kernel⟩,
   ⟨3, 1, (({ catcher := 2, index := 3, innings := 1, layer := 0, job := 1, prefill := false, first := 0, count := 1, blocks := [0], hg := 1, wb := 1, ws := 0, passSize := 1, reserve := 100, todo := [⟨3, 0, 0, 0⟩], query := List.replicate 128 0, positions := [0] } : Merge)), (⟨3, 0, 0, 0⟩), ({ with3 ({ { sess .active with step := some { step0 with phase := .merging } } with pages := [(0, { tier := 0, frame := 5 })] } : Session) { part0 with jobs := [(1, { partition := 0, context := 1, cls := 0, kind := .decode, members := [3] })], parts := [(0, { holder := some 1 })] } with merges := [(1, ({ catcher := 2, index := 3, innings := 1, layer := 0, job := 1, prefill := false, first := 0, count := 1, blocks := [0], hg := 1, wb := 1, ws := 0, passSize := 1, reserve := 100, todo := [⟨3, 0, 0, 0⟩], query := List.replicate 128 0, positions := [0] } : Merge))], mergeTag := 1, frames := [(5, { state := .filling, context := 1, refCount := 1, owner := 3 })] }), ((5, 0)), live_of (by decide +kernel), by decide +kernel⟩⟩

theorem test_PartialsJoinTheirMerge :
    (∃ (c : Nat) (p : Emitted) (rest : List Emitted) (s : State) (tag : Nat) (m : Merge), Live s ∧ (catcherAt s c).input = p :: rest ∧ m.closing = false ∧ m.innings % 65536 = p.innings ∧
      let u := pumpCatcher c 1088 (setCatcher c { input := rest } s)
      let found := u.merges.find? (fun e => e.2.index == p.index && e.2.catcher == c)
      found = some (tag, m) ∧
      let m' : Merge := { m with leaves := m.leaves ++ [(p.unit, p.value)] }
      mergeComplete s m' = false) ∧
    (∃ (c : Nat) (p : Emitted) (rest : List Emitted) (s : State) (tag : Nat) (m : Merge) (st : Step), Live s ∧ (catcherAt s c).input = p :: rest ∧ m.closing = false ∧ m.innings % 65536 = p.innings ∧ m.home = none ∧ m.prefill = false ∧ (sessAt s
      p.index).step = some st ∧
      let u := pumpCatcher c 1088 (setCatcher c { input := rest } s)
      let found := u.merges.find? (fun e => e.2.index == p.index && e.2.catcher == c)
      found = some (tag, m) ∧
      let m' : Merge := { m with leaves := m.leaves ++ [(p.unit, p.value)] }
      mergeComplete s m' = true) ∧
    (∃ (c : Nat) (p : Emitted) (rest : List Emitted) (s : State), Live s ∧ (catcherAt s c).input = p :: rest ∧
      let u := pumpCatcher c 1088 (setCatcher c { input := rest } s)
      let found := u.merges.find? (fun e => e.2.index == p.index && e.2.catcher == c)
      found = none) ∧
    (∃ (c : Nat) (p : Emitted) (rest : List Emitted) (s : State) (tag : Nat) (m : Merge), Live s ∧ (catcherAt s c).input = p :: rest ∧ (m.closing = true ∨ m.innings % 65536 ≠ p.innings) ∧
      let u := pumpCatcher c 1088 (setCatcher c { input := rest } s)
      let found := u.merges.find? (fun e => e.2.index == p.index && e.2.catcher == c)
      found = some (tag, m)) :=
  ⟨⟨2, (({ tag := 0, catcher := 2, index := 3, innings := 1, layer := 0, unit := ⟨3, 0, 0, 0⟩, value := { heads := [] } } : Emitted)), [], ({ with3 { sess .active with step := some { step0 with phase := .merging } } { part0 with jobs := [(1, { partition := 0, context := 1, cls := 0, kind := .decode, members := [3] })], parts := [(0, { holder := some 1 })] } with merges := [(1, ({ catcher := 2, index := 3, innings := 1, layer := 0, job := 1, prefill := false, first := 0, count := 1, blocks := [0, 1], hg := 1, wb := 1, ws := 0, passSize := 1, reserve := 100, todo := [⟨3, 0, 0, 0⟩], query := List.replicate 128 0, positions := [0] } : Merge))], mergeTag := 1, catchers := [(2, { input := [({ tag := 0, catcher := 2, index := 3, innings := 1, layer := 0, unit := ⟨3, 0, 0, 0⟩, value := { heads := [] } } : Emitted)] })] }), 1, (({ catcher := 2, index := 3, innings := 1, layer := 0, job := 1, prefill := false, first := 0, count := 1, blocks := [0, 1], hg := 1, wb := 1, ws := 0, passSize := 1, reserve := 100, todo := [⟨3, 0, 0, 0⟩], query := List.replicate 128 0, positions := [0] } : Merge)), live_of (by decide +kernel), by decide +kernel⟩,
   ⟨2, (({ tag := 0, catcher := 2, index := 3, innings := 1, layer := 0, unit := ⟨3, 0, 0, 0⟩, value := { heads := [] } } : Emitted)), [], ({ with3 { sess .active with step := some { step0 with phase := .merging } } { part0 with jobs := [(1, { partition := 0, context := 1, cls := 0, kind := .decode, members := [3] })], parts := [(0, { holder := some 1 })] } with merges := [(1, ({ catcher := 2, index := 3, innings := 1, layer := 0, job := 1, prefill := false, first := 0, count := 1, blocks := [0], hg := 1, wb := 1, ws := 0, passSize := 1, reserve := 100, todo := [], query := List.replicate 128 0, positions := [0] } : Merge))], mergeTag := 1, catchers := [(2, { input := [({ tag := 0, catcher := 2, index := 3, innings := 1, layer := 0, unit := ⟨3, 0, 0, 0⟩, value := { heads := [] } } : Emitted)] })] }), 1, (({ catcher := 2, index := 3, innings := 1, layer := 0, job := 1, prefill := false, first := 0, count := 1, blocks := [0], hg := 1, wb := 1, ws := 0, passSize := 1, reserve := 100, todo := [], query := List.replicate 128 0, positions := [0] } : Merge)), ({ step0 with phase := .merging }), live_of (by decide +kernel), by decide +kernel⟩,
   ⟨2, (({ tag := 0, catcher := 2, index := 3, innings := 1, layer := 0, unit := ⟨3, 0, 0, 0⟩, value := { heads := [] } } : Emitted)), [], ({ with3 { sess .active with step := some { step0 with phase := .merging } } { part0 with jobs := [(1, { partition := 0, context := 1, cls := 0, kind := .decode, members := [3] })], parts := [(0, { holder := some 1 })] } with catchers := [(2, { input := [({ tag := 0, catcher := 2, index := 3, innings := 1, layer := 0, unit := ⟨3, 0, 0, 0⟩, value := { heads := [] } } : Emitted)] })] }), live_of (by decide +kernel), by decide +kernel⟩,
   ⟨2, (({ tag := 0, catcher := 2, index := 3, innings := 1, layer := 0, unit := ⟨3, 0, 0, 0⟩, value := { heads := [] } } : Emitted)), [], ({ with3 { sess .active with step := some { step0 with phase := .merging } } { part0 with jobs := [(1, { partition := 0, context := 1, cls := 0, kind := .decode, members := [3] })], parts := [(0, { holder := some 1 })] } with merges := [(1, ({ ({ catcher := 2, index := 3, innings := 1, layer := 0, job := 1, prefill := false, first := 0, count := 1, blocks := [0], hg := 1, wb := 1, ws := 0, passSize := 1, reserve := 100, todo := [⟨3, 0, 0, 0⟩], query := List.replicate 128 0, positions := [0] } : Merge) with closing := true } : Merge))], mergeTag := 1, catchers := [(2, { input := [({ tag := 0, catcher := 2, index := 3, innings := 1, layer := 0, unit := ⟨3, 0, 0, 0⟩, value := { heads := [] } } : Emitted)] })] }), 1, (({ ({ catcher := 2, index := 3, innings := 1, layer := 0, job := 1, prefill := false, first := 0, count := 1, blocks := [0], hg := 1, wb := 1, ws := 0, passSize := 1, reserve := 100, todo := [⟨3, 0, 0, 0⟩], query := List.replicate 128 0, positions := [0] } : Merge) with closing := true } : Merge)), live_of (by decide +kernel), by decide +kernel⟩⟩

theorem test_WithdrawnMergesClose :
    (∃ (tag : Nat) (f : Nat) (m : Merge) (s : State), Live s ∧ Tab.find s.merges tag = some m ∧ m.closing = true ∧ m.awaiting.contains f = true ∧ partialWaits s m f = false ∧ m.awaiting.erase f = []) ∧
    (∃ (tag : Nat) (f : Nat) (m : Merge) (s : State), Live s ∧ Tab.find s.merges tag = some m ∧ m.closing = true ∧ m.awaiting.contains f = true ∧ partialWaits s m f = false ∧ m.awaiting.erase f ≠ []) ∧
    (∃ (tag : Nat) (f : Nat) (m : Merge) (s : State), Live s ∧ Tab.find s.merges tag = some m ∧ m.closing = false) :=
  ⟨⟨1, 5, (({ ({ catcher := 2, index := 3, innings := 1, layer := 0, job := 1, prefill := false, first := 0, count := 1, blocks := [0], hg := 1, wb := 1, ws := 0, passSize := 1, reserve := 100, todo := [⟨3, 0, 0, 0⟩], query := List.replicate 128 0, positions := [0] } : Merge) with closing := true, awaiting := [5] } : Merge)), ({ with3 { sess .active with step := some { step0 with phase := .merging } } { part0 with jobs := [(1, { partition := 0, context := 1, cls := 0, kind := .decode, members := [3] })], parts := [(0, { holder := some 1 })] } with merges := [(1, ({ ({ catcher := 2, index := 3, innings := 1, layer := 0, job := 1, prefill := false, first := 0, count := 1, blocks := [0], hg := 1, wb := 1, ws := 0, passSize := 1, reserve := 100, todo := [⟨3, 0, 0, 0⟩], query := List.replicate 128 0, positions := [0] } : Merge) with closing := true, awaiting := [5] } : Merge))], mergeTag := 1, catchers := [(2, { input := [({ tag := 0, catcher := 2, index := 3, innings := 1, layer := 0, unit := ⟨3, 0, 0, 0⟩, value := { heads := [] } } : Emitted)] })] }), live_of (by decide +kernel), by decide +kernel⟩,
   ⟨1, 5, (({ ({ catcher := 2, index := 3, innings := 1, layer := 0, job := 1, prefill := false, first := 0, count := 1, blocks := [0], hg := 1, wb := 1, ws := 0, passSize := 1, reserve := 100, todo := [⟨3, 0, 0, 0⟩], query := List.replicate 128 0, positions := [0] } : Merge) with closing := true, awaiting := [4, 5] } : Merge)), ({ with3 { sess .active with step := some { step0 with phase := .merging } } { part0 with jobs := [(1, { partition := 0, context := 1, cls := 0, kind := .decode, members := [3] })], parts := [(0, { holder := some 1 })] } with merges := [(1, ({ ({ catcher := 2, index := 3, innings := 1, layer := 0, job := 1, prefill := false, first := 0, count := 1, blocks := [0], hg := 1, wb := 1, ws := 0, passSize := 1, reserve := 100, todo := [⟨3, 0, 0, 0⟩], query := List.replicate 128 0, positions := [0] } : Merge) with closing := true, awaiting := [4, 5] } : Merge))], mergeTag := 1, catchers := [(2, { input := [({ tag := 0, catcher := 2, index := 3, innings := 1, layer := 0, unit := ⟨3, 0, 0, 0⟩, value := { heads := [] } } : Emitted)] })] }), live_of (by decide +kernel), by decide +kernel⟩,
   ⟨1, 5, (({ catcher := 2, index := 3, innings := 1, layer := 0, job := 1, prefill := false, first := 0, count := 1, blocks := [0], hg := 1, wb := 1, ws := 0, passSize := 1, reserve := 100, todo := [⟨3, 0, 0, 0⟩], query := List.replicate 128 0, positions := [0] } : Merge)), ({ with3 { sess .active with step := some { step0 with phase := .merging } } { part0 with jobs := [(1, { partition := 0, context := 1, cls := 0, kind := .decode, members := [3] })], parts := [(0, { holder := some 1 })] } with merges := [(1, ({ catcher := 2, index := 3, innings := 1, layer := 0, job := 1, prefill := false, first := 0, count := 1, blocks := [0], hg := 1, wb := 1, ws := 0, passSize := 1, reserve := 100, todo := [⟨3, 0, 0, 0⟩], query := List.replicate 128 0, positions := [0] } : Merge))], mergeTag := 1, catchers := [(2, { input := [({ tag := 0, catcher := 2, index := 3, innings := 1, layer := 0, unit := ⟨3, 0, 0, 0⟩, value := { heads := [] } } : Emitted)] })] }), live_of (by decide +kernel), by decide +kernel⟩⟩

theorem test_OutputsAreReleased :
    (∃ (i : Nat) (st : Step) (s : State), Grants s ∧ (sessAt s i).step = some st ∧ st.phase = .formed ∧ mirrorHeld s i st.mirrorAt = false ∧ qpReady s st.outQp = true ∧ qpReady s st.qp = true ∧
      let x := sessAt s i
      x.entry.cancelPending = false ∧ st.layer + 1 < (modelOf s x).layers) ∧
    (∃ (i : Nat) (st : Step) (s : State), Grants s ∧ (sessAt s i).step = some st ∧ st.phase = .formed ∧ mirrorHeld s i st.mirrorAt = false ∧ qpReady s st.outQp = true ∧ qpReady s st.qp = true
      ∧ st.masked = true ∧
      let x := sessAt s i
      x.entry.cancelPending = false ∧ (modelOf s x).layers ≤ st.layer + 1) ∧
    (∃ (i : Nat) (st : Step) (s : State), Grants s ∧ (sessAt s i).step = some st ∧ st.phase = .formed ∧ mirrorHeld s i st.mirrorAt = true ∧ st.mirrorWaited = false) ∧
    (∃ (i : Nat) (b : QBlock) (s : State), Grants s ∧ (sessAt s i).step = none ∧ (sessAt s i).qblock = some b ∧ b.phase = .formed ∧ (sessAt s i).qwait = [] ∧ qpReady s b.qp = true) :=
  ⟨⟨3, (({ step0 with phase := .formed, masked := true, output := [1, 2] } : Step)), (with3 { sess .active with step := some ({ step0 with phase := .formed, masked := true, output := [1, 2] } : Step) } { part0 with jobs := [(1, { partition := 0, context := 1, cls := 0, kind := .decode, members := [3] })], parts := [(0, { holder := some 1 })], models := [(0, { layers := 2, kvHeads := 1, group := 1, entries := List.replicate 256 {}, tag := 9 })] }), grants_of (by decide +kernel), by decide +kernel⟩,
   ⟨3, (({ step0 with phase := .formed, masked := true, output := [1, 2] } : Step)), (with3 { sess .active with step := some ({ step0 with phase := .formed, masked := true, output := [1, 2] } : Step) } { part0 with jobs := [(1, { partition := 0, context := 1, cls := 0, kind := .decode, members := [3] })], parts := [(0, { holder := some 1 })] }), grants_of (by decide +kernel), by decide +kernel⟩,
   ⟨3, (({ step0 with phase := .formed, masked := true, output := [1, 2], mirrorAt := 5 } : Step)), (with3 { sess .active with step := some ({ step0 with phase := .formed, masked := true, output := [1, 2], mirrorAt := 5 } : Step), entry := { (sess .active).entry with mirrored := true } } { { part0 with jobs := [(1, { partition := 0, context := 1, cls := 0, kind := .decode, members := [3] })], parts := [(0, { holder := some 1 })] } with dict.run := [(0x208006, 1), (0x300001, 1), (0x301006, 1)], pair := { state := .paired } }), grants_of (by decide +kernel), by decide +kernel⟩,
   ⟨3, ({ qp := 512, tag := 3, job := 1, layer := 0, first := 0, count := 1, phase := .formed, output := [4] }), (with3 { sess .ready with qblock := some { qp := 512, tag := 3, job := 1, layer := 0, first := 0, count := 1, phase := .formed, output := [4] } } { part0 with jobs := [(1, { partition := 0, context := 1, cls := 0, kind := .decode, members := [3] })], parts := [(0, { holder := some 1 })] }), grants_of (by decide +kernel), by decide +kernel⟩⟩

theorem test_SessionsAreAdmitted :
    (∃ (m : Msg) (s : State) (i : Nat) (u : State) (v : State), Serves .bound m s ∧ s.mode = .run ∧ 4 ≤ m.ops.length ∧ m.ops.length ≤ 5 ∧ opNat m 3 ≤ 1 ∧ allocIndex s = some i ∧
      let p := opNat m 0
      let c := opNat m 1
      let slot := opNat m 2
      let budget := if opWord m 4 = allOnes then 0 else opNat m 4
      contextHeld s c = false ∧ slotHeld s slot = false ∧ admissionHeld s p = false ∧ admitCheck s m.qp p c slot = .ok ∧
      let r : Record := { context := c, cls := opNat m 3, modelSlot := slot, innings := 1 }
      (admission p (opNat m 3) (stepBytes (Tab.get s.models slot {}) budget) (fun u => allocRoot i (occupy i p .ready r u)) (takeMsg m s) = (some u, v))) ∧
    (∃ (m : Msg) (s : State) (i : Nat) (v : State), Serves .bound m s ∧ s.mode = .run ∧ 4 ≤ m.ops.length ∧ m.ops.length ≤ 5 ∧ opNat m 3 ≤ 1 ∧ allocIndex s = some i ∧
      let p := opNat m 0
      let c := opNat m 1
      let slot := opNat m 2
      let budget := if opWord m 4 = allOnes then 0 else opNat m 4
      contextHeld s c = false ∧ slotHeld s slot = false ∧ admissionHeld s p = false ∧ admitCheck s m.qp p c slot = .ok ∧
      let r : Record := { context := c, cls := opNat m 3, modelSlot := slot, innings := 1 }
      (admission p (opNat m 3) (stepBytes (Tab.get s.models slot {}) budget) (fun u => allocRoot i (occupy i p .ready r u)) (takeMsg m s) = (none, v))) ∧
    (∃ (m : Msg) (s : State), Serves .bound m s ∧ s.mode = .run ∧ 4 ≤ m.ops.length ∧ m.ops.length ≤ 5 ∧ opNat m 3 ≤ 1 ∧
      let p := opNat m 0
      let c := opNat m 1
      let slot := opNat m 2
      contextHeld s c = false ∧ slotHeld s slot = false ∧ admissionHeld s p = false ∧ admitCheck s m.qp p c slot ≠ .ok) ∧
    (∃ (m : Msg) (j : RingJoin) (s : State) (i : Nat) (u : State) (v : State), Serves .peer m s ∧ s.mode = .run ∧ m.ops.length ≤ 255 ∧ j.cls ≤ 1 ∧ joinCheck s j = .ok ∧ allocIndex s = some i ∧ (∀ k, ringResolve s m.qp j.parent =
      some k → k ≠ i) ∧
      let p := handlePartition j.home
      let r : Record :=
        { context := j.context, cls := j.cls, modelSlot := j.modelSlot, innings := 1, length := j.prefixLen, prefixLen := j.prefixLen }
      (admission p j.cls (stepBytes (Tab.get s.models j.modelSlot {}) j.prefixLen) (fun u => (allocRoot i (occupy i p .ready r u)).bind (joinFork i m.qp j))
      (takeMsg m s) = (some u, v))) ∧
    (∃ (m : Msg) (j : RingJoin) (s : State), Serves .peer m s ∧ s.mode = .run ∧ m.ops.length ≤ 255 ∧ j.cls ≤ 1 ∧ joinCheck s j ≠ .ok) :=
  ⟨⟨(tmsg 512 [0, 1, 0, 0]), part0, (((allocIndex part0).getD 0)), (((admission 0 0 (stepBytes (Tab.get (part0).models 0 {}) 0) (fun u => allocRoot ((allocIndex part0).getD 0) (occupy ((allocIndex part0).getD 0) 0 .ready { context := 1, cls := 0, modelSlot := 0, innings := 1 } u)) (takeMsg (tmsg 512 [0, 1, 0, 0]) (part0))).1).getD run0), ((admission 0 0 (stepBytes (Tab.get (part0).models 0 {}) 0) (fun u => allocRoot ((allocIndex part0).getD 0) (occupy ((allocIndex part0).getD 0) 0 .ready { context := 1, cls := 0, modelSlot := 0, innings := 1 } u)) (takeMsg (tmsg 512 [0, 1, 0, 0]) (part0))).2), serves_of (by decide +kernel), by decide +kernel⟩,
   ⟨(tmsg 512 [0, 1, 0, 0]), ({ part0 with dict.vals := [(0x301807, 61035)] }), (((allocIndex part0).getD 0)), ((admission 0 0 (stepBytes (Tab.get ({ part0 with dict.vals := [(0x301807, 61035)] }).models 0 {}) 0) (fun u => allocRoot ((allocIndex part0).getD 0) (occupy ((allocIndex part0).getD 0) 0 .ready { context := 1, cls := 0, modelSlot := 0, innings := 1 } u)) (takeMsg (tmsg 512 [0, 1, 0, 0]) ({ part0 with dict.vals := [(0x301807, 61035)] }))).2), serves_of (by decide +kernel), by decide +kernel⟩,
   ⟨(tmsg 512 [0, 1, 1, 0]), part0, serves_of (by decide +kernel), by decide +kernel⟩,
   ⟨(tmsg 258 []), ({ home := handleOf 0 5 9, context := 1, modelSlot := 0, cls := 0 }), ({ part0 with dict.run := [(0x300001, 1), (0x301001, 1)], qps := [(258, { state := .ready, kind := 3 })] }), (((allocIndex part0).getD 0)), (((admission 0 0 (stepBytes (Tab.get ({ part0 with dict.run := [(0x300001, 1), (0x301001, 1)], qps := [(258, { state := .ready, kind := 3 })] }).models 0 {}) 0) (fun u => allocRoot ((allocIndex part0).getD 0) (occupy ((allocIndex part0).getD 0) 0 .ready { context := 1, cls := 0, modelSlot := 0, innings := 1 } u)) (takeMsg (tmsg 258 []) ({ part0 with dict.run := [(0x300001, 1), (0x301001, 1)], qps := [(258, { state := .ready, kind := 3 })] }))).1).getD run0), ((admission 0 0 (stepBytes (Tab.get ({ part0 with dict.run := [(0x300001, 1), (0x301001, 1)], qps := [(258, { state := .ready, kind := 3 })] }).models 0 {}) 0) (fun u => allocRoot ((allocIndex part0).getD 0) (occupy ((allocIndex part0).getD 0) 0 .ready { context := 1, cls := 0, modelSlot := 0, innings := 1 } u)) (takeMsg (tmsg 258 []) ({ part0 with dict.run := [(0x300001, 1), (0x301001, 1)], qps := [(258, { state := .ready, kind := 3 })] }))).2), serves_of (by decide +kernel), by decide +kernel⟩,
   ⟨(tmsg 258 []), ({ home := handleOf 1 5 9, context := 1, modelSlot := 0, cls := 0 }), ({ part0 with dict.run := [(0x300001, 1), (0x301001, 1)], qps := [(258, { state := .ready, kind := 3 })] }), serves_of (by decide +kernel), by decide +kernel⟩⟩

theorem test_ForksShareThePrefix :
    (∃ (m : Msg) (i : Nat) (s : State) (c : Nat) (u : State) (v : State) (w : State) (z : State), Reaches false m i s ∧ m.ops.length = 2 ∧ opNat m 1 ≤ 1 ∧ allocIndex s = some c ∧ c ≠ i ∧ copySegments c i w = some z ∧
      let x := sessAt s i
      let p := x.entry.partition
      let len := if opNat m 0 = 0 then x.record.length else opNat m 0
      let keys := prefixKeys s i len
      admissionHeld s p = false ∧ (x.entry.state = .ready ∨ x.entry.state = .waiting) ∧ opNat m 0 ≤ x.record.length ∧ nonFree s p < maxSessionsVal s p ∧ (∀
      k ∈ keys, (frameAt s (pageAt x k).frame).refCount < 65535) ∧
      let r : Record :=
        { context := x.record.context, cls := opNat m 1, modelSlot := x.record.modelSlot, innings := 1, parent := x.record.handle, length := len
          prefixLen := len, grammar := x.record.grammar, tokenCarry := x.record.tokenCarry, seqLists := x.record.seqLists }
      (admission p (opNat m 1) (stepBytes (modelOf s x) len) (fun u => allocRoot c (occupy c p .ready r u)) (taken m s) = (some u, v)) ∧ sharePages c x keys
      u = some w) ∧
    (∃ (m : Msg) (i : Nat) (s : State), Reaches false m i s ∧ m.ops.length = 2 ∧ opNat m 1 ≤ 1 ∧
      let x := sessAt s i
      let p := x.entry.partition
      admissionHeld s p = false ∧ (x.entry.state = .ready ∨ x.entry.state = .waiting) ∧ x.record.length < opNat m 0) ∧
    (∃ (m : Msg) (i : Nat) (s : State), Reaches false m i s ∧ m.ops.length = 2 ∧ opNat m 1 ≤ 1 ∧
      let x := sessAt s i
      let p := x.entry.partition
      admissionHeld s p = false ∧ x.entry.state ≠ .ready ∧ x.entry.state ≠ .waiting) :=
  ⟨⟨(tmsg 512 [40, 0] h3), 3, ({ with3 { sess .ready with record := { (sess .ready).record with length := 40 }, pages := [(0, { tier := 0, frame := 5 }), (5, { tier := 0, frame := 6 })] } part0 with frames := [(5, { state := .kv, context := 1, refCount := 1, owner := 3 }), (6, { state := .kv, context := 1, refCount := 1, owner := 3 })] }), (((allocIndex ({ with3 { sess .ready with record := { (sess .ready).record with length := 40 }, pages := [(0, { tier := 0, frame := 5 }), (5, { tier := 0, frame := 6 })] } part0 with frames := [(5, { state := .kv, context := 1, refCount := 1, owner := 3 }), (6, { state := .kv, context := 1, refCount := 1, owner := 3 })] })).getD 0)), ((((admission 0 0 (stepBytes (modelOf ({ with3 { sess .ready with record := { (sess .ready).record with length := 40 }, pages := [(0, { tier := 0, frame := 5 }), (5, { tier := 0, frame := 6 })] } part0 with frames := [(5, { state := .kv, context := 1, refCount := 1, owner := 3 }), (6, { state := .kv, context := 1, refCount := 1, owner := 3 })] }) (sess .ready)) 40) (fun u => allocRoot ((allocIndex ({ with3 { sess .ready with record := { (sess .ready).record with length := 40 }, pages := [(0, { tier := 0, frame := 5 }), (5, { tier := 0, frame := 6 })] } part0 with frames := [(5, { state := .kv, context := 1, refCount := 1, owner := 3 }), (6, { state := .kv, context := 1, refCount := 1, owner := 3 })] })).getD 0) (occupy ((allocIndex ({ with3 { sess .ready with record := { (sess .ready).record with length := 40 }, pages := [(0, { tier := 0, frame := 5 }), (5, { tier := 0, frame := 6 })] } part0 with frames := [(5, { state := .kv, context := 1, refCount := 1, owner := 3 }), (6, { state := .kv, context := 1, refCount := 1, owner := 3 })] })).getD 0) 0 .ready { context := 1, cls := 0, modelSlot := 0, innings := 1, parent := h3, length := 40, prefixLen := 40 } u)) (taken (tmsg 512 [40, 0] h3) ({ with3 { sess .ready with record := { (sess .ready).record with length := 40 }, pages := [(0, { tier := 0, frame := 5 }), (5, { tier := 0, frame := 6 })] } part0 with frames := [(5, { state := .kv, context := 1, refCount := 1, owner := 3 }), (6, { state := .kv, context := 1, refCount := 1, owner := 3 })] })))).1.getD run0)), (((admission 0 0 (stepBytes (modelOf ({ with3 { sess .ready with record := { (sess .ready).record with length := 40 }, pages := [(0, { tier := 0, frame := 5 }), (5, { tier := 0, frame := 6 })] } part0 with frames := [(5, { state := .kv, context := 1, refCount := 1, owner := 3 }), (6, { state := .kv, context := 1, refCount := 1, owner := 3 })] }) (sess .ready)) 40) (fun u => allocRoot ((allocIndex ({ with3 { sess .ready with record := { (sess .ready).record with length := 40 }, pages := [(0, { tier := 0, frame := 5 }), (5, { tier := 0, frame := 6 })] } part0 with frames := [(5, { state := .kv, context := 1, refCount := 1, owner := 3 }), (6, { state := .kv, context := 1, refCount := 1, owner := 3 })] })).getD 0) (occupy ((allocIndex ({ with3 { sess .ready with record := { (sess .ready).record with length := 40 }, pages := [(0, { tier := 0, frame := 5 }), (5, { tier := 0, frame := 6 })] } part0 with frames := [(5, { state := .kv, context := 1, refCount := 1, owner := 3 }), (6, { state := .kv, context := 1, refCount := 1, owner := 3 })] })).getD 0) 0 .ready { context := 1, cls := 0, modelSlot := 0, innings := 1, parent := h3, length := 40, prefixLen := 40 } u)) (taken (tmsg 512 [40, 0] h3) ({ with3 { sess .ready with record := { (sess .ready).record with length := 40 }, pages := [(0, { tier := 0, frame := 5 }), (5, { tier := 0, frame := 6 })] } part0 with frames := [(5, { state := .kv, context := 1, refCount := 1, owner := 3 }), (6, { state := .kv, context := 1, refCount := 1, owner := 3 })] })))).2), (((sharePages ((allocIndex ({ with3 { sess .ready with record := { (sess .ready).record with length := 40 }, pages := [(0, { tier := 0, frame := 5 }), (5, { tier := 0, frame := 6 })] } part0 with frames := [(5, { state := .kv, context := 1, refCount := 1, owner := 3 }), (6, { state := .kv, context := 1, refCount := 1, owner := 3 })] })).getD 0) { sess .ready with record := { (sess .ready).record with length := 40 }, pages := [(0, { tier := 0, frame := 5 }), (5, { tier := 0, frame := 6 })] } (prefixKeys ({ with3 { sess .ready with record := { (sess .ready).record with length := 40 }, pages := [(0, { tier := 0, frame := 5 }), (5, { tier := 0, frame := 6 })] } part0 with frames := [(5, { state := .kv, context := 1, refCount := 1, owner := 3 }), (6, { state := .kv, context := 1, refCount := 1, owner := 3 })] }) 3 40) (((admission 0 0 (stepBytes (modelOf ({ with3 { sess .ready with record := { (sess .ready).record with length := 40 }, pages := [(0, { tier := 0, frame := 5 }), (5, { tier := 0, frame := 6 })] } part0 with frames := [(5, { state := .kv, context := 1, refCount := 1, owner := 3 }), (6, { state := .kv, context := 1, refCount := 1, owner := 3 })] }) (sess .ready)) 40) (fun u => allocRoot ((allocIndex ({ with3 { sess .ready with record := { (sess .ready).record with length := 40 }, pages := [(0, { tier := 0, frame := 5 }), (5, { tier := 0, frame := 6 })] } part0 with frames := [(5, { state := .kv, context := 1, refCount := 1, owner := 3 }), (6, { state := .kv, context := 1, refCount := 1, owner := 3 })] })).getD 0) (occupy ((allocIndex ({ with3 { sess .ready with record := { (sess .ready).record with length := 40 }, pages := [(0, { tier := 0, frame := 5 }), (5, { tier := 0, frame := 6 })] } part0 with frames := [(5, { state := .kv, context := 1, refCount := 1, owner := 3 }), (6, { state := .kv, context := 1, refCount := 1, owner := 3 })] })).getD 0) 0 .ready { context := 1, cls := 0, modelSlot := 0, innings := 1, parent := h3, length := 40, prefixLen := 40 } u)) (taken (tmsg 512 [40, 0] h3) ({ with3 { sess .ready with record := { (sess .ready).record with length := 40 }, pages := [(0, { tier := 0, frame := 5 }), (5, { tier := 0, frame := 6 })] } part0 with frames := [(5, { state := .kv, context := 1, refCount := 1, owner := 3 }), (6, { state := .kv, context := 1, refCount := 1, owner := 3 })] })))).1.getD run0)).getD run0)), (((copySegments ((allocIndex ({ with3 { sess .ready with record := { (sess .ready).record with length := 40 }, pages := [(0, { tier := 0, frame := 5 }), (5, { tier := 0, frame := 6 })] } part0 with frames := [(5, { state := .kv, context := 1, refCount := 1, owner := 3 }), (6, { state := .kv, context := 1, refCount := 1, owner := 3 })] })).getD 0) 3 ((sharePages ((allocIndex ({ with3 { sess .ready with record := { (sess .ready).record with length := 40 }, pages := [(0, { tier := 0, frame := 5 }), (5, { tier := 0, frame := 6 })] } part0 with frames := [(5, { state := .kv, context := 1, refCount := 1, owner := 3 }), (6, { state := .kv, context := 1, refCount := 1, owner := 3 })] })).getD 0) { sess .ready with record := { (sess .ready).record with length := 40 }, pages := [(0, { tier := 0, frame := 5 }), (5, { tier := 0, frame := 6 })] } (prefixKeys ({ with3 { sess .ready with record := { (sess .ready).record with length := 40 }, pages := [(0, { tier := 0, frame := 5 }), (5, { tier := 0, frame := 6 })] } part0 with frames := [(5, { state := .kv, context := 1, refCount := 1, owner := 3 }), (6, { state := .kv, context := 1, refCount := 1, owner := 3 })] }) 3 40) (((admission 0 0 (stepBytes (modelOf ({ with3 { sess .ready with record := { (sess .ready).record with length := 40 }, pages := [(0, { tier := 0, frame := 5 }), (5, { tier := 0, frame := 6 })] } part0 with frames := [(5, { state := .kv, context := 1, refCount := 1, owner := 3 }), (6, { state := .kv, context := 1, refCount := 1, owner := 3 })] }) (sess .ready)) 40) (fun u => allocRoot ((allocIndex ({ with3 { sess .ready with record := { (sess .ready).record with length := 40 }, pages := [(0, { tier := 0, frame := 5 }), (5, { tier := 0, frame := 6 })] } part0 with frames := [(5, { state := .kv, context := 1, refCount := 1, owner := 3 }), (6, { state := .kv, context := 1, refCount := 1, owner := 3 })] })).getD 0) (occupy ((allocIndex ({ with3 { sess .ready with record := { (sess .ready).record with length := 40 }, pages := [(0, { tier := 0, frame := 5 }), (5, { tier := 0, frame := 6 })] } part0 with frames := [(5, { state := .kv, context := 1, refCount := 1, owner := 3 }), (6, { state := .kv, context := 1, refCount := 1, owner := 3 })] })).getD 0) 0 .ready { context := 1, cls := 0, modelSlot := 0, innings := 1, parent := h3, length := 40, prefixLen := 40 } u)) (taken (tmsg 512 [40, 0] h3) ({ with3 { sess .ready with record := { (sess .ready).record with length := 40 }, pages := [(0, { tier := 0, frame := 5 }), (5, { tier := 0, frame := 6 })] } part0 with frames := [(5, { state := .kv, context := 1, refCount := 1, owner := 3 }), (6, { state := .kv, context := 1, refCount := 1, owner := 3 })] })))).1.getD run0)).getD run0)).getD run0)), reaches_of (by decide +kernel), by decide +kernel⟩,
   ⟨(tmsg 512 [41, 0] h3), 3, ({ with3 { sess .ready with record := { (sess .ready).record with length := 40 }, pages := [(0, { tier := 0, frame := 5 }), (5, { tier := 0, frame := 6 })] } part0 with frames := [(5, { state := .kv, context := 1, refCount := 1, owner := 3 }), (6, { state := .kv, context := 1, refCount := 1, owner := 3 })] }), reaches_of (by decide +kernel), by decide +kernel⟩,
   ⟨(tmsg 512 [1, 0] h3), 3, (with3 (sess .parked) part0), reaches_of (by decide +kernel), by decide +kernel⟩⟩

theorem test_IndexesAreMadeAndDropped :
    (∃ (m : Msg) (s : State) (fc : List Nat) (fd : List Nat) (fm : List Nat) (u1 : State) (u2 : State) (u3 : State), Serves .bound m s ∧ s.mode = .run ∧ m.ops.length = 4 ∧ m.opcode = 0x0401 ∧ indexOf m ≤ 15 ∧ compassBlocked s (indexOf m) false s.searchWaits = false ∧
      let x := indexOf m
      let c := (qpAt s m.qp).context
      let p := (ctxAt s c).partition
      let (b, n, k) := (opNat m 1, opNat m 2, opNat m 3)
      let shape := 128 ≤ b ∧ b ≤ 4096 ∧ b % 128 = 0 ∧ n ≠ 0 ∧ n ≤ 65536 ∧ k ≠ 0 ∧ k ≤ 1024 ∧ partFielders s p ≠ []
      let v : VIndex :=
        { context := c, partition := p, units := b / 128, centroids := n, maps := k, centroidFrames := [], dirFrames := [], mapFrames := [] }
      (ctxAt s c).mode ≠ .none ∧ (ctxAt s c).tornDown = false ∧ Tab.find s.indexes x = none ∧ shape ∧ allocIndexFrames x c p 0 (ceilDiv n (codesPerFrame v))
      (takeMsg m s) = some (fc, u1) ∧ allocIndexFrames x c p 0 (ceilDiv n 4096) u1 = some (fd, u2) ∧ allocIndexFrames x c p 0 k u2 = some (fm, u3)) ∧
    (∃ (m : Msg) (s : State), Serves .bound m s ∧ s.mode = .run ∧ m.ops.length = 4 ∧ m.opcode = 0x0401 ∧ indexOf m ≤ 15 ∧ compassBlocked s (indexOf m) false s.searchWaits = false ∧
      let x := indexOf m
      let c := (qpAt s m.qp).context
      let p := (ctxAt s c).partition
      let (b, n, k) := (opNat m 1, opNat m 2, opNat m 3)
      let shape := 128 ≤ b ∧ b ≤ 4096 ∧ b % 128 = 0 ∧ n ≠ 0 ∧ n ≤ 65536 ∧ k ≠ 0 ∧ k ≤ 1024 ∧ partFielders s p ≠ []
      (ctxAt s c).mode ≠ .none ∧ (ctxAt s c).tornDown = false ∧ Tab.find s.indexes x = none ∧ ¬ shape) ∧
    (∃ (m : Msg) (v : VIndex) (s : State) (l : List (List Byte)), Serves .bound m s ∧ s.mode = .run ∧ compassBlocked s (indexOf m) false s.searchWaits = false ∧ Tab.find s.indexes (indexOf m) = some v ∧ v.context =
      (qpAt s m.qp).context ∧ v.faulted = false ∧ (ctxAt s (qpAt s m.qp).context).tornDown = false ∧ m.opcode = 0x0402 ∧ m.ops.length = 2 ∧ badCount 512
      m.body = false ∧ listItems (codeBytes v) m.body = some l ∧ opNat m 1 + l.length ≤ v.centroids ∧ recordsHeld s v = false) ∧
    (∃ (m : Msg) (v : VIndex) (s : State) (l : List (List Byte)), Serves .bound m s ∧ s.mode = .run ∧ compassBlocked s (indexOf m) false s.searchWaits = false ∧ Tab.find s.indexes (indexOf m) = some v ∧ v.context =
      (qpAt s m.qp).context ∧ v.faulted = false ∧ (ctxAt s (qpAt s m.qp).context).tornDown = false ∧ m.opcode = 0x0402 ∧ m.ops.length = 2 ∧ badCount 512
      m.body = false ∧ listItems (codeBytes v) m.body = some l ∧ opNat m 1 + l.length ≤ v.centroids ∧ recordsHeld s v = true) ∧
    (∃ (m : Msg) (v : VIndex) (s : State), Serves .bound m s ∧ s.mode = .run ∧ compassBlocked s (indexOf m) false s.searchWaits = false ∧ Tab.find s.indexes (indexOf m) = some v ∧ v.context =
      (qpAt s m.qp).context ∧ v.faulted = false ∧ (ctxAt s (qpAt s m.qp).context).tornDown = false ∧ m.ops.length = 1 ∧ m.opcode = 0x0406) ∧
    (∃ (m : Msg) (v : VIndex) (s : State), Serves .bound m s ∧ s.mode = .run ∧ compassBlocked s (indexOf m) false s.searchWaits = false ∧ Tab.find s.indexes (indexOf m) = some v ∧ v.context =
      (qpAt s m.qp).context ∧ v.faulted = false ∧ (ctxAt s (qpAt s m.qp).context).tornDown = false ∧ m.ops.length = 1 ∧ m.opcode = 0x0407 ∧ v.pool = false) ∧
    (∃ (m : Msg) (v : VIndex) (s : State), Serves .bound m s ∧ s.mode = .run ∧ compassBlocked s (indexOf m) false s.searchWaits = false ∧ Tab.find s.indexes (indexOf m) = some v ∧ v.context =
      (qpAt s m.qp).context ∧ v.faulted = false ∧ (ctxAt s (qpAt s m.qp).context).tornDown = false ∧ m.ops.length = 1 ∧ m.opcode = 0x0407 ∧ v.pool = true) ∧
    (∃ (m : Msg) (v : VIndex) (s : State), Serves .bound m s ∧ s.mode = .run ∧ compassBlocked s (indexOf m) false s.searchWaits = false ∧ Tab.find s.indexes (indexOf m) = some v ∧ v.context =
      (qpAt s m.qp).context ∧ v.faulted = false ∧ (ctxAt s (qpAt s m.qp).context).tornDown = false ∧ m.ops.length = 1 ∧ m.opcode = 0x040B) ∧
    (∃ (m : Msg) (v : VIndex) (s : State), Serves .bound m s ∧ s.mode = .run ∧ compassBlocked s (indexOf m) false s.searchWaits = false ∧ Tab.find s.indexes (indexOf m) = some v ∧ v.context =
      (qpAt s m.qp).context ∧ v.faulted = false ∧ (ctxAt s (qpAt s m.qp).context).tornDown = false ∧ m.ops.length = 1) ∧
    (∃ (m : Msg) (v : VIndex) (s : State) (w : VIndex) (u : State), Serves .bound m s ∧ s.mode = .run ∧ compassBlocked s (indexOf m) false s.searchWaits = false ∧ Tab.find s.indexes (indexOf m) = some v ∧ v.context =
      (qpAt s m.qp).context ∧ v.faulted = false ∧ (ctxAt s (qpAt s m.qp).context).tornDown = false ∧ m.opcode = 0x0405 ∧ m.ops.length = 2 ∧ opNat m 1 <
      v.centroids ∧ opNat m 1 ≠ 0xFFFFFFFF ∧ v.sealed = false ∧
      let x := indexOf m
      compactList x (opNat m 1) v (takeMsg m s) = some (w, u)) ∧
    (∃ (m : Msg) (v : VIndex) (s : State) (w : VIndex) (u : State), Serves .bound m s ∧ s.mode = .run ∧ compassBlocked s (indexOf m) false s.searchWaits = false ∧ Tab.find s.indexes (indexOf m) = some v ∧ v.context =
      (qpAt s m.qp).context ∧ v.faulted = false ∧ (ctxAt s (qpAt s m.qp).context).tornDown = false ∧ m.opcode = 0x0405 ∧ m.ops.length = 2 ∧ opNat m 1 <
      v.centroids ∧ opNat m 1 ≠ 0xFFFFFFFF ∧ v.sealed = false ∧
      let x := indexOf m
      compactList x (opNat m 1) v (takeMsg m s) = some (w, u)) ∧
    (∃ (m : Msg) (v : VIndex) (s : State), Serves .bound m s ∧ s.mode = .run ∧ compassBlocked s (indexOf m) false s.searchWaits = false ∧ Tab.find s.indexes (indexOf m) = some v ∧ v.context =
      (qpAt s m.qp).context ∧ v.faulted = false ∧ (ctxAt s (qpAt s m.qp).context).tornDown = false ∧ m.opcode = 0x0405 ∧ m.ops.length = 2 ∧ opNat m 1 <
      v.centroids ∧ opNat m 1 ≠ 0xFFFFFFFF ∧ v.sealed = true) ∧
    (∃ (m : Msg) (v : VIndex) (s : State), Serves .bound m s ∧ s.mode = .run ∧ compassBlocked s (indexOf m) false s.searchWaits = false ∧ Tab.find s.indexes (indexOf m) = some v ∧ v.context =
      (qpAt s m.qp).context ∧ v.faulted = false ∧ (ctxAt s (qpAt s m.qp).context).tornDown = false ∧ m.opcode = 0x0408 ∧ m.ops.length = 2 ∧ (opNat m 1 = 0 ∨
      opNat m 1 = 2) ∧ v.pool = (opNat m 1 == 2) ∧ (opNat m 1 = 2 → v.sealed = true)) ∧
    (∃ (m : Msg) (v : VIndex) (s : State), Serves .bound m s ∧ s.mode = .run ∧ compassBlocked s (indexOf m) false s.searchWaits = false ∧ Tab.find s.indexes (indexOf m) = some v ∧ v.context =
      (qpAt s m.qp).context ∧ v.faulted = false ∧ (ctxAt s (qpAt s m.qp).context).tornDown = false ∧ m.opcode = 0x0408 ∧ m.ops.length = 2 ∧ (opNat m 1 = 0 ∨
      opNat m 1 = 2) ∧ opNat m 1 = 2 ∧ v.sealed = false) ∧
    (∃ (m : Msg) (v : VIndex) (s : State) (placed : Tab VList) (w : State), Serves .bound m s ∧ s.mode = .run ∧ compassBlocked s (indexOf m) false s.searchWaits = false ∧ Tab.find s.indexes (indexOf m) = some v ∧ v.context =
      (qpAt s m.qp).context ∧ v.faulted = false ∧ (ctxAt s (qpAt s m.qp).context).tornDown = false ∧ m.opcode = 0x0408 ∧ m.ops.length = 2 ∧ (opNat m 1 = 0 ∨
      opNat m 1 = 2) ∧ opNat m 1 = 2 ∧ v.sealed = true ∧ v.pool = false ∧ placeOut v (takeMsg m s) = some (placed, w) ∧ entriesPerFrame v ≠ 0 ∧ (∃ e ∈
      placed, e.2.entries ≠ 0)) :=
  ⟨⟨({ tmsg 512 [3, 128, 2, 1] 0 ([]) with opcode := 0x0401 }), part0, (((allocIndexFrames 3 1 0 0 1 (takeMsg ({ tmsg 512 [3, 128, 2, 1] 0 ([]) with opcode := 0x0401 }) part0)).getD ([], run0)).1), (((allocIndexFrames 3 1 0 0 1 ((allocIndexFrames 3 1 0 0 1 (takeMsg ({ tmsg 512 [3, 128, 2, 1] 0 ([]) with opcode := 0x0401 }) part0)).getD ([], run0)).2).getD ([], run0)).1), (((allocIndexFrames 3 1 0 0 1 ((allocIndexFrames 3 1 0 0 1 ((allocIndexFrames 3 1 0 0 1 (takeMsg ({ tmsg 512 [3, 128, 2, 1] 0 ([]) with opcode := 0x0401 }) part0)).getD ([], run0)).2).getD ([], run0)).2).getD ([], run0)).1), (((allocIndexFrames 3 1 0 0 1 (takeMsg ({ tmsg 512 [3, 128, 2, 1] 0 ([]) with opcode := 0x0401 }) part0)).getD ([], run0)).2), (((allocIndexFrames 3 1 0 0 1 ((allocIndexFrames 3 1 0 0 1 (takeMsg ({ tmsg 512 [3, 128, 2, 1] 0 ([]) with opcode := 0x0401 }) part0)).getD ([], run0)).2).getD ([], run0)).2), (((allocIndexFrames 3 1 0 0 1 ((allocIndexFrames 3 1 0 0 1 ((allocIndexFrames 3 1 0 0 1 (takeMsg ({ tmsg 512 [3, 128, 2, 1] 0 ([]) with opcode := 0x0401 }) part0)).getD ([], run0)).2).getD ([], run0)).2).getD ([], run0)).2), serves_of (by decide +kernel), by decide +kernel⟩,
   ⟨({ tmsg 512 [3, 129, 2, 1] 0 ([]) with opcode := 0x0401 }), part0, serves_of (by decide +kernel), by decide +kernel⟩,
   ⟨({ tmsg 512 [3, 0] 0 (wordsBytes [2] ++ List.replicate 32 7) with opcode := 0x0402 }), (({ context := 1, partition := 0, units := 1, centroids := 2, maps := 1, centroidFrames := [1], dirFrames := [2], mapFrames := [3] } : VIndex)), ({ part0 with indexes := [(3, ({ context := 1, partition := 0, units := 1, centroids := 2, maps := 1, centroidFrames := [1], dirFrames := [2], mapFrames := [3] } : VIndex))], frames := [(1, { state := .index, context := 1, refCount := 1, owner := 3 }), (2, { state := .index, context := 1, refCount := 1, owner := 3 }), (3, { state := .index, context := 1, refCount := 1, owner := 3 })] }), ([List.replicate 16 7, List.replicate 16 7]), serves_of (by decide +kernel), by decide +kernel⟩,
   ⟨({ tmsg 512 [3, 1] 0 (wordsBytes [1] ++ List.replicate 16 7) with opcode := 0x0402 }), (({ ({ context := 1, partition := 0, units := 1, centroids := 2, maps := 1, centroidFrames := [1], dirFrames := [2], mapFrames := [3] } : VIndex) with live := 1, lists := [(0, { entries := 2, frames := [4] })] } : VIndex)), ((writeBytes (frameBase 4 + 64 + 3273 * 16) (leBytes 4 0 ++ leBytes 4 1) (writeBytes (frameBase 3) [6] ({ part0 with indexes := [(3, ({ ({ context := 1, partition := 0, units := 1, centroids := 2, maps := 1, centroidFrames := [1], dirFrames := [2], mapFrames := [3] } : VIndex) with live := 1, lists := [(0, { entries := 2, frames := [4] })] } : VIndex))], frames := [(1, { state := .index, context := 1, refCount := 1, owner := 3 }), (2, { state := .index, context := 1, refCount := 1, owner := 3 }), (3, { state := .index, context := 1, refCount := 1, owner := 3 }), (4, { state := .index, context := 1, refCount := 1, owner := 3 })] })))), ([List.replicate 16 7]), serves_of (by decide +kernel), by decide +kernel⟩,
   ⟨({ tmsg 512 [3] 0 ([]) with opcode := 0x0406 }), (({ context := 1, partition := 0, units := 1, centroids := 2, maps := 1, centroidFrames := [1], dirFrames := [2], mapFrames := [3] } : VIndex)), ({ part0 with indexes := [(3, ({ context := 1, partition := 0, units := 1, centroids := 2, maps := 1, centroidFrames := [1], dirFrames := [2], mapFrames := [3] } : VIndex))], frames := [(1, { state := .index, context := 1, refCount := 1, owner := 3 }), (2, { state := .index, context := 1, refCount := 1, owner := 3 }), (3, { state := .index, context := 1, refCount := 1, owner := 3 })] }), serves_of (by decide +kernel), by decide +kernel⟩,
   ⟨({ tmsg 512 [3] 0 ([]) with opcode := 0x0407 }), (({ ({ context := 1, partition := 0, units := 1, centroids := 2, maps := 1, centroidFrames := [1], dirFrames := [2], mapFrames := [3] } : VIndex) with sealed := true } : VIndex)), ({ part0 with indexes := [(3, ({ ({ context := 1, partition := 0, units := 1, centroids := 2, maps := 1, centroidFrames := [1], dirFrames := [2], mapFrames := [3] } : VIndex) with sealed := true } : VIndex))], frames := [(1, { state := .index, context := 1, refCount := 1, owner := 3 }), (2, { state := .index, context := 1, refCount := 1, owner := 3 }), (3, { state := .index, context := 1, refCount := 1, owner := 3 })] }), serves_of (by decide +kernel), by decide +kernel⟩,
   ⟨({ tmsg 512 [3] 0 ([]) with opcode := 0x0407 }), (({ ({ context := 1, partition := 0, units := 1, centroids := 2, maps := 1, centroidFrames := [1], dirFrames := [2], mapFrames := [3] } : VIndex) with sealed := true, pool := true } : VIndex)), ({ part0 with indexes := [(3, ({ ({ context := 1, partition := 0, units := 1, centroids := 2, maps := 1, centroidFrames := [1], dirFrames := [2], mapFrames := [3] } : VIndex) with sealed := true, pool := true } : VIndex))], frames := [(1, { state := .index, context := 1, refCount := 1, owner := 3 }), (2, { state := .index, context := 1, refCount := 1, owner := 3 }), (3, { state := .index, context := 1, refCount := 1, owner := 3 })] }), serves_of (by decide +kernel), by decide +kernel⟩,
   ⟨({ tmsg 512 [3] 0 ([]) with opcode := 0x040B }), (({ context := 1, partition := 0, units := 1, centroids := 2, maps := 1, centroidFrames := [1], dirFrames := [2], mapFrames := [3] } : VIndex)), ({ part0 with indexes := [(3, ({ context := 1, partition := 0, units := 1, centroids := 2, maps := 1, centroidFrames := [1], dirFrames := [2], mapFrames := [3] } : VIndex))], frames := [(1, { state := .index, context := 1, refCount := 1, owner := 3 }), (2, { state := .index, context := 1, refCount := 1, owner := 3 }), (3, { state := .index, context := 1, refCount := 1, owner := 3 })] }), serves_of (by decide +kernel), by decide +kernel⟩,
   ⟨({ tmsg 512 [3] 0 ([]) with opcode := 0x040A }), (({ ({ context := 1, partition := 0, units := 1, centroids := 2, maps := 1, centroidFrames := [1], dirFrames := [2], mapFrames := [3] } : VIndex) with live := 1, lists := [(0, { entries := 2, frames := [4] })] } : VIndex)), ((writeBytes (frameBase 4 + 64 + 3273 * 16) (leBytes 4 0 ++ leBytes 4 1) (writeBytes (frameBase 3) [6] ({ part0 with indexes := [(3, ({ ({ context := 1, partition := 0, units := 1, centroids := 2, maps := 1, centroidFrames := [1], dirFrames := [2], mapFrames := [3] } : VIndex) with live := 1, lists := [(0, { entries := 2, frames := [4] })] } : VIndex))], frames := [(1, { state := .index, context := 1, refCount := 1, owner := 3 }), (2, { state := .index, context := 1, refCount := 1, owner := 3 }), (3, { state := .index, context := 1, refCount := 1, owner := 3 }), (4, { state := .index, context := 1, refCount := 1, owner := 3 })] })))), serves_of (by decide +kernel), by decide +kernel⟩,
   ⟨({ tmsg 512 [3, 0] 0 ([]) with opcode := 0x0405 }), (({ ({ context := 1, partition := 0, units := 1, centroids := 2, maps := 1, centroidFrames := [1], dirFrames := [2], mapFrames := [3] } : VIndex) with live := 1, lists := [(0, { entries := 2, frames := [4] })] } : VIndex)), ((writeBytes (frameBase 4 + 64 + 3273 * 16) (leBytes 4 0 ++ leBytes 4 1) (writeBytes (frameBase 3) [6] ({ part0 with indexes := [(3, ({ ({ context := 1, partition := 0, units := 1, centroids := 2, maps := 1, centroidFrames := [1], dirFrames := [2], mapFrames := [3] } : VIndex) with live := 1, lists := [(0, { entries := 2, frames := [4] })] } : VIndex))], frames := [(1, { state := .index, context := 1, refCount := 1, owner := 3 }), (2, { state := .index, context := 1, refCount := 1, owner := 3 }), (3, { state := .index, context := 1, refCount := 1, owner := 3 }), (4, { state := .index, context := 1, refCount := 1, owner := 3 })] })))), (((compactList 3 0 ({ ({ context := 1, partition := 0, units := 1, centroids := 2, maps := 1, centroidFrames := [1], dirFrames := [2], mapFrames := [3] } : VIndex) with live := 1, lists := [(0, { entries := 2, frames := [4] })] } : VIndex) (takeMsg ({ tmsg 512 [3, 0] 0 ([]) with opcode := 0x0405 }) (writeBytes (frameBase 4 + 64 + 3273 * 16) (leBytes 4 0 ++ leBytes 4 1) (writeBytes (frameBase 3) [6] ({ part0 with indexes := [(3, ({ ({ context := 1, partition := 0, units := 1, centroids := 2, maps := 1, centroidFrames := [1], dirFrames := [2], mapFrames := [3] } : VIndex) with live := 1, lists := [(0, { entries := 2, frames := [4] })] } : VIndex))], frames := [(1, { state := .index, context := 1, refCount := 1, owner := 3 }), (2, { state := .index, context := 1, refCount := 1, owner := 3 }), (3, { state := .index, context := 1, refCount := 1, owner := 3 }), (4, { state := .index, context := 1, refCount := 1, owner := 3 })] }))))).getD (({ ({ context := 1, partition := 0, units := 1, centroids := 2, maps := 1, centroidFrames := [1], dirFrames := [2], mapFrames := [3] } : VIndex) with live := 1, lists := [(0, { entries := 2, frames := [4] })] } : VIndex), run0)).1), (((compactList 3 0 ({ ({ context := 1, partition := 0, units := 1, centroids := 2, maps := 1, centroidFrames := [1], dirFrames := [2], mapFrames := [3] } : VIndex) with live := 1, lists := [(0, { entries := 2, frames := [4] })] } : VIndex) (takeMsg ({ tmsg 512 [3, 0] 0 ([]) with opcode := 0x0405 }) (writeBytes (frameBase 4 + 64 + 3273 * 16) (leBytes 4 0 ++ leBytes 4 1) (writeBytes (frameBase 3) [6] ({ part0 with indexes := [(3, ({ ({ context := 1, partition := 0, units := 1, centroids := 2, maps := 1, centroidFrames := [1], dirFrames := [2], mapFrames := [3] } : VIndex) with live := 1, lists := [(0, { entries := 2, frames := [4] })] } : VIndex))], frames := [(1, { state := .index, context := 1, refCount := 1, owner := 3 }), (2, { state := .index, context := 1, refCount := 1, owner := 3 }), (3, { state := .index, context := 1, refCount := 1, owner := 3 }), (4, { state := .index, context := 1, refCount := 1, owner := 3 })] }))))).getD (({ ({ context := 1, partition := 0, units := 1, centroids := 2, maps := 1, centroidFrames := [1], dirFrames := [2], mapFrames := [3] } : VIndex) with live := 1, lists := [(0, { entries := 2, frames := [4] })] } : VIndex), run0)).2), serves_of (by decide +kernel), by decide +kernel⟩,
   ⟨({ tmsg 512 [3, 0] 0 ([]) with opcode := 0x0405 }), (({ ({ context := 1, partition := 0, units := 1, centroids := 2, maps := 1, centroidFrames := [1], dirFrames := [2], mapFrames := [3] } : VIndex) with live := 1, lists := [(0, { entries := 2, frames := [4] })] } : VIndex)), ((writeBytes (frameBase 4 + 64 + 3273 * 16) (leBytes 4 0 ++ leBytes 4 1) (writeBytes (frameBase 3) [6] ({ part0 with indexes := [(3, ({ ({ context := 1, partition := 0, units := 1, centroids := 2, maps := 1, centroidFrames := [1], dirFrames := [2], mapFrames := [3] } : VIndex) with live := 1, lists := [(0, { entries := 2, frames := [4] })] } : VIndex))], frames := [(1, { state := .index, context := 1, refCount := 1, owner := 3 }), (2, { state := .index, context := 1, refCount := 1, owner := 3 }), (3, { state := .index, context := 1, refCount := 1, owner := 3 }), (4, { state := .index, context := 1, refCount := 1, owner := 3 })] })))), (((compactList 3 0 ({ ({ context := 1, partition := 0, units := 1, centroids := 2, maps := 1, centroidFrames := [1], dirFrames := [2], mapFrames := [3] } : VIndex) with live := 1, lists := [(0, { entries := 2, frames := [4] })] } : VIndex) (takeMsg ({ tmsg 512 [3, 0] 0 ([]) with opcode := 0x0405 }) (writeBytes (frameBase 4 + 64 + 3273 * 16) (leBytes 4 0 ++ leBytes 4 1) (writeBytes (frameBase 3) [6] ({ part0 with indexes := [(3, ({ ({ context := 1, partition := 0, units := 1, centroids := 2, maps := 1, centroidFrames := [1], dirFrames := [2], mapFrames := [3] } : VIndex) with live := 1, lists := [(0, { entries := 2, frames := [4] })] } : VIndex))], frames := [(1, { state := .index, context := 1, refCount := 1, owner := 3 }), (2, { state := .index, context := 1, refCount := 1, owner := 3 }), (3, { state := .index, context := 1, refCount := 1, owner := 3 }), (4, { state := .index, context := 1, refCount := 1, owner := 3 })] }))))).getD (({ ({ context := 1, partition := 0, units := 1, centroids := 2, maps := 1, centroidFrames := [1], dirFrames := [2], mapFrames := [3] } : VIndex) with live := 1, lists := [(0, { entries := 2, frames := [4] })] } : VIndex), run0)).1), (((compactList 3 0 ({ ({ context := 1, partition := 0, units := 1, centroids := 2, maps := 1, centroidFrames := [1], dirFrames := [2], mapFrames := [3] } : VIndex) with live := 1, lists := [(0, { entries := 2, frames := [4] })] } : VIndex) (takeMsg ({ tmsg 512 [3, 0] 0 ([]) with opcode := 0x0405 }) (writeBytes (frameBase 4 + 64 + 3273 * 16) (leBytes 4 0 ++ leBytes 4 1) (writeBytes (frameBase 3) [6] ({ part0 with indexes := [(3, ({ ({ context := 1, partition := 0, units := 1, centroids := 2, maps := 1, centroidFrames := [1], dirFrames := [2], mapFrames := [3] } : VIndex) with live := 1, lists := [(0, { entries := 2, frames := [4] })] } : VIndex))], frames := [(1, { state := .index, context := 1, refCount := 1, owner := 3 }), (2, { state := .index, context := 1, refCount := 1, owner := 3 }), (3, { state := .index, context := 1, refCount := 1, owner := 3 }), (4, { state := .index, context := 1, refCount := 1, owner := 3 })] }))))).getD (({ ({ context := 1, partition := 0, units := 1, centroids := 2, maps := 1, centroidFrames := [1], dirFrames := [2], mapFrames := [3] } : VIndex) with live := 1, lists := [(0, { entries := 2, frames := [4] })] } : VIndex), run0)).2), serves_of (by decide +kernel), by decide +kernel⟩,
   ⟨({ tmsg 512 [3, 0] 0 ([]) with opcode := 0x0405 }), (({ ({ ({ context := 1, partition := 0, units := 1, centroids := 2, maps := 1, centroidFrames := [1], dirFrames := [2], mapFrames := [3] } : VIndex) with live := 1, lists := [(0, { entries := 2, frames := [4] })] } : VIndex) with sealed := true } : VIndex)), ({ part0 with indexes := [(3, ({ ({ ({ context := 1, partition := 0, units := 1, centroids := 2, maps := 1, centroidFrames := [1], dirFrames := [2], mapFrames := [3] } : VIndex) with live := 1, lists := [(0, { entries := 2, frames := [4] })] } : VIndex) with sealed := true } : VIndex))], frames := [(1, { state := .index, context := 1, refCount := 1, owner := 3 }), (2, { state := .index, context := 1, refCount := 1, owner := 3 }), (3, { state := .index, context := 1, refCount := 1, owner := 3 })] }), serves_of (by decide +kernel), by decide +kernel⟩,
   ⟨({ tmsg 512 [3, 0] 0 ([]) with opcode := 0x0408 }), (({ context := 1, partition := 0, units := 1, centroids := 2, maps := 1, centroidFrames := [1], dirFrames := [2], mapFrames := [3] } : VIndex)), ({ part0 with indexes := [(3, ({ context := 1, partition := 0, units := 1, centroids := 2, maps := 1, centroidFrames := [1], dirFrames := [2], mapFrames := [3] } : VIndex))], frames := [(1, { state := .index, context := 1, refCount := 1, owner := 3 }), (2, { state := .index, context := 1, refCount := 1, owner := 3 }), (3, { state := .index, context := 1, refCount := 1, owner := 3 })] }), serves_of (by decide +kernel), by decide +kernel⟩,
   ⟨({ tmsg 512 [3, 2] 0 ([]) with opcode := 0x0408 }), (({ context := 1, partition := 0, units := 1, centroids := 2, maps := 1, centroidFrames := [1], dirFrames := [2], mapFrames := [3] } : VIndex)), ({ part0 with indexes := [(3, ({ context := 1, partition := 0, units := 1, centroids := 2, maps := 1, centroidFrames := [1], dirFrames := [2], mapFrames := [3] } : VIndex))], frames := [(1, { state := .index, context := 1, refCount := 1, owner := 3 }), (2, { state := .index, context := 1, refCount := 1, owner := 3 }), (3, { state := .index, context := 1, refCount := 1, owner := 3 })] }), serves_of (by decide +kernel), by decide +kernel⟩,
   ⟨({ tmsg 512 [3, 2] 0 ([]) with opcode := 0x0408 }), (({ ({ ({ context := 1, partition := 0, units := 1, centroids := 2, maps := 1, centroidFrames := [1], dirFrames := [2], mapFrames := [3] } : VIndex) with live := 1, lists := [(0, { entries := 2, frames := [4] })] } : VIndex) with sealed := true } : VIndex)), ({ { part0 with indexes := [(3, ({ ({ ({ context := 1, partition := 0, units := 1, centroids := 2, maps := 1, centroidFrames := [1], dirFrames := [2], mapFrames := [3] } : VIndex) with live := 1, lists := [(0, { entries := 2, frames := [4] })] } : VIndex) with sealed := true } : VIndex))], frames := [(1, { state := .index, context := 1, refCount := 1, owner := 3 }), (2, { state := .index, context := 1, refCount := 1, owner := 3 }), (3, { state := .index, context := 1, refCount := 1, owner := 3 }), (4, { state := .index, context := 1, refCount := 1, owner := 3 })] } with poolRanges := [(0, { valid := true, access := 2, alloc := true, context := 1, limit := 1000 })] }), (((placeOut ({ ({ ({ context := 1, partition := 0, units := 1, centroids := 2, maps := 1, centroidFrames := [1], dirFrames := [2], mapFrames := [3] } : VIndex) with live := 1, lists := [(0, { entries := 2, frames := [4] })] } : VIndex) with sealed := true } : VIndex) (takeMsg ({ tmsg 512 [3, 2] 0 ([]) with opcode := 0x0408 }) ({ { part0 with indexes := [(3, ({ ({ ({ context := 1, partition := 0, units := 1, centroids := 2, maps := 1, centroidFrames := [1], dirFrames := [2], mapFrames := [3] } : VIndex) with live := 1, lists := [(0, { entries := 2, frames := [4] })] } : VIndex) with sealed := true } : VIndex))], frames := [(1, { state := .index, context := 1, refCount := 1, owner := 3 }), (2, { state := .index, context := 1, refCount := 1, owner := 3 }), (3, { state := .index, context := 1, refCount := 1, owner := 3 }), (4, { state := .index, context := 1, refCount := 1, owner := 3 })] } with poolRanges := [(0, { valid := true, access := 2, alloc := true, context := 1, limit := 1000 })] }))).getD ([], run0)).1), (((placeOut ({ ({ ({ context := 1, partition := 0, units := 1, centroids := 2, maps := 1, centroidFrames := [1], dirFrames := [2], mapFrames := [3] } : VIndex) with live := 1, lists := [(0, { entries := 2, frames := [4] })] } : VIndex) with sealed := true } : VIndex) (takeMsg ({ tmsg 512 [3, 2] 0 ([]) with opcode := 0x0408 }) ({ { part0 with indexes := [(3, ({ ({ ({ context := 1, partition := 0, units := 1, centroids := 2, maps := 1, centroidFrames := [1], dirFrames := [2], mapFrames := [3] } : VIndex) with live := 1, lists := [(0, { entries := 2, frames := [4] })] } : VIndex) with sealed := true } : VIndex))], frames := [(1, { state := .index, context := 1, refCount := 1, owner := 3 }), (2, { state := .index, context := 1, refCount := 1, owner := 3 }), (3, { state := .index, context := 1, refCount := 1, owner := 3 }), (4, { state := .index, context := 1, refCount := 1, owner := 3 })] } with poolRanges := [(0, { valid := true, access := 2, alloc := true, context := 1, limit := 1000 })] }))).getD ([], run0)).2), serves_of (by decide +kernel), by decide +kernel⟩⟩

theorem test_RecordsComeAndGo :
    (∃ (m : Msg) (v : VIndex) (s : State) (item : List Byte), Serves .bound m s ∧ s.mode = .run ∧ m.ops.length = 1 ∧ compassBlocked s (indexOf m) false s.searchWaits = false ∧ Tab.find s.indexes (indexOf m) =
      some v ∧ v.context = (qpAt s m.qp).context ∧ v.faulted = false ∧ (ctxAt s (qpAt s m.qp).context).tornDown = false ∧ m.opcode = 0x0403 ∧ badCount 256
      m.body = false ∧ listItems (codeBytes v + 16) m.body = some [item] ∧ v.sealed = false ∧
      let x := indexOf m
      let id := numAt item 0 8
      let c := numAt item (8 + codeBytes v) 8
      id < v.maps * 262144 ∧ c < v.centroids ∧ recordState s v id = 0 ∧ appendEntry x v c id (slice item 8 (codeBytes v)) (takeMsg m s) ≠ none) ∧
    (∃ (m : Msg) (v : VIndex) (s : State) (item : List Byte), Serves .bound m s ∧ s.mode = .run ∧ m.ops.length = 1 ∧ compassBlocked s (indexOf m) false s.searchWaits = false ∧ Tab.find s.indexes (indexOf m) =
      some v ∧ v.context = (qpAt s m.qp).context ∧ v.faulted = false ∧ (ctxAt s (qpAt s m.qp).context).tornDown = false ∧ m.opcode = 0x0403 ∧ badCount 256
      m.body = false ∧ listItems (codeBytes v + 16) m.body = some [item] ∧
      let id := numAt item 0 8
      let c := numAt item (8 + codeBytes v) 8
      id < v.maps * 262144 ∧ c < v.centroids ∧ recordState s v id = 1) ∧
    (∃ (m : Msg) (v : VIndex) (s : State) (item : List Byte), Serves .bound m s ∧ s.mode = .run ∧ m.ops.length = 1 ∧ compassBlocked s (indexOf m) false s.searchWaits = false ∧ Tab.find s.indexes (indexOf m) =
      some v ∧ v.context = (qpAt s m.qp).context ∧ v.faulted = false ∧ (ctxAt s (qpAt s m.qp).context).tornDown = false ∧ m.opcode = 0x0403 ∧ badCount 256
      m.body = false ∧ listItems (codeBytes v + 16) m.body = some [item] ∧
      let id := numAt item 0 8
      let c := numAt item (8 + codeBytes v) 8
      id < v.maps * 262144 ∧ c < v.centroids ∧ recordState s v id = 2) ∧
    (∃ (m : Msg) (v : VIndex) (s : State) (item : List Byte), Serves .bound m s ∧ s.mode = .run ∧ m.ops.length = 1 ∧ compassBlocked s (indexOf m) false s.searchWaits = false ∧ Tab.find s.indexes (indexOf m) =
      some v ∧ v.context = (qpAt s m.qp).context ∧ v.faulted = false ∧ (ctxAt s (qpAt s m.qp).context).tornDown = false ∧ m.opcode = 0x0403 ∧ badCount 256
      m.body = false ∧ listItems (codeBytes v + 16) m.body = some [item] ∧ v.sealed = true ∧
      let id := numAt item 0 8
      let c := numAt item (8 + codeBytes v) 8
      id < v.maps * 262144 ∧ c < v.centroids ∧ recordState s v id = 0) ∧
    (∃ (m : Msg) (v : VIndex) (s : State) (id : Word), Serves .bound m s ∧ s.mode = .run ∧ m.ops.length = 1 ∧ compassBlocked s (indexOf m) false s.searchWaits = false ∧ Tab.find s.indexes (indexOf m) =
      some v ∧ v.context = (qpAt s m.qp).context ∧ v.faulted = false ∧ (ctxAt s (qpAt s m.qp).context).tornDown = false ∧ m.opcode = 0x0404 ∧ badCount 4096
      m.body = false ∧ listWords m.body = some [id] ∧ id.toNat < v.maps * 262144 ∧ recordState s v id.toNat = 1) ∧
    (∃ (m : Msg) (v : VIndex) (s : State) (id : Word), Serves .bound m s ∧ s.mode = .run ∧ m.ops.length = 1 ∧ compassBlocked s (indexOf m) false s.searchWaits = false ∧ Tab.find s.indexes (indexOf m) =
      some v ∧ v.context = (qpAt s m.qp).context ∧ v.faulted = false ∧ (ctxAt s (qpAt s m.qp).context).tornDown = false ∧ m.opcode = 0x0404 ∧ badCount 4096
      m.body = false ∧ listWords m.body = some [id] ∧ (v.maps * 262144 ≤ id.toNat ∨ recordState s v id.toNat ≠ 1)) :=
  ⟨⟨({ tmsg 512 [3] 0 (wordsBytes [1] ++ (leBytes 8 262143 ++ List.replicate 16 5 ++ leBytes 8 1)) with opcode := 0x0403 }), (({ context := 1, partition := 0, units := 1, centroids := 2, maps := 1, centroidFrames := [1], dirFrames := [2], mapFrames := [3] } : VIndex)), ({ part0 with indexes := [(3, ({ context := 1, partition := 0, units := 1, centroids := 2, maps := 1, centroidFrames := [1], dirFrames := [2], mapFrames := [3] } : VIndex))], frames := [(1, { state := .index, context := 1, refCount := 1, owner := 3 }), (2, { state := .index, context := 1, refCount := 1, owner := 3 }), (3, { state := .index, context := 1, refCount := 1, owner := 3 })] }), ((leBytes 8 262143 ++ List.replicate 16 5 ++ leBytes 8 1)), serves_of (by decide +kernel), by decide +kernel⟩,
   ⟨({ tmsg 512 [3] 0 (wordsBytes [1] ++ (leBytes 8 1 ++ List.replicate 16 5 ++ leBytes 8 1)) with opcode := 0x0403 }), (({ ({ context := 1, partition := 0, units := 1, centroids := 2, maps := 1, centroidFrames := [1], dirFrames := [2], mapFrames := [3] } : VIndex) with live := 1, lists := [(0, { entries := 2, frames := [4] })] } : VIndex)), ((writeBytes (frameBase 4 + 64 + 3273 * 16) (leBytes 4 0 ++ leBytes 4 1) (writeBytes (frameBase 3) [6] ({ part0 with indexes := [(3, ({ ({ context := 1, partition := 0, units := 1, centroids := 2, maps := 1, centroidFrames := [1], dirFrames := [2], mapFrames := [3] } : VIndex) with live := 1, lists := [(0, { entries := 2, frames := [4] })] } : VIndex))], frames := [(1, { state := .index, context := 1, refCount := 1, owner := 3 }), (2, { state := .index, context := 1, refCount := 1, owner := 3 }), (3, { state := .index, context := 1, refCount := 1, owner := 3 }), (4, { state := .index, context := 1, refCount := 1, owner := 3 })] })))), ((leBytes 8 1 ++ List.replicate 16 5 ++ leBytes 8 1)), serves_of (by decide +kernel), by decide +kernel⟩,
   ⟨({ tmsg 512 [3] 0 (wordsBytes [1] ++ (leBytes 8 0 ++ List.replicate 16 5 ++ leBytes 8 1)) with opcode := 0x0403 }), (({ ({ context := 1, partition := 0, units := 1, centroids := 2, maps := 1, centroidFrames := [1], dirFrames := [2], mapFrames := [3] } : VIndex) with live := 1, lists := [(0, { entries := 2, frames := [4] })] } : VIndex)), ((writeBytes (frameBase 4 + 64 + 3273 * 16) (leBytes 4 0 ++ leBytes 4 1) (writeBytes (frameBase 3) [6] ({ part0 with indexes := [(3, ({ ({ context := 1, partition := 0, units := 1, centroids := 2, maps := 1, centroidFrames := [1], dirFrames := [2], mapFrames := [3] } : VIndex) with live := 1, lists := [(0, { entries := 2, frames := [4] })] } : VIndex))], frames := [(1, { state := .index, context := 1, refCount := 1, owner := 3 }), (2, { state := .index, context := 1, refCount := 1, owner := 3 }), (3, { state := .index, context := 1, refCount := 1, owner := 3 }), (4, { state := .index, context := 1, refCount := 1, owner := 3 })] })))), ((leBytes 8 0 ++ List.replicate 16 5 ++ leBytes 8 1)), serves_of (by decide +kernel), by decide +kernel⟩,
   ⟨({ tmsg 512 [3] 0 (wordsBytes [1] ++ (leBytes 8 5 ++ List.replicate 16 5 ++ leBytes 8 1)) with opcode := 0x0403 }), (({ ({ context := 1, partition := 0, units := 1, centroids := 2, maps := 1, centroidFrames := [1], dirFrames := [2], mapFrames := [3] } : VIndex) with sealed := true } : VIndex)), ({ part0 with indexes := [(3, ({ ({ context := 1, partition := 0, units := 1, centroids := 2, maps := 1, centroidFrames := [1], dirFrames := [2], mapFrames := [3] } : VIndex) with sealed := true } : VIndex))], frames := [(1, { state := .index, context := 1, refCount := 1, owner := 3 }), (2, { state := .index, context := 1, refCount := 1, owner := 3 }), (3, { state := .index, context := 1, refCount := 1, owner := 3 })] }), ((leBytes 8 5 ++ List.replicate 16 5 ++ leBytes 8 1)), serves_of (by decide +kernel), by decide +kernel⟩,
   ⟨({ tmsg 512 [3] 0 (wordsBytes [1, 1]) with opcode := 0x0404 }), (({ ({ context := 1, partition := 0, units := 1, centroids := 2, maps := 1, centroidFrames := [1], dirFrames := [2], mapFrames := [3] } : VIndex) with live := 1, lists := [(0, { entries := 2, frames := [4] })] } : VIndex)), ((writeBytes (frameBase 4 + 64 + 3273 * 16) (leBytes 4 0 ++ leBytes 4 1) (writeBytes (frameBase 3) [6] ({ part0 with indexes := [(3, ({ ({ context := 1, partition := 0, units := 1, centroids := 2, maps := 1, centroidFrames := [1], dirFrames := [2], mapFrames := [3] } : VIndex) with live := 1, lists := [(0, { entries := 2, frames := [4] })] } : VIndex))], frames := [(1, { state := .index, context := 1, refCount := 1, owner := 3 }), (2, { state := .index, context := 1, refCount := 1, owner := 3 }), (3, { state := .index, context := 1, refCount := 1, owner := 3 }), (4, { state := .index, context := 1, refCount := 1, owner := 3 })] })))), 1, serves_of (by decide +kernel), by decide +kernel⟩,
   ⟨({ tmsg 512 [3] 0 (wordsBytes [1, 262144]) with opcode := 0x0404 }), (({ ({ context := 1, partition := 0, units := 1, centroids := 2, maps := 1, centroidFrames := [1], dirFrames := [2], mapFrames := [3] } : VIndex) with live := 1, lists := [(0, { entries := 2, frames := [4] })] } : VIndex)), ((writeBytes (frameBase 4 + 64 + 3273 * 16) (leBytes 4 0 ++ leBytes 4 1) (writeBytes (frameBase 3) [6] ({ part0 with indexes := [(3, ({ ({ context := 1, partition := 0, units := 1, centroids := 2, maps := 1, centroidFrames := [1], dirFrames := [2], mapFrames := [3] } : VIndex) with live := 1, lists := [(0, { entries := 2, frames := [4] })] } : VIndex))], frames := [(1, { state := .index, context := 1, refCount := 1, owner := 3 }), (2, { state := .index, context := 1, refCount := 1, owner := 3 }), (3, { state := .index, context := 1, refCount := 1, owner := 3 }), (4, { state := .index, context := 1, refCount := 1, owner := 3 })] })))), 262144, serves_of (by decide +kernel), by decide +kernel⟩⟩

theorem test_SearchesRunInSlices :
    (∃ (m : Msg) (v : VIndex) (s : State), Serves .bound m s ∧ s.mode = .run ∧ m.ops.length = 5 ∧ Tab.find s.indexes (indexOf m) = some v ∧ v.context = (qpAt s m.qp).context ∧ v.faulted = false
      ∧ (ctxAt s (qpAt s m.qp).context).tornDown = false ∧ m.opcode = 0x0409 ∧
      let x := indexOf m
      let ok := 1 ≤ opNat m 2 ∧ opNat m 2 ≤ 256 ∧ 1 ≤ opNat m 3 ∧ opNat m 3 ≤ 1024 ∧ m.body.length = codeBytes v
      let blocked := compassBlocked s x true s.searchWaits
      blocked = false ∧ ok) ∧
    (∃ (m : Msg) (v : VIndex) (s : State), Serves .bound m s ∧ s.mode = .run ∧ m.ops.length = 5 ∧ Tab.find s.indexes (indexOf m) = some v ∧ v.context = (qpAt s m.qp).context ∧ v.faulted = false
      ∧ (ctxAt s (qpAt s m.qp).context).tornDown = false ∧ m.opcode = 0x0409 ∧
      let x := indexOf m
      let ok := 1 ≤ opNat m 2 ∧ opNat m 2 ≤ 256 ∧ 1 ≤ opNat m 3 ∧ opNat m 3 ≤ 1024 ∧ m.body.length = codeBytes v
      let blocked := compassBlocked s x true s.searchWaits
      blocked = false ∧ ¬ ok) ∧
    (∃ (m : Msg) (v : VIndex) (s : State), Serves .bound m s ∧ s.mode = .run ∧ m.ops.length = 5 ∧ Tab.find s.indexes (indexOf m) = some v ∧ v.context = (qpAt s m.qp).context ∧ v.faulted = false
      ∧ (ctxAt s (qpAt s m.qp).context).tornDown = false ∧ m.opcode = 0x0409 ∧
      let x := indexOf m
      let waiting := (s.searchWaits.filter (fun w => w.2.search)).length
      let blocked := compassBlocked s x true s.searchWaits
      blocked = true ∧ waiting < searchQueueMaxVal s) ∧
    (∃ (m : Msg) (v : VIndex) (s : State), Serves .bound m s ∧ s.mode = .run ∧ m.ops.length = 5 ∧ Tab.find s.indexes (indexOf m) = some v ∧ v.context = (qpAt s m.qp).context ∧ v.faulted = false
      ∧ (ctxAt s (qpAt s m.qp).context).tornDown = false ∧ m.opcode = 0x0409 ∧
      let x := indexOf m
      let waiting := (s.searchWaits.filter (fun w => w.2.search)).length
      let blocked := compassBlocked s x true s.searchWaits
      blocked = true ∧ searchQueueMaxVal s ≤ waiting) ∧
    (∃ (f : Nat) (p : Nat) (k : Nat) (q : Search) (l : Slice) (s : State), Live s ∧ partOfFielder s f = some p ∧ s.survey.frozen = false ∧ (partAt s p).holder = none ∧ (fielderAt s f).slice = none ∧ (s.searches.findSome? (fun
      e => (e.2.todo.find? (fun l => frameFielder l.frame == f)).map (fun l => (e.1, e.2, l))) = some (k, q, l))) ∧
    (∃ (f : Nat) (k : Nat) (l : Slice) (q : Search) (v : VIndex) (s : State), Live s ∧ (fielderAt s f).slice = some (k, l) ∧ Tab.find s.searches k = some q ∧ Tab.find s.indexes q.index = some v) ∧
    (∃ (k : Nat) (s : State) (q : Search), Live s ∧ Tab.find s.searches k = some q ∧ q.at_ + searchTimeoutMsVal s * 1000000 ≤ now s ∧ qpReady s q.msg.qp = true) ∧
    (∃ (k : Nat) (s : State) (w : SearchWait), Live s ∧ Tab.find s.searches k = none ∧ Tab.find s.searchWaits k = some w ∧ w.search = true ∧ w.at_ + searchTimeoutMsVal s * 1000000 ≤ now s ∧ qpReady
      s w.msg.qp = true) :=
  ⟨⟨({ tmsg 512 [3, 16, 256, 1024, 1] 0 (List.replicate 16 5) with opcode := 0x0409 }), (({ context := 1, partition := 0, units := 1, centroids := 2, maps := 1, centroidFrames := [1], dirFrames := [2], mapFrames := [3] } : VIndex)), ({ part0 with indexes := [(3, ({ context := 1, partition := 0, units := 1, centroids := 2, maps := 1, centroidFrames := [1], dirFrames := [2], mapFrames := [3] } : VIndex))], frames := [(1, { state := .index, context := 1, refCount := 1, owner := 3 }), (2, { state := .index, context := 1, refCount := 1, owner := 3 }), (3, { state := .index, context := 1, refCount := 1, owner := 3 })] }), serves_of (by decide +kernel), by decide +kernel⟩,
   ⟨({ tmsg 512 [3, 16, 0, 1, 0] 0 (List.replicate 16 5) with opcode := 0x0409 }), (({ context := 1, partition := 0, units := 1, centroids := 2, maps := 1, centroidFrames := [1], dirFrames := [2], mapFrames := [3] } : VIndex)), ({ part0 with indexes := [(3, ({ context := 1, partition := 0, units := 1, centroids := 2, maps := 1, centroidFrames := [1], dirFrames := [2], mapFrames := [3] } : VIndex))], frames := [(1, { state := .index, context := 1, refCount := 1, owner := 3 }), (2, { state := .index, context := 1, refCount := 1, owner := 3 }), (3, { state := .index, context := 1, refCount := 1, owner := 3 })] }), serves_of (by decide +kernel), by decide +kernel⟩,
   ⟨({ tmsg 512 [3, 16, 1, 1, 0] 0 (List.replicate 16 5) with opcode := 0x0409 }), (({ context := 1, partition := 0, units := 1, centroids := 2, maps := 1, centroidFrames := [1], dirFrames := [2], mapFrames := [3] } : VIndex)), ({ part0 with indexes := [(3, ({ context := 1, partition := 0, units := 1, centroids := 2, maps := 1, centroidFrames := [1], dirFrames := [2], mapFrames := [3] } : VIndex))], frames := [(1, { state := .index, context := 1, refCount := 1, owner := 3 }), (2, { state := .index, context := 1, refCount := 1, owner := 3 }), (3, { state := .index, context := 1, refCount := 1, owner := 3 })], searchWaits := [(9, { msg := tmsg 512 [3], index := 3, at_ := 0, search := false })] }), serves_of (by decide +kernel), by decide +kernel⟩,
   ⟨({ tmsg 512 [3, 16, 1, 1, 0] 0 (List.replicate 16 5) with opcode := 0x0409 }), (({ context := 1, partition := 0, units := 1, centroids := 2, maps := 1, centroidFrames := [1], dirFrames := [2], mapFrames := [3] } : VIndex)), ({ part0 with indexes := [(3, ({ context := 1, partition := 0, units := 1, centroids := 2, maps := 1, centroidFrames := [1], dirFrames := [2], mapFrames := [3] } : VIndex))], frames := [(1, { state := .index, context := 1, refCount := 1, owner := 3 }), (2, { state := .index, context := 1, refCount := 1, owner := 3 }), (3, { state := .index, context := 1, refCount := 1, owner := 3 })], searchWaits := [(9, { msg := tmsg 512 [3], index := 3, at_ := 0, search := false })], dict.vals := [(0x205002, 0)] }), serves_of (by decide +kernel), by decide +kernel⟩,
   ⟨0, 0, 7, (({ msg := tmsg 512 [3], index := 3, at_ := 0, query := List.replicate 16 5, probe := 1, count := 1, extend := false, todo := [{ coarse := true, list := 0, ord := 0, frame := 1, entries := 2 }] } : Search)), (({ coarse := true, list := 0, ord := 0, frame := 1, entries := 2 } : Slice)), ({ part0 with indexes := [(3, ({ context := 1, partition := 0, units := 1, centroids := 2, maps := 1, centroidFrames := [1], dirFrames := [2], mapFrames := [3] } : VIndex))], frames := [(1, { state := .index, context := 1, refCount := 1, owner := 3 }), (2, { state := .index, context := 1, refCount := 1, owner := 3 }), (3, { state := .index, context := 1, refCount := 1, owner := 3 })], searches := [(7, ({ msg := tmsg 512 [3], index := 3, at_ := 0, query := List.replicate 16 5, probe := 1, count := 1, extend := false, todo := [{ coarse := true, list := 0, ord := 0, frame := 1, entries := 2 }] } : Search))] }), live_of (by decide +kernel), by decide +kernel⟩,
   ⟨0, 7, (({ coarse := true, list := 0, ord := 0, frame := 1, entries := 2 } : Slice)), (({ ({ msg := tmsg 512 [3], index := 3, at_ := 0, query := List.replicate 16 5, probe := 1, count := 1, extend := false, todo := [{ coarse := true, list := 0, ord := 0, frame := 1, entries := 2 }] } : Search) with todo := [], running := 1 } : Search)), (({ ({ context := 1, partition := 0, units := 1, centroids := 2, maps := 1, centroidFrames := [1], dirFrames := [2], mapFrames := [3] } : VIndex) with live := 1, lists := [(0, { entries := 2, frames := [4] })] } : VIndex)), ({ (writeBytes (frameBase 4 + 64 + 3273 * 16) (leBytes 4 0 ++ leBytes 4 1) (writeBytes (frameBase 3) [6] ({ part0 with indexes := [(3, ({ ({ context := 1, partition := 0, units := 1, centroids := 2, maps := 1, centroidFrames := [1], dirFrames := [2], mapFrames := [3] } : VIndex) with live := 1, lists := [(0, { entries := 2, frames := [4] })] } : VIndex))], frames := [(1, { state := .index, context := 1, refCount := 1, owner := 3 }), (2, { state := .index, context := 1, refCount := 1, owner := 3 }), (3, { state := .index, context := 1, refCount := 1, owner := 3 }), (4, { state := .index, context := 1, refCount := 1, owner := 3 })] }))) with searches := [(7, ({ ({ msg := tmsg 512 [3], index := 3, at_ := 0, query := List.replicate 16 5, probe := 1, count := 1, extend := false, todo := [{ coarse := true, list := 0, ord := 0, frame := 1, entries := 2 }] } : Search) with todo := [], running := 1 } : Search))], fielders := [(0, { slice := some (7, ({ coarse := true, list := 0, ord := 0, frame := 1, entries := 2 } : Slice)) })] }), live_of (by decide +kernel), by decide +kernel⟩,
   ⟨7, ({ part0 with indexes := [(3, ({ context := 1, partition := 0, units := 1, centroids := 2, maps := 1, centroidFrames := [1], dirFrames := [2], mapFrames := [3] } : VIndex))], frames := [(1, { state := .index, context := 1, refCount := 1, owner := 3 }), (2, { state := .index, context := 1, refCount := 1, owner := 3 }), (3, { state := .index, context := 1, refCount := 1, owner := 3 })], searches := [(7, ({ msg := tmsg 512 [3], index := 3, at_ := 0, query := List.replicate 16 5, probe := 1, count := 1, extend := false, todo := [{ coarse := true, list := 0, ord := 0, frame := 1, entries := 2 }] } : Search))], time.now := 100000000 }), (({ msg := tmsg 512 [3], index := 3, at_ := 0, query := List.replicate 16 5, probe := 1, count := 1, extend := false, todo := [{ coarse := true, list := 0, ord := 0, frame := 1, entries := 2 }] } : Search)), live_of (by decide +kernel), by decide +kernel⟩,
   ⟨7, ({ part0 with indexes := [(3, ({ context := 1, partition := 0, units := 1, centroids := 2, maps := 1, centroidFrames := [1], dirFrames := [2], mapFrames := [3] } : VIndex))], frames := [(1, { state := .index, context := 1, refCount := 1, owner := 3 }), (2, { state := .index, context := 1, refCount := 1, owner := 3 }), (3, { state := .index, context := 1, refCount := 1, owner := 3 })], time.now := 100000000, searchWaits := [(7, { msg := tmsg 512 [3], index := 3, at_ := 0, search := true })] }), ({ msg := tmsg 512 [3], index := 3, at_ := 0, search := true }), live_of (by decide +kernel), by decide +kernel⟩⟩

/-- A tile of sixes for session 3, layer `l`. -/
def tile6 (l : Nat := 0) (qp : Nat := 512) (idx : Nat := 3) : TileWrite := { qp, addr := word (l * 2 ^ 56 + idx), counter := 0, data := List.replicate 4096 6 }
/-- Session 3 of length 3 whose page 0 is frame 5, in state `f` and held `n` times. -/
def paged (f : FrameState) (n : Nat) : State :=
  { with3 { sess .ready with record := { (sess .ready).record with length := 3 }, pages := [(0, { tier := 0, frame := 5 })], root := some 8, leaves := [(0, 9)] } part0 with
    frames := [(5, { state := f, context := 1, refCount := n, owner := 3 })] }
/-- Session 3 arriving from node 2. -/
def arriving : DestMove := { node := 2, back := .ready, innings := 1, remaining := none }
def arrivals : State :=
  { with3 { sess .moving with move := some (.dest arriving), root := some 8, leaves := [(0, 9)] } part0 with qps := [(323, { state := .ready, kind := 3 })] }
theorem rows_written :
    (writeTileRows 3 (sessShape (paged .kv 1) 3) (tileAddrOf tile6.addr) tile6.data
      (fun lp => decide ((sessAt (paged .kv 1) 3).record.length ≤ globalPos (paged .kv 1) (sessAt (paged .kv 1) 3).entry.partition lp)) (paged .kv 1)).isSome = true := by decide +kernel
theorem rows_arrived :
    (writeTileRows 3 (sessShape arrivals 3) (tileAddrOf (tile6 0 323).addr) (tile6 0 323).data (fun _ => true) arrivals).isSome = true := by decide +kernel
theorem test_TilesAreWritten :
    (∃ (t : TileWrite) (s : State), linkAlive s = false ∨ qpReady s t.qp = false) ∧
    (∃ (t : TileWrite) (s : State), s.power.phase = .starting ∧ qpReady s t.qp = true) ∧
    (∃ (t : TileWrite) (s : State), s.power.phase = .running ∧ qpReady s t.qp = true ∧ s.mode = .fatal) ∧
    (∃ (t : TileWrite) (s : State), s.power.phase = .running ∧ qpReady s t.qp = true ∧ s.mode ≠ .fatal ∧ s.survey.frozen = true) ∧
    (∃ (t : TileWrite) (s : State), s.power.phase = .running ∧ qpReady s t.qp = true ∧ s.mode ≠ .fatal ∧ s.survey.frozen = false ∧ (t.qp < 257 ∨ 384 < t.qp) ∧ tileSession s t = none) ∧
    (∃ (t : TileWrite) (s : State) (i : Nat), s.power.phase = .running ∧ qpReady s t.qp = true ∧ s.mode ≠ .fatal ∧ s.survey.frozen = false ∧ (t.qp < 257 ∨ 384 < t.qp) ∧ tileSession s t = some i ∧
      let x := sessAt s i
      x.shadow.isSome) ∧
    (∃ (t : TileWrite) (s : State) (i : Nat), s.power.phase = .running ∧ qpReady s t.qp = true ∧ s.mode ≠ .fatal ∧ s.survey.frozen = false ∧ (t.qp < 257 ∨ 384 < t.qp) ∧ tileSession s t = some i ∧
      let x := sessAt s i
      x.shadow = none ∧ x.entry.state ≠ .ready) ∧
    (∃ (t : TileWrite) (s : State) (i : Nat), s.power.phase = .running ∧ qpReady s t.qp = true ∧ s.mode ≠ .fatal ∧ s.survey.frozen = false ∧ (t.qp < 257 ∨ 384 < t.qp) ∧ tileSession s t = some i ∧
      let a := tileAddrOf t.addr
      let x := sessAt s i
      let h := sessShape s i
      let fits := tileFits h a (h.nMax / 16)
      x.shadow = none ∧ x.entry.state = .ready ∧ ringOf s x.entry.partition = none ∧ fits = false) ∧
    (∃ (t : TileWrite) (s : State) (i : Nat), s.power.phase = .running ∧ qpReady s t.qp = true ∧ s.mode ≠ .fatal ∧ s.survey.frozen = false ∧ (t.qp < 257 ∨ 384 < t.qp) ∧ tileSession s t = some i ∧
      let a := tileAddrOf t.addr
      let x := sessAt s i
      let h := sessShape s i
      let fits := tileFits h a (h.nMax / 16)
      let want (lp : Nat) : Bool := x.record.length ≤ globalPos s x.entry.partition lp
      x.shadow = none ∧ x.entry.state = .ready ∧ ringOf s x.entry.partition = none ∧ fits = true ∧ writeTileRows i h a t.data want s = none) ∧
    (∃ (t : TileWrite) (s : State) (i : Nat) (u : State), s.power.phase = .running ∧ qpReady s t.qp = true ∧ s.mode ≠ .fatal ∧ s.survey.frozen = false ∧ (t.qp < 257 ∨ 384 < t.qp) ∧ tileSession s t = some i ∧
      let a := tileAddrOf t.addr
      let x := sessAt s i
      let h := sessShape s i
      let fits := tileFits h a (h.nMax / 16)
      let want (lp : Nat) : Bool := x.record.length ≤ globalPos s x.entry.partition lp
      x.shadow = none ∧ x.entry.state = .ready ∧ ringOf s x.entry.partition = none ∧ fits = true ∧ writeTileRows i h a t.data want s = some u) ∧
    (∃ (t : TileWrite) (s : State) (i : Nat), s.power.phase = .running ∧ qpReady s t.qp = true ∧ s.mode ≠ .fatal ∧ s.survey.frozen = false ∧ (t.qp < 257 ∨ 384 < t.qp) ∧ tileSession s t = some i ∧
      let a := tileAddrOf t.addr
      let x := sessAt s i
      let h := sessShape s i
      let fits := tileFits h a (h.nMax / 16)
      x.shadow = none ∧ x.entry.state = .ready ∧ ringOf s x.entry.partition = none ∧ fits = true ∧
      let e := pageAt x (pageKey h a.layer a.head (16 * a.group / h.run))
      e.tier = 0 ∧ (frameAt s e.frame).refCount ≤ 1 ∧ x.inherited.contains (pageKey h a.layer a.head (16 * a.group / h.run)) = false) ∧
    (∃ (t : TileWrite) (s : State) (d : DestMove) (u : State), s.power.phase = .running ∧ qpReady s t.qp = true ∧ s.mode ≠ .fatal ∧ s.survey.frozen = false ∧ 321 ≤ t.qp ∧ t.qp ≤ 384 ∧ d.node = peerNodeOf t.qp ∧
      let a := tileAddrOf t.addr
      let x := sessAt s a.index
      let h := sessShape s a.index
      x.move = some (.dest d) ∧ x.entry.state = .moving ∧ tileFits h a (h.nMax / 16) = true ∧ (writeTileRows a.index h a t.data (fun _ => true) s = some u)) ∧
    (∃ (t : TileWrite) (s : State) (d : DestMove), s.power.phase = .running ∧ qpReady s t.qp = true ∧ s.mode ≠ .fatal ∧ s.survey.frozen = false ∧ 321 ≤ t.qp ∧ t.qp ≤ 384 ∧ d.node = peerNodeOf t.qp ∧
      let a := tileAddrOf t.addr
      let x := sessAt s a.index
      let h := sessShape s a.index
      x.move = some (.dest d) ∧ x.entry.state = .moving ∧ tileFits h a (h.nMax / 16) = false) ∧
    (∃ (t : TileWrite) (s : State), s.power.phase = .running ∧ qpReady s t.qp = true ∧ s.mode ≠ .fatal ∧ s.survey.frozen = false ∧ 321 ≤ t.qp ∧ t.qp ≤ 384 ∧
      let a := tileAddrOf t.addr
      let x := sessAt s a.index
      x.entry.state ≠ .moving) := by
  obtain ⟨u, hu⟩ := Option.isSome_iff_exists.1 rows_written
  obtain ⟨v, hv⟩ := Option.isSome_iff_exists.1 rows_arrived
  exact ⟨⟨tile6, { run0 with power.phase := .held }, by decide +kernel⟩, ⟨tile6, { run0 with power.phase := .starting }, by decide +kernel⟩,
    ⟨tile6, { run0 with mode := .fatal }, by decide +kernel⟩, ⟨tile6, { run0 with survey.frozen := true }, by decide +kernel⟩, ⟨tile6 0 512 4, with3 (sess .ready), by decide +kernel⟩,
    ⟨tile6, with3 { sess .ready with shadow := some {} }, 3, by decide +kernel⟩, ⟨tile6, with3 (sess .waiting), 3, by decide +kernel⟩, ⟨tile6 1, with3 (sess .ready) part0, 3, by decide +kernel⟩,
    ⟨tile6, paged .filling 2, 3, rfl, rfl, by decide +kernel, by decide +kernel, by decide +kernel, by decide +kernel, by decide +kernel, by decide +kernel, by decide +kernel, by decide +kernel, Option.isNone_iff_eq_none.1 (by decide +kernel)⟩,
    ⟨tile6, paged .kv 1, 3, u, rfl, rfl, by decide +kernel, by decide +kernel, by decide +kernel, by decide +kernel, by decide +kernel, by decide +kernel, by decide +kernel, by decide +kernel, hu⟩, ⟨tile6, paged .kv 1, 3, by decide +kernel⟩,
    ⟨tile6 0 323, arrivals, arriving, v, rfl, rfl, by decide +kernel, by decide +kernel, by decide +kernel, by decide +kernel, by decide +kernel, by decide +kernel, by decide +kernel, by decide +kernel, hv⟩, ⟨tile6 1 323, arrivals, arriving, by decide +kernel⟩,
    ⟨tile6 0 323, { with3 (sess .ready) part0 with qps := [(323, { state := .ready, kind := 3 })] }, by decide +kernel⟩⟩

theorem test_PairsAreTakenOverAndDetached :
    (∃ (m : Msg) (s : State), Serves .fm m s ∧ m.ops.length = 0 ∧ Tab.rising s.sessions = true ∧ doublesEnableVal s = 1 ∧ s.pair.state ≠ .takenOver ∧ s.pair.state ≠ .detached) ∧
    (∃ (m : Msg) (s : State), Serves .fm m s ∧ m.ops.length = 0 ∧ Tab.rising s.sessions = true ∧ doublesEnableVal s = 1 ∧ s.pair.state ≠ .takenOver) ∧
    (∃ (m : Msg) (s : State), Serves .fm m s ∧ m.ops.length = 0 ∧ Tab.rising s.sessions = true ∧ doublesEnableVal s ≠ 1) ∧
    (∃ (m : Msg) (s : State), Serves .fm m s ∧ m.ops.length = 0 ∧ Tab.rising s.sessions = true ∧ doublesEnableVal s ≠ 1) :=
  ⟨⟨(tmsg 0 []), (with3 (sess .ready) { run0 with dict.run := [(0x208006, 1), (0x208007, 1), (0x300001, 1), (0x301006, 1)], qps := [(258, { state := .ready, kind := 3 }), (512, { state := .ready, bound := true, context := 1, created := true })], pair := { state := .paired, items := [(3, 8)], sync := [(4, 2, false)] }, held := [(3, tmsg 512 [])] }), serves_of (by decide +kernel), by decide +kernel⟩,
   ⟨(tmsg 0 []), (with3 { sess .ready with entry := { (sess .ready).entry with mirrored := true } } { run0 with dict.run := [(0x208006, 1), (0x208007, 1), (0x300001, 1), (0x301006, 1)], qps := [(258, { state := .ready, kind := 3 }), (512, { state := .ready, bound := true, context := 1, created := true })], pair := { state := .paired, items := [(3, 8)], sync := [(4, 2, false)] }, held := [(3, tmsg 512 [])] }), serves_of (by decide +kernel), by decide +kernel⟩,
   ⟨(tmsg 0 []), run0, serves_of (by decide +kernel), by decide +kernel⟩,
   ⟨(tmsg 0 []), run0, serves_of (by decide +kernel), by decide +kernel⟩⟩

theorem test_BeatsKeepThePairLive :
    (∃ (m : Msg) (s : State), Serves .peer m s ∧ m.ops.length = 0 ∧ fromPartner s m = true ∧ s.pair.state ≠ .none) ∧
    (∃ (m : Msg) (s : State), Serves .peer m s ∧ m.ops.length = 0 ∧ fromPartner s m = true ∧ s.pair.state = .none ∧ (∀ e ∈ s.sessions, mirrors { s with pair.state := .syncing } e.1
      = false)) ∧
    (∃ (s : State), Live s ∧ doublesEnableVal s = 1 ∧ s.pair.sentAt + pairBeatUsVal s * 1000 ≤ now s ∧ qpReady s (ringQp (partnerNodeVal s)) = true) ∧
    (∃ (s : State), Live s ∧ pairLive s = true ∧ s.pair.lostAt = none ∧ s.pair.heardAt + pairDeadlineMsVal s * 1000000 ≤ now s) ∧
    (∃ (s : State) (t0 : Nat), Live s ∧ s.pair.lostAt = some t0 ∧ doublesEnableVal s = 1 ∧ pairLive s = true ∧ t0 + pairDeadlineMsVal s * 1000000 ≤ now s ∧ failoverModeVal s ≠ 0) ∧
    (∃ (s : State) (t0 : Nat), Live s ∧ s.pair.lostAt = some t0 ∧ doublesEnableVal s = 1 ∧ pairLive s = true ∧ t0 + pairDeadlineMsVal s * 1000000 ≤ now s ∧ failoverModeVal s = 0) ∧
    (∃ (m : Msg) (s : State), Serves .peer m s ∧ m.ops.length = 0 ∧ fromPartner s m = false) :=
  ⟨⟨(tmsg 258 []), ({ { run0 with dict.run := [(0x208006, 1), (0x208007, 1), (0x300001, 1), (0x301006, 1)], qps := [(258, { state := .ready, kind := 3 }), (512, { state := .ready, bound := true, context := 1, created := true })], pair := { state := .paired, items := [(3, 8)], sync := [(4, 2, false)] }, held := [(3, tmsg 512 [])] } with time.now := 7 }), serves_of (by decide +kernel), by decide +kernel⟩,
   ⟨(tmsg 258 []), ({ run0 with dict.run := [(0x208006, 1), (0x208007, 1), (0x300001, 1), (0x301006, 1)], qps := [(258, { state := .ready, kind := 3 }), (512, { state := .ready, bound := true, context := 1, created := true })], time.now := 7 }), serves_of (by decide +kernel), by decide +kernel⟩,
   ⟨({ { run0 with dict.run := [(0x208006, 1), (0x208007, 1), (0x300001, 1), (0x301006, 1)], qps := [(258, { state := .ready, kind := 3 }), (512, { state := .ready, bound := true, context := 1, created := true })], pair := { state := .paired, items := [(3, 8)], sync := [(4, 2, false)] }, held := [(3, tmsg 512 [])] } with time.now := 100000 }), live_of (by decide +kernel), by decide +kernel⟩,
   ⟨({ { run0 with dict.run := [(0x208006, 1), (0x208007, 1), (0x300001, 1), (0x301006, 1)], qps := [(258, { state := .ready, kind := 3 }), (512, { state := .ready, bound := true, context := 1, created := true })], pair := { state := .paired, items := [(3, 8)], sync := [(4, 2, false)] }, held := [(3, tmsg 512 [])] } with time.now := 5000000 }), live_of (by decide +kernel), by decide +kernel⟩,
   ⟨({ { run0 with dict.run := [(0x208006, 1), (0x208007, 1), (0x300001, 1), (0x301006, 1)], qps := [(258, { state := .ready, kind := 3 }), (512, { state := .ready, bound := true, context := 1, created := true })], pair := { state := .paired, items := [(3, 8)], sync := [(4, 2, false)] }, held := [(3, tmsg 512 [])] } with time.now := 5000000, pair.lostAt := some 0, dict.vals := [(0x208008, 1)] }), 0, live_of (by decide +kernel), by decide +kernel⟩,
   ⟨({ with3 ({ sess .ready with shadow := some { copied := true } } : Session) { run0 with dict.run := [(0x208006, 1), (0x208007, 1), (0x300001, 1), (0x301006, 1)], qps := [(258, { state := .ready, kind := 3 }), (512, { state := .ready, bound := true, context := 1, created := true })], pair := { state := .paired, items := [(3, 8)], sync := [(4, 2, false)] }, held := [(3, tmsg 512 [])] } with time.now := 5000000, pair.lostAt := some 0 }), 0, live_of (by decide +kernel), by decide +kernel⟩,
   ⟨(tmsg 258 []), ({ { run0 with dict.run := [(0x208006, 1), (0x208007, 1), (0x300001, 1), (0x301006, 1)], qps := [(258, { state := .ready, kind := 3 }), (512, { state := .ready, bound := true, context := 1, created := true })], pair := { state := .paired, items := [(3, 8)], sync := [(4, 2, false)] }, held := [(3, tmsg 512 [])] } with dict.run := [(0x208006, 1), (0x208007, 2)] }), serves_of (by decide +kernel), by decide +kernel⟩⟩

theorem test_MirrorItemsAreAppliedAndAcknowledged :
    (∃ (c : Msg → MirrorItem → Instr) (m : Msg) (it : MirrorItem) (s : State) (q : Nat) (n : Nat) (g : Word) (w : Word) (l : Word), Serves .peer m s ∧ (c = .mirrorUpdate ∨ c = .mirrorMap ∨ c = .mirrorAppend ∨ c = .mirrorStepEnd ∨ c = .mirrorPage) ∧ m.ops.length ≤ 255 ∧ fromPartner
      s m = true ∧ s.pair.state ≠ .detached ∧ s.pair.state ≠ .takenOver ∧ it.body = .stepEnd q n g w l ∧
      let i := it.index
      shadowFits s i it.body = true ∧ (sessAt s i).shadow.isSome) ∧
    (∃ (c : Msg → MirrorItem → Instr) (m : Msg) (it : MirrorItem) (s : State) (e : Entry) (r : Record) (tag : Word) (im : List (LoadKind × Nat × Word)) (k : Option Word), Serves .peer m s ∧ (c = .mirrorUpdate ∨ c = .mirrorMap ∨ c = .mirrorAppend ∨ c = .mirrorStepEnd ∨ c = .mirrorPage) ∧ m.ops.length ≤ 255 ∧ fromPartner
      s m = true ∧ s.pair.state ≠ .detached ∧ s.pair.state ≠ .takenOver ∧ it.body = .update e r tag im k ∧ (e.state = .ready ∨ e.state = .waiting ∨ e.state
      = .active) ∧
      let i := it.index
      shadowFits s i it.body = true ∧ (sessAt s i).root.isSome ∧ (sessAt s i).shadow.isSome) ∧
    (∃ (c : Msg → MirrorItem → Instr) (m : Msg) (it : MirrorItem) (s : State) (u : State), Serves .peer m s ∧ (c = .mirrorUpdate ∨ c = .mirrorMap ∨ c = .mirrorAppend ∨ c = .mirrorStepEnd ∨ c = .mirrorPage) ∧ m.ops.length ≤ 255 ∧ fromPartner
      s m = true ∧ s.pair.state ≠ .detached ∧ s.pair.state ≠ .takenOver ∧ u.qps = s.qps ∧
      let i := it.index
      shadowFits s i it.body = true ∧ applyItem i it.body (takeMsg m s) = some u) ∧
    (∃ (c : Msg → MirrorItem → Instr) (m : Msg) (it : MirrorItem) (s : State), Serves .peer m s ∧ (c = .mirrorUpdate ∨ c = .mirrorMap ∨ c = .mirrorAppend ∨ c = .mirrorStepEnd ∨ c = .mirrorPage) ∧ m.ops.length ≤ 255 ∧ fromPartner
      s m = true ∧ s.pair.state ≠ .detached ∧ s.pair.state ≠ .takenOver ∧
      let i := it.index
      shadowFits s i it.body = false ∧ (sessAt s i).shadow = none) ∧
    (∃ (c : Msg → MirrorItem → Instr) (m : Msg) (it : MirrorItem) (s : State), Serves .peer m s ∧ (c = .mirrorUpdate ∨ c = .mirrorMap ∨ c = .mirrorAppend ∨ c = .mirrorStepEnd ∨ c = .mirrorPage) ∧ m.ops.length ≤ 255 ∧ fromPartner
      s m = true ∧ (s.pair.state = .takenOver ∨ s.pair.state = .detached)) ∧
    (∃ (m : Msg) (s : State), Serves .peer m s ∧ m.ops.length = 2 ∧ opWord m 1 = allOnes ∧ fromPartner s m = true ∧ (s.pair.state = .syncing ∨ s.pair.state = .paired)) :=
  ⟨⟨.mirrorStepEnd, (tmsg 258 []), ({ seq := 9, index := 3, body := (.stepEnd 3 4 5 6 7) }), (with3 ({ sess .ready with shadow := some { copied := true }, root := some 5 } : Session) { run0 with dict.run := [(0x208006, 1), (0x208007, 1), (0x300001, 1), (0x301006, 1)], qps := [(258, { state := .ready, kind := 3 }), (512, { state := .ready, bound := true, context := 1, created := true })], pair := { state := .paired } }), 3, 4, 5, 6, 7, serves_of (by decide +kernel), by simp, by decide +kernel⟩,
   ⟨.mirrorUpdate, (tmsg 258 []), ({ seq := 9, index := 3, body := (.update { state := .waiting, generation := 5 } { handle := h3, context := 1, length := 7, stepSeq := 4 } 9 [] none) }), (with3 ({ sess .ready with shadow := some { copied := true }, root := some 5 } : Session) { { run0 with dict.run := [(0x208006, 1), (0x208007, 1), (0x300001, 1), (0x301006, 1)], qps := [(258, { state := .ready, kind := 3 }), (512, { state := .ready, bound := true, context := 1, created := true })], pair := { state := .paired } } with models := part0.models }), ({ state := .waiting, generation := 5 }), ({ handle := h3, context := 1, length := 7, stepSeq := 4 }), 9, [], none, serves_of (by decide +kernel), by simp, by decide +kernel⟩,
   ⟨.mirrorUpdate, (tmsg 258 []), ({ seq := 9, index := 3, body := (.update { state := .waiting, generation := 5 } { handle := h3, context := 1, length := 7, stepSeq := 4 } 9 [] none) }), (with3 ({ sess .ready with shadow := some { copied := true }, root := some 5 } : Session) { { run0 with dict.run := [(0x208006, 1), (0x208007, 1), (0x300001, 1), (0x301006, 1)], qps := [(258, { state := .ready, kind := 3 }), (512, { state := .ready, bound := true, context := 1, created := true })], pair := { state := .paired } } with models := part0.models }), (((applyItem 3 (.update { state := .waiting, generation := 5 } { handle := h3, context := 1, length := 7, stepSeq := 4 } 9 [] none) (takeMsg (tmsg 258 []) (with3 ({ sess .ready with shadow := some { copied := true }, root := some 5 } : Session) { { run0 with dict.run := [(0x208006, 1), (0x208007, 1), (0x300001, 1), (0x301006, 1)], qps := [(258, { state := .ready, kind := 3 }), (512, { state := .ready, bound := true, context := 1, created := true })], pair := { state := .paired } } with models := part0.models }))).getD run0)), serves_of (by decide +kernel), by simp, by decide +kernel⟩,
   ⟨.mirrorUpdate, (tmsg 258 []), ({ seq := 9, index := 3, body := (.update { state := .waiting, generation := 5 } { handle := h3, context := 1, length := 7, stepSeq := 4 } 9 [] none) }), (with3 (sess .ready) { run0 with dict.run := [(0x208006, 1), (0x208007, 1), (0x300001, 1), (0x301006, 1)], qps := [(258, { state := .ready, kind := 3 }), (512, { state := .ready, bound := true, context := 1, created := true })], pair := { state := .paired } }), serves_of (by decide +kernel), by simp, by decide +kernel⟩,
   ⟨.mirrorUpdate, (tmsg 258 []), ({ seq := 9, index := 3, body := (.update { state := .waiting, generation := 5 } { handle := h3, context := 1, length := 7, stepSeq := 4 } 9 [] none) }), ({ { run0 with dict.run := [(0x208006, 1), (0x208007, 1), (0x300001, 1), (0x301006, 1)], qps := [(258, { state := .ready, kind := 3 }), (512, { state := .ready, bound := true, context := 1, created := true })], pair := { state := .paired } } with pair.state := .takenOver }), serves_of (by decide +kernel), by simp, by decide +kernel⟩,
   ⟨(tmsg 258 [5, 0xFFFFFFFFFFFFFFFF]), (with3 (sess .ready) { run0 with dict.run := [(0x208006, 1), (0x208007, 1), (0x300001, 1), (0x301006, 1)], qps := [(258, { state := .ready, kind := 3 }), (512, { state := .ready, bound := true, context := 1, created := true })], pair := { state := .syncing, sync := [(3, 5, false), (4, 6, false)], items := [(5, 1), (6, 1)] }, held := [(5, tmsg 512 []), (6, tmsg 512 [])] }), serves_of (by decide +kernel), by decide +kernel⟩⟩

theorem test_MigrationsStart :
    (∃ (m : Msg) (i : Nat) (s : State), Reaches false m i s ∧ m.ops.length = 2 ∧ opNat m 1 ≤ 63 ∧
      let x := sessAt s i
      let node := opNat m 0
      node ≠ nodeIdVal s ∧ nodeInTopology s node = true ∧ ringOf s x.entry.partition = none ∧ (x.entry.state = .ready ∨ x.entry.state = .waiting ∨
      x.entry.state = .parked ∨ x.entry.state = .active)) ∧
    (∃ (m : Msg) (i : Nat) (s : State), Reaches false m i s ∧ m.ops.length = 2 ∧ opNat m 1 ≤ 63 ∧
      let x := sessAt s i
      let node := opNat m 0
      node ≠ nodeIdVal s ∧ nodeInTopology s node = true ∧ ringOf s x.entry.partition = none ∧ (x.entry.state = .moving ∨ x.entry.state = .frozen ∨
      x.entry.state = .faulted ∨ x.entry.state = .tombstone)) ∧
    (∃ (m : Msg) (i : Nat) (s : State), Reaches false m i s ∧ m.ops.length = 2 ∧ opNat m 1 ≤ 63 ∧
      let x := sessAt s i
      let node := opNat m 0
      node ≠ nodeIdVal s ∧ nodeInTopology s node = true ∧ (ringOf s x.entry.partition).isSome ∧ (x.entry.state = .ready ∨ x.entry.state = .waiting ∨
      x.entry.state = .parked ∨ x.entry.state = .active)) ∧
    (∃ (m : Msg) (i : Nat) (s : State), Reaches false m i s ∧ m.ops.length = 2 ∧ opNat m 1 ≤ 63 ∧
      let node := opNat m 0
      (node = nodeIdVal s ∨ nodeInTopology s node = false)) :=
  ⟨⟨(tmsg 512 [1, 63] h3), 3, (with3 { sess .ready with pages := [(0, { tier := 0, frame := 5 })], record := { (sess .ready).record with length := 2, stepSeq := 4 } } { part0 with dict.run := [(0x208002, 1), (0x208005, 4), (0x300001, 1)], qps := [(258, { state := .ready, kind := 3 }), (322, { state := .ready, kind := 3 }), (512, { state := .ready, bound := true, context := 1, created := true })] }), reaches_of (by decide +kernel), by decide +kernel⟩,
   ⟨(tmsg 512 [1, 0] h3), 3, (with3 (sess .frozen) { part0 with dict.run := [(0x208002, 1), (0x208005, 4), (0x300001, 1)], qps := [(258, { state := .ready, kind := 3 }), (322, { state := .ready, kind := 3 }), (512, { state := .ready, bound := true, context := 1, created := true })] }), reaches_of (by decide +kernel), by decide +kernel⟩,
   ⟨(tmsg 512 [1, 0] h3), 3, (with3 (sess .ready) { part0 with dict.run := [(0x208002, 1), (0x208005, 4), (0x300001, 1), (0x301001, 1), (0x301003, 1)], qps := [(258, { state := .ready, kind := 3 }), (322, { state := .ready, kind := 3 }), (512, { state := .ready, bound := true, context := 1, created := true })] }), reaches_of (by decide +kernel), by decide +kernel⟩,
   ⟨(tmsg 512 [0, 0] h3), 3, (with3 (sess .ready) { part0 with dict.run := [(0x208002, 1), (0x208005, 4), (0x300001, 1)], qps := [(258, { state := .ready, kind := 3 }), (322, { state := .ready, kind := 3 }), (512, { state := .ready, bound := true, context := 1, created := true })] }), reaches_of (by decide +kernel), by decide +kernel⟩⟩

theorem test_MigrationsArrive :
    (∃ (m : Msg) (o : MigrateOpen) (s : State) (i : Nat) (w : State) (v : State) (u : State), Serves .peer m s ∧ s.mode = .run ∧ m.ops.length ≤ 255 ∧ o.partition ≤ 63 ∧ (migrateCheck s o).1 = .ok ∧ allocIndex s = some i ∧ (admission o.partition
      o.record.cls (stepBytes (Tab.get s.models o.record.modelSlot {}) o.record.length) (fun u => (openEntry i (peerNodeOf m.qp) o u).bind (trialFrames i))
      (takeMsg m s) = (some w, v)) ∧ openEntry i (peerNodeOf m.qp) o (takeMsg m s) = some u) ∧
    (∃ (m : Msg) (o : MigrateOpen) (s : State), Serves .peer m s ∧ s.mode = .run ∧ m.ops.length ≤ 255 ∧ o.partition ≤ 63 ∧ (migrateCheck s o).1 ≠ .ok) ∧
    (∃ (c : Instr) (on : On) (m : Msg) (commit : Bool) (s : State) (st : Status) (i : Nat) (d : DestMove), Serves on m s ∧ s.mode = .run ∧ (c = .migrateCommit m ∧ on = .peer ∧ m.ops.length ≤ 255 ∧ commit = true ∨ c = .migrateAbort m ∧ on = .peer ∧
      m.ops.length ≤ 255 ∧ commit = false ∨ c = .migrateResolve m ∧ on = .mailbox ∧ m.ops.length = 1 ∧ opNat m 0 = (if commit then 1 else 0)) ∧ destOf s
      m.handle = (st, some (i, d))) ∧
    (∃ (c : Instr) (on : On) (m : Msg) (commit : Bool) (s : State) (st : Status), Serves on m s ∧ s.mode = .run ∧ (c = .migrateCommit m ∧ on = .peer ∧ m.ops.length ≤ 255 ∧ commit = true ∨ c = .migrateAbort m ∧ on = .peer ∧
      m.ops.length ≤ 255 ∧ commit = false ∨ c = .migrateResolve m ∧ on = .mailbox ∧ m.ops.length = 1 ∧ opNat m 0 = (if commit then 1 else 0)) ∧ destOf s
      m.handle = (st, none)) :=
  ⟨⟨(tmsg 322 []), ({ record := { handle := handleOf 5 6 7, context := 1, length := 20, stepSeq := 3, innings := 4, returnState := .waiting, parent := 9, timerNs := 6 }, partition := 0, modelTag := 9, imageTags := [] }), ({ part0 with dict.run := [(0x208002, 1), (0x208005, 4), (0x300001, 1)], qps := [(258, { state := .ready, kind := 3 }), (322, { state := .ready, kind := 3 }), (512, { state := .ready, bound := true, context := 1, created := true })] }), (((allocIndex ({ part0 with dict.run := [(0x208002, 1), (0x208005, 4), (0x300001, 1)], qps := [(258, { state := .ready, kind := 3 }), (322, { state := .ready, kind := 3 }), (512, { state := .ready, bound := true, context := 1, created := true })] })).getD 0)), (((admission 0 0 (stepBytes (Tab.get ({ part0 with dict.run := [(0x208002, 1), (0x208005, 4), (0x300001, 1)], qps := [(258, { state := .ready, kind := 3 }), (322, { state := .ready, kind := 3 }), (512, { state := .ready, bound := true, context := 1, created := true })] }).models 0 {}) 20) (fun u => (openEntry ((allocIndex ({ part0 with dict.run := [(0x208002, 1), (0x208005, 4), (0x300001, 1)], qps := [(258, { state := .ready, kind := 3 }), (322, { state := .ready, kind := 3 }), (512, { state := .ready, bound := true, context := 1, created := true })] })).getD 0) 1 ({ record := { handle := handleOf 5 6 7, context := 1, length := 20, stepSeq := 3, innings := 4, returnState := .waiting, parent := 9, timerNs := 6 }, partition := 0, modelTag := 9, imageTags := [] }) u).bind (trialFrames ((allocIndex ({ part0 with dict.run := [(0x208002, 1), (0x208005, 4), (0x300001, 1)], qps := [(258, { state := .ready, kind := 3 }), (322, { state := .ready, kind := 3 }), (512, { state := .ready, bound := true, context := 1, created := true })] })).getD 0))) (takeMsg (tmsg 322 []) ({ part0 with dict.run := [(0x208002, 1), (0x208005, 4), (0x300001, 1)], qps := [(258, { state := .ready, kind := 3 }), (322, { state := .ready, kind := 3 }), (512, { state := .ready, bound := true, context := 1, created := true })] }))).1.getD run0)), ((admission 0 0 (stepBytes (Tab.get ({ part0 with dict.run := [(0x208002, 1), (0x208005, 4), (0x300001, 1)], qps := [(258, { state := .ready, kind := 3 }), (322, { state := .ready, kind := 3 }), (512, { state := .ready, bound := true, context := 1, created := true })] }).models 0 {}) 20) (fun u => (openEntry ((allocIndex ({ part0 with dict.run := [(0x208002, 1), (0x208005, 4), (0x300001, 1)], qps := [(258, { state := .ready, kind := 3 }), (322, { state := .ready, kind := 3 }), (512, { state := .ready, bound := true, context := 1, created := true })] })).getD 0) 1 ({ record := { handle := handleOf 5 6 7, context := 1, length := 20, stepSeq := 3, innings := 4, returnState := .waiting, parent := 9, timerNs := 6 }, partition := 0, modelTag := 9, imageTags := [] }) u).bind (trialFrames ((allocIndex ({ part0 with dict.run := [(0x208002, 1), (0x208005, 4), (0x300001, 1)], qps := [(258, { state := .ready, kind := 3 }), (322, { state := .ready, kind := 3 }), (512, { state := .ready, bound := true, context := 1, created := true })] })).getD 0))) (takeMsg (tmsg 322 []) ({ part0 with dict.run := [(0x208002, 1), (0x208005, 4), (0x300001, 1)], qps := [(258, { state := .ready, kind := 3 }), (322, { state := .ready, kind := 3 }), (512, { state := .ready, bound := true, context := 1, created := true })] }))).2), (((openEntry ((allocIndex ({ part0 with dict.run := [(0x208002, 1), (0x208005, 4), (0x300001, 1)], qps := [(258, { state := .ready, kind := 3 }), (322, { state := .ready, kind := 3 }), (512, { state := .ready, bound := true, context := 1, created := true })] })).getD 0) 1 ({ record := { handle := handleOf 5 6 7, context := 1, length := 20, stepSeq := 3, innings := 4, returnState := .waiting, parent := 9, timerNs := 6 }, partition := 0, modelTag := 9, imageTags := [] }) (takeMsg (tmsg 322 []) ({ part0 with dict.run := [(0x208002, 1), (0x208005, 4), (0x300001, 1)], qps := [(258, { state := .ready, kind := 3 }), (322, { state := .ready, kind := 3 }), (512, { state := .ready, bound := true, context := 1, created := true })] }))).getD run0)), serves_of (by decide +kernel), by decide +kernel⟩,
   ⟨(tmsg 322 []), ({ record := { handle := handleOf 5 6 7, context := 1, length := 20, stepSeq := 3, innings := 4, returnState := .waiting, parent := 9, timerNs := 6 }, partition := 1, modelTag := 9, imageTags := [] }), ({ part0 with dict.run := [(0x208002, 1), (0x208005, 4), (0x300001, 1)], qps := [(258, { state := .ready, kind := 3 }), (322, { state := .ready, kind := 3 }), (512, { state := .ready, bound := true, context := 1, created := true })] }), serves_of (by decide +kernel), by decide +kernel⟩,
   ⟨(.migrateCommit { tmsg 322 [] with handle := h3 }), .peer, ({ tmsg 322 [] with handle := h3 }), true, (with3 { sess .moving with move := some (.dest ({ node := 1, back := .waiting, innings := 4, remaining := some 6 } : DestMove)) } { part0 with dict.run := [(0x208002, 1), (0x208005, 4), (0x300001, 1)], qps := [(258, { state := .ready, kind := 3 }), (322, { state := .ready, kind := 3 }), (512, { state := .ready, bound := true, context := 1, created := true })] }), .ok, 3, (({ node := 1, back := .waiting, innings := 4, remaining := some 6 } : DestMove)), serves_of (by decide +kernel), by decide +kernel⟩,
   ⟨(.migrateCommit { tmsg 322 [] with handle := h3 }), .peer, ({ tmsg 322 [] with handle := h3 }), true, (with3 (sess .ready) { part0 with dict.run := [(0x208002, 1), (0x208005, 4), (0x300001, 1)], qps := [(258, { state := .ready, kind := 3 }), (322, { state := .ready, kind := 3 }), (512, { state := .ready, bound := true, context := 1, created := true })] }), .migrateUnresolved, serves_of (by decide +kernel), by decide +kernel⟩⟩

theorem test_ResponsesTimeOut :
    (∃ (n : Nat) (w : Wait) (s : State), Live s ∧ Tab.find s.waits n = some w ∧ w.consumer = .none) ∧
    (∃ (n : Nat) (w : Wait) (s : State) (i : Nat) (v : SourceMove), Live s ∧ Tab.find s.waits n = some w ∧ w.consumer = .migrateOpen i ∧ (sessAt s i).move = some (.source v)) ∧
    (∃ (n : Nat) (w : Wait) (s : State) (i : Nat) (qp : Nat) (tag : BitVec 32) (new : Word), Live s ∧ Tab.find s.waits n = some w ∧ w.consumer = .migrateCommit i qp tag new ∧ qpReady s qp = true) ∧
    (∃ (n : Nat) (w : Wait) (s : State) (i : Nat) (k : Nat) (v : RingWait), Live s ∧ Tab.find s.waits n = some w ∧ w.consumer = .ring i k ∧ (s.ringWaits.find? (fun v => v.index == i && v.left.contains k) = some v) ∧ v.left =
      [k] ∧ v.got = [] ∧ qpReady s v.qp = true ∧ v.opcode ≠ 0x0101 ∧ v.opcode ≠ 0x0106) ∧
    (∃ (n : Nat) (w : Wait) (s : State) (i : Nat) (k : Nat) (v : RingWait), Live s ∧ Tab.find s.waits n = some w ∧ w.consumer = .ring i k ∧ (s.ringWaits.find? (fun v => v.index == i && v.left.contains k) = some v) ∧ v.left =
      [k] ∧ v.got = [] ∧ qpReady s v.qp = true ∧ (v.opcode = 0x0101 ∨ v.opcode = 0x0106)) :=
  ⟨⟨4, (⟨.none, 258, 7⟩), ({ run0 with waits := [(4, ⟨.none, 258, 7⟩)] }), live_of (by decide +kernel), by decide +kernel⟩,
   ⟨4, (⟨.migrateOpen 3, 322, 7⟩), ({ with3 { sess .moving with move := some (.source ({ node := 1, part := 0, qp := 512, tag := 3 } : SourceMove)) } with waits := [(4, ⟨.migrateOpen 3, 322, 7⟩)] }), 3, (({ node := 1, part := 0, qp := 512, tag := 3 } : SourceMove)), live_of (by decide +kernel), by decide +kernel⟩,
   ⟨4, (⟨.migrateCommit 3 512 9 11, 322, 7⟩), ({ with3 (sess .tombstone) with waits := [(4, ⟨.migrateCommit 3 512 9 11, 322, 7⟩)] }), 3, 512, 9, 11, live_of (by decide +kernel), by decide +kernel⟩,
   ⟨4, (⟨.ring 3 1, 258, 7⟩), ({ with3 (sess .ready) with waits := [(4, ⟨.ring 3 1, 258, 7⟩)], ringWaits := [({ index := 3, qp := 512, tag := 8, opcode := 0x0105, answer := h3, got := [], left := [1] } : RingWait)] }), 3, 1, (({ index := 3, qp := 512, tag := 8, opcode := 0x0105, answer := h3, got := [], left := [1] } : RingWait)), live_of (by decide +kernel), by decide +kernel⟩,
   ⟨4, (⟨.ring 3 1, 258, 7⟩), ({ with3 (sess .ready) with waits := [(4, ⟨.ring 3 1, 258, 7⟩)], ringWaits := [({ index := 3, qp := 512, tag := 8, opcode := 0x0101, answer := h3, got := [], left := [1] } : RingWait)] }), 3, 1, (({ index := 3, qp := 512, tag := 8, opcode := 0x0101, answer := h3, got := [], left := [1] } : RingWait)), live_of (by decide +kernel), by decide +kernel⟩⟩

theorem test_RingMembersServeTheHome :
    (∃ (m : Msg) (r : RingCmd) (s : State) (i : Nat), Serves .peer m s ∧ s.mode = .run ∧ m.ops.length ≤ 255 ∧ ringResolve s m.qp r.home = some i ∧ (ctxAt s (sessAt s i).record.context).tornDown = false ∧
      r.opcode = 0x0108 ∧
      let x := sessAt s i
      x.entry.state = .ready) ∧
    (∃ (m : Msg) (r : RingCmd) (s : State) (i : Nat), Serves .peer m s ∧ s.mode = .run ∧ m.ops.length ≤ 255 ∧ ringResolve s m.qp r.home = some i ∧ (ctxAt s (sessAt s i).record.context).tornDown = false ∧
      r.opcode = 0x0107 ∧
      let x := sessAt s i
      x.entry.state ≠ .active ∧ x.entry.state ≠ .tombstone ∧ x.entry.state ≠ .free) ∧
    (∃ (m : Msg) (r : RingCmd) (s : State) (i : Nat), Serves .peer m s ∧ s.mode = .run ∧ m.ops.length ≤ 255 ∧ ringResolve s m.qp r.home = some i ∧ (ctxAt s (sessAt s i).record.context).tornDown = false ∧
      r.opcode = 0x0203 ∧
      let x := sessAt s i
      x.entry.state = .ready ∧
      let n := (r.ops.getD 0 allOnes).toNat
      r.length - n + n ≤ maxLength s x.entry.partition (sessShape s i)) ∧
    (∃ (m : Msg) (r : RingCmd) (s : State) (i : Nat), Serves .peer m s ∧ s.mode = .run ∧ m.ops.length ≤ 255 ∧ ringResolve s m.qp r.home = some i ∧ (ctxAt s (sessAt s i).record.context).tornDown = false ∧
      r.opcode = 0x0101) ∧
    (∃ (m : Msg) (r : RingCmd) (s : State), Serves .peer m s ∧ s.mode = .run ∧ m.ops.length ≤ 255 ∧ ringResolve s m.qp r.home = none) ∧
    (∃ (m : Msg) (r : RingAppend) (i : Nat) (s : State) (u : State), Serves .peer m s ∧ m.ops.length ≤ 255 ∧ ringResolve s m.qp r.home = some i ∧ r.layer < (sessShape s i).layers ∧
      let x := sessAt s i
      let lp := localPos s x.entry.partition r.position
      let y : Session := { x with record.length := r.position }
      x.entry.state = .ready ∧ holdsPos s x.entry.partition r.position = true ∧ appendRow i r.layer lp lp r.kv (setSess i y (takeMsg m s)) = some u) ∧
    (∃ (m : Msg) (r : RingAppend) (i : Nat) (s : State), Serves .peer m s ∧ m.ops.length ≤ 255 ∧ ringResolve s m.qp r.home = some i ∧ r.layer < (sessShape s i).layers ∧
      let x := sessAt s i
      let lp := localPos s x.entry.partition r.position
      let y : Session := { x with record.length := r.position }
      x.entry.state = .ready ∧ holdsPos s x.entry.partition r.position = true ∧ appendRow i r.layer lp lp r.kv (setSess i y (takeMsg m s)) = none) ∧
    (∃ (m : Msg) (r : RingQuery) (i : Nat) (s : State), Serves .peer m s ∧ m.ops.length ≤ 255 ∧ ringResolve s m.qp r.home = some i ∧ r.layer < (sessShape s i).layers ∧ ringAppendWaits s m.qp r.home = false ∧
      let x := sessAt s i
      x.entry.state = .ready) ∧
    (∃ (m : Msg) (r : RingQuery) (i : Nat) (s : State), Serves .peer m s ∧ m.ops.length ≤ 255 ∧ ringResolve s m.qp r.home = some i ∧ r.layer < (sessShape s i).layers ∧
      let x := sessAt s i
      x.entry.state = .ready) ∧
    (∃ (m : Msg) (r : RingOutput) (i : Nat) (b : QBlock) (s : State), Serves .peer m s ∧ m.ops.length ≤ 255 ∧ lookupEntry s r.home = .at_ i ∧ (sessAt s i).qblock = some b ∧ b.layer = r.layer ∧ b.phase = .merging) :=
  ⟨⟨(tmsg 257 []), ({ home := handleOf 0 5 9, opcode := 0x0108, ops := [] }), (with3 ({ sess .ready with ringHome := some (0, 9, 5) } : Session) { part0 with dict.run := [(0x208002, 1), (0x208005, 4), (0x300001, 1), (0x301001, 1), (0x301003, 1)], qps := [(257, { state := .ready, kind := 3 }), (258, { state := .ready, kind := 3 }), (512, { state := .ready, bound := true, context := 1, created := true })] }), 3, serves_of (by decide +kernel), by decide +kernel⟩,
   ⟨(tmsg 257 []), ({ home := handleOf 0 5 9, opcode := 0x0107, ops := [] }), (with3 ({ sess .ready with ringHome := some (0, 9, 5) } : Session) { part0 with dict.run := [(0x208002, 1), (0x208005, 4), (0x300001, 1), (0x301001, 1), (0x301003, 1)], qps := [(257, { state := .ready, kind := 3 }), (258, { state := .ready, kind := 3 }), (512, { state := .ready, bound := true, context := 1, created := true })] }), 3, serves_of (by decide +kernel), by decide +kernel⟩,
   ⟨(tmsg 257 []), ({ home := handleOf 0 5 9, opcode := 0x0203, ops := [5] }), (with3 ({ sess .ready with ringHome := some (0, 9, 5) } : Session) { part0 with dict.run := [(0x208002, 1), (0x208005, 4), (0x300001, 1), (0x301001, 1), (0x301003, 1)], qps := [(257, { state := .ready, kind := 3 }), (258, { state := .ready, kind := 3 }), (512, { state := .ready, bound := true, context := 1, created := true })] }), 3, serves_of (by decide +kernel), by decide +kernel⟩,
   ⟨(tmsg 257 []), ({ home := handleOf 0 5 9, opcode := 0x0101, ops := [] }), (with3 ({ sess .ready with ringHome := some (0, 9, 5) } : Session) { part0 with dict.run := [(0x208002, 1), (0x208005, 4), (0x300001, 1), (0x301001, 1), (0x301003, 1)], qps := [(257, { state := .ready, kind := 3 }), (258, { state := .ready, kind := 3 }), (512, { state := .ready, bound := true, context := 1, created := true })] }), 3, serves_of (by decide +kernel), by decide +kernel⟩,
   ⟨(tmsg 257 []), ({ home := handleOf 0 5 9, opcode := 0x0108, ops := [] }), ({ part0 with dict.run := [(0x208002, 1), (0x208005, 4), (0x300001, 1), (0x301001, 1), (0x301003, 1)], qps := [(257, { state := .ready, kind := 3 }), (258, { state := .ready, kind := 3 }), (512, { state := .ready, bound := true, context := 1, created := true })] }), serves_of (by decide +kernel), by decide +kernel⟩,
   ⟨(tmsg 257 []), (({ home := handleOf 0 5 9, layer := 0, position := 65536, kv := List.replicate 256 4 } : RingAppend)), 3, (with3 ({ sess .ready with ringHome := some (0, 9, 5), root := some 5 } : Session) { part0 with dict.run := [(0x208002, 1), (0x208005, 4), (0x300001, 1), (0x301001, 1), (0x301003, 1)], qps := [(257, { state := .ready, kind := 3 }), (258, { state := .ready, kind := 3 }), (512, { state := .ready, bound := true, context := 1, created := true })] }), (((appendRow 3 0 (localPos (with3 ({ sess .ready with ringHome := some (0, 9, 5), root := some 5 } : Session) { part0 with dict.run := [(0x208002, 1), (0x208005, 4), (0x300001, 1), (0x301001, 1), (0x301003, 1)], qps := [(257, { state := .ready, kind := 3 }), (258, { state := .ready, kind := 3 }), (512, { state := .ready, bound := true, context := 1, created := true })] }) 0 65536) (localPos (with3 ({ sess .ready with ringHome := some (0, 9, 5), root := some 5 } : Session) { part0 with dict.run := [(0x208002, 1), (0x208005, 4), (0x300001, 1), (0x301001, 1), (0x301003, 1)], qps := [(257, { state := .ready, kind := 3 }), (258, { state := .ready, kind := 3 }), (512, { state := .ready, bound := true, context := 1, created := true })] }) 0 65536) (List.replicate 256 4) (setSess 3 { sessAt (with3 ({ sess .ready with ringHome := some (0, 9, 5), root := some 5 } : Session) { part0 with dict.run := [(0x208002, 1), (0x208005, 4), (0x300001, 1), (0x301001, 1), (0x301003, 1)], qps := [(257, { state := .ready, kind := 3 }), (258, { state := .ready, kind := 3 }), (512, { state := .ready, bound := true, context := 1, created := true })] }) 3 with record.length := 65536 } (takeMsg (tmsg 257 []) (with3 ({ sess .ready with ringHome := some (0, 9, 5), root := some 5 } : Session) { part0 with dict.run := [(0x208002, 1), (0x208005, 4), (0x300001, 1), (0x301001, 1), (0x301003, 1)], qps := [(257, { state := .ready, kind := 3 }), (258, { state := .ready, kind := 3 }), (512, { state := .ready, bound := true, context := 1, created := true })] })))).getD run0)), serves_of (by decide +kernel), by decide +kernel⟩,
   ⟨(tmsg 257 []), (({ home := handleOf 0 5 9, layer := 0, position := 65536, kv := List.replicate 256 4 } : RingAppend)), 3, (with3 ({ sess .ready with ringHome := some (0, 9, 5), root := some 5, pages := [(0, { tier := 0, frame := 5 })] } : Session) { part0 with dict.run := [(0x208002, 1), (0x208005, 4), (0x300001, 1), (0x301001, 1), (0x301003, 1)], qps := [(257, { state := .ready, kind := 3 }), (258, { state := .ready, kind := 3 }), (512, { state := .ready, bound := true, context := 1, created := true })], frames := [(5, { state := .filling, context := 1, refCount := 2, owner := 3 })] }), serves_of (by decide +kernel), by decide +kernel⟩,
   ⟨(tmsg 257 []), ({ home := handleOf 0 5 9, layer := 0, mergeTag := 7, innings := 1, first := 5, positions := [5], query := [1] }), 3, (with3 ({ sess .ready with ringHome := some (0, 9, 5) } : Session) { part0 with dict.run := [(0x208002, 1), (0x208005, 4), (0x300001, 1), (0x301001, 1), (0x301003, 1)], qps := [(257, { state := .ready, kind := 3 }), (258, { state := .ready, kind := 3 }), (512, { state := .ready, bound := true, context := 1, created := true })] }), serves_of (by decide +kernel), by decide +kernel⟩,
   ⟨(tmsg 257 []), ({ home := handleOf 0 5 9, layer := 0, mergeTag := 7, innings := 1, first := 5, positions := [5], query := [1] }), 3, (with3 ({ sess .ready with ringHome := some (0, 9, 5) } : Session) { part0 with dict.run := [(0x208002, 1), (0x208005, 4), (0x300001, 1), (0x301001, 1), (0x301003, 1)], qps := [(257, { state := .ready, kind := 3 }), (258, { state := .ready, kind := 3 }), (512, { state := .ready, bound := true, context := 1, created := true })] }), serves_of (by decide +kernel), by decide +kernel⟩,
   ⟨(tmsg 257 []), ({ home := h3, layer := 0, rows := [(5, [8])] }), 3, (({ qp := 512, tag := 3, job := 1, layer := 0, first := 4, count := 2, phase := .merging, rows := [(4, [9])] } : QBlock)), (with3 { sess .ready with qblock := some ({ qp := 512, tag := 3, job := 1, layer := 0, first := 4, count := 2, phase := .merging, rows := [(4, [9])] } : QBlock) } { part0 with dict.run := [(0x208002, 1), (0x208005, 4), (0x300001, 1), (0x301001, 1), (0x301003, 1)], qps := [(257, { state := .ready, kind := 3 }), (258, { state := .ready, kind := 3 }), (512, { state := .ready, bound := true, context := 1, created := true })] }), serves_of (by decide +kernel), by decide +kernel⟩⟩

theorem test_SegmentsJoinTheHome :
    (∃ (m : Msg) (p : SegPartial) (s : State) (g : Merge), Serves .peer m s ∧ m.ops.length ≤ 3 ∧ Tab.find s.merges p.mergeTag = some g ∧ g.closing = false ∧ g.home = none ∧ g.innings % 65536 = p.innings ∧ now
      s ≤ p.sentNs + segmentMaxAgeMsVal s * 1000000 ∧ (g.segNodes.any (fun e => e.1 == (p.head, p.segment, p.qoff)) = false) ∧
      let g' : Merge := { g with segNodes := g.segNodes ++ [((p.head, p.segment, p.qoff), p.value)] }
      mergeComplete s g' = false) ∧
    (∃ (m : Msg) (p : SegPartial) (s : State) (g : Merge), Serves .peer m s ∧ m.ops.length ≤ 3 ∧ Tab.find s.merges p.mergeTag = some g ∧ g.closing = false ∧ g.home = none ∧ g.innings % 65536 = p.innings ∧ now
      s ≤ p.sentNs + segmentMaxAgeMsVal s * 1000000 ∧ (g.segNodes.any (fun e => e.1 == (p.head, p.segment, p.qoff)) = true)) ∧
    (∃ (m : Msg) (p : SegPartial) (s : State) (g : Merge), Serves .peer m s ∧ m.ops.length ≤ 3 ∧ Tab.find s.merges p.mergeTag = some g ∧ g.closing = false ∧ g.home = none ∧ g.innings % 65536 = p.innings ∧
      p.sentNs + segmentMaxAgeMsVal s * 1000000 < now s) ∧
    (∃ (m : Msg) (p : SegPartial) (s : State), Serves .peer m s ∧ m.ops.length ≤ 3 ∧ Tab.find s.merges p.mergeTag = none) ∧
    (∃ (m : Msg) (p : SegPartial) (s : State) (g : Merge), Serves .peer m s ∧ m.ops.length ≤ 3 ∧ Tab.find s.merges p.mergeTag = some g ∧ (g.closing = true ∨ g.home.isSome ∨ g.innings % 65536 ≠ p.innings)) ∧
    (∃ (m : Msg) (s : State) (k : Nat) (g : Merge), Serves .peer m s ∧ m.ops.length = 2 ∧ mergeComplete s g = false ∧
      let tag := bits (opWord m 0) 63 32
      let home (g : Merge) : Nat := peerNodeOf m.qp - ringNodeBaseVal s (sessAt s g.index).entry.partition
      let found := s.merges.find? (fun e => e.2.home == some (home e.2, tag) && e.2.innings % 65536 == bits (opWord m 0) 31 16)
      found = some (k, g)) ∧
    (∃ (m : Msg) (s : State), Serves .peer m s ∧ m.ops.length = 2 ∧
      let tag := bits (opWord m 0) 63 32
      let home (g : Merge) : Nat := peerNodeOf m.qp - ringNodeBaseVal s (sessAt s g.index).entry.partition
      let found := s.merges.find? (fun e => e.2.home == some (home e.2, tag) && e.2.innings % 65536 == bits (opWord m 0) 31 16)
      found = none) :=
  ⟨⟨(tmsg 258 []), ({ mergeTag := 7, innings := 1, sentNs := 0, layer := 0, head := 0, segment := 1, level := 7, qoff := 0, value := { heads := [] } }), ({ with3 { sess .active with step := some { step0 with phase := .merging } } { part0 with dict.run := [(0x208002, 1), (0x208005, 4), (0x300001, 1), (0x301001, 1), (0x301003, 1)], qps := [(257, { state := .ready, kind := 3 }), (258, { state := .ready, kind := 3 }), (512, { state := .ready, bound := true, context := 1, created := true })] } with merges := [(7, ({ catcher := 2, index := 3, innings := 1, layer := 0, job := 1, prefill := false, first := 0, count := 1, blocks := [0], hg := 1, wb := 1, ws := 64, passSize := 1, reserve := 100, todo := [⟨3, 0, 0, 0⟩], segments := [1], query := List.replicate 128 0, positions := [0] } : Merge))] }), (({ catcher := 2, index := 3, innings := 1, layer := 0, job := 1, prefill := false, first := 0, count := 1, blocks := [0], hg := 1, wb := 1, ws := 64, passSize := 1, reserve := 100, todo := [⟨3, 0, 0, 0⟩], segments := [1], query := List.replicate 128 0, positions := [0] } : Merge)), serves_of (by decide +kernel), by decide +kernel⟩,
   ⟨(tmsg 258 []), ({ mergeTag := 7, innings := 1, sentNs := 0, layer := 0, head := 0, segment := 1, level := 7, qoff := 0, value := { heads := [] } }), ({ with3 { sess .active with step := some { step0 with phase := .merging } } { part0 with dict.run := [(0x208002, 1), (0x208005, 4), (0x300001, 1), (0x301001, 1), (0x301003, 1)], qps := [(257, { state := .ready, kind := 3 }), (258, { state := .ready, kind := 3 }), (512, { state := .ready, bound := true, context := 1, created := true })] } with merges := [(7, ({ catcher := 2, index := 3, innings := 1, layer := 0, job := 1, prefill := false, first := 0, count := 1, blocks := [0], hg := 1, wb := 1, ws := 64, passSize := 1, reserve := 100, todo := [⟨3, 0, 0, 0⟩], segments := [1], query := List.replicate 128 0, positions := [0], segNodes := [((0, 1, 0), { heads := [] })] } : Merge))] }), (({ catcher := 2, index := 3, innings := 1, layer := 0, job := 1, prefill := false, first := 0, count := 1, blocks := [0], hg := 1, wb := 1, ws := 64, passSize := 1, reserve := 100, todo := [⟨3, 0, 0, 0⟩], segments := [1], query := List.replicate 128 0, positions := [0], segNodes := [((0, 1, 0), { heads := [] })] } : Merge)), serves_of (by decide +kernel), by decide +kernel⟩,
   ⟨(tmsg 258 []), ({ mergeTag := 7, innings := 1, sentNs := 0, layer := 0, head := 0, segment := 1, level := 7, qoff := 0, value := { heads := [] } }), ({ with3 { sess .active with step := some { step0 with phase := .merging } } { part0 with dict.run := [(0x208002, 1), (0x208005, 4), (0x300001, 1), (0x301001, 1), (0x301003, 1)], qps := [(257, { state := .ready, kind := 3 }), (258, { state := .ready, kind := 3 }), (512, { state := .ready, bound := true, context := 1, created := true })] } with merges := [(7, ({ catcher := 2, index := 3, innings := 1, layer := 0, job := 1, prefill := false, first := 0, count := 1, blocks := [0], hg := 1, wb := 1, ws := 64, passSize := 1, reserve := 100, todo := [⟨3, 0, 0, 0⟩], segments := [1], query := List.replicate 128 0, positions := [0] } : Merge))], time.now := 1000000001 }), (({ catcher := 2, index := 3, innings := 1, layer := 0, job := 1, prefill := false, first := 0, count := 1, blocks := [0], hg := 1, wb := 1, ws := 64, passSize := 1, reserve := 100, todo := [⟨3, 0, 0, 0⟩], segments := [1], query := List.replicate 128 0, positions := [0] } : Merge)), serves_of (by decide +kernel), by decide +kernel⟩,
   ⟨(tmsg 258 []), ({ mergeTag := 7, innings := 1, sentNs := 0, layer := 0, head := 0, segment := 1, level := 7, qoff := 0, value := { heads := [] } }), ({ part0 with dict.run := [(0x208002, 1), (0x208005, 4), (0x300001, 1), (0x301001, 1), (0x301003, 1)], qps := [(257, { state := .ready, kind := 3 }), (258, { state := .ready, kind := 3 }), (512, { state := .ready, bound := true, context := 1, created := true })] }), serves_of (by decide +kernel), by decide +kernel⟩,
   ⟨(tmsg 258 []), ({ mergeTag := 7, innings := 1, sentNs := 0, layer := 0, head := 0, segment := 1, level := 7, qoff := 0, value := { heads := [] } }), ({ with3 { sess .active with step := some { step0 with phase := .merging } } { part0 with dict.run := [(0x208002, 1), (0x208005, 4), (0x300001, 1), (0x301001, 1), (0x301003, 1)], qps := [(257, { state := .ready, kind := 3 }), (258, { state := .ready, kind := 3 }), (512, { state := .ready, bound := true, context := 1, created := true })] } with merges := [(7, ({ catcher := 2, index := 3, innings := 1, layer := 0, job := 1, prefill := false, first := 0, count := 1, blocks := [0], hg := 1, wb := 1, ws := 64, passSize := 1, reserve := 100, todo := [⟨3, 0, 0, 0⟩], segments := [1], query := List.replicate 128 0, positions := [0], closing := true } : Merge))] }), (({ catcher := 2, index := 3, innings := 1, layer := 0, job := 1, prefill := false, first := 0, count := 1, blocks := [0], hg := 1, wb := 1, ws := 64, passSize := 1, reserve := 100, todo := [⟨3, 0, 0, 0⟩], segments := [1], query := List.replicate 128 0, positions := [0], closing := true } : Merge)), serves_of (by decide +kernel), by decide +kernel⟩,
   ⟨(tmsg 257 [0x0000000900010000, 3]), ({ with3 { sess .active with step := some { step0 with phase := .merging } } { part0 with dict.run := [(0x208002, 1), (0x208005, 4), (0x300001, 1), (0x301001, 1), (0x301003, 1)], qps := [(257, { state := .ready, kind := 3 }), (258, { state := .ready, kind := 3 }), (512, { state := .ready, bound := true, context := 1, created := true })] } with merges := [(7, ({ catcher := 2, index := 3, innings := 1, layer := 0, job := 1, prefill := false, first := 0, count := 1, blocks := [0], hg := 1, wb := 1, ws := 64, passSize := 1, reserve := 100, todo := [⟨3, 0, 0, 0⟩], segments := [1], query := List.replicate 128 0, positions := [0], home := some (0, 9) } : Merge))] }), 7, (({ catcher := 2, index := 3, innings := 1, layer := 0, job := 1, prefill := false, first := 0, count := 1, blocks := [0], hg := 1, wb := 1, ws := 64, passSize := 1, reserve := 100, todo := [⟨3, 0, 0, 0⟩], segments := [1], query := List.replicate 128 0, positions := [0], home := some (0, 9) } : Merge)), serves_of (by decide +kernel), by decide +kernel⟩,
   ⟨(tmsg 257 [0x0000000900010000, 3]), ({ with3 { sess .active with step := some { step0 with phase := .merging } } { part0 with dict.run := [(0x208002, 1), (0x208005, 4), (0x300001, 1), (0x301001, 1), (0x301003, 1)], qps := [(257, { state := .ready, kind := 3 }), (258, { state := .ready, kind := 3 }), (512, { state := .ready, bound := true, context := 1, created := true })] } with merges := [(7, ({ catcher := 2, index := 3, innings := 1, layer := 0, job := 1, prefill := false, first := 0, count := 1, blocks := [0], hg := 1, wb := 1, ws := 64, passSize := 1, reserve := 100, todo := [⟨3, 0, 0, 0⟩], segments := [1], query := List.replicate 128 0, positions := [0] } : Merge))] }), serves_of (by decide +kernel), by decide +kernel⟩⟩

theorem test_SurveysFreezeAndEnd :
    (∃ (m : Msg) (s : State), Serves .mailbox m s ∧ s.mode = .run ∧ m.ops.length = 3 ∧ (opNat m 0 = 1 ∨ opNat m 0 = 2) ∧ surveyCheck s (opNat m 0) (opNat m 2) = .ok) ∧
    (∃ (m : Msg) (s : State), Serves .mailbox m s ∧ s.mode = .run ∧ m.ops.length = 3 ∧ (opNat m 0 = 1 ∨ opNat m 0 = 2) ∧ surveyCheck s (opNat m 0) (opNat m 2) ≠ .ok) ∧
    (∃ (r : SurveyRun) (s : State), Live s ∧ s.survey.run = some r ∧ r.stage = .freezing ∧ s.survey.frozen = true ∧ quiet s = true ∧ nvIdle s = true ∧ s.survey.broken = false) ∧
    (∃ (r : SurveyRun) (s : State), Live s ∧ s.survey.run = some r ∧ s.survey.frozen = true ∧ r.since + surveyFreezeMaxUsVal s * 1000 ≤ now s ∧ qpReady s 0 = true) ∧
    (∃ (m : Msg) (s : State), Serves .mailbox m { s with survey.frozen := false } ∧ m.ops.length = 0 ∧ s.survey.run = none) ∧
    (∃ (m : Msg) (s : State) (r : SurveyRun), Serves .mailbox m { s with survey.frozen := false } ∧ m.ops.length = 0 ∧ s.survey.run = some r ∧ (r.stage = .commit ∨ r.stage = .draining)) ∧
    (∃ (m : Msg) (s : State) (r : SurveyRun), Serves .mailbox m { s with survey.frozen := false } ∧ m.ops.length = 0 ∧ s.survey.run = some r ∧ r.stage ≠ .commit ∧ r.stage ≠ .draining) ∧
    (∃ (m : Msg) (r : SurveyRun) (s : State), Serves .mailbox m { s with survey.frozen := false } ∧ m.ops.length = 2 ∧ s.survey.run = some r ∧ r.record.seq = opNat m 0 ∧ r.qp ≠ 0 ∧ opWord m 1 =
      allOnes ∧ r.stage = .draining) ∧
    (∃ (m : Msg) (r : SurveyRun) (s : State), Serves .mailbox m { s with survey.frozen := false } ∧ m.ops.length = 2 ∧ s.survey.run = some r ∧ r.record.seq = opNat m 0 ∧ r.qp ≠ 0 ∧ opWord m 1 ≠
      allOnes) :=
  ⟨⟨(tmsg 0 [1, 77, 0]), ({ run0 with survey.up := true, survey.lbas := 62500000, survey.labelled := true }), serves_of (by decide +kernel), by decide +kernel⟩,
   ⟨(tmsg 0 [1, 7, 0]), run0, serves_of (by decide +kernel), by decide +kernel⟩,
   ⟨(({ stage := .freezing, record := ({ slot := 0, kind := 1, seq := 5 } : CommitRec), qp := 600, tag := 8, since := 0 } : SurveyRun)), ({ { run0 with survey.up := true, survey.lbas := 62500000, survey.labelled := true } with survey.run := some ({ stage := .freezing, record := ({ slot := 0, kind := 1, seq := 5 } : CommitRec), qp := 600, tag := 8, since := 0 } : SurveyRun), survey.frozen := true }), live_of (by decide +kernel), by decide +kernel⟩,
   ⟨(({ stage := .freezing, record := ({ slot := 0, kind := 1, seq := 5 } : CommitRec), qp := 600, tag := 8, since := 0 } : SurveyRun)), ({ { run0 with survey.up := true, survey.lbas := 62500000, survey.labelled := true } with survey.run := some ({ stage := .freezing, record := ({ slot := 0, kind := 1, seq := 5 } : CommitRec), qp := 600, tag := 8, since := 0 } : SurveyRun), survey.frozen := true, time.now := 1000000 }), live_of (by decide +kernel), by decide +kernel⟩,
   ⟨(tmsg 0 []), ({ run0 with survey.up := true, survey.lbas := 62500000, survey.labelled := true }), serves_of (by decide +kernel), by decide +kernel⟩,
   ⟨(tmsg 0 []), ({ { run0 with survey.up := true, survey.lbas := 62500000, survey.labelled := true } with survey.run := some ({ stage := .commit, record := ({ slot := 0, kind := 1, seq := 5 } : CommitRec), qp := 600, tag := 8, since := 0 } : SurveyRun) }), (({ stage := .commit, record := ({ slot := 0, kind := 1, seq := 5 } : CommitRec), qp := 600, tag := 8, since := 0 } : SurveyRun)), serves_of (by decide +kernel), by decide +kernel⟩,
   ⟨(tmsg 0 []), ({ { run0 with survey.up := true, survey.lbas := 62500000, survey.labelled := true } with survey.run := some ({ stage := .freezing, record := ({ slot := 0, kind := 1, seq := 5 } : CommitRec), qp := 600, tag := 8, since := 0 } : SurveyRun), survey.frozen := true, sessions := [(3, { sess .active with step := some { step0 with phase := .waitFrame } })], ingress := [tmsg 512 [] h3], tileIngress := [] }), (({ stage := .freezing, record := ({ slot := 0, kind := 1, seq := 5 } : CommitRec), qp := 600, tag := 8, since := 0 } : SurveyRun)), serves_of (by decide +kernel), by decide +kernel⟩,
   ⟨(tmsg 0 [5, 0xFFFFFFFFFFFFFFFF]), (({ stage := .draining, record := ({ slot := 0, kind := 1, seq := 5 } : CommitRec), qp := 600, tag := 8, since := 0 } : SurveyRun)), ({ { run0 with survey.up := true, survey.lbas := 62500000, survey.labelled := true } with survey.run := some ({ stage := .draining, record := ({ slot := 0, kind := 1, seq := 5 } : CommitRec), qp := 600, tag := 8, since := 0 } : SurveyRun) }), serves_of (by decide +kernel), by decide +kernel⟩,
   ⟨(tmsg 0 [5, 8192]), (({ stage := .shards, record := ({ slot := 0, kind := 1, seq := 5 } : CommitRec), qp := 600, tag := 8, since := 0 } : SurveyRun)), ({ { run0 with survey.up := true, survey.lbas := 62500000, survey.labelled := true } with survey.run := some ({ stage := .shards, record := ({ slot := 0, kind := 1, seq := 5 } : CommitRec), qp := 600, tag := 8, since := 0 } : SurveyRun) }), serves_of (by decide +kernel), by decide +kernel⟩⟩

theorem test_NvCommandsComplete :
    (∃ (m : Msg) (s : State), Serves .mailbox m s ∧ m.ops.length = 0 ∧ surveyBusy s = false ∧ nvAbsent s = false) ∧
    (∃ (m : Msg) (s : State), Serves .mailbox m s ∧ m.ops.length = 0 ∧ surveyBusy s = true) ∧
    (∃ (m : Msg) (s : State), Serves .mailbox m s ∧ m.ops.length = 0 ∧ surveyBusy s = false ∧ nvAbsent s = true) ∧
    (∃ (lbas : Nat) (s : State), s.power.phase = .running ∧ s.survey.up = false ∧ 62500000 ≤ lbas) ∧
    (∃ (lbas : Nat) (s : State), s.power.phase = .running ∧ s.survey.up = false ∧ lbas < 62500000) ∧
    (∃ (d : NvDone) (op : NvOp) (id : Nat) (due : Nat) (s : State), Live s ∧ s.survey.doing = some (op, id, due) ∧ id ≠ d.id) ∧
    (∃ (d : NvDone) (op : NvOp) (id : Nat) (due : Nat) (s : State), Live s ∧ s.survey.doing = some (op, id, due) ∧ id = d.id ∧ d.ok = true ∧ op = .label ∧ labelOk s.survey.lbas d.data = true) ∧
    (∃ (d : NvDone) (op : NvOp) (id : Nat) (due : Nat) (s : State), Live s ∧ s.survey.doing = some (op, id, due) ∧ id = d.id ∧ d.ok = true ∧ op = .label ∧ labelOk s.survey.lbas d.data = false) ∧
    (∃ (d : NvDone) (op : NvOp) (id : Nat) (due : Nat) (s : State) (c : CommitRec), Live s ∧ s.survey.doing = some (op, id, due) ∧ id = d.id ∧ d.ok = true ∧ op = .record 1 ∧ parseRecord 1 d.data = some c) ∧
    (∃ (d : NvDone) (op : NvOp) (id : Nat) (due : Nat) (s : State) (r : SurveyRun) (off : Nat) (data : List Byte), Live s ∧ s.survey.doing = some (op, id, due) ∧ id = d.id ∧ d.ok = true ∧ op = .survey ∧ s.survey.run = some r ∧ r.rest = some (off, data)) ∧
    (∃ (d : NvDone) (op : NvOp) (id : Nat) (due : Nat) (s : State) (r : SurveyRun), Live s ∧ s.survey.doing = some (op, id, due) ∧ id = d.id ∧ d.ok = true ∧ op = .survey ∧ s.survey.run = some r ∧ r.rest = none ∧ r.stage = .zeroing) ∧
    (∃ (d : NvDone) (op : NvOp) (id : Nat) (due : Nat) (s : State) (r : SurveyRun), Live s ∧ s.survey.doing = some (op, id, due) ∧ id = d.id ∧ d.ok = true ∧ op = .survey ∧ s.survey.run = some r ∧ r.rest = none ∧ r.stage = .flush) ∧
    (∃ (d : NvDone) (op : NvOp) (id : Nat) (due : Nat) (s : State) (r : SurveyRun), Live s ∧ s.survey.doing = some (op, id, due) ∧ id = d.id ∧ d.ok = true ∧ op = .survey ∧ s.survey.run = some r ∧ r.rest = none ∧ r.stage = .commit ∧ r.qp = 0 ∧ qpReady
      s 0 = true) ∧
    (∃ (d : NvDone) (op : NvOp) (id : Nat) (due : Nat) (s : State) (r : SurveyRun), Live s ∧ s.survey.doing = some (op, id, due) ∧ op = .survey ∧ due ≤ now s ∧ s.survey.run = some r ∧ qpReady s 0 = true) ∧
    (∃ (d : NvDone) (op : NvOp) (id : Nat) (due : Nat) (s : State), Live s ∧ s.survey.doing = some (op, id, due) ∧ now s < due) :=
  ⟨⟨(tmsg 0 []), ({ { run0 with survey.up := true, survey.lbas := 62500000, survey.labelled := true } with survey.records := [(0, ({ slot := 0, kind := 1, seq := 5 } : CommitRec))] }), serves_of (by decide +kernel), by decide +kernel⟩,
   ⟨(tmsg 0 []), ({ { run0 with survey.up := true, survey.lbas := 62500000, survey.labelled := true } with survey.run := some ({ stage := .shards, record := ({ slot := 0, kind := 1, seq := 5 } : CommitRec), qp := 600, tag := 8, since := 0 } : SurveyRun) }), serves_of (by decide +kernel), by decide +kernel⟩,
   ⟨(tmsg 0 []), run0, serves_of (by decide +kernel), by decide +kernel⟩,
   ⟨62500000, run0, by decide +kernel⟩,
   ⟨62499999, run0, by decide +kernel⟩,
   ⟨({ id := 4, ok := true, data := [] }), .survey, 5, 9, ({ run0 with survey.doing := some (.survey, 5, 9) }), live_of (by decide +kernel), by decide +kernel⟩,
   ⟨({ id := 4, ok := true, data := (let b := slice (leBytes 8 0x4C425853 ++ leBytes 8 (slotSize 62500000)) 0 4092; b ++ leBytes 4 (crc32c b)) }), .label, 4, 1000, ({ { run0 with survey.up := true, survey.lbas := 62500000, survey.labelled := true } with survey.doing := some (.label, 4, 1000), survey.nextId := 5 }), live_of (by decide +kernel), by decide +kernel⟩,
   ⟨({ id := 4, ok := true, data := List.replicate 4096 0 }), .label, 4, 1000, ({ { run0 with survey.up := true, survey.lbas := 62500000, survey.labelled := true } with survey.doing := some (.label, 4, 1000), survey.nextId := 5 }), live_of (by decide +kernel), by decide +kernel⟩,
   ⟨({ id := 4, ok := true, data := recordBytes ({ slot := 1, kind := 2, seq := 9, id := 3, base := 4, instant := 6, sha := List.replicate 32 1 } : CommitRec) }), (.record 1), 4, 1000, ({ { run0 with survey.up := true, survey.lbas := 62500000, survey.labelled := true } with survey.doing := some (.record 1, 4, 1000), survey.nextId := 5 }), (({ slot := 1, kind := 2, seq := 9, id := 3, base := 4, instant := 6, sha := List.replicate 32 1 } : CommitRec)), live_of (by decide +kernel), by decide +kernel⟩,
   ⟨({ id := 4, ok := true, data := [] }), .survey, 4, 1000, ({ { run0 with survey.up := true, survey.lbas := 62500000, survey.labelled := true } with survey.doing := some (.survey, 4, 1000), survey.nextId := 5, survey.run := some ({ stage := .shards, rest := some (0, List.replicate 4096 1), record := ({ slot := 0, kind := 1, seq := 5 } : CommitRec), qp := 600, tag := 8, since := 0 } : SurveyRun) }), (({ stage := .shards, rest := some (0, List.replicate 4096 1), record := ({ slot := 0, kind := 1, seq := 5 } : CommitRec), qp := 600, tag := 8, since := 0 } : SurveyRun)), 0, List.replicate 4096 1, live_of (by decide +kernel), by decide +kernel⟩,
   ⟨({ id := 4, ok := true, data := [] }), .survey, 4, 1000, ({ { run0 with survey.up := true, survey.lbas := 62500000, survey.labelled := true } with survey.doing := some (.survey, 4, 1000), survey.nextId := 5, survey.run := some ({ stage := .zeroing, record := ({ slot := 0, kind := 1, seq := 5 } : CommitRec), qp := 600, tag := 8, since := 0 } : SurveyRun) }), (({ stage := .zeroing, record := ({ slot := 0, kind := 1, seq := 5 } : CommitRec), qp := 600, tag := 8, since := 0 } : SurveyRun)), live_of (by decide +kernel), by decide +kernel⟩,
   ⟨({ id := 4, ok := true, data := [] }), .survey, 4, 1000, ({ { run0 with survey.up := true, survey.lbas := 62500000, survey.labelled := true } with survey.doing := some (.survey, 4, 1000), survey.nextId := 5, survey.run := some ({ stage := .flush, record := ({ slot := 0, kind := 1, seq := 5 } : CommitRec), qp := 600, tag := 8, since := 0 } : SurveyRun) }), (({ stage := .flush, record := ({ slot := 0, kind := 1, seq := 5 } : CommitRec), qp := 600, tag := 8, since := 0 } : SurveyRun)), live_of (by decide +kernel), by decide +kernel⟩,
   ⟨({ id := 4, ok := true, data := [] }), .survey, 4, 1000, ({ { run0 with survey.up := true, survey.lbas := 62500000, survey.labelled := true } with survey.doing := some (.survey, 4, 1000), survey.nextId := 5, survey.run := some ({ stage := .commit, record := ({ slot := 0, kind := 1, seq := 5 } : CommitRec), qp := 0, tag := 8, since := 0 } : SurveyRun) }), (({ stage := .commit, record := ({ slot := 0, kind := 1, seq := 5 } : CommitRec), qp := 0, tag := 8, since := 0 } : SurveyRun)), live_of (by decide +kernel), by decide +kernel⟩,
   ⟨({ id := 4, ok := true, data := [] }), .survey, 4, 1000, ({ { run0 with survey.up := true, survey.lbas := 62500000, survey.labelled := true } with survey.doing := some (.survey, 4, 1000), survey.nextId := 5, survey.run := some ({ stage := .shards, record := ({ slot := 0, kind := 1, seq := 5 } : CommitRec), qp := 600, tag := 8, since := 0 } : SurveyRun), time.now := 1000 }), (({ stage := .shards, record := ({ slot := 0, kind := 1, seq := 5 } : CommitRec), qp := 600, tag := 8, since := 0 } : SurveyRun)), live_of (by decide +kernel), by decide +kernel⟩,
   ⟨({ id := 4, ok := true, data := [] }), .survey, 4, 1000, ({ { run0 with survey.up := true, survey.lbas := 62500000, survey.labelled := true } with survey.doing := some (.survey, 4, 1000), survey.nextId := 5, time.now := 999 }), live_of (by decide +kernel), by decide +kernel⟩⟩

theorem test_RestoresGatherAndResume :
    (∃ (m : Msg) (s : State), Serves .mailbox m s ∧ m.ops.length = 1 ∧ opNat m 0 ≤ 1 ∧ 64 ≤ m.body.length ∧ ((m.body.take 64).any (fun b => 63 < b.toNat && b.toNat ≠ 0xFF) = false)
      ∧ surveyBusy s = true) ∧
    (∃ (m : Msg) (s : State), Serves .mailbox m s ∧ m.ops.length = 1 ∧ opNat m 0 ≤ 1 ∧ 64 ≤ m.body.length ∧ ((m.body.take 64).any (fun b => 63 < b.toNat && b.toNat ≠ 0xFF) = false)
      ∧ surveyBusy s = false ∧
      let free := s.sessions.any (fun e => e.2.entry.state != .free) = false
      (s.mode ≠ .setup ∨ ¬ free)) ∧
    (∃ (m : Msg) (s : State), Serves .mailbox m s ∧ m.ops.length = 1 ∧ opNat m 0 ≤ 1 ∧ 64 ≤ m.body.length ∧ ((m.body.take 64).any (fun b => 63 < b.toNat && b.toNat ≠ 0xFF) = false)
      ∧ surveyBusy s = false ∧ s.mode = .setup ∧ opNat m 0 = 1 ∧
      let free := s.sessions.any (fun e => e.2.entry.state != .free) = false
      free) ∧
    (∃ (m : Msg) (s : State), Serves .mailbox m s ∧ m.ops.length = 1 ∧ opNat m 0 ≤ 1 ∧ 64 ≤ m.body.length ∧ ((m.body.take 64).any (fun b => 63 < b.toNat && b.toNat ≠ 0xFF) = false)
      ∧ surveyBusy s = false ∧ s.mode = .setup ∧ opNat m 0 = 0 ∧ newestRecord s = none ∧
      let free := s.sessions.any (fun e => e.2.entry.state != .free) = false
      free) ∧
    (∃ (m : Msg) (s : State) (c : CommitRec), Serves .mailbox m s ∧ m.ops.length = 1 ∧ opNat m 0 ≤ 1 ∧ 64 ≤ m.body.length ∧ ((m.body.take 64).any (fun b => 63 < b.toNat && b.toNat ≠ 0xFF) = false)
      ∧ surveyBusy s = false ∧ s.mode = .setup ∧ opNat m 0 = 0 ∧ newestRecord s = some c ∧ Tab.find s.survey.records c.slot = some c ∧ s.survey.up = true ∧
      c.heldFrom ≤ c.manifest ∧
      let free := s.sessions.any (fun e => e.2.entry.state != .free) = false
      free) ∧
    (∃ (m : Msg) (shards : Tab Shard) (s : State) (r : RestoreRun), Serves .mailbox m s ∧ m.ops.length = 2 ∧ s.survey.restore = some r ∧ r.asked = some (opNat m 0, opNat m 1)) ∧
    (∃ (m : Msg) (shards : Tab Shard) (s : State), Serves .mailbox m s ∧ m.ops.length = 2 ∧ s.survey.restore = none) ∧
    (∃ (m : Msg) (s : State), Serves .mailbox m s ∧ m.ops.length = 1) ∧
    (∃ (i : Nat) (st : Step) (s : State), Grants s ∧ (sessAt s i).step = some st ∧ st.phase = .held ∧ qpReady s st.qp = true ∧ st.heldPhase ≠ .merging) ∧
    (∃ (i : Nat) (st : Step) (s : State), Grants s ∧ (sessAt s i).step = some st ∧ st.phase = .held ∧ qpReady s st.qp = false) ∧
    (∃ (i : Nat) (st : Step) (s : State), Grants s ∧ (sessAt s i).step = some st ∧ st.phase = .held ∧ qpReady s st.qp = false ∧ st.resumeBy ≤ now s ∧ (sessAt s i).entry.cancelPending = false ∧
      (sessAt s i).entry.waitPending = false) ∧
    (∃ (i : Nat) (st : Step) (s : State), Grants s ∧ (sessAt s i).step = some st ∧ st.phase = .held ∧ now s < st.resumeBy) :=
  ⟨⟨(tmsg 0 [1] 0 (List.replicate 64 0xFF)), ({ { run0 with mode := .setup } with survey.run := some ({ stage := .shards, record := ({ slot := 0, kind := 1, seq := 5 } : CommitRec), qp := 600, tag := 8, since := 0 } : SurveyRun) }), serves_of (by decide +kernel), by decide +kernel⟩,
   ⟨(tmsg 0 [0] 0 (List.replicate 64 0xFF)), run0, serves_of (by decide +kernel), by decide +kernel⟩,
   ⟨(tmsg 0 [1] 0 (List.replicate 64 0xFF)), ({ run0 with mode := .setup }), serves_of (by decide +kernel), by decide +kernel⟩,
   ⟨(tmsg 0 [0] 0 (List.replicate 64 0xFF)), ({ run0 with mode := .setup }), serves_of (by decide +kernel), by decide +kernel⟩,
   ⟨(tmsg 0 [0] 0 (List.replicate 64 0xFF)), ({ { run0 with mode := .setup } with survey.up := true, survey.lbas := 62500000, survey.labelled := true, survey.records := [(1, ({ slot := 1, kind := 1, seq := 5, heldFrom := 0, manifest := 8192, manifestBytes := 100 } : CommitRec))] }), (({ slot := 1, kind := 1, seq := 5, heldFrom := 0, manifest := 8192, manifestBytes := 100 } : CommitRec)), serves_of (by decide +kernel), by decide +kernel⟩,
   ⟨(tmsg 0 [0, 4096] 0 (List.replicate 4096 0)), [], ({ { run0 with mode := .setup } with survey.restore := some ({ msg := tmsg 0 [1] 0 (List.replicate 64 0xFF), source := 1, map := List.replicate 64 255, want := [.record 0 none], asked := some (0, 4096) } : RestoreRun) }), (({ msg := tmsg 0 [1] 0 (List.replicate 64 0xFF), source := 1, map := List.replicate 64 255, want := [.record 0 none], asked := some (0, 4096) } : RestoreRun)), serves_of (by decide +kernel), by decide +kernel⟩,
   ⟨(tmsg 0 [0, 4096]), [], ({ run0 with mode := .setup }), serves_of (by decide +kernel), by decide +kernel⟩,
   ⟨(tmsg 0 [1]), ({ { run0 with mode := .setup } with survey.restored := [(1, 2, 3), (4, 5, 6)] }), serves_of (by decide +kernel), by decide +kernel⟩,
   ⟨3, (({ step0 with phase := .held, heldPhase := .ready, resumeBy := 50 } : Step)), (with3 { sess .active with step := some ({ step0 with phase := .held, heldPhase := .ready, resumeBy := 50 } : Step) }), grants_of (by decide +kernel), by decide +kernel⟩,
   ⟨3, (({ step0 with phase := .held, heldPhase := .ready, resumeBy := 50, qp := 513 } : Step)), (with3 { sess .active with step := some ({ step0 with phase := .held, heldPhase := .ready, resumeBy := 50, qp := 513 } : Step) }), grants_of (by decide +kernel), by decide +kernel⟩,
   ⟨3, (({ step0 with phase := .held, heldPhase := .ready, resumeBy := 50, qp := 513 } : Step)), ({ with3 { sess .active with step := some ({ step0 with phase := .held, heldPhase := .ready, resumeBy := 50, qp := 513 } : Step) } with time.now := 50 }), grants_of (by decide +kernel), by decide +kernel⟩,
   ⟨3, (({ step0 with phase := .held, heldPhase := .ready, resumeBy := 50 } : Step)), ({ with3 { sess .active with step := some ({ step0 with phase := .held, heldPhase := .ready, resumeBy := 50 } : Step) } with time.now := 49 }), grants_of (by decide +kernel), by decide +kernel⟩⟩

theorem test_ContextsAreCreatedAndKeyed :
    (∃ (m : Msg) (s : State), Serves .mailbox m { s with survey.frozen := false } ∧ s.sec.state = .notReady ∧ m.ops.length = 1) ∧
    (∃ (m : Msg) (s : State), Serves .mailbox m { s with survey.frozen := false } ∧ s.sec.state = .notReady ∧ m.ops.length = 1 ∧ 32 ≤ m.body.length) ∧
    (∃ (m : Msg) (s : State), Serves .mailbox m { s with survey.frozen := false } ∧ s.sec.state = .notReady ∧ m.ops.length = 1 ∧ 416 ≤ m.body.length) ∧
    (∃ (m : Msg) (s : State), Serves .mailbox m { s with survey.frozen := false } ∧ s.sec.state ≠ .notReady ∧ m.ops.length = 3 ∧ opNat m 1 ≤ 63 ∧ opNat m 2 ≤ 1 ∧ opNat m 2 = 0 ∧
      let c := opNat m 0
      let x := ctxAt s c
      contextHeld s c = false ∧ c ≤ 4095 ∧ (opNat m 2 = 1 → c ≠ 0) ∧ x.tornDown = false ∧ x.mode = .none) ∧
    (∃ (m : Msg) (s : State), Serves .mailbox m { s with survey.frozen := false } ∧ s.sec.state ≠ .notReady ∧ m.ops.length = 3 ∧ opNat m 1 ≤ 63 ∧ opNat m 2 ≤ 1 ∧ opNat m 2 = 1 ∧
      s.sec.state ≠ .identityUnavailable ∧ debugOn s = false ∧ scanOn s = false ∧
      let c := opNat m 0
      let x := ctxAt s c
      contextHeld s c = false ∧ c ≤ 4095 ∧ (opNat m 2 = 1 → c ≠ 0) ∧ x.tornDown = false ∧ x.mode = .none) ∧
    (∃ (m : Msg) (s : State), Serves .mailbox m { s with survey.frozen := false } ∧ s.sec.state ≠ .notReady ∧ m.ops.length = 3 ∧ opNat m 1 ≤ 63 ∧ opNat m 2 ≤ 1 ∧ opNat m 2 = 1 ∧
      s.sec.state ≠ .identityUnavailable ∧ debugOn s = true ∧
      let c := opNat m 0
      let x := ctxAt s c
      contextHeld s c = false ∧ c ≤ 4095 ∧ (opNat m 2 = 1 → c ≠ 0) ∧ x.tornDown = false ∧ x.mode = .none) ∧
    (∃ (m : Msg) (s : State), Serves .mailbox m { s with survey.frozen := false } ∧ s.sec.state ≠ .notReady ∧ m.ops.length = 3 ∧ opNat m 1 ≤ 63 ∧ opNat m 2 ≤ 1 ∧
      let c := opNat m 0
      let x := ctxAt s c
      contextHeld s c = false ∧ c ≤ 4095 ∧ (opNat m 2 = 1 → c ≠ 0) ∧ x.tornDown = false ∧ x.mode ≠ .none) ∧
    (∃ (m : Msg) (s : State), Serves .mailbox m { s with survey.frozen := false } ∧ s.sec.state ≠ .notReady ∧ m.ops.length = 3 ∧
      let c := opNat m 0
      contextHeld s c = false ∧ (4095 < c ∨ 63 < opNat m 1 ∨ 1 < opNat m 2 ∨ opNat m 2 = 1 ∧ c = 0)) ∧
    (∃ (m : Msg) (s : State), Serves .mailbox m { s with survey.frozen := false } ∧ s.sec.state ≠ .notReady ∧ m.ops.length = 1 ∧
      let c := opNat m 0
      let x := ctxAt s c
      contextHeld s c = false ∧ c ≤ 4095 ∧ x.mode ≠ .none ∧ contextBusy s c = false) ∧
    (∃ (m : Msg) (s : State), Serves .mailbox m { s with survey.frozen := false } ∧ s.sec.state ≠ .notReady ∧ m.ops.length = 1 ∧
      let c := opNat m 0
      let x := ctxAt s c
      contextHeld s c = false ∧ c ≤ 4095 ∧ x.mode ≠ .none ∧ contextBusy s c = true) ∧
    (∃ (m : Msg) (s : State), Serves .mailbox m { s with survey.frozen := false } ∧ s.sec.state ≠ .notReady ∧ m.ops.length = 1 ∧ 32 ≤ m.body.length ∧ s.sec.state ≠
      .identityUnavailable ∧
      let c := opNat m 0
      contextHeld s c = false ∧ c ≤ 4095) ∧
    (∃ (m : Msg) (s : State), Serves .mailbox m { s with survey.frozen := false } ∧ s.sec.state ≠ .notReady ∧ m.ops.length = 1 ∧ 416 ≤ m.body.length ∧
      let c := opNat m 0
      let x := ctxAt s c
      contextHeld s c = false ∧ x.tornDown = false ∧ x.mode = .open_) ∧
    (∃ (m : Msg) (s : State), Serves .mailbox m { s with survey.frozen := false } ∧ s.sec.state ≠ .notReady ∧ m.ops.length = 1 ∧ 416 ≤ m.body.length ∧
      let c := opNat m 0
      let x := ctxAt s c
      contextHeld s c = false ∧ x.tornDown = false ∧ x.mode = .confidential) ∧
    (∃ (m : Msg) (s : State), Serves .mailbox m { s with survey.frozen := false } ∧ s.sec.state ≠ .notReady ∧ m.ops.length = 1 ∧ 416 ≤ m.body.length ∧
      let c := opNat m 0
      let x := ctxAt s c
      contextHeld s c = false ∧ x.tornDown = false ∧
      let nonce := slice m.body 0 32
      x.mode = .pending ∧ x.nonce ≠ some nonce) ∧
    (∃ (m : Msg) (s : State), Serves .mailbox m { s with survey.frozen := false } ∧ s.sec.state ≠ .notReady ∧ m.ops.length = 1 ∧ 416 ≤ m.body.length ∧
      let c := opNat m 0
      let x := ctxAt s c
      contextHeld s c = false ∧ x.tornDown = false ∧
      let nonce := slice m.body 0 32
      x.mode = .pending ∧ x.nonce = some nonce) :=
  ⟨⟨(tmsg 0 [1]), ({ run0 with sec.state := .notReady }), serves_of (by decide +kernel), by decide +kernel⟩,
   ⟨(tmsg 0 [1] 0 (List.replicate 32 1)), ({ run0 with sec.state := .notReady }), serves_of (by decide +kernel), by decide +kernel⟩,
   ⟨(tmsg 0 [1] 0 (List.replicate 416 1)), ({ run0 with sec.state := .notReady }), serves_of (by decide +kernel), by decide +kernel⟩,
   ⟨(tmsg 0 [4095, 63, 0]), run0, serves_of (by decide +kernel), by decide +kernel⟩,
   ⟨(tmsg 0 [4095, 63, 1]), run0, serves_of (by decide +kernel), by decide +kernel⟩,
   ⟨(tmsg 0 [4095, 63, 1]), ({ run0 with dict.vals := [(0x600001, 1)] }), serves_of (by decide +kernel), by decide +kernel⟩,
   ⟨(tmsg 0 [1, 63, 1]), run0, serves_of (by decide +kernel), by decide +kernel⟩,
   ⟨(tmsg 0 [4096, 0, 0]), run0, serves_of (by decide +kernel), by decide +kernel⟩,
   ⟨(tmsg 0 [2]), ({ run0 with contexts := [(2, { mode := .open_ })] }), serves_of (by decide +kernel), by decide +kernel⟩,
   ⟨(tmsg 0 [1]), run0, serves_of (by decide +kernel), by decide +kernel⟩,
   ⟨(tmsg 0 [2] 0 (List.replicate 32 1)), ({ run0 with contexts := [(2, { mode := .pending })] }), serves_of (by decide +kernel), by decide +kernel⟩,
   ⟨(tmsg 0 [2] 0 (List.replicate 416 1)), ({ run0 with contexts := [(2, { mode := .open_ })] }), serves_of (by decide +kernel), by decide +kernel⟩,
   ⟨(tmsg 0 [2] 0 (List.replicate 416 1)), ({ run0 with contexts := [(2, { mode := .confidential })] }), serves_of (by decide +kernel), by decide +kernel⟩,
   ⟨(tmsg 0 [2] 0 (List.replicate 416 1)), ({ run0 with contexts := [(2, { mode := .pending })] }), serves_of (by decide +kernel), by decide +kernel⟩,
   ⟨(tmsg 0 [2] 0 (List.replicate 416 1)), ({ run0 with contexts := [(2, { mode := .pending, nonce := some (List.replicate 32 1) })] }), serves_of (by decide +kernel), by decide +kernel⟩⟩

theorem test_TeardownEndsAContext :
    (∃ (m : Msg) (s : State), Serves .mailbox m s ∧ s.sec.state ≠ .notReady ∧ m.ops.length = 1 ∧ opNat m 0 ≤ 4095 ∧ (qpAt s 0).bound = false ∧
      let c := opNat m 0
      (ctxAt s c).mode ≠ .none ∧ (ctxAt s c).tornDown = false) ∧
    (∃ (m : Msg) (s : State), Serves .mailbox m s ∧ s.sec.state ≠ .notReady ∧ m.ops.length = 1 ∧ opNat m 0 ≤ 4095 ∧
      let c := opNat m 0
      (ctxAt s c).mode ≠ .none ∧ (ctxAt s c).tornDown = true) ∧
    (∃ (m : Msg) (s : State), Serves .mailbox m s ∧ s.sec.state ≠ .notReady ∧ m.ops.length = 1 ∧ opNat m 0 ≤ 4095 ∧
      let c := opNat m 0
      (ctxAt s c).mode = .none) ∧
    (∃ (c : Nat) (s : State), Live s ∧ (ctxAt s c).mode = .confidential ∧ (ctxAt s c).tornDown = false) ∧
    (∃ (c : Nat) (s : State), Live s ∧ (ctxAt s c).mode ≠ .confidential) :=
  ⟨⟨(tmsg 0 [1]), (with3 (sess .ready)), serves_of (by decide +kernel), by decide +kernel⟩,
   ⟨(tmsg 0 [1]), ({ run0 with contexts := [(1, { mode := .open_, tornDown := true })] }), serves_of (by decide +kernel), by decide +kernel⟩,
   ⟨(tmsg 0 [2]), run0, serves_of (by decide +kernel), by decide +kernel⟩,
   ⟨1, ({ with3 (sess .waiting) with contexts := [(1, { mode := .confidential })] }), live_of (by decide +kernel), by decide +kernel⟩,
   ⟨1, run0, live_of (by decide +kernel), by decide +kernel⟩⟩

theorem test_FirmwareIsCheckedAndCounted :
    (∃ (m : Msg) (s : State), Serves .mailbox m { s with survey.frozen := false, sec.state := .ready } ∧ m.ops.length = 3 ∧ opNat m 0 ≤ 1 ∧ opNat m 1 + m.body.length ≤ 29360128 ∧
      let k := opNat m 0
      s.sec.running = some k) ∧
    (∃ (m : Msg) (s : State), Serves .mailbox m { s with survey.frozen := false, sec.state := .ready } ∧ m.ops.length = 3 ∧ opNat m 0 ≤ 1 ∧ opNat m 1 + m.body.length ≤ 29360128 ∧
      let k := opNat m 0
      s.sec.running ≠ some k) ∧
    (∃ (m : Msg) (s : State), Serves .mailbox m { s with survey.frozen := false } ∧ m.ops.length = 0) ∧
    (∃ (s : State), Live s ∧ s.sec.state ≠ .notReady) ∧
    (∃ (s : State), Live s ∧ s.sec.state = .notReady) :=
  ⟨⟨(tmsg 0 [0, 0, 0] 0 [1]), run0, serves_of (by decide +kernel), by decide +kernel⟩,
   ⟨(tmsg 0 [1, 2, 0] 0 [1]), run0, serves_of (by decide +kernel), by decide +kernel⟩,
   ⟨(tmsg 0 []), run0, serves_of (by decide +kernel), by decide +kernel⟩,
   ⟨run0, live_of (by decide +kernel), by decide +kernel⟩,
   ⟨({ run0 with sec.state := .notReady }), live_of (by decide +kernel), by decide +kernel⟩⟩

theorem test_ItemsAreReadAndWritten :
    (∃ (p : DictPath) (i : DictItem) (s : State), ItemTaken p s ∧ ItemFits i) ∧
    (∃ (p : DictPath) (i : DictItem) (s : State), ItemTaken p s ∧ ItemFits i) ∧
    (∃ (p : DictPath) (i : DictItem) (s : State), ItemTaken p s ∧ ItemFits i ∧ rowAt i.index i.sub = none) ∧
    (∃ (p : DictPath) (i : DictItem) (s : State) (r : EntryRow), ItemTaken p s ∧ ItemFits i ∧ rowAt i.index i.sub = some r ∧ (r.access = .ro ∨ r.access = .const)) ∧
    (∃ (p : DictPath) (i : DictItem) (s : State) (r : EntryRow), ItemTaken p s ∧ ItemFits i ∧ rowAt i.index i.sub = some r ∧ r.access = .rws ∧ s.mode = .run) ∧
    (∃ (p : DictPath) (i : DictItem) (s : State) (r : EntryRow), ItemTaken p s ∧ ItemFits i ∧ rowAt i.index i.sub = some r ∧ (r.access = .rw ∨ r.access = .rws ∧ s.mode = .setup ∨ r.access = .wo) ∧
      let n := typeSize r.type
      (i.length ≠ n ∨ isNumeric r.type = false ∧ i.offset ≠ 0)) ∧
    (∃ (p : DictPath) (i : DictItem) (s : State) (r : EntryRow), ItemTaken p s ∧ ItemFits i ∧ rowAt i.index i.sub = some r ∧ (r.access = .rw ∨ r.access = .rws ∧ s.mode = .setup) ∧ isNumeric r.type = true ∧ i.index ≠
      0x2091 ∧ i.index ≠ 0x2081 ∧
      let n := typeSize r.type
      i.length = n) ∧
    (∃ (p : DictPath) (i : DictItem) (s : State) (r : EntryRow) (k : Nat) (st : Step), ItemTaken p s ∧ ItemFits i ∧ rowAt i.index i.sub = some r ∧
      let n := typeSize r.type
      let x := numAt i.value 0 n
      let v := if r.enum then (if r.lo ≤ x ∧ x ≤ upperBound s r i.sub then x else defaultOf r i.index i.sub) else min (max x r.lo) (upperBound s r i.sub)
      i.index = 0x2081 ∧ i.length = 1 ∧ (sessAt s k).step = some st ∧ (sessAt s k).ringHome = none ∧
      (stepNeeds s k st).any (nodeLost (setEntry 0x2081 i.sub v s)) = true) :=
  ⟨⟨(.mailbox 7), { op := 2, index := 0x2010, sub := 1, length := 0, value := [] }, run0, itemTaken_of (by decide +kernel), itemFits_of (by decide +kernel)⟩,
   ⟨(.mailbox 7), { op := 2, index := 0x2010, sub := 1, length := 4, value := [0, 0, 1, 0] }, run0, itemTaken_of (by decide +kernel), itemFits_of (by decide +kernel)⟩,
   ⟨(.mailbox 7), { op := 2, index := 0x9999, sub := 1, length := 1, value := [0] }, run0, itemTaken_of (by decide +kernel), itemFits_of (by decide +kernel), by decide +kernel⟩,
   ⟨(.mailbox 7), { op := 2, index := 0x1000, sub := 1, length := 1, value := [0] }, run0, ⟨0x1000, 0x01, 0x01, .string 32, .const, 0, false, 0, 0⟩, itemTaken_of (by decide +kernel), itemFits_of (by decide +kernel), by decide +kernel⟩,
   ⟨(.mailbox 7), { op := 2, index := 0x2010, sub := 1, length := 4, value := [0, 0, 1, 0] }, run0, ⟨0x2010, 0x01, 0x01, .u32, .rws, 33554432, false, 65536, 33554432⟩, itemTaken_of (by decide +kernel), itemFits_of (by decide +kernel), by decide +kernel⟩,
   ⟨(.mailbox 7), { op := 2, index := 0x2100, sub := 1, length := 2, value := [1, 0] }, run0, ⟨0x2100, 0x01, 0x01, .u8, .rw, 0, true, 0, 1⟩, itemTaken_of (by decide +kernel), itemFits_of (by decide +kernel), by decide +kernel⟩,
   ⟨(.mailbox 7), { op := 2, index := 0x2100, sub := 1, length := 1, value := [1] }, run0, ⟨0x2100, 0x01, 0x01, .u8, .rw, 0, true, 0, 1⟩, itemTaken_of (by decide +kernel), itemFits_of (by decide +kernel), by decide +kernel⟩,
   ⟨(.mailbox 7), { op := 2, index := 0x2081, sub := 2, length := 1, value := [3] }, { run0 with dict.run := [(0x208001, 0), (0x208002, 1), (0x208005, 4), (0x208006, 1), (0x208007, 1), (0x300001, 1), (0x301001, 1), (0x301002, 2), (0x301003, 0), (0x301004, 0), (0x301005, 0)], ports := [(1, { state := .up }), (2, { state := .up })], sessions := [(3, { sess .active with step := some { step0 with len0 := 2 } })] }, ⟨0x2081, 0x01, 0x40, .u8, .rw, 0, false, 0, 4⟩, 3, { step0 with len0 := 2 }, itemTaken_of (by decide +kernel), itemFits_of (by decide +kernel), by decide +kernel⟩⟩

theorem test_WrittenValuesReadBack :
    (∃ (p : DictPath) (q : DictPath) (i : DictItem) (j : DictItem) (r : EntryRow) (s : State), ItemTaken p s ∧ ItemFits i ∧ ItemFits j ∧ rowAt i.index i.sub = some r ∧ (r.access = .rw ∨ r.access = .rws ∧ s.mode = .setup) ∧ isNumeric r.type =
      true ∧ i.length = typeSize r.type ∧ i.index ≠ 0x2091 ∧ i.index ≠ 0x2081 ∧ j.index = i.index ∧ j.sub = i.sub) :=
  ⟨(.mailbox 7), (.mailbox 7), { op := 2, index := 0x2100, sub := 1, length := 1, value := [1] }, { op := 2, index := 0x2100, sub := 1, length := 1, value := [1] }, ⟨0x2100, 0x01, 0x01, .u8, .rw, 0, true, 0, 1⟩, run0, itemTaken_of (by decide +kernel), itemFits_of (by decide +kernel), itemFits_of (by decide +kernel), by decide +kernel⟩

theorem test_TheModuleChangesState :
    (∃ (p : DictPath) (s : State), ItemTaken p s ∧ s.mode = .setup) ∧
    (∃ (p : DictPath) (s : State), ItemTaken p s ∧ s.mode = .run) ∧
    (∃ (p : DictPath) (s : State), ItemTaken p s ∧ s.mode = .setup) ∧
    (∃ (p : DictPath) (s : State), ItemTaken p s ∧ s.mode = .run ∧ mayLeaveRun s = true) ∧
    (∃ (p : DictPath) (s : State), ItemTaken p s ∧ s.mode = .run ∧ mayLeaveRun s = false) ∧
    (∃ (p : DictPath) (s : State), ItemTaken p s ∧ s.mode = .run) ∧
    (∃ (p : DictPath) (s : State), ItemTaken p s ∧ s.mode = .setup) :=
  ⟨⟨(.mailbox 7), ({ run0 with mode := .setup, mgmt.key := List.replicate 32 1 }), itemTaken_of (by decide +kernel), by decide +kernel⟩,
   ⟨(.mailbox 7), ({ run0 with mgmt.key := List.replicate 32 1, draws := 9 }), itemTaken_of (by decide +kernel), by decide +kernel⟩,
   ⟨(.mailbox 7), ({ run0 with mode := .setup, mgmt.key := List.replicate 32 1 }), itemTaken_of (by decide +kernel), by decide +kernel⟩,
   ⟨(.mailbox 7), ({ run0 with qps := [(0, { state := .ready })], mgmt.key := List.replicate 32 1 }), itemTaken_of (by decide +kernel), by decide +kernel⟩,
   ⟨(.mailbox 7), ({ run0 with regions := [(5, reg4)], mgmt.key := List.replicate 32 1 }), itemTaken_of (by decide +kernel), by decide +kernel⟩,
   ⟨(.mailbox 7), ({ run0 with mgmt.key := List.replicate 32 1, draws := 9 }), itemTaken_of (by decide +kernel), by decide +kernel⟩,
   ⟨(.mailbox 7), ({ run0 with mode := .setup, mgmt.key := List.replicate 32 1 }), itemTaken_of (by decide +kernel), by decide +kernel⟩⟩

theorem test_CountersKeysAndDebugAreWritten :
    (∃ (p : DictPath) (s : State) (v : Nat), ItemTaken p s ∧ v < 256) ∧
    (∃ (p : DictPath) (s : State) (key : List Byte), ItemTaken p s ∧ key.length = 32) ∧
    (∃ (p : DictPath) (s : State) (v : Nat), ItemTaken p s ∧ v < 256 ∧ s.mode = .setup) ∧
    (∃ (p : DictPath) (s : State) (v : Nat), ItemTaken p s ∧ v < 256 ∧ s.mode = .run) :=
  ⟨⟨(.mailbox 7), ({ run0 with mgmt.key := List.replicate 32 1, draws := 9 }), 0, itemTaken_of (by decide +kernel), by decide +kernel⟩,
   ⟨(.mailbox 7), ({ run0 with mgmt.key := List.replicate 32 1, draws := 9 }), (List.replicate 32 9), itemTaken_of (by decide +kernel), by decide +kernel⟩,
   ⟨(.mailbox 7), ({ run0 with mode := .setup, mgmt.key := List.replicate 32 1 }), 0, itemTaken_of (by decide +kernel), by decide +kernel⟩,
   ⟨(.mailbox 7), ({ run0 with mgmt.key := List.replicate 32 1, draws := 9 }), 0, itemTaken_of (by decide +kernel), by decide +kernel⟩⟩

theorem test_TrafficSettingsAreWritten :
    (∃ (p : DictPath) (k : Nat) (c : Nat) (v : Nat) (s : State), ItemTaken p s ∧ k ≤ 4 ∧ c ≤ 7 ∧ v < 256) ∧
    (∃ (p : DictPath) (k : Nat) (c : Nat) (v : Nat) (s : State), ItemTaken p s ∧ k ≤ 4 ∧ c ≤ 7 ∧ v < 2 ^ 32) ∧
    (∃ (p : DictPath) (k : Nat) (c : Nat) (v : Nat) (s : State), ItemTaken p s ∧ k ≤ 4 ∧ c ≤ 7 ∧ v < 2 ^ 32) ∧
    (∃ (p : DictPath) (k : Nat) (c : Nat) (v : Nat) (s : State), ItemTaken p s ∧ k ≤ 4 ∧ c ≤ 7 ∧ v < 2 ^ 32) ∧
    (∃ (p : DictPath) (k : Nat) (c : Nat) (v : Nat) (s : State), ItemTaken p s ∧ k ≤ 4 ∧ c ≤ 7 ∧ v < 2 ^ 32) ∧
    (∃ (p : DictPath) (k : Nat) (c : Nat) (v : Nat) (s : State), ItemTaken p s ∧ k ≤ 4 ∧ c ≤ 7 ∧ v < 2 ^ 32) ∧
    (∃ (p : DictPath) (k : Nat) (c : Nat) (v : Nat) (s : State), ItemTaken p s ∧ k ≤ 4 ∧ c ≤ 7 ∧ v < 2 ^ 32) :=
  ⟨⟨(.mailbox 7), 0, 0, 0, ({ run0 with mgmt.key := List.replicate 32 1, draws := 9 }), itemTaken_of (by decide +kernel), by decide +kernel⟩,
   ⟨(.mailbox 7), 0, 0, 0, ({ run0 with mgmt.key := List.replicate 32 1, draws := 9 }), itemTaken_of (by decide +kernel), by decide +kernel⟩,
   ⟨(.mailbox 7), 0, 0, 0, ({ run0 with mgmt.key := List.replicate 32 1, draws := 9 }), itemTaken_of (by decide +kernel), by decide +kernel⟩,
   ⟨(.mailbox 7), 0, 0, 0, ({ run0 with mgmt.key := List.replicate 32 1, draws := 9 }), itemTaken_of (by decide +kernel), by decide +kernel⟩,
   ⟨(.mailbox 7), 0, 0, 0, ({ run0 with mgmt.key := List.replicate 32 1, draws := 9 }), itemTaken_of (by decide +kernel), by decide +kernel⟩,
   ⟨(.mailbox 7), 0, 0, 0, ({ run0 with mgmt.key := List.replicate 32 1, draws := 9 }), itemTaken_of (by decide +kernel), by decide +kernel⟩,
   ⟨(.mailbox 7), 0, 0, 0, ({ run0 with mgmt.key := List.replicate 32 1, draws := 9 }), itemTaken_of (by decide +kernel), by decide +kernel⟩⟩

theorem test_GatesAreCommittedAndEnabled :
    (∃ (p : DictPath) (k : Nat) (v : Nat) (s : State), ItemTaken p s ∧ k ≤ 4 ∧ v < 256) ∧
    (∃ (p : DictPath) (k : Nat) (v : Nat) (s : State), ItemTaken p s ∧ k ≤ 4 ∧ v < 256) :=
  ⟨⟨(.mailbox 7), 0, 0, ({ run0 with mgmt.key := List.replicate 32 1, draws := 9 }), itemTaken_of (by decide +kernel), by decide +kernel⟩,
   ⟨(.mailbox 7), 0, 0, ({ run0 with mgmt.key := List.replicate 32 1, draws := 9 }), itemTaken_of (by decide +kernel), by decide +kernel⟩⟩

theorem test_SamplingIsEnabled :
    (∃ (p : DictPath) (v : Nat) (s : State), ItemTaken p s ∧ v < 2 ^ 64) ∧
    (∃ (p : DictPath) (v : Nat) (s : State), ItemTaken p s ∧ v = 1 ∧ s.sampler.range = none ∧ rangeIdle s (sampleRangeVal s) = true) ∧
    (∃ (p : DictPath) (v : Nat) (s : State), ItemTaken p s ∧ v = 1 ∧ s.sampler.range = none ∧ rangeIdle s (sampleRangeVal s) = false) ∧
    (∃ (p : DictPath) (v : Nat) (s : State), ItemTaken p s ∧ v = 1 ∧ s.sampler.range.isSome = true) ∧
    (∃ (p : DictPath) (v : Nat) (s : State), ItemTaken p s ∧ v < 256 ∧ v ≠ 1) :=
  ⟨⟨(.mailbox 7), 0, ({ run0 with mgmt.key := List.replicate 32 1, sampler.wr := 5 }), itemTaken_of (by decide +kernel), by decide +kernel⟩,
   ⟨(.mailbox 7), 1, ({ run0 with mgmt.key := List.replicate 32 1, hostRanges := [(0, { base := 0, slots := 4 })] }), itemTaken_of (by decide +kernel), by decide +kernel⟩,
   ⟨(.mailbox 7), 1, ({ run0 with mgmt.key := List.replicate 32 1, draws := 9 }), itemTaken_of (by decide +kernel), by decide +kernel⟩,
   ⟨(.mailbox 7), 1, ({ run0 with mgmt.key := List.replicate 32 1, sampler.range := some 0 }), itemTaken_of (by decide +kernel), by decide +kernel⟩,
   ⟨(.mailbox 7), 0, ({ run0 with mgmt.key := List.replicate 32 1, draws := 9 }), itemTaken_of (by decide +kernel), by decide +kernel⟩⟩

theorem shaRound_len (l : List (BitVec 32 × BitVec 32)) : ∀ v : List (BitVec 32), v.length = 8 → (l.foldl shaRound v).length = 8 := by
  induction l with
  | nil => exact fun _ h => h
  | cons x l ih =>
    intro v h
    refine ih _ ?_
    match v, h with
    | [_, _, _, _, _, _, _, _], _ => rfl
theorem shaBlock_len (l : List (List Byte)) : ∀ h : List (BitVec 32), h.length = 8 → (l.foldl shaBlock h).length = 8 := by
  induction l with
  | nil => exact fun _ h => h
  | cons x l ih =>
    intro v h
    refine ih _ ?_
    have := shaRound_len (shaK.zip (shaExtend 48 ((chunks 4 16 x).map be32).reverse).reverse) v h
    simp [shaBlock, h, this]
theorem sha256_len (m : List Byte) : (sha256 m).length = 32 := by
  have := shaBlock_len (chunks 64 ((shaPad m).length / 64 + 1) (shaPad m)) shaInit rfl
  have e : ∀ l : List (BitVec 32), ((l.map be32Bytes).flatten).length = 4 * l.length := by
    intro l
    induction l with
    | nil => rfl
    | cons x l ih => simp [be32Bytes, ih]; omega
  simp [sha256, e, this]
theorem hmac_len (k m : List Byte) : (hmac k m).length = 32 := sha256_len _
/-- The parts of a frame as a station sends it. -/
theorem frameOf_parts (dst key b : List Byte) (h : dst.length = 6) :
    let f := frameOf dst key b
    let n := f.length - 4
    n = 46 + b.length ∧ f.drop n = fcsBytes (f.take n) ∧ f.take 6 = dst ∧ slice f 12 2 = [0x88, 0xB5] ∧ (f.take n).drop 14 = b ++ hmac key b := by
  intro f n
  have hp : (dst ++ List.replicate 6 3 ++ [0x88, 0xB5] ++ b ++ hmac key b).length = 46 + b.length := by simp [h, hmac_len]; omega
  have hf : f = (dst ++ List.replicate 6 3 ++ [0x88, 0xB5] ++ b ++ hmac key b) ++ fcsBytes (dst ++ List.replicate 6 3 ++ [0x88, 0xB5] ++ b ++ hmac key b) := rfl
  have hn : n = 46 + b.length := by
    show f.length - 4 = _
    rw [hf, List.length_append, hp]; rfl
  have ht : f.take n = dst ++ List.replicate 6 3 ++ [0x88, 0xB5] ++ b ++ hmac key b := by
    rw [hn, hf, ← hp, List.take_left]
  refine ⟨hn, ?_, ?_, ?_, ?_⟩
  · rw [ht, hn, hf, ← hp, List.drop_left]
  · rw [hf]; simp only [List.append_assoc]; rw [← h, List.take_left]
  · obtain ⟨a0, a1, a2, a3, a4, a5, rfl⟩ : ∃ a0 a1 a2 a3 a4 a5, dst = [a0, a1, a2, a3, a4, a5] := by
      match dst, h with
      | [a0, a1, a2, a3, a4, a5], _ => exact ⟨a0, a1, a2, a3, a4, a5, rfl⟩
    rfl
  · rw [ht]
    have : (dst ++ List.replicate 6 3 ++ [0x88, 0xB5]).length = 14 := by simp [h]
    rw [List.append_assoc _ b, ← this, List.drop_left]

theorem leNat_leBytes (n : Nat) : ∀ v, leNat (leBytes n v) = v % 256 ^ n := by
  induction n with
  | zero => intro v; simp [leBytes, leNat, Nat.mod_one]
  | succ n ih =>
    intro v
    simp only [leBytes, leNat, ih, byte, BitVec.toNat_ofNat]
    rw [Nat.pow_succ 256, Nat.mul_comm (256 ^ n) 256, Nat.mod_mul]
/-- The module's address has six bytes. -/
theorem mac_len : macAddress.length = 6 := by
  show (([0x02, 0x00] : List Byte) ++ (leBytes 4 _).reverse).length = 6
  simp [leBytes]
/-- A PDU to this module: a request where `kind` is 1. -/
def asked (kind seq epoch : Nat) (l : List DictItem) : List Byte :=
  let b := (l.map requestItem).flatten
  pduHeader { kind, station := 15, count := l.length, bodyBytes := b.length, seq, target := moduleSerial.toNat, epoch } 0 ++ b
theorem asked_target (kind seq epoch : Nat) (l : List DictItem) (t : List Byte) : (readHeader (asked kind seq epoch l ++ t)).target = moduleSerial.toNat := by
  show leNat (leBytes 8 (word moduleSerial.toNat).toNat) = _
  rw [leNat_leBytes]
  have := moduleSerial.isLt
  simp only [word, BitVec.toNat_ofNat]
  omega
/-- The length its header gives is its items'. -/
theorem asked_body (kind seq epoch : Nat) (l : List DictItem) (t : List Byte)
    (h : bits (word (leNat (leBytes 8 (word (at' 1 56 8 + at' kind 54 2 + at' 15 50 4 + at' 0 34 16 + at' l.length 27 7 +
      at' (l.map requestItem).flatten.length 0 16)).toNat))) 15 0 = (l.map requestItem).flatten.length) :
    (readHeader (asked kind seq epoch l ++ t)).bodyBytes = (l.map requestItem).flatten.length := h
/-- Nothing is wrong with such a frame under the key that it was sent with. -/
theorem asked_right (kind seq epoch : Nat) (l : List DictItem) (s : State)
    (hz : bits (word (leNat (leBytes 8 (word (at' 1 56 8 + at' kind 54 2 + at' 15 50 4 + at' 0 34 16 + at' l.length 27 7 +
      at' (l.map requestItem).flatten.length 0 16)).toNat))) 15 0 = (l.map requestItem).flatten.length)
    (h : keyUnset s = false) (hk : s.mgmt.key = List.replicate 32 1) :
    let f := frameOf macAddress (List.replicate 32 1) (asked kind seq epoch l)
    let b := ((f.take (f.length - 4)).drop 14).take (f.length - 4 - 14 - 32)
    let tag := ((f.take (f.length - 4)).drop 14).drop (f.length - 4 - 14 - 32)
    b = asked kind seq epoch l ∧ ¬ (frameAccepted f = false ∨ keyUnset s = true ∨ hmac s.mgmt.key b ≠ tag) := by
  intro f b tag
  obtain ⟨hn, h1, h2, h3, h4⟩ := frameOf_parts macAddress (List.replicate 32 1) (asked kind seq epoch l) mac_len
  have ha : (asked kind seq epoch l).length = 32 + (l.map requestItem).flatten.length := by
    show (_ ++ _ : List Byte).length = _
    rw [List.length_append]; rfl
  have hl : (asked kind seq epoch l ++ hmac (List.replicate 32 1) (asked kind seq epoch l)).length = 64 + (l.map requestItem).flatten.length := by
    rw [List.length_append, hmac_len, ha]; omega
  have hf : frameAccepted f = true := by
    have h78 : 78 ≤ 46 + (asked kind seq epoch l).length := by omega
    rw [hn] at h1 h4
    simp only [f, frameAccepted, h2, h3, hn, h4, h1, asked_target, hl, asked_body kind seq epoch l _ hz]
    simp [h78]
  have hb : b = asked kind seq epoch l := by
    show List.take (_ - 14 - 32) (List.drop 14 _) = _
    rw [h4, hn, show 46 + (asked kind seq epoch l).length - 14 - 32 = (asked kind seq epoch l).length by omega]; simp
  have ht : tag = hmac (List.replicate 32 1) (asked kind seq epoch l) := by
    show List.drop (_ - 14 - 32) (List.drop 14 _) = _
    rw [h4, hn, show 46 + (asked kind seq epoch l).length - 14 - 32 = (asked kind seq epoch l).length by omega]; simp
  refine ⟨hb, ?_⟩
  rw [hb, ht, hk, h, hf]
  simp
/-- A module that has heard station 15 up to request 9 of epoch 77. -/
def heard : State := { run0 with mgmt.key := List.replicate 32 1, mgmt.epoch := 77, mgmt.lastSeq := [(15, 9)] }
theorem test_StationsAreHeardOnce :
    (∃ (f : List Byte) (s : State), stationServes s = true ∧
      let b := ((f.take (f.length - 4)).drop 14).take (f.length - 4 - 14 - 32)
      let tag := ((f.take (f.length - 4)).drop 14).drop (f.length - 4 - 14 - 32)
      let bad := frameAccepted f = false ∨ keyUnset s = true ∨ hmac s.mgmt.key b ≠ tag
      bad) ∧
    (∃ (f : List Byte) (s : State), stationServes s = true ∧
      let b := ((f.take (f.length - 4)).drop 14).take (f.length - 4 - 14 - 32)
      let tag := ((f.take (f.length - 4)).drop 14).drop (f.length - 4 - 14 - 32)
      let bad := frameAccepted f = false ∨ keyUnset s = true ∨ hmac s.mgmt.key b ≠ tag
      bad) ∧
    (∃ (f : List Byte) (s : State), stationServes s = true ∧
      let b := ((f.take (f.length - 4)).drop 14).take (f.length - 4 - 14 - 32)
      let tag := ((f.take (f.length - 4)).drop 14).drop (f.length - 4 - 14 - 32)
      let h := readHeader b
      let bad := frameAccepted f = false ∨ keyUnset s = true ∨ hmac s.mgmt.key b ≠ tag
      ¬ bad ∧ (readPdu b).2 = some [] ∧ h.count = 0) ∧
    (∃ (f : List Byte) (s : State), stationServes s = true ∧
      let b := ((f.take (f.length - 4)).drop 14).take (f.length - 4 - 14 - 32)
      let tag := ((f.take (f.length - 4)).drop 14).drop (f.length - 4 - 14 - 32)
      let h := readHeader b
      let bad := frameAccepted f = false ∨ keyUnset s = true ∨ hmac s.mgmt.key b ≠ tag
      ¬ bad ∧ (readPdu b).2 = none ∧ h.count = 0) ∧
    (∃ (f : List Byte) (s : State), stationServes s = true ∧
      let b := ((f.take (f.length - 4)).drop 14).take (f.length - 4 - 14 - 32)
      let tag := ((f.take (f.length - 4)).drop 14).drop (f.length - 4 - 14 - 32)
      let h := readHeader b
      let bad := frameAccepted f = false ∨ keyUnset s = true ∨ hmac s.mgmt.key b ≠ tag
      ¬ bad ∧ 0 < h.count ∧ h.epoch ≠ s.mgmt.epoch.toNat) ∧
    (∃ (f : List Byte) (s : State), stationServes s = true ∧
      let b := ((f.take (f.length - 4)).drop 14).take (f.length - 4 - 14 - 32)
      let tag := ((f.take (f.length - 4)).drop 14).drop (f.length - 4 - 14 - 32)
      let h := readHeader b
      let last := Tab.get s.mgmt.lastSeq h.station 0
      let bad := frameAccepted f = false ∨ keyUnset s = true ∨ hmac s.mgmt.key b ≠ tag
      ¬ bad ∧ 0 < h.count ∧ h.epoch = s.mgmt.epoch.toNat ∧ h.seq ≤ last) := by
  obtain ⟨b0, r0⟩ := asked_right 1 9 0 [] heard (by decide +kernel) (by decide +kernel) rfl
  obtain ⟨b3, r3⟩ := asked_right 2 9 0 [] heard (by decide +kernel) (by decide +kernel) rfl
  obtain ⟨b1, r1⟩ := asked_right 1 10 76 [{ op := 1, index := 0x1018, sub := 1 }] heard (by decide +kernel) (by decide +kernel) rfl
  obtain ⟨b2, r2⟩ := asked_right 1 9 77 [{ op := 1, index := 0x1018, sub := 1 }] heard (by decide +kernel) (by decide +kernel) rfl
  refine ⟨⟨[], heard, by decide +kernel⟩, ⟨[], heard, by decide +kernel⟩, ⟨_, heard, by decide +kernel, r0, ?_⟩, ⟨_, heard, by decide +kernel, r3, ?_⟩, ⟨_, heard, by decide +kernel, r1, ?_⟩,
    ⟨_, heard, by decide +kernel, r2, ?_⟩⟩
  · simp only [b0]; decide +kernel
  · simp only [b3]; decide +kernel
  · simp only [b1]; decide +kernel
  · simp only [b2]; decide +kernel

theorem test_RequestsAreTakenWhole :
    (∃ (m : Msg) (l : List DictItem) (s : State), Serves .mailbox m { s with survey.frozen := false } ∧ s.power.warm = false ∧ m.ops.length = 0 ∧ 32 ≤ m.body.length ∧ (readPdu m.body).2 = none) ∧
    (∃ (m : Msg) (l : List DictItem) (s : State), Serves .mailbox m { s with survey.frozen := false } ∧ s.power.warm = false ∧ m.ops.length = 0 ∧ 32 ≤ m.body.length ∧ (readPdu m.body).2 = some l ∧
      (65535 < (l.map (fun i => 16 + (answerSize i + 7) / 8 * 8)).sum)) ∧
    (∃ (m : Msg) (l : List DictItem) (s : State), Serves .mailbox m { s with survey.frozen := false } ∧ s.power.warm = false ∧ m.ops.length = 0 ∧ 32 ≤ m.body.length ∧ (readPdu m.body).2 = some l ∧
      ((l.map (fun i => 16 + (answerSize i + 7) / 8 * 8)).sum ≤ 65535) ∧ (∀ i ∈ l, i.op = 1) ∧ (∀ i ∈ l, i.index < 0x5000 ∨ 0x6000 ≤ i.index)) :=
  ⟨⟨(tmsg 0 [] 0 (List.replicate 32 0)), [], run0, serves_of (by decide +kernel), by decide +kernel⟩,
   ⟨(tmsg 0 [] 0 (requestPdu (List.replicate 64 { op := 1, index := 0x9999, sub := 1, length := 1024 }))), (List.replicate 64 { op := 1, index := 0x9999, sub := 1, length := 1024 }), run0, serves_of (by decide +kernel), by decide +kernel⟩,
   ⟨(tmsg 0 [] 0 (requestPdu [{ op := 1, index := 0x1018, sub := 1 }])), ([{ op := 1, index := 0x1018, sub := 1 }]), run0, serves_of (by decide +kernel), by decide +kernel⟩⟩

theorem test_WindowAccessesAreChecked :
    (∃ (c : Msg → Instr) (m : Msg) (s : State), Serves .mailbox m { s with survey.frozen := false } ∧ c ∈ [Instr.csrWrite, .pmuClear, .counterValueWrite, .alertStatusRead, .ovfStatusRead] ∧
      m.ops.length = 3 ∧ (opNat m 2 = 0 ∨ opNat m 2 = 1 ∧ 4 * opNat m 1 ≤ m.body.length) ∧ opNat m 0 % 4 ≠ 0) ∧
    (∃ (c : Msg → Instr) (m : Msg) (s : State), Serves .mailbox m { s with survey.frozen := false } ∧ c ∈ [Instr.csrWrite, .pmuClear, .counterValueWrite, .alertStatusRead, .ovfStatusRead] ∧
      m.ops.length = 3 ∧ (opNat m 2 = 0 ∨ opNat m 2 = 1 ∧ 4 * opNat m 1 ≤ m.body.length) ∧ opNat m 0 % 4 = 0 ∧ (opNat m 1 = 0 ∨ 64 < opNat m 1 ∨ 0x400000 <
      opNat m 0 + 4 * opNat m 1)) :=
  ⟨⟨Instr.csrWrite, (tmsg 0 [1, 1, 0] 0 []), ({ run0 with csr.scratch := 9, csr.freeze := true, csr.counters := [(0, 5), (1023, 8)], csr.alert := 3, csr.ovf := [(0, 7), (31, 1)], csr.cfg := [(4, 6)] }), serves_of (by decide +kernel), by simp [runRequests, setupRequests, silentRequests], by decide +kernel⟩,
   ⟨Instr.csrWrite, (tmsg 0 [0, 0, 0] 0 []), ({ run0 with csr.scratch := 9, csr.freeze := true, csr.counters := [(0, 5), (1023, 8)], csr.alert := 3, csr.ovf := [(0, 7), (31, 1)], csr.cfg := [(4, 6)] }), serves_of (by decide +kernel), by simp [runRequests, setupRequests, silentRequests], by decide +kernel⟩⟩

theorem test_WindowRegistersAreWritten :
    (∃ (m : Msg) (s : State), Serves .mailbox m { s with survey.frozen := false } ∧ m.ops.length = 3 ∧ opNat m 1 = 1 ∧ opNat m 2 = 1 ∧ 4 ≤ m.body.length ∧
      let o := opNat m 0
      o = 0x8) ∧
    (∃ (m : Msg) (s : State), Serves .mailbox m { s with survey.frozen := false } ∧ m.ops.length = 3 ∧ opNat m 1 = 1 ∧ opNat m 2 = 1 ∧ 4 ≤ m.body.length ∧
      let o := opNat m 0
      o = 0x10) ∧
    (∃ (m : Msg) (s : State) (n : Nat), Serves .mailbox m { s with survey.frozen := false } ∧ m.ops.length = 3 ∧ opNat m 1 = 1 ∧ opNat m 2 = 1 ∧ 4 ≤ m.body.length ∧ n < 1024 ∧
      let o := opNat m 0
      o = 0x80000 + 4 * n) ∧
    (∃ (m : Msg) (s : State) (j : Nat), Serves .mailbox m { s with survey.frozen := false } ∧ m.ops.length = 3 ∧ opNat m 1 = 1 ∧ opNat m 2 = 1 ∧ 4 ≤ m.body.length ∧ j < 32 ∧
      let o := opNat m 0
      o = 0x10200 + 4 * j) ∧
    (∃ (m : Msg) (s : State) (n : Nat), Serves .mailbox m { s with survey.frozen := false } ∧ m.ops.length = 3 ∧ opNat m 1 = 1 ∧ opNat m 2 = 1 ∧ 4 ≤ m.body.length ∧ n < 1024 ∧
      let o := opNat m 0
      o = 0x90000 + 0x10000 * (n / 256) + 16 * (n % 256)) ∧
    (∃ (m : Msg) (s : State) (f : Nat) (k : Nat), Serves .mailbox m { s with survey.frozen := false } ∧ m.ops.length = 3 ∧ opNat m 1 = 1 ∧ opNat m 2 = 1 ∧ 4 ≤ m.body.length ∧ 1 ≤ f ∧ f < 16 ∧ k < 4 ∧
      let o := opNat m 0
      o = 0xD0000 + 16 * f + 4 * k) ∧
    (∃ (m : Msg) (s : State), Serves .mailbox m { s with survey.frozen := false } ∧ m.ops.length = 3 ∧ opNat m 1 = 1 ∧ opNat m 2 = 1 ∧ 4 ≤ m.body.length ∧
      let o := opNat m 0
      (o = 0 ∨ o = 4 ∨ o = 0x10000 ∨ (∃ j, j < 32 ∧ o = 0x10100 + 4 * j))) :=
  ⟨⟨(tmsg 0 [0x8, 1, 1] 0 [0xFF, 0xFF, 0xFF, 0xFF]), ({ run0 with csr.scratch := 9, csr.freeze := true, csr.counters := [(0, 5), (1023, 8)], csr.alert := 3, csr.ovf := [(0, 7), (31, 1)], csr.cfg := [(4, 6)] }), serves_of (by decide +kernel), by decide +kernel⟩,
   ⟨(tmsg 0 [0x10, 1, 1] 0 [0xFF, 0xFF, 0xFF, 0xFF]), ({ run0 with csr.scratch := 9, csr.freeze := true, csr.counters := [(0, 5), (1023, 8)], csr.alert := 3, csr.ovf := [(0, 7), (31, 1)], csr.cfg := [(4, 6)] }), serves_of (by decide +kernel), by decide +kernel⟩,
   ⟨(tmsg 0 [0x80000, 1, 1] 0 [0xFF, 0xFF, 0xFF, 0xFF]), ({ run0 with csr.scratch := 9, csr.freeze := true, csr.counters := [(0, 5), (1023, 8)], csr.alert := 3, csr.ovf := [(0, 7), (31, 1)], csr.cfg := [(4, 6)] }), 0, serves_of (by decide +kernel), by decide +kernel⟩,
   ⟨(tmsg 0 [0x10200, 1, 1] 0 [0xFF, 0xFF, 0xFF, 0xFF]), ({ run0 with csr.scratch := 9, csr.freeze := true, csr.counters := [(0, 5), (1023, 8)], csr.alert := 3, csr.ovf := [(0, 7), (31, 1)], csr.cfg := [(4, 6)] }), 0, serves_of (by decide +kernel), by decide +kernel⟩,
   ⟨(tmsg 0 [0x90000, 1, 1] 0 [0, 0, 0, 0]), ({ run0 with csr.scratch := 9, csr.freeze := true, csr.counters := [(0, 5), (1023, 8)], csr.alert := 3, csr.ovf := [(0, 7), (31, 1)], csr.cfg := [(4, 6)] }), 0, serves_of (by decide +kernel), by decide +kernel⟩,
   ⟨(tmsg 0 [0xD0010, 1, 1] 0 [0xFF, 0xFF, 0xFF, 0xFF]), ({ run0 with csr.scratch := 9, csr.freeze := true, csr.counters := [(0, 5), (1023, 8)], csr.alert := 3, csr.ovf := [(0, 7), (31, 1)], csr.cfg := [(4, 6)] }), 1, 0, serves_of (by decide +kernel), by decide +kernel⟩,
   ⟨(tmsg 0 [0, 1, 1] 0 [0xFF, 0xFF, 0xFF, 0xFF]), ({ run0 with csr.scratch := 9, csr.freeze := true, csr.counters := [(0, 5), (1023, 8)], csr.alert := 3, csr.ovf := [(0, 7), (31, 1)], csr.cfg := [(4, 6)] }), serves_of (by decide +kernel), by decide +kernel⟩⟩

theorem test_StatusIsClearedByItsRead :
    (∃ (m : Msg) (s : State), Serves .mailbox m { s with survey.frozen := false } ∧ m.ops.length = 3 ∧ opNat m 1 = 1 ∧ opNat m 2 = 0 ∧
      let o := opNat m 0
      o = 0x10000) ∧
    (∃ (m : Msg) (s : State) (j : Nat), Serves .mailbox m { s with survey.frozen := false } ∧ m.ops.length = 3 ∧ opNat m 1 = 1 ∧ opNat m 2 = 0 ∧ j < 32 ∧
      let o := opNat m 0
      o = 0x10100 + 4 * j) ∧
    (∃ (m : Msg) (s : State), Serves .mailbox m { s with survey.frozen := false } ∧ m.ops.length = 3 ∧ opNat m 1 = 1 ∧ opNat m 2 = 0 ∧
      let o := opNat m 0
      o = 0x0) ∧
    (∃ (m : Msg) (s : State), Serves .mailbox m { s with survey.frozen := false } ∧ m.ops.length = 3 ∧ opNat m 1 = 1 ∧ opNat m 2 = 0 ∧
      let o := opNat m 0
      o = 0x4) ∧
    (∃ (m : Msg) (s : State), Serves .mailbox m { s with survey.frozen := false } ∧ m.ops.length = 3 ∧ opNat m 1 = 1 ∧ opNat m 2 = 0 ∧
      let o := opNat m 0
      o = 0x8) ∧
    (∃ (m : Msg) (s : State), Serves .mailbox m { s with survey.frozen := false } ∧ m.ops.length = 3 ∧ opNat m 1 = 1 ∧ opNat m 2 = 0 ∧
      let o := opNat m 0
      o = 0x10) ∧
    (∃ (m : Msg) (s : State) (n : Nat), Serves .mailbox m { s with survey.frozen := false } ∧ m.ops.length = 3 ∧ opNat m 1 = 1 ∧ opNat m 2 = 0 ∧ n < 1024 ∧
      let o := opNat m 0
      o = 0x80000 + 4 * n) ∧
    (∃ (m : Msg) (s : State) (n : Nat) (k : Nat), Serves .mailbox m { s with survey.frozen := false } ∧ m.ops.length = 3 ∧ opNat m 1 = 1 ∧ opNat m 2 = 0 ∧ n < 1024 ∧ k < 4 ∧
      let o := opNat m 0
      o = 0x90000 + 0x10000 * (n / 256) + 16 * (n % 256) + 4 * k) :=
  ⟨⟨(tmsg 0 [0x10000, 1, 0] 0 []), ({ run0 with csr.scratch := 9, csr.freeze := true, csr.counters := [(0, 5), (1023, 8)], csr.alert := 3, csr.ovf := [(0, 7), (31, 1)], csr.cfg := [(4, 6)] }), serves_of (by decide +kernel), by decide +kernel⟩,
   ⟨(tmsg 0 [0x10100, 1, 0] 0 []), ({ run0 with csr.scratch := 9, csr.freeze := true, csr.counters := [(0, 5), (1023, 8)], csr.alert := 3, csr.ovf := [(0, 7), (31, 1)], csr.cfg := [(4, 6)] }), 0, serves_of (by decide +kernel), by decide +kernel⟩,
   ⟨(tmsg 0 [0, 1, 0] 0 []), ({ run0 with csr.scratch := 9, csr.freeze := true, csr.counters := [(0, 5), (1023, 8)], csr.alert := 3, csr.ovf := [(0, 7), (31, 1)], csr.cfg := [(4, 6)] }), serves_of (by decide +kernel), by decide +kernel⟩,
   ⟨(tmsg 0 [4, 1, 0] 0 []), ({ run0 with csr.scratch := 9, csr.freeze := true, csr.counters := [(0, 5), (1023, 8)], csr.alert := 3, csr.ovf := [(0, 7), (31, 1)], csr.cfg := [(4, 6)] }), serves_of (by decide +kernel), by decide +kernel⟩,
   ⟨(tmsg 0 [8, 1, 0] 0 []), ({ run0 with csr.scratch := 9, csr.freeze := true, csr.counters := [(0, 5), (1023, 8)], csr.alert := 3, csr.ovf := [(0, 7), (31, 1)], csr.cfg := [(4, 6)] }), serves_of (by decide +kernel), by decide +kernel⟩,
   ⟨(tmsg 0 [0x10, 1, 0] 0 []), ({ run0 with csr.scratch := 9, csr.freeze := true, csr.counters := [(0, 5), (1023, 8)], csr.alert := 3, csr.ovf := [(0, 7), (31, 1)], csr.cfg := [(4, 6)] }), serves_of (by decide +kernel), by decide +kernel⟩,
   ⟨(tmsg 0 [0x80000, 1, 0] 0 []), ({ run0 with csr.scratch := 9, csr.freeze := true, csr.counters := [(0, 5), (1023, 8)], csr.alert := 3, csr.ovf := [(0, 7), (31, 1)], csr.cfg := [(4, 6)] }), 0, serves_of (by decide +kernel), by decide +kernel⟩,
   ⟨(tmsg 0 [0x90000, 1, 0] 0 []), ({ run0 with csr.scratch := 9, csr.freeze := true, csr.counters := [(0, 5), (1023, 8)], csr.alert := 3, csr.ovf := [(0, 7), (31, 1)], csr.cfg := [(4, 6)] }), 0, 0, serves_of (by decide +kernel), by decide +kernel⟩⟩

theorem test_FramesAreReadWhole :
    (∃ (m : Msg) (s : State), Serves .mailbox m { s with survey.frozen := false } ∧ m.ops.length = 1 ∧
      let f := opNat m 0
      2 ^ 24 ≤ f) ∧
    (∃ (m : Msg) (s : State), Serves .mailbox m { s with survey.frozen := false } ∧ m.ops.length = 1 ∧
      let f := opNat m 0
      let x := frameAt s f
      f < 2 ^ 24 ∧ (x.state = .absent ∨ x.state = .retired)) ∧
    (∃ (m : Msg) (s : State), Serves .mailbox m { s with survey.frozen := false } ∧ m.ops.length = 1 ∧ (∃ c y, (c, y) ∈ s.contexts ∧ liveConf s c = true) ∧
      let f := opNat m 0
      let x := frameAt s f
      f < 2 ^ 24 ∧ x.state = .record) ∧
    (∃ (m : Msg) (s : State), Serves .mailbox m { s with survey.frozen := false } ∧ m.ops.length = 1 ∧
      let f := opNat m 0
      let x := frameAt s f
      f < 2 ^ 24 ∧ x.state ≠ .absent ∧ x.state ≠ .retired ∧ x.state ≠ .record ∧ x.state ≠ .free ∧ liveConf s x.context = true) ∧
    (∃ (m : Msg) (s : State), Serves .mailbox m { s with survey.frozen := false } ∧ m.ops.length = 1 ∧ (∀ c, liveConf s c = false) ∧
      let f := opNat m 0
      let x := frameAt s f
      f < 2 ^ 24 ∧ x.state = .record) ∧
    (∃ (m : Msg) (s : State), Serves .mailbox m { s with survey.frozen := false } ∧ m.ops.length = 1 ∧
      let f := opNat m 0
      let x := frameAt s f
      f < 2 ^ 24 ∧ x.state ≠ .absent ∧ x.state ≠ .retired ∧ x.state ≠ .record ∧ x.state ≠ .map ∧ x.state ≠ .index ∧ (x.state = .free ∨ liveConf s x.context
      = false)) ∧
    (∃ (m : Msg) (s : State), Serves .mailbox m { s with survey.frozen := false } ∧ m.ops.length = 1 ∧
      let f := opNat m 0
      let x := frameAt s f
      f < 2 ^ 24 ∧ (x.state = .map ∨ x.state = .index) ∧ liveConf s x.context = false) :=
  ⟨⟨(tmsg 0 [2^24]), run0, serves_of (by decide +kernel), by decide +kernel⟩,
   ⟨(tmsg 0 [2^24-1]), ({ run0 with frames := [(2^24-1, { state := .absent })] }), serves_of (by decide +kernel), by decide +kernel⟩,
   ⟨(tmsg 0 [20]), ({ run0 with frames := [(20, { state := .record, context := 1 })], contexts := [(2, { mode := .pending })] }), serves_of (by decide +kernel), by decide +kernel, ⟨2, { mode := .pending }, by decide +kernel⟩, by decide +kernel⟩,
   ⟨(tmsg 0 [20]), ({ run0 with frames := [(20, { state := .kv, context := 1 })], contexts := [(1, { mode := .confidential })] }), serves_of (by decide +kernel), by decide +kernel⟩,
   ⟨tmsg 0 [20], { run0 with frames := [(20, { state := .record, context := 1 })], contexts := [] }, serves_of (by decide +kernel), by decide +kernel, fun _ => rfl, by decide +kernel⟩,
   ⟨(tmsg 0 [20]), ({ run0 with frames := [(20, { state := .kv, context := 1 })] }), serves_of (by decide +kernel), by decide +kernel⟩,
   ⟨(tmsg 0 [20]), ({ run0 with frames := [(20, { state := .map, context := 1 })] }), serves_of (by decide +kernel), by decide +kernel⟩⟩

theorem test_SuppliesStartAndStopTheModule :
    (∃ (mv : Nat) (s : State), 1620 < mv ∧
      let p := s.power
      p.vioGood = false ∧ p.vinGood = true ∧ p.resetHigh = true ∧ p.phase = .held) ∧
    (∃ (mv : Nat) (s : State), 1620 < mv ∧
      let p := s.power
      p.vioGood = false ∧ ¬ (p.vinGood = true ∧ p.resetHigh = true ∧ p.phase = .held)) ∧
    (∃ (mv : Nat) (s : State), 
      let p := s.power
      (mv ≤ 1620 ∨ p.vioGood = true)) ∧
    (∃ (mv : Nat) (s : State), 
      let p := s.power
      let up := p.phase = .running ∨ p.phase = .starting
      p.resetHigh = true ∧ up) ∧
    (∃ (mv : Nat) (s : State), 
      let p := s.power
      let up := p.phase = .running ∨ p.phase = .starting
      p.resetHigh = true ∧ ¬ up) ∧
    (∃ (mv : Nat) (s : State), 
      let p := s.power
      p.resetHigh = false) ∧
    (∃ (mv : Nat) (s : State), 
      let p := s.power
      p.resetHigh = false ∧ p.vinGood = true ∧ p.vioGood = true ∧ (p.phase = .held ∨ p.phase = .shutDown)) ∧
    (∃ (mv : Nat) (s : State), 
      let p := s.power
      p.resetHigh = false ∧ (¬ (p.vinGood = true ∧ p.vioGood = true ∧ (p.phase = .held ∨ p.phase = .shutDown)))) ∧
    (∃ (mv : Nat) (s : State), 
      let p := s.power
      p.resetHigh = true) ∧
    (∃ (mv : Nat) (s : State) (n : Nat) (x : Int), n < 17 ∧ ((if n < 9 then (115 : Int) else 105) ≤ x) ∧
      let p := s.power
      let up := p.phase = .running ∨ p.phase = .starting
      up) ∧
    (∃ (mv : Nat) (s : State) (n : Nat) (x : Int), (x < (if n < 9 then (115 : Int) else 105))) :=
  ⟨⟨1621, ({ run0 with power := { vioGood := false, phase := .held } }), by decide +kernel⟩,
   ⟨1621, ({ run0 with power := { vioGood := false, phase := .off, vinGood := false } }), by decide +kernel⟩,
   ⟨1620, ({ run0 with power := { vioGood := false } }), by decide +kernel⟩,
   ⟨0, ({ run0 with power := {  } }), by decide +kernel⟩,
   ⟨0, ({ run0 with power := { phase := .held } }), by decide +kernel⟩,
   ⟨0, ({ run0 with power := { resetHigh := false } }), by decide +kernel⟩,
   ⟨0, ({ run0 with power := { resetHigh := false, phase := .held } }), by decide +kernel⟩,
   ⟨0, ({ run0 with power := { resetHigh := false, phase := .held, vioGood := false } }), by decide +kernel⟩,
   ⟨0, ({ run0 with power := {  } }), by decide +kernel⟩,
   ⟨0, ({ run0 with power := {  } }), 8, 115, by decide +kernel⟩,
   ⟨0, ({ run0 with power := {  } }), 8, 114, by decide +kernel⟩⟩

theorem test_StartUpEndsInSetup :
    (∃ (s : State), s.power.phase ≠ .starting) ∧
    (∃ (s : State), s.power.phase = .starting) :=
  ⟨⟨({ run0 with power := {  } }), by decide +kernel⟩,
   ⟨({ run0 with power := { phase := .starting } }), by decide +kernel⟩⟩

theorem test_HeatScanAndBeacons :
    (∃ (s : State) (n : Nat) (x : Int), s.power.phase = .running ∧ n < 17 ∧
      let y : Int := if n < 9 then thermWarnMainCVal s else thermWarnStackCVal s
      y ≤ x) ∧
    (∃ (s : State) (n : Nat) (x : Int), s.power.phase = .running ∧ n < 17 ∧
      let y : Int := if n < 9 then thermWarnMainCVal s else thermWarnStackCVal s
      x < y) ∧
    (∃ (s : State) (l : List Int), s.power.phase = .running ∧ s.pace.warning = true ∧ l.length = 17 ∧
      let low (k : Nat) : Prop := l.getD k 0 + 3 ≤ (if k < 9 then thermWarnMainCVal s else thermWarnStackCVal s)
      (∀ k, k < 17 → low k)) ∧
    (∃ (s : State) (l : List Int), s.power.phase = .running ∧ s.pace.warning = true ∧ l.length = 17 ∧
      let low (k : Nat) : Prop := l.getD k 0 + 3 ≤ (if k < 9 then thermWarnMainCVal s else thermWarnStackCVal s)
      (∃ k, k < 17 ∧ ¬ low k)) ∧
    (∃ (s : State) (code : Byte), s.power.vinGood = true ∧ s.power.vioGood = true) ∧
    (∃ (s : State) (code : Byte), s.power.vinGood = true ∧ s.power.vioGood = true ∧
      let n := code.toNat
      2 ≤ n ∧ n ≤ 5) ∧
    (∃ (s : State) (code : Byte), s.power.vinGood = true ∧ s.power.vioGood = true ∧
      let n := code.toNat
      0x80 ≤ n ∧ n ≤ 0x8F) ∧
    (∃ (s : State) (code : Byte), s.power.vinGood = true ∧ s.power.vioGood = true ∧
      let n := code.toNat
      ¬ (2 ≤ n ∧ n ≤ 5) ∧ ¬ (0x80 ≤ n ∧ n ≤ 0x8F)) ∧
    (∃ (s : State), s.power.phase = .running ∧ plcaEnableVal s = 1) ∧
    (∃ (s : State), s.power.phase = .running ∧ plcaEnableVal s = 1) ∧
    (∃ (s : State), s.power.phase = .running ∧ plcaEnableVal s ≠ 1) ∧
    (∃ (s : State), s.power.phase = .running ∧ plcaEnableVal s ≠ 1) :=
  ⟨⟨run0, 0, 100, by decide +kernel⟩,
   ⟨run0, 0, 99, by decide +kernel⟩,
   ⟨({ run0 with pace.warning := true }), (List.replicate 17 50), by decide +kernel⟩,
   ⟨({ run0 with pace.warning := true }), (List.replicate 17 100), by decide +kernel⟩,
   ⟨run0, 7, by decide +kernel⟩,
   ⟨run0, 2, by decide +kernel⟩,
   ⟨run0, 0x80, by decide +kernel⟩,
   ⟨run0, 1, by decide +kernel⟩,
   ⟨run0, by decide +kernel⟩,
   ⟨run0, by decide +kernel⟩,
   ⟨({ run0 with dict.run := [(0x101003, 0)] }), by decide +kernel⟩,
   ⟨({ run0 with dict.run := [(0x101003, 0)] }), by decide +kernel⟩⟩

theorem test_PortsComeUpAndGoDown :
    (∃ (k : Nat) (s : State), portEnabled s k = true ∧
      let p := portAt s k
      p.state = .down) ∧
    (∃ (k : Nat) (s : State), 
      let p := portAt s k
      (portEnabled s k = false ∨ p.state ≠ .down)) ∧
    (∃ (k : Nat) (s : State) (skew : Nat), k = 0) ∧
    (∃ (k : Nat) (s : State) (lane : Nat), 
      let p := portAt s k
      p.state = .down) ∧
    (∃ (k : Nat) (s : State) (lane : Nat), 
      let p := portAt s k
      let recent := (Tab.get p.badCodewords lane []).filter (fun t => s.time.now < t + 1000000) ++ [s.time.now]
      p.state ≠ .down ∧ recent.length ≤ fecDownCountVal s k) ∧
    (∃ (k : Nat) (s : State) (lane : Nat), 
      let p := portAt s k
      let recent := (Tab.get p.badCodewords lane []).filter (fun t => s.time.now < t + 1000000) ++ [s.time.now]
      p.state ≠ .down ∧ fecDownCountVal s k < recent.length) :=
  ⟨⟨0, ({ run0 with dict.run := [(0x208001, 0), (0x208002, 1), (0x208005, 4)], ports := [(0, { state := .down })], time.now := 2000000 }), by decide +kernel⟩,
   ⟨0, ({ run0 with dict.run := [(0x208001, 0), (0x208002, 1), (0x208005, 4)], ports := [(0, { state := .up })], time.now := 2000000 }), by decide +kernel⟩,
   ⟨0, ({ run0 with dict.run := [(0x208001, 0), (0x208002, 1), (0x208005, 4)], ports := [(0, { state := .deskew })], time.now := 2000000 }), 50, by decide +kernel⟩,
   ⟨0, ({ run0 with dict.run := [(0x208001, 0), (0x208002, 1), (0x208005, 4)], ports := [(0, { state := .down })], time.now := 2000000 }), 2, by decide +kernel⟩,
   ⟨0, ({ run0 with dict.run := [(0x208001, 0), (0x208002, 1), (0x208005, 4)], ports := [(0, { state := .up, badCodewords := [(2, List.replicate 1 1500000)] })], time.now := 2000000 }), 2, by decide +kernel⟩,
   ⟨0, ({ run0 with dict.run := [(0x208001, 0), (0x208002, 1), (0x208005, 4)], ports := [(0, { state := .up, badCodewords := [(2, List.replicate 1 1500000)] })], time.now := 2000000, dict.vals := [(0x400003, 1)] }), 2, by decide +kernel⟩⟩

theorem test_StepsOfLostMembersEnd :
    (∃ (k : Nat) (i : Nat) (st : Step) (s : State), 1 ≤ k ∧ (portAt s k).state ≠ .down ∧ (sessAt s i).step = some st ∧ (sessAt s i).ringHome = none ∧ (stepNeeds s i st).any (nodeLost (setPort k { portAt
      s k with state := .down } s)) = true) :=
  ⟨2, 3, ({ step0 with len0 := 2 }), ({ run0 with dict.run := [(0x208001, 0), (0x208002, 1), (0x208005, 4), (0x208006, 1), (0x208007, 1), (0x300001, 1), (0x301001, 1), (0x301002, 2), (0x301003, 0), (0x301004, 0), (0x301005, 0)], ports := [(1, { state := .up }), (2, { state := .up })], sessions := [(3, { sess .active with step := some { step0 with len0 := 2 } })] }), by decide +kernel⟩

theorem test_CreditsAreExchanged :
    (∃ (k : Nat) (s : State) (l : List Nat), 
      let p := portAt s k
      (p.state = .credit ∨ p.state = .up)) ∧
    (∃ (k : Nat) (s : State), 
      let p := portAt s k
      (p.state = .credit ∨ p.state = .up)) ∧
    (∃ (k : Nat) (s : State) (l : List Nat), 
      let p := portAt s k
      p.state ≠ .credit ∧ p.state ≠ .up) ∧
    (∃ (k : Nat) (s : State), 
      let p := portAt s k
      p.state ≠ .credit ∧ p.state ≠ .up) :=
  ⟨⟨0, ({ run0 with dict.run := [(0x208001, 0), (0x208002, 1), (0x208005, 4)], ports := [(0, { state := .up, credits := [(1, { inUse := 5, freed := 65534 })] })], time.now := 2000000 }), ([1, 2]), by decide +kernel⟩,
   ⟨0, ({ run0 with dict.run := [(0x208001, 0), (0x208002, 1), (0x208005, 4)], ports := [(0, { state := .up, credits := [(1, { inUse := 5, freed := 65534 })] })], time.now := 2000000 }), by decide +kernel⟩,
   ⟨0, ({ run0 with dict.run := [(0x208001, 0), (0x208002, 1), (0x208005, 4)], ports := [(0, { state := .down })], time.now := 2000000 }), [1], by decide +kernel⟩,
   ⟨0, ({ run0 with dict.run := [(0x208001, 0), (0x208002, 1), (0x208005, 4)], ports := [(0, { state := .down })], time.now := 2000000 }), by decide +kernel⟩⟩

theorem test_PacketsAreCheckedAndRouted :
    (∃ (k : Nat) (p : Packet) (s : State), linkAlive s = true ∧ (portAt s k).state = .up) :=
  ⟨0, ((withHcrc (word (512 * 2 ^ 48 + 512 * 2 ^ 32 + 0x50)) (word (5 * 2 ^ 60 + 2 ^ 57 + 0 * 2 ^ 40 + 0 * 2 ^ 32 + 2 ^ 24)) 7 0 (List.replicate 32 0))), ({ run0 with dict.run := [(0x208001, 0), (0x208002, 1), (0x208005, 4)], ports := [(0, { state := .up })], time.now := 2000000 }), by decide +kernel⟩

theorem test_PacketsAreTakenInOrder :
    (∃ (k : Nat) (p : Packet) (s : State), linkAlive s = true ∧ (portAt s k).state = .up ∧ bits p.h0 7 0 = 0x50 ∧ pktType p = 1 ∧ pktAckValid p = false ∧ isLocal s k p = true ∧ qpReady s
      (pktDestQp p) = true ∧ (meterKeep k p s).1 = true ∧ hcrcOk p = true ∧ lengthOk p = true) :=
  ⟨0, ((withHcrc (word (512 * 2 ^ 48 + 512 * 2 ^ 32 + 0x50)) (word (1 * 2 ^ 60 + 2 ^ 57 + 4096 * 2 ^ 40 + 0 * 2 ^ 32 + 2 ^ 24)) 7 0 (List.replicate 4128 0))), ({ run0 with dict.run := [(0x208001, 0), (0x208002, 1), (0x208005, 4)], ports := [(0, { state := .up })], time.now := 2000000 }), by decide +kernel⟩

theorem test_PacketsAreAcknowledgedOrRepeated :
    (∃ (k : Nat) (p : Packet) (s : State), pktType p ≠ 5) ∧
    (∃ (k : Nat) (p : Packet) (s : State), linkAlive s = true ∧ (portAt s k).state = .up ∧ bits p.h0 7 0 = 0x50 ∧ pktType p = 5 ∧ isLocal s k p = true ∧ qpReady s (pktDestQp p) = true ∧
      (qpAt s (pktDestQp p)).backlog = [] ∧ (∀ u ∈ (qpAt s (pktDestQp p)).unacked, u.what.wr = none) ∧
      let n := pktDestQp p
      (hcrcOk p = false ∨ lengthOk p = false ∨ openPayload s n p = none)) ∧
    (∃ (k : Nat) (p : Packet) (s : State) (b : List Byte), linkAlive s = true ∧ (portAt s k).state = .up ∧ bits p.h0 7 0 = 0x50 ∧ pktType p = 5 ∧ isLocal s k p = true ∧ qpReady s (pktDestQp p) = true ∧
      (qpAt s (pktDestQp p)).backlog = [] ∧ (∀ u ∈ (qpAt s (pktDestQp p)).unacked, u.what.wr = none) ∧ hcrcOk p = true ∧ lengthOk p = true ∧
      let n := pktDestQp p
      openPayload s n p = some b) ∧
    (∃ (n : Nat) (s : State), 
      let due := ∃ t, (qpAt s n).oldest = some t ∧ t + ackDelayNsVal s ≤ s.time.now ∧ qpReady s n = true
      ¬ due) ∧
    (∃ (n : Nat) (s : State), 
      let due := ∃ t, (qpAt s n).oldest = some t ∧ t + ackDelayNsVal s ≤ s.time.now ∧ qpReady s n = true
      due) ∧
    (∃ (n : Nat) (s : State), 
      let q := qpAt s n
      let due := ∃ t, q.timer = some t ∧ t ≤ s.time.now ∧ qpReady s n = true
      ¬ due) ∧
    (∃ (n : Nat) (s : State), 
      let q := qpAt s n
      let due := ∃ t, q.timer = some t ∧ t ≤ s.time.now ∧ qpReady s n = true
      due ∧ q.retries < retryLimitVal s) ∧
    (∃ (n : Nat) (s : State), 
      let q := qpAt s n
      let due := ∃ t, q.timer = some t ∧ t ≤ s.time.now ∧ qpReady s n = true
      due ∧ retryLimitVal s ≤ q.retries) :=
  ⟨⟨0, ((withHcrc (word (512 * 2 ^ 48 + 512 * 2 ^ 32 + 0x50)) (word (0 * 2 ^ 60 + 2 ^ 57 + 0 * 2 ^ 40 + 0 * 2 ^ 32 + 2 ^ 24)) 7 0 [])), run0, by decide +kernel⟩,
   ⟨0, ((withHcrc (word (512 * 2 ^ 48 + 512 * 2 ^ 32 + 0x50)) (word (5 * 2 ^ 60 + 2 ^ 57 + 0 * 2 ^ 40 + 0 * 2 ^ 32 + 2 ^ 24)) 7 0 (List.replicate 32 1))), ({ run0 with dict.run := [(0x208001, 0), (0x208002, 1), (0x208005, 4)], ports := [(0, { state := .up })], time.now := 2000000, qps := [(512, { state := .ready, bound := true, context := 1, created := true, windowM1 := 15, rtoUs := 5, unacked := [{ psn := 3, ext := 3, what := { ptype := 1, payload := [1] } }], sndUna := 3, sndNxt := 4 })] }), by decide +kernel⟩,
   ⟨0, ((withHcrc (word (512 * 2 ^ 48 + 512 * 2 ^ 32 + 0x50)) (word (5 * 2 ^ 60 + 2 ^ 57 + 0 * 2 ^ 40 + 0 * 2 ^ 32 + 2 ^ 24)) 7 0 (List.replicate 32 0))), ({ run0 with dict.run := [(0x208001, 0), (0x208002, 1), (0x208005, 4)], ports := [(0, { state := .up })], time.now := 2000000, qps := [(512, { state := .ready, bound := true, context := 1, created := true, windowM1 := 15, rtoUs := 5, unacked := [{ psn := 3, ext := 3, what := { ptype := 1, payload := [1] } }], sndUna := 3, sndNxt := 4 })] }), [], by decide +kernel⟩,
   ⟨512, ({ run0 with dict.run := [(0x208001, 0), (0x208002, 1), (0x208005, 4)], ports := [(0, { state := .up })], time.now := 2000000, qps := [(512, { state := .ready, bound := true, context := 1, created := true, windowM1 := 15, rtoUs := 5 })] }), by decide +kernel⟩,
   ⟨512, ({ run0 with dict.run := [(0x208001, 0), (0x208002, 1), (0x208005, 4)], ports := [(0, { state := .up })], time.now := 2000000, qps := [(512, { state := .ready, bound := true, context := 1, created := true, windowM1 := 15, rtoUs := 5, oldest := some 5 })] }), by decide +kernel⟩,
   ⟨512, ({ run0 with dict.run := [(0x208001, 0), (0x208002, 1), (0x208005, 4)], ports := [(0, { state := .up })], time.now := 2000000, qps := [(512, { state := .ready, bound := true, context := 1, created := true, windowM1 := 15, rtoUs := 5 })] }), by decide +kernel⟩,
   ⟨512, ({ run0 with dict.run := [(0x208001, 0), (0x208002, 1), (0x208005, 4)], ports := [(0, { state := .up })], time.now := 2000000, qps := [(512, { state := .ready, bound := true, context := 1, created := true, windowM1 := 15, rtoUs := 5, unacked := [{ psn := 3, ext := 3, what := { ptype := 1, payload := [1] } }], sndUna := 3, sndNxt := 4, timer := some 2000000 })] }), by decide +kernel⟩,
   ⟨512, ({ run0 with dict.run := [(0x208001, 0), (0x208002, 1), (0x208005, 4)], ports := [(0, { state := .up })], time.now := 2000000, qps := [(512, { state := .ready, bound := true, context := 1, created := true, windowM1 := 15, rtoUs := 5, unacked := [{ psn := 3, ext := 3, what := { ptype := 1, payload := [1] } }], sndUna := 3, sndNxt := 4, timer := some 2000000, retries := 7 })] }), by decide +kernel⟩⟩

theorem test_NetworkTimeFollowsTheAdapter :
    (∃ (s : State) (sent : Nat), 
      let linked := linkAlive s = true ∧ (portAt s 0).state = .up
      ¬ linked) ∧
    (∃ (s : State), 
      let linked := linkAlive s = true ∧ (portAt s 0).state = .up
      ¬ linked) ∧
    (∃ (s : State), 
      let linked := linkAlive s = true ∧ (portAt s 0).state = .up
      linked) ∧
    (∃ (s : State) (sent : Nat), 
      let linked := linkAlive s = true ∧ (portAt s 0).state = .up
      let x := s.time
      linked ∧ x.state = 0 ∧ (x.haveDelay = false ∨ x.blocks = 0)) ∧
    (∃ (s : State) (sent : Nat), 
      let linked := linkAlive s = true ∧ (portAt s 0).state = .up
      let x := s.time
      linked ∧ x.state = 0 ∧ x.haveDelay = true ∧ 1 ≤ x.blocks) ∧
    (∃ (s : State) (sent : Nat), 
      let linked := linkAlive s = true ∧ (portAt s 0).state = .up
      let x := s.time
      linked ∧
      let off : Int := (sent : Int) + x.pathDelay - x.now
      x.state ≠ 0 ∧ off.natAbs ≤ timeStepNsVal s) ∧
    (∃ (s : State) (sent : Nat), 
      let linked := linkAlive s = true ∧ (portAt s 0).state = .up
      let x := s.time
      linked ∧
      let off : Int := (sent : Int) + x.pathDelay - x.now
      x.state ≠ 0 ∧ timeStepNsVal s < off.natAbs) ∧
    (∃ (s : State) (got : Nat) (t3 : Nat) (t1 : Nat) (t2 : Nat), 
      let x := s.time
      x.delayReqAt = some t3 ∧ x.lastBlock = some (t1, t2) ∧ (x.state ≠ 0 ∨ x.blocks < 2)) ∧
    (∃ (s : State) (got : Nat) (t3 : Nat) (t1 : Nat) (t2 : Nat), 
      let x := s.time
      x.delayReqAt = some t3 ∧ x.lastBlock = some (t1, t2) ∧ x.state = 0 ∧ 2 ≤ x.blocks) ∧
    (∃ (s : State) (got : Nat), 
      let x := s.time
      (x.delayReqAt = none ∨ x.lastBlock = none)) ∧
    (∃ (s : State), 
      let x := s.time
      (∃ a t, x.lastBlock = some (a, t) ∧ x.state = 1 ∧ t + timeHoldoverMsVal s * 1000000 ≤ x.now)) ∧
    (∃ (s : State), 
      let x := s.time
      (¬ (∃ a t, x.lastBlock = some (a, t) ∧ x.state = 1 ∧ t + timeHoldoverMsVal s * 1000000 ≤ x.now))) ∧
    (∃ (s : State), linkAlive s = true ∧
      let x := s.time
      x.state ≠ 0 ∧
      let second := x.now - x.now % 1000000000
      x.pulse = false ∧ x.now % 1000000000 < 100000000 ∧ x.pulseAt ≠ second) ∧
    (∃ (s : State), linkAlive s = true ∧
      let x := s.time
      x.state ≠ 0 ∧ x.pulse = true ∧ x.pulseAt + 100000000 ≤ x.now) ∧
    (∃ (s : State), linkAlive s = true ∧
      let x := s.time
      x.state ≠ 0 ∧ x.pulse = true ∧ x.now < x.pulseAt + 100000000) ∧
    (∃ (s : State), 
      let x := s.time
      x.state = 0) :=
  ⟨⟨({ run0 with ports := [(0, { state := .down })], time := {  } }), 5, by decide +kernel⟩,
   ⟨({ run0 with ports := [(0, { state := .down })], time := {  } }), by decide +kernel⟩,
   ⟨({ run0 with ports := [(0, { state := .up })], time := { now := 4 } }), by decide +kernel⟩,
   ⟨({ run0 with ports := [(0, { state := .up })], time := { now := 4 } }), 9, by decide +kernel⟩,
   ⟨({ run0 with ports := [(0, { state := .up })], time := { now := 4, haveDelay := true, blocks := 1, pathDelay := 3 } }), 9, by decide +kernel⟩,
   ⟨({ run0 with ports := [(0, { state := .up })], time := { now := 4, state := 1 } }), 9, by decide +kernel⟩,
   ⟨({ run0 with ports := [(0, { state := .up })], time := { now := 4, state := 1 } }), (2 ^ 50), by decide +kernel⟩,
   ⟨({ run0 with ports := [(0, { state := .up })], time := { now := 4, state := 1, delayReqAt := some 2, lastBlock := some (1, 2) } }), 3, 2, 1, 2, by decide +kernel⟩,
   ⟨({ run0 with ports := [(0, { state := .up })], time := { now := 4, blocks := 2, delayReqAt := some 2, lastBlock := some (1, 2) } }), 3, 2, 1, 2, by decide +kernel⟩,
   ⟨({ run0 with ports := [(0, { state := .up })], time := { now := 4 } }), 3, by decide +kernel⟩,
   ⟨{ run0 with time := { now := 10 ^ 15, state := 1, lastBlock := some (1, 2) } }, 1, 2, by decide +kernel⟩,
   ⟨run0, by intro x; rintro ⟨a, t, h, -⟩; cases (show none = some (a, t) from h)⟩,
   ⟨({ run0 with ports := [(0, { state := .up })], time := { now := 5000000000, state := 1 } }), by decide +kernel⟩,
   ⟨({ run0 with ports := [(0, { state := .up })], time := { now := 5100000000, state := 1, pulse := true, pulseAt := 5000000000 } }), by decide +kernel⟩,
   ⟨({ run0 with ports := [(0, { state := .up })], time := { now := 5000000010, state := 1, pulse := true, pulseAt := 5000000000 } }), by decide +kernel⟩,
   ⟨({ run0 with ports := [(0, { state := .up })], time := { now := 5 } }), by decide +kernel⟩⟩

/-- Port 0 in UP with one packet of class 1 queued against the deficit `d`, at turn `turn`, with the settings `vals`. -/
def port0 (d turn : Nat) (vals : List (Nat × Nat)) (q : List (Queued) := [{ packet := ⟨0, 0, 0, 0, List.replicate 32 0⟩, joined := 0 }]) : State :=
  { run0 with
    dict.vals := vals
    ports := [(0, { state := .up, classes := [(1, { queue := q, deficit := d, wasStrict := false })], credits := [(0, { limit := 5 }), (1, { limit := 5 })], turn := turn })] }
def el (s : State) : Nat → Bool := eligible s 0 (evaluate s 0 (portAt s 0))
theorem notStrict {s : State} (h : ∀ c < 8, ¬ (tcWeightVal s 0 c = 0 ∧ el s c = true)) :
  ¬ ∃ c, c < 8 ∧ tcWeightVal s 0 c = 0 ∧ eligible s 0 (evaluate s 0 (portAt s 0)) c = true := fun ⟨c, hc, h1, h2⟩ => h c hc ⟨h1, h2⟩
theorem test_ThePortSendsTheClassThatIsDue :
    (∃ (k : Nat) (s : State), linkAlive s = true ∧ (portAt s k).state = .up ∧ exhausted s = [] ∧
      let p := evaluate s k (portAt s k)
      let can (c : Nat) : Prop := eligible s k p c = true
      (∀ c, c < 8 → ¬ can c) ∧ p.turn < 8) ∧
    (∃ (k : Nat) (s : State) (c : Nat), linkAlive s = true ∧ (portAt s k).state = .up ∧ exhausted s = [] ∧ c < 8 ∧
      let p := evaluate s k (portAt s k)
      let can (c : Nat) : Prop := eligible s k p c = true
      let w (c : Nat) : Nat := tcWeightVal s k c
      w c = 0 ∧ can c ∧ (∀ d, c < d → d < 8 → w d = 0 → ¬ can d)) ∧
    (∃ (k : Nat) (s : State), linkAlive s = true ∧ (portAt s k).state = .up ∧ exhausted s = [] ∧
      let p := evaluate s k (portAt s k)
      let can (c : Nat) : Prop := eligible s k p c = true
      let w (c : Nat) : Nat := tcWeightVal s k c
      let held (c : Nat) : Int := ((classAt p c).deficit : Int)
      let fits (c : Nat) : Prop := ∃ x rest, (classAt (portAt s k) c).queue = x :: rest ∧ (framedLength x.packet : Int) ≤ held c
      let strict := ∃ c, c < 8 ∧ w c = 0 ∧ can c
      ¬ strict ∧ 0 < w p.turn ∧ can p.turn ∧ fits p.turn) ∧
    (∃ (k : Nat) (s : State) (n : Nat), linkAlive s = true ∧ (portAt s k).state = .up ∧ exhausted s = [] ∧ n < 8 ∧
      let p := evaluate s k (portAt s k)
      let can (c : Nat) : Prop := eligible s k p c = true
      let w (c : Nat) : Nat := tcWeightVal s k c
      let held (c : Nat) : Int := ((classAt p c).deficit : Int)
      let fits (c : Nat) : Prop := ∃ x rest, (classAt (portAt s k) c).queue = x :: rest ∧ (framedLength x.packet : Int) ≤ held c
      let strict := ∃ c, c < 8 ∧ w c = 0 ∧ can c
      ¬ strict ∧ ¬ (0 < w p.turn ∧ can p.turn ∧ fits p.turn) ∧ (∀ m, m < n → ¬ (0 < w ((p.turn + m + 1) % 8) ∧ can ((p.turn + m + 1) % 8))) ∧
      let c := (p.turn + n + 1) % 8
      0 < w c ∧ can c) := by
  refine ⟨⟨0, port0 0 0 [] [], rfl, rfl, by decide +kernel, ?_⟩, ⟨0, port0 0 0 [(0x400102, 0)], 1, rfl, rfl, by decide +kernel, by decide, ?_⟩,
    ⟨0, port0 9000 1 [(0x400102, 1)], rfl, rfl, by decide +kernel, ?_⟩,
    ⟨0, port0 0 0 [(0x400101, 2), (0x400102, 1)], 0, rfl, rfl, by decide +kernel, by decide, ?_⟩⟩
  · show (∀ c, c < 8 → ¬ el (port0 0 0 [] []) c = true) ∧ _
    exact ⟨by decide +kernel, by decide +kernel⟩
  · show _ ∧ el _ 1 = true ∧ ∀ d, 1 < d → d < 8 → tcWeightVal (port0 0 0 [(0x400102, 0)]) 0 d = 0 → ¬ el _ d = true
    exact ⟨by decide +kernel, by decide +kernel, fun d h h8 => (by decide +kernel : ∀ d < 8, 1 < d → tcWeightVal (port0 0 0 [(0x400102, 0)]) 0 d = 0 → ¬ el _ d = true) d h8 h⟩
  · exact ⟨notStrict (by decide +kernel), by decide +kernel, (by decide +kernel : el (port0 9000 1 [(0x400102, 1)]) 1 = true), _, _, rfl, by decide +kernel⟩
  · exact ⟨notStrict (by decide +kernel), fun h => absurd h.2.1 (by decide +kernel : ¬ el (port0 0 0 [(0x400101, 2), (0x400102, 1)]) 0 = true), fun m h => absurd h (Nat.not_lt_zero m),
      (by decide +kernel : 0 < tcWeightVal (port0 0 0 [(0x400101, 2), (0x400102, 1)]) 0 1), (by decide +kernel : el (port0 0 0 [(0x400101, 2), (0x400102, 1)]) 1 = true)⟩

theorem test_EligibilityHasFourParts :
    (∃ (k : Nat) (n : Nat) (s : State), linkAlive s = true ∧ n ∈ exhausted s) :=
  ⟨0, 512, ({ run0 with ports := [(0, { state := .up })], qps := [(512, { state := .ready, bound := true, context := 1, created := true, enc := true, sndNxt := 0, sndWraps := 2 ^ 24, backlog := [{ ptype := 1 }] })] }), by decide +kernel⟩

theorem test_GatesFollowNetworkTime :
    (∃ (k : Nat) (s : State) (l : GateList) (t : Nat), s.time.everValid = true ∧ t ≤ s.time.now ∧
      let p := portAt s k
      p.coming = some (l, t)) ∧
    (∃ (k : Nat) (s : State), 
      let p := portAt s k
      (p.coming = none ∨ s.time.everValid = false ∨ (∃ l t, p.coming = some (l, t) ∧ s.time.now < t))) ∧
    (∃ (k : Nat) (s : State) (l : GateList) (t : Nat), gateEnableVal s k = 1 ∧ 0 < l.cycle ∧
      let p := portAt s k
      p.running = some (l, t)) ∧
    (∃ (k : Nat) (s : State), 
      let p := portAt s k
      (p.running = none ∨ gateEnableVal s k ≠ 1)) :=
  ⟨⟨0, ({ run0 with time.now := 50, time.everValid := true, dict.vals := [(0x400402, 1)], ports := [(0, { state := .up, coming := some ({ entries := [(1, 100), (2, 200)], base := 0, cycle := 300, change := 0 }, 40) })] }), ({ entries := [(1, 100), (2, 200)], base := 0, cycle := 300, change := 0 }), 40, by decide +kernel⟩,
   ⟨0, { run0 with ports := [(0, { state := .up })] }, .inl rfl⟩,
   ⟨0, ({ run0 with time.now := 50, time.everValid := true, dict.vals := [(0x400402, 1)], ports := [(0, { state := .up, running := some ({ entries := [(1, 100), (2, 200)], base := 0, cycle := 300, change := 0 }, 0) })] }), ({ entries := [(1, 100), (2, 200)], base := 0, cycle := 300, change := 0 }), 0, by decide +kernel⟩,
   ⟨0, ({ run0 with time.now := 50, time.everValid := true, dict.vals := [(0x400402, 1)], ports := [(0, { state := .up })] }), by decide +kernel⟩⟩

theorem test_QueuesAreSampled :
    (∃ (s : State), Live s ∧
      let x := s.sampler
      let i := max (sampleIntervalUsVal s) 1 * 1000
      let at_ := s.time.now - s.time.now % i
      (x.range = none ∨ 1000 < s.time.now % i ∨ x.lastAt = at_ + 1)) ∧
    (∃ (s : State) (r : Nat), Live s ∧
      let x := s.sampler
      let i := max (sampleIntervalUsVal s) 1 * 1000
      let at_ := s.time.now - s.time.now % i
      let records := ((List.range 40).filter (fun n => (sampleQueuesVal s).testBit n)).map (fun n => sampleRecord s at_ (n / 8) (n % 8))
      x.range = some r ∧ s.time.now % i ≤ 1000 ∧ x.lastAt ≠ at_ + 1 ∧ x.tile.length + records.length < 128) ∧
    (∃ (s : State) (r : Nat), Live s ∧
      let x := s.sampler
      let i := max (sampleIntervalUsVal s) 1 * 1000
      let at_ := s.time.now - s.time.now % i
      let records := ((List.range 40).filter (fun n => (sampleQueuesVal s).testBit n)).map (fun n => sampleRecord s at_ (n / 8) (n % 8))
      x.range = some r ∧ s.time.now % i ≤ 1000 ∧ x.lastAt ≠ at_ + 1 ∧ x.tile.length + records.length = 128 ∧ records ≠ []) ∧
    (∃ (s : State), Live s ∧
      let x := s.sampler
      (x.tile = [] ∨ s.time.now < x.firstAt + sampleFlushUsVal s * 1000)) ∧
    (∃ (s : State) (r : Nat), Live s ∧
      let x := s.sampler
      x.tile ≠ [] ∧ x.range = some r ∧ x.firstAt + sampleFlushUsVal s * 1000 ≤ s.time.now) :=
  ⟨⟨({ run0 with time.now := 0, dict.vals := [(0x209102, 1), (0x209103, 500), (0x209104, 1)], sampler := {  }, hostRanges := [(3, { base := 0, slots := 4 })] }), live_of (by decide +kernel), by decide +kernel⟩,
   ⟨({ run0 with time.now := 0, dict.vals := [(0x209102, 1), (0x209103, 500), (0x209104, 1)], sampler := { range := some 3 }, hostRanges := [(3, { base := 0, slots := 4 })] }), 3, live_of (by decide +kernel), by decide +kernel⟩,
   ⟨({ run0 with time.now := 0, dict.vals := [(0x209102, 1), (0x209103, 500), (0x209104, 1)], sampler := { range := some 3, tile := List.replicate 127 (List.replicate 32 0) }, hostRanges := [(3, { base := 0, slots := 4 })] }), 3, live_of (by decide +kernel), by decide +kernel⟩,
   ⟨({ run0 with time.now := 0, dict.vals := [(0x209102, 1), (0x209103, 500), (0x209104, 1)], sampler := {  }, hostRanges := [(3, { base := 0, slots := 4 })] }), live_of (by decide +kernel), by decide +kernel⟩,
   ⟨({ run0 with time.now := 1000000000000, dict.vals := [(0x209102, 1), (0x209103, 500), (0x209104, 1)], sampler := { range := some 3, tile := [List.replicate 32 0], firstAt := 0 }, hostRanges := [(3, { base := 0, slots := 4 })] }), 3, live_of (by decide +kernel), by decide +kernel⟩⟩

theorem test_ThePaceIsGoverned :
    (∃ (r : PaceReadings) (s : State), 
      let due := ∀ a, s.pace.updatedAt = some a → a + paceUpdateUsVal s * 1000 ≤ s.time.now
      (s.power.phase ≠ .running ∨ ¬ due)) ∧
    (∃ (r : PaceReadings) (s : State), s.power.phase = .running ∧ r.celsius.length = 17 ∧
      let due := ∀ a, s.pace.updatedAt = some a → a + paceUpdateUsVal s * 1000 ≤ s.time.now
      due) ∧
    (∃ (r : PaceReadings) (s : State) (d : Nat) (n : Nat), s.power.phase = .running ∧ d ≤ 8) ∧
    (∃ (r : PaceReadings) (s : State) (d : Nat) (n : Nat), (s.power.phase ≠ .running ∨ 8 < d)) :=
  ⟨⟨({ inputW := 500, celsius := List.replicate 17 50, rates := List.replicate 9 (List.replicate 33 1000000) }), ({ run0 with power.phase := .held }), by decide +kernel⟩,
   ⟨({ inputW := 500, celsius := List.replicate 17 50, rates := List.replicate 9 (List.replicate 33 1000000) }), run0, by decide +kernel⟩,
   ⟨({ inputW := 500, celsius := List.replicate 17 50, rates := List.replicate 9 (List.replicate 33 1000000) }), run0, 8, 5, by decide +kernel⟩,
   ⟨({ inputW := 500, celsius := List.replicate 17 50, rates := List.replicate 9 (List.replicate 33 1000000) }), run0, 9, 5, by decide +kernel⟩⟩

theorem test_FetchesAreRepeated :
    (∃ (n : Nat) (r : TileResult) (s : State), Live s ∧ Tab.find s.transfers n = none) ∧
    (∃ (n : Nat) (r : TileResult) (s : State), Live s ∧ Tab.find s.transfers n = none) ∧
    (∃ (n : Nat) (r : TileResult) (s : State), Live s ∧ Tab.find s.transfers n = none) ∧
    (∃ (n : Nat) (r : TileResult) (s : State) (t : Transfer), Live s ∧ Tab.find s.transfers n = some t ∧ (t.write = true ∨ t.waits = true)) ∧
    (∃ (n : Nat) (r : TileResult) (s : State) (t : Transfer), Live s ∧ Tab.find s.transfers n = some t ∧ (t.write = false ∨ t.waits = true)) ∧
    (∃ (n : Nat) (r : TileResult) (s : State) (t : Transfer), Live s ∧ Tab.find s.transfers n = some t ∧ (t.waits = true ∨ s.time.now < t.deadline)) ∧
    (∃ (n : Nat) (r : TileResult) (s : State) (t : Transfer), Live s ∧ Tab.find s.transfers n = some t ∧ t.waits = false ∧ t.deadline ≤ s.time.now ∧ t.repeats < fetchRetriesVal s ∧ tierAllows s t.context t.tier
      t.slot t.write = true ∧
      let q := 1 + t.qp % max (fetchQpsVal s) 1
      let m := s.nextTile
      let w : Transfer := { t with repeats := t.repeats + 1, qp := q, waits := true }
      let e : State := { s with transfers := Tab.put (Tab.drop s.transfers n) m w, nextTile := m + 1 }
      tileRoom e q = false) ∧
    (∃ (n : Nat) (r : TileResult) (s : State) (t : Transfer), Live s ∧ Tab.find s.transfers n = some t ∧ t.waits = false ∧ t.deadline ≤ s.time.now ∧ t.repeats < fetchRetriesVal s ∧ tierAllows s t.context t.tier
      t.slot t.write = true ∧
      let q := 1 + t.qp % max (fetchQpsVal s) 1
      let m := s.nextTile
      let w : Transfer := { t with repeats := t.repeats + 1, qp := q, waits := true }
      let e : State := { s with transfers := Tab.put (Tab.drop s.transfers n) m w, nextTile := m + 1 }
      tileRoom e q = true) :=
  ⟨⟨5, .refused, run0, live_of (by decide +kernel), by decide +kernel⟩,
   ⟨5, .refused, run0, live_of (by decide +kernel), by decide +kernel⟩,
   ⟨5, .refused, run0, live_of (by decide +kernel), by decide +kernel⟩,
   ⟨7, .refused, ({ part0 with time.now := 5000, nextTile := 100, transfers := [(7, ({ consumer := .park 3 0, k := 0, tier := 1, slot := 20, tile := 3, qp := 1, repeats := 0, deadline := 5000, write := true, addr := 65536 * 20, context := 1 } : Transfer))], qps := [(1, { state := .ready }), (512, { state := .ready, bound := true, context := 1, created := true })] }), (({ consumer := .park 3 0, k := 0, tier := 1, slot := 20, tile := 3, qp := 1, repeats := 0, deadline := 5000, write := true, addr := 65536 * 20, context := 1 } : Transfer)), live_of (by decide +kernel), by decide +kernel⟩,
   ⟨7, .refused, ({ part0 with time.now := 5000, nextTile := 100, transfers := [(7, ({ consumer := .page 3 0, k := 0, tier := 1, slot := 20, tile := 3, qp := 1, repeats := 0, deadline := 5000, write := false, addr := 65536 * 20, context := 1 } : Transfer))], qps := [(1, { state := .ready }), (512, { state := .ready, bound := true, context := 1, created := true })] }), (({ consumer := .page 3 0, k := 0, tier := 1, slot := 20, tile := 3, qp := 1, repeats := 0, deadline := 5000, write := false, addr := 65536 * 20, context := 1 } : Transfer)), live_of (by decide +kernel), by decide +kernel⟩,
   ⟨7, .refused, ({ part0 with time.now := 5000, nextTile := 100, transfers := [(7, ({ consumer := .page 3 0, k := 0, tier := 1, slot := 20, tile := 3, qp := 1, repeats := 0, deadline := 5001, write := false, addr := 65536 * 20, context := 1 } : Transfer))], qps := [(1, { state := .ready }), (512, { state := .ready, bound := true, context := 1, created := true })] }), (({ consumer := .page 3 0, k := 0, tier := 1, slot := 20, tile := 3, qp := 1, repeats := 0, deadline := 5001, write := false, addr := 65536 * 20, context := 1 } : Transfer)), live_of (by decide +kernel), by decide +kernel⟩,
   ⟨7, .refused, ({ part0 with time.now := 5000, nextTile := 200, transfers := (7, ({ consumer := .page 3 0, k := 0, tier := 1, slot := 20, tile := 3, qp := 1, repeats := 0, deadline := 5000, write := false, addr := 65536 * 20, context := 1 } : Transfer)) :: (List.range 64).map (fun n => (n + 100, { ({ consumer := .page 3 0, k := 0, tier := 1, slot := 20, tile := 3, qp := 1, repeats := 0, deadline := 9000, write := false, addr := 65536 * 20, context := 1 } : Transfer) with qp := 2 })) }), (({ consumer := .page 3 0, k := 0, tier := 1, slot := 20, tile := 3, qp := 1, repeats := 0, deadline := 5000, write := false, addr := 65536 * 20, context := 1 } : Transfer)), live_of (by decide +kernel), by decide +kernel⟩,
   ⟨7, .refused, ({ part0 with time.now := 5000, nextTile := 100, transfers := [(7, ({ consumer := .page 3 0, k := 0, tier := 1, slot := 20, tile := 3, qp := 1, repeats := 0, deadline := 5000, write := false, addr := 65536 * 20, context := 1 } : Transfer))], qps := [(1, { state := .ready }), (512, { state := .ready, bound := true, context := 1, created := true })] }), (({ consumer := .page 3 0, k := 0, tier := 1, slot := 20, tile := 3, qp := 1, repeats := 0, deadline := 5000, write := false, addr := 65536 * 20, context := 1 } : Transfer)), live_of (by decide +kernel), by decide +kernel⟩⟩

theorem test_FailedFetchesFaultTheSession :
    (∃ (n : Nat) (i : Nat) (t : Transfer) (s : State), Live s ∧ Tab.find s.transfers n = some t ∧ t.write = false ∧ t.waits = false ∧ (t.consumer = .root i ∨ (∃ r, t.consumer = .leaf i r) ∨ (∃ k,
      t.consumer = .page i k)) ∧ (sessAt s i).entry.state ≠ .free ∧ (sessAt s i).entry.state ≠ .faulted ∧ (sessAt s i).entry.state ≠ .tombstone) ∧
    (∃ (n : Nat) (i : Nat) (t : Transfer) (s : State), Live s ∧ Tab.find s.transfers n = some t ∧ t.write = false ∧ t.waits = false ∧ (t.consumer = .root i ∨ (∃ r, t.consumer = .leaf i r) ∨ (∃ k,
      t.consumer = .page i k)) ∧ (sessAt s i).entry.state ≠ .free ∧ (sessAt s i).entry.state ≠ .faulted ∧ (sessAt s i).entry.state ≠ .tombstone) ∧
    (∃ (n : Nat) (i : Nat) (t : Transfer) (s : State), Live s ∧ Tab.find s.transfers n = some t ∧ t.write = false ∧ t.waits = false ∧ (t.consumer = .root i ∨ (∃ r, t.consumer = .leaf i r) ∨ (∃ k,
      t.consumer = .page i k)) ∧ (sessAt s i).entry.state ≠ .free ∧ (sessAt s i).entry.state ≠ .faulted ∧ (sessAt s i).entry.state ≠ .tombstone ∧ t.deadline
      ≤ s.time.now ∧ fetchRetriesVal s ≤ t.repeats) ∧
    (∃ (n : Nat) (i : Nat) (t : Transfer) (s : State), Live s ∧ Tab.find s.transfers n = some t ∧ t.write = false ∧ t.waits = false ∧ (t.consumer = .root i ∨ (∃ r, t.consumer = .leaf i r) ∨ (∃ k,
      t.consumer = .page i k)) ∧ (sessAt s i).entry.state ≠ .free ∧ (sessAt s i).entry.state ≠ .faulted ∧ (sessAt s i).entry.state ≠ .tombstone ∧ t.deadline
      ≤ s.time.now ∧ t.repeats < fetchRetriesVal s ∧ tierAllows s t.context t.tier t.slot false = false) :=
  ⟨⟨7, 3, (({ consumer := .page 3 0, k := 0, tier := 1, slot := 20, tile := 3, qp := 1, repeats := 0, deadline := 5000, write := false, addr := 65536 * 20, context := 1 } : Transfer)), ({ (with3 { sess .ready with revive := some { length := 20, order := 0, turn := 0, tier := 1, mapSlots := [3], leafLeft := [], todo := [] }, pages := [(0, { tier := 0, frame := 20 })] } part0) with time.now := 5000, nextTile := 100, transfers := [(7, ({ consumer := .page 3 0, k := 0, tier := 1, slot := 20, tile := 3, qp := 1, repeats := 0, deadline := 5000, write := false, addr := 65536 * 20, context := 1 } : Transfer))], qps := [(1, { state := .ready }), (512, { state := .ready, bound := true, context := 1, created := true })], frames := [(20, { state := .filling, context := 1, owner := 3, refCount := 1 })] }), live_of (by decide +kernel), by decide +kernel, by decide +kernel, by decide +kernel, .inr (.inr ⟨0, rfl⟩), by decide +kernel⟩,
   ⟨7, 3, (({ consumer := .root 3, k := 0, tier := 1, slot := 20, tile := 3, qp := 1, repeats := 0, deadline := 5000, write := false, addr := 65536 * 20, context := 1 } : Transfer)), ({ (with3 { sess .ready with revive := some { length := 20, order := 0, turn := 0, tier := 1, mapSlots := [3], leafLeft := [], todo := [] }, pages := [(0, { tier := 0, frame := 20 })] } part0) with time.now := 5000, nextTile := 100, transfers := [(7, ({ consumer := .root 3, k := 0, tier := 1, slot := 20, tile := 3, qp := 1, repeats := 0, deadline := 5000, write := false, addr := 65536 * 20, context := 1 } : Transfer))], qps := [(1, { state := .ready }), (512, { state := .ready, bound := true, context := 1, created := true })], frames := [(20, { state := .filling, context := 1, owner := 3, refCount := 1 })] }), live_of (by decide +kernel), by decide +kernel, by decide +kernel, by decide +kernel, .inl rfl, by decide +kernel⟩,
   ⟨7, 3, (({ consumer := .leaf 3 1, k := 0, tier := 1, slot := 20, tile := 3, qp := 1, repeats := 3, deadline := 5000, write := false, addr := 65536 * 20, context := 1 } : Transfer)), ({ (with3 { sess .ready with revive := some { length := 20, order := 0, turn := 0, tier := 1, mapSlots := [3], leafLeft := [], todo := [] }, pages := [(0, { tier := 0, frame := 20 })] } part0) with time.now := 5000, nextTile := 100, transfers := [(7, ({ consumer := .leaf 3 1, k := 0, tier := 1, slot := 20, tile := 3, qp := 1, repeats := 3, deadline := 5000, write := false, addr := 65536 * 20, context := 1 } : Transfer))], qps := [(1, { state := .ready }), (512, { state := .ready, bound := true, context := 1, created := true })], frames := [(20, { state := .filling, context := 1, owner := 3, refCount := 1 })] }), live_of (by decide +kernel), by decide +kernel, by decide +kernel, by decide +kernel, .inr (.inl ⟨1, rfl⟩), by decide +kernel⟩,
   ⟨7, 3, (({ consumer := .page 3 0, k := 0, tier := 2, slot := 20, tile := 3, qp := 1, repeats := 0, deadline := 5000, write := false, addr := 65536 * 20, context := 1 } : Transfer)), ({ (with3 { sess .ready with revive := some { length := 20, order := 0, turn := 0, tier := 1, mapSlots := [3], leafLeft := [], todo := [] }, pages := [(0, { tier := 0, frame := 20 })] } part0) with time.now := 5000, nextTile := 100, transfers := [(7, ({ consumer := .page 3 0, k := 0, tier := 2, slot := 20, tile := 3, qp := 1, repeats := 0, deadline := 5000, write := false, addr := 65536 * 20, context := 1 } : Transfer))], qps := [(1, { state := .ready }), (512, { state := .ready, bound := true, context := 1, created := true })], frames := [(20, { state := .filling, context := 1, owner := 3, refCount := 1 })] }), live_of (by decide +kernel), by decide +kernel, by decide +kernel, by decide +kernel, .inr (.inr ⟨0, rfl⟩), by decide +kernel⟩⟩

theorem test_TilesArriveAndAreWritten :
    (∃ (n : Nat) (i : Nat) (k : Nat) (t : Transfer) (data : List Byte) (s : State), Live s ∧ Tab.find s.transfers n = some t ∧ t.write = false ∧ t.waits = false ∧ t.consumer = .page i k ∧ filling s (pageAt (sessAt s i) k) = true ∧
      let e := pageAt (sessAt s i) k
      let h := sessShape s i
      let got := Tab.get s.fills e.frame 0 ||| 2 ^ t.tile
      got + 1 ≠ 2 ^ h.used) ∧
    (∃ (n : Nat) (i : Nat) (k : Nat) (slot : Nat) (t : Transfer) (p : ParkMove) (l : List Byte) (s : State), Live s ∧ Tab.find s.transfers n = some t ∧ t.write = true ∧ t.waits = false ∧ t.consumer = .park i k ∧ (sessAt s i).move = some (.park p) ∧ Tab.find
      p.slots k = some slot ∧ (p.flying.erase k).contains k = false) ∧
    (∃ (n : Nat) (i : Nat) (k : Nat) (slot : Nat) (t : Transfer) (p : ParkMove) (l : List Byte) (s : State), Live s ∧ Tab.find s.transfers n = some t ∧ t.write = true ∧ t.waits = false ∧ t.consumer = .park i k ∧ (sessAt s i).move = some (.park p)) ∧
    (∃ (s : State), Live s ∧ reviveOrder s = []) ∧
    (∃ (s : State) (i : Nat) (v : Revive) (rest : List (Nat × Revive)), Live s ∧ reviveOrder s = (i, v) :: rest ∧ mayIssue s v.issued = false) ∧
    (∃ (s : State) (i : Nat) (v : Revive) (rest : List (Nat × Revive)) (kind : Nat) (k : Nat) (todo : List (Nat × Nat)), Live s ∧ reviveOrder s = (i, v) :: rest ∧ mayIssue s v.issued = true ∧ Tab.rising s.sessions = true ∧ v.todo = (kind, k) :: todo ∧ (tierAllows s
      (sessAt s i).record.context (if kind ≤ 1 then v.tier else (Tab.get v.slots k (0, 0)).1) (if kind = 0 then v.mapSlots.headD 0 else if kind = 1 then
      v.mapSlots.getD (((Tab.keys (sessAt s i).leaves).idxOf k) + 1) 0 else (Tab.get v.slots k (0, 0)).2) false = true)) :=
  ⟨⟨7, 3, 0, (({ consumer := .page 3 0, k := 0, tier := 1, slot := 20, tile := 3, qp := 1, repeats := 0, deadline := 5000, write := false, addr := 65536 * 20, context := 1 } : Transfer)), (List.replicate 4096 9), ({ (with3 { sess .ready with revive := some { length := 20, order := 0, turn := 0, tier := 1, mapSlots := [3], leafLeft := [], todo := [] }, pages := [(0, { tier := 0, frame := 20 })] } part0) with time.now := 5000, nextTile := 100, transfers := [(7, ({ consumer := .page 3 0, k := 0, tier := 1, slot := 20, tile := 3, qp := 1, repeats := 0, deadline := 5000, write := false, addr := 65536 * 20, context := 1 } : Transfer))], qps := [(1, { state := .ready }), (512, { state := .ready, bound := true, context := 1, created := true })], frames := [(20, { state := .filling, context := 1, owner := 3, refCount := 1 })] }), live_of (by decide +kernel), by decide +kernel⟩,
   ⟨7, 3, 0, 30, (({ consumer := .park 3 0, k := 0, tier := 1, slot := 20, tile := 3, qp := 1, repeats := 0, deadline := 5000, write := true, addr := 65536 * 20, context := 1 } : Transfer)), (({ tier := 1, reason := .hostPark, todo := [], flying := [0], slots := [(0, 30)] } : ParkMove)), [], ({ (with3 { sess .parked with move := some (.park ({ tier := 1, reason := .hostPark, todo := [], flying := [0], slots := [(0, 30)] } : ParkMove)), pages := [(0, { tier := 0, frame := 20 })] } part0) with time.now := 5000, nextTile := 100, transfers := [(7, ({ consumer := .park 3 0, k := 0, tier := 1, slot := 20, tile := 3, qp := 1, repeats := 0, deadline := 5000, write := true, addr := 65536 * 20, context := 1 } : Transfer))], qps := [(1, { state := .ready }), (512, { state := .ready, bound := true, context := 1, created := true })], hostSlots := [30] }), live_of (by decide +kernel), by decide +kernel⟩,
   ⟨7, 3, 0, 30, (({ consumer := .park 3 0, k := 0, tier := 1, slot := 20, tile := 3, qp := 1, repeats := 0, deadline := 5000, write := true, addr := 65536 * 20, context := 1 } : Transfer)), (({ tier := 1, reason := .hostPark, todo := [], flying := [0], slots := [(0, 30)] } : ParkMove)), [], ({ (with3 { sess .parked with move := some (.park ({ tier := 1, reason := .hostPark, todo := [], flying := [0], slots := [(0, 30)] } : ParkMove)), pages := [(0, { tier := 0, frame := 20 })] } part0) with time.now := 5000, nextTile := 100, transfers := [(7, ({ consumer := .park 3 0, k := 0, tier := 1, slot := 20, tile := 3, qp := 1, repeats := 0, deadline := 5000, write := true, addr := 65536 * 20, context := 1 } : Transfer))], qps := [(1, { state := .ready }), (512, { state := .ready, bound := true, context := 1, created := true })], hostSlots := [30] }), live_of (by decide +kernel), by decide +kernel⟩,
   ⟨run0, live_of (by decide +kernel), by decide +kernel⟩,
   ⟨({ with3 { sess .ready with revive := some ({ length := 20, order := 0, turn := 0, tier := 1, mapSlots := [3], slots := [(0, (1, 20))], leafLeft := [], todo := [(2, 0)] } : Revive), pages := [(0, { tier := 0, frame := 20 })] } part0 with frames := [(20, { state := .filling, context := 1, owner := 3, refCount := 1 })], transfers := [(7, ({ consumer := .page 3 0, k := 0, tier := 1, slot := 20, tile := 3, qp := 1, repeats := 0, deadline := 5000, write := false, addr := 65536 * 20, context := 1, waits := true } : Transfer))] }), 3, (({ length := 20, order := 0, turn := 0, tier := 1, mapSlots := [3], slots := [(0, (1, 20))], leafLeft := [], todo := [(2, 0)] } : Revive)), [], live_of (by decide +kernel), by decide +kernel⟩,
   ⟨({ with3 { sess .ready with revive := some ({ length := 20, order := 0, turn := 0, tier := 1, mapSlots := [3], slots := [(0, (1, 20))], leafLeft := [], todo := [(2, 0)] } : Revive), pages := [(0, { tier := 0, frame := 20 })] } part0 with frames := [(20, { state := .filling, context := 1, owner := 3, refCount := 1 })] }), 3, (({ length := 20, order := 0, turn := 0, tier := 1, mapSlots := [3], slots := [(0, (1, 20))], leafLeft := [], todo := [(2, 0)] } : Revive)), [], 2, 0, [], live_of (by decide +kernel), by decide +kernel⟩⟩

theorem test_MemoryErrorsRetireAndFault :
    (∃ (f : Nat) (o : Nat) (i : Nat) (s : State), Live s ∧ ((frameAt s f).state = .kv ∨ (frameAt s f).state = .filling ∨ (frameAt s f).state = .map)) ∧
    (∃ (f : Nat) (o : Nat) (i : Nat) (s : State), Live s ∧ (frameAt s f).state = .index) ∧
    (∃ (f : Nat) (o : Nat) (i : Nat) (s : State), Live s ∧ (frameAt s f).state = .free) ∧
    (∃ (i : Nat) (s : State), Live s ∧ enabled s i = true ∧ (sessAt s i).entry.state ≠ .free) ∧
    (∃ (i : Nat) (s : State), Live s ∧ enabled s i = true ∧ (sessAt s i).entry.state = .free ∧ (sessAt s i).withheld = false) ∧
    (∃ (stack : Nat) (bad : List Nat) (l : List Nat) (s : State), Live s ∧
      let due := stack ≤ 7 ∧ ∀ a, Tab.find s.scrubbedAt stack = some a → a + scrubPeriodSVal s * 1000000000 ≤ s.time.now
      ¬ due) ∧
    (∃ (stack : Nat) (bad : List Nat) (l : List Nat) (s : State), Live s ∧
      let due := stack ≤ 7 ∧ ∀ a, Tab.find s.scrubbedAt stack = some a → a + scrubPeriodSVal s * 1000000000 ≤ s.time.now
      due) ∧
    (∃ (stack : Nat) (bad : List Nat) (l : List Nat) (s : State) (a : Nat), Live s ∧ frameFielder (a / 65536) / 32 = stack ∧ ((frameAt s (a / 65536)).state = .free ∨ (frameAt s (a / 65536)).state = .kv ∨ (frameAt s (a /
      65536)).state = .map) ∧
      let due := stack ≤ 7 ∧ ∀ a, Tab.find s.scrubbedAt stack = some a → a + scrubPeriodSVal s * 1000000000 ≤ s.time.now
      due) ∧
    (∃ (stack : Nat) (bad : List Nat) (l : List Nat) (s : State) (a : Nat), Live s ∧ frameFielder (a / 65536) / 32 = stack ∧ (frameAt s (a / 65536)).state = .record ∧ (sessAt s (recordIndexAt a)).entry.state = .free ∧ (sessAt
      s (recordIndexAt a)).withheld = false ∧
      let due := stack ≤ 7 ∧ ∀ a, Tab.find s.scrubbedAt stack = some a → a + scrubPeriodSVal s * 1000000000 ≤ s.time.now
      due) ∧
    (∃ (stack : Nat) (bad : List Nat) (l : List Nat) (s : State) (a : Nat), Live s ∧ frameFielder (a / 65536) / 32 ≠ stack ∧
      let due := stack ≤ 7 ∧ ∀ a, Tab.find s.scrubbedAt stack = some a → a + scrubPeriodSVal s * 1000000000 ≤ s.time.now
      due) ∧
    (∃ (k : Nat) (s : State), s.mode ≠ .fatal ∧ (k = 1 ∨ k = 2)) ∧
    (∃ (k : Nat) (s : State), s.mode ≠ .fatal ∧ k ≠ 1 ∧ k ≠ 2) :=
  ⟨⟨20, 0, 3, ({ part0 with frames := [(20, { state := .kv, context := 1, owner := 3 })], sessions := [(3, { sess .ready with withheld := false, pages := [(0, { tier := 0, frame := 20 })] })] }), live_of (by decide +kernel), by decide +kernel⟩,
   ⟨20, 0, 3, ({ part0 with frames := [(20, { state := .index, context := 1, owner := 3 })], sessions := [(3, { sess .ready with withheld := false, pages := [(0, { tier := 0, frame := 20 })] })] }), live_of (by decide +kernel), by decide +kernel⟩,
   ⟨20, 0, 3, ({ part0 with frames := [(20, { state := .free, context := 1, owner := 3 })], sessions := [(3, { sess .ready with withheld := false, pages := [(0, { tier := 0, frame := 20 })] })] }), live_of (by decide +kernel), by decide +kernel⟩,
   ⟨3, ({ part0 with frames := [(20, { state := .kv, context := 1, owner := 3 })], sessions := [(3, { sess .ready with withheld := false, pages := [(0, { tier := 0, frame := 20 })] })] }), live_of (by decide +kernel), by decide +kernel⟩,
   ⟨3, ({ part0 with frames := [(20, { state := .kv, context := 1, owner := 3 })], sessions := [(3, { sess .free with withheld := false, pages := [(0, { tier := 0, frame := 20 })] })] }), live_of (by decide +kernel), by decide +kernel⟩,
   ⟨0, [], [], ({ part0 with frames := [(20, { state := .kv, context := 1, owner := 3 })], sessions := [(3, { sess .ready with withheld := false, pages := [(0, { tier := 0, frame := 20 })] })], scrubbedAt := [(0, 5)], time.now := 6 }), live_of (by decide +kernel), by decide +kernel⟩,
   ⟨0, [], [], ({ part0 with frames := [(20, { state := .kv, context := 1, owner := 3 })], sessions := [(3, { sess .ready with withheld := false, pages := [(0, { tier := 0, frame := 20 })] })] }), live_of (by decide +kernel), by decide +kernel⟩,
   ⟨0, [], [], ({ part0 with frames := [(20, { state := .kv, context := 1, owner := 3 })], sessions := [(3, { sess .ready with withheld := false, pages := [(0, { tier := 0, frame := 20 })] })] }), (65536 * 20), live_of (by decide +kernel), by decide +kernel⟩,
   ⟨0, [], [], ({ part0 with frames := [(20, { state := .record, context := 1, owner := 3 })], sessions := [(3, { sess .ready with withheld := false, pages := [(0, { tier := 0, frame := 20 })] })] }), (65536 * 20 + 256), live_of (by decide +kernel), by decide +kernel⟩,
   ⟨1, [], [], ({ part0 with frames := [(20, { state := .kv, context := 1, owner := 3 })], sessions := [(3, { sess .ready with withheld := false, pages := [(0, { tier := 0, frame := 20 })] })] }), (65536 * 20), live_of (by decide +kernel), by decide +kernel⟩,
   ⟨1, run0, by decide +kernel⟩,
   ⟨0, run0, by decide +kernel⟩⟩

theorem test_StepsTakeTheFront :
    (∃ (s : State), s.pending = []) :=
  ⟨run0, by decide +kernel⟩

theorem test_ResetLeavesTheModuleInSetup :
    (∃ (n : Nat), n ≤ 256) ∧
    (∃ (n : Nat), 256 < n) :=
  ⟨⟨256, by decide⟩,
   ⟨257, by decide⟩⟩

theorem test_StepsKeepTheModuleSound :
    (∃ (s : State) (t : State), Sound s ∧ step s = .next t) :=
  ⟨State.reset, _, ⟨rfl, rfl⟩, rfl⟩

theorem test_NothingSentIsTakenBack :
    (∃ (s : State) (t : State), step s = .next t) ∧
    (∃ (s : State) (t : State), step s = .next t) :=
  ⟨⟨run0, _, rfl⟩,
   ⟨run0, _, rfl⟩⟩

theorem test_OnlyTheseCommandsChangeTheMode :
    (∃ (c : Instr) (s : State) (t : State), s.power.warm = false ∧ exec c s = .next t ∧ s.mode ≠ .fatal ∧ t.mode = .fatal) ∧
    (∃ (c : Instr) (s : State) (t : State), s.power.warm = false ∧ exec c s = .next t ∧ s.mode = .fatal ∧ t.mode ≠ .fatal) ∧
    (∃ (c : Instr) (s : State) (t : State), s.power.warm = false ∧ exec c s = .next t ∧ s.mode ≠ .run ∧ t.mode = .run) ∧
    (∃ (c : Instr) (s : State) (t : State), s.power.warm = false ∧ exec c s = .next t) :=
  ⟨⟨.sramFatal 1, run0, _, rfl, rfl, by decide +kernel, rfl⟩,
   ⟨.vinLoss 0, { run0 with mode := .fatal }, _, rfl, rfl, rfl, by decide +kernel⟩,
   ⟨.modeRun (.mailbox 7), { run0 with mode := .setup }, _, rfl, rfl, by decide +kernel, by decide +kernel⟩,
   ⟨.sramFatal 1, run0, _, rfl, rfl⟩⟩

theorem test_RequestsWaitOrAreTurnedAway :
    (∃ (c : Msg → Instr) (m : Msg) (s : State), c ∈ runRequests ++ setupRequests ∧ (linkAlive s = false ∨ qpReady s m.qp = false)) ∧
    (∃ (c : Msg → Instr) (m : Msg) (s : State), c ∈ runRequests ++ setupRequests ∧ s.power.phase = .starting ∧ qpReady s m.qp = true) ∧
    (∃ (c : Msg → Instr) (m : Msg) (s : State), c ∈ runRequests ++ setupRequests ∧ s.power.phase = .running ∧ qpReady s m.qp = true ∧ s.mode = .fatal) ∧
    (∃ (c : Msg → Instr) (m : Msg) (s : State), c ∈ runRequests ++ setupRequests ∧ s.power.phase = .running ∧ qpReady s m.qp = true ∧ s.mode ≠ .fatal ∧ s.sec.state = .recovery ∧ m.qp ≠ 0) ∧
    (∃ (c : Msg → Instr) (m : Msg) (s : State), c ∈ silentRequests ∧ (linkAlive s = false ∨ qpReady s m.qp = false)) ∧
    (∃ (c : Msg → Instr) (m : Msg) (s : State), c ∈ silentRequests ∧ s.power.phase = .starting ∧ qpReady s m.qp = true) ∧
    (∃ (c : Msg → Instr) (m : Msg) (s : State), c ∈ silentRequests ∧ s.power.phase = .running ∧ qpReady s m.qp = true ∧ s.mode = .fatal) ∧
    (∃ (c : Msg → Instr) (m : Msg) (s : State), c ∈ silentRequests ∧ s.power.phase = .running ∧ qpReady s m.qp = true ∧ s.mode = .setup) ∧
    (∃ (c : Msg → Instr) (m : Msg) (s : State), Serves .bound m { s with survey.frozen := false } ∧ c ∈ runRequests ∧ s.mode = .setup) ∧
    (∃ (c : Msg → Instr) (m : Msg) (s : State), Serves .bound m { s with survey.frozen := false } ∧ c ∈ runRequests ∧ s.mode = .run ∧ s.survey.frozen = true) ∧
    (∃ (c : Msg → Instr) (m : Msg) (on : On) (s : State), Serves on m { s with survey.frozen := false } ∧ c ∈ runRequests ∧ m.qp < 512) :=
  ⟨⟨.step, (tmsg 600 []), run0, by simp [runRequests, setupRequests, silentRequests], by decide +kernel⟩,
   ⟨.step, (tmsg 512 []), ({ run0 with power.phase := .starting }), by simp [runRequests, setupRequests, silentRequests], by decide +kernel⟩,
   ⟨.step, (tmsg 0 []), ({ run0 with mode := .fatal }), by simp [runRequests, setupRequests, silentRequests], by decide +kernel⟩,
   ⟨.step, (tmsg 512 []), ({ run0 with sec.state := .recovery }), by simp [runRequests, setupRequests, silentRequests], by decide +kernel⟩,
   ⟨.leaseBeat, (tmsg 600 []), run0, by simp [runRequests, setupRequests, silentRequests], by decide +kernel⟩,
   ⟨.leaseBeat, (tmsg 512 []), ({ run0 with power.phase := .starting }), by simp [runRequests, setupRequests, silentRequests], by decide +kernel⟩,
   ⟨.wrSignal, (tmsg 0 []), ({ run0 with mode := .fatal }), by simp [runRequests, setupRequests, silentRequests], by decide +kernel⟩,
   ⟨.leaseBeat, (tmsg 512 []), ({ run0 with mode := .setup }), by simp [runRequests, setupRequests, silentRequests], by decide +kernel⟩,
   ⟨.step, (tmsg 512 [1]), ({ run0 with mode := .setup }), serves_of (by decide +kernel), by simp [runRequests, setupRequests, silentRequests], by decide +kernel⟩,
   ⟨.step, (tmsg 512 [1]), ({ run0 with survey.frozen := true }), serves_of (by decide +kernel), by simp [runRequests, setupRequests, silentRequests], by decide +kernel⟩,
   ⟨.step, (tmsg 0 []), .mailbox, ({ run0 with qps := run0.qps ++ [(0, { state := .ready })] }), serves_of (by decide +kernel), by simp [runRequests, setupRequests, silentRequests], by decide +kernel⟩⟩

theorem test_StoredBytesReadBack :
    (∃ (a : Nat) (l : List Byte) (s : State) (t : State), Memory.wf s.hbm = true ∧ Memory.wf t.hbm = true ∧ (∀ b, readByte s b = readByte t b)) :=
  ⟨0, [], run0, run0, by decide +kernel, by decide +kernel, fun _ => rfl⟩

end Sys2Proof.Tests
end

section
/-!
What an event of one session leaves alone. `Outside` says that `aside` and the states of links are the same; `Quiet` adds that every session shows
what it showed; `Beside i` adds it of every session but `i`.
-/
namespace Sys2Proof.Machine

/-- Queue pairs and ports are in the states that they were in. -/
structure SameLinks (s t : State) : Prop where
  qps : ∀ n, (qpAt t n).state = (qpAt s n).state
  ports : ∀ k, (portAt t k).state = (portAt s k).state

/-- All that no event of one session writes is the same. -/
structure Outside (s t : State) : Prop extends SameLinks s t where
  aside : aside t = aside s

/-- What a session shows: its Atlas entry, reason, handle, step sequence, length, model slot and query blocks. -/
def shown (x : Session) : Entry × Reason × Word × Nat × Nat × Nat × Option QBlock × List QBlock :=
  (x.entry, x.record.reason, x.record.handle, x.record.stepSeq, x.record.length, x.record.modelSlot, x.qblock, x.qwait)

/-- An event that no session shows. -/
structure Quiet (s t : State) : Prop extends Outside s t where
  shows : ∀ j, shown (sessAt t j) = shown (sessAt s j)

/-- An event that no session but `i` shows. -/
structure Beside (i : Nat) (s t : State) : Prop extends Outside s t where
  others : ∀ j, j ≠ i → shown (sessAt t j) = shown (sessAt s j)

variable {s t u : State} {i : Nat}

theorem SameLinks.refl (s : State) : SameLinks s s := ⟨fun _ => rfl, fun _ => rfl⟩
theorem SameLinks.trans (h : SameLinks s t) (g : SameLinks t u) : SameLinks s u :=
  ⟨fun n => (g.qps n).trans (h.qps n), fun k => (g.ports k).trans (h.ports k)⟩
theorem SameLinks.after (g : SameLinks t u) (h : SameLinks s t) : SameLinks s u := h.trans g
theorem SameLinks.ready (h : SameLinks s t) (n : Nat) : qpReady t n = qpReady s n := by unfold qpReady; rw [h.qps]
theorem Outside.trans (h : Outside s t) (g : Outside t u) : Outside s u := ⟨h.toSameLinks.trans g.toSameLinks, g.aside.trans h.aside⟩
theorem Quiet.refl (s : State) : Quiet s s := ⟨⟨.refl s, rfl⟩, fun _ => rfl⟩
theorem Quiet.trans (h : Quiet s t) (g : Quiet t u) : Quiet s u := ⟨h.toOutside.trans g.toOutside, fun j => (g.shows j).trans (h.shows j)⟩
theorem Quiet.after (g : Quiet t u) (h : Quiet s t) : Quiet s u := h.trans g
theorem Quiet.beside (h : Quiet s t) (i : Nat) : Beside i s t := ⟨h.toOutside, fun j _ => h.shows j⟩
theorem Beside.trans (h : Beside i s t) (g : Beside i t u) : Beside i s u :=
  ⟨h.toOutside.trans g.toOutside, fun j hj => (g.others j hj).trans (h.others j hj)⟩
theorem Beside.only (h : Beside i s t) (sent : s.out <+: t.out) : Only i s t := ⟨fun j hj => congrArg Prod.fst (h.others j hj), h.aside, sent⟩

section
variable (h : Quiet s t) (j : Nat)
include h
theorem Quiet.entry : (sessAt t j).entry = (sessAt s j).entry := congrArg (fun p => p.1) (h.shows j)
theorem Quiet.reason : (sessAt t j).record.reason = (sessAt s j).record.reason := congrArg (fun p => p.2.1) (h.shows j)
theorem Quiet.handle : (sessAt t j).record.handle = (sessAt s j).record.handle := congrArg (fun p => p.2.2.1) (h.shows j)
theorem Quiet.stepSeq : (sessAt t j).record.stepSeq = (sessAt s j).record.stepSeq := congrArg (fun p => p.2.2.2.1) (h.shows j)
theorem Quiet.length : (sessAt t j).record.length = (sessAt s j).record.length := congrArg (fun p => p.2.2.2.2.1) (h.shows j)
theorem Quiet.modelSlot : (sessAt t j).record.modelSlot = (sessAt s j).record.modelSlot := congrArg (fun p => p.2.2.2.2.2.1) (h.shows j)
theorem Quiet.qblock : (sessAt t j).qblock = (sessAt s j).qblock := congrArg (fun p => p.2.2.2.2.2.2.1) (h.shows j)
theorem Quiet.qwait : (sessAt t j).qwait = (sessAt s j).qwait := congrArg (fun p => p.2.2.2.2.2.2.2) (h.shows j)
end

/-! Links. -/
theorem sameLinks_of_fields (hq : t.qps = s.qps) (hp : t.ports = s.ports) : SameLinks s t := by
  refine ⟨fun n => ?_, fun k => by unfold portAt; rw [hp]⟩
  unfold qpAt
  rw [hq]
  cases Tab.find s.qps n with
  | some q => rfl
  | none => exact qpDefault_state s t n

theorem sameLinks_setQp {n : Nat} {q : Qp} (h : q.state = (qpAt s n).state) : SameLinks s (setQp n q s) := by
  refine ⟨fun k => ?_, fun _ => rfl⟩
  by_cases e : n = k
  · subst e
    unfold qpAt setQp at *
    rw [Tab.find_put_self]
    exact h
  · unfold qpAt setQp
    dsimp only
    rw [Tab.find_put, if_neg e]
    rfl

theorem sameLinks_setPort {k : Nat} {p : Port} (h : p.state = (portAt s k).state) : SameLinks s (setPort k p s) := by
  refine ⟨fun _ => rfl, fun n => ?_⟩
  by_cases e : k = n
  · subst e
    unfold portAt setPort at *
    rw [Tab.get_put_self]
    exact h
  · exact congrArg Port.state (Tab.get_put_ne e ..)

theorem sameLinks_queuePacket (n : Nat) (p : Packet) (r : Bool) (g : Option Nat) (s : State) : SameLinks s (queuePacket n p r g s) := by
  unfold queuePacket
  split
  · exact sameLinks_of_fields rfl rfl
  · unfold joinQueue
    dsimp only
    split
    · exact sameLinks_of_fields rfl rfl
    · exact sameLinks_setPort rfl

theorem sameLinks_flushQp (n : Nat) : ∀ (f : Nat) (s : State), SameLinks s (flushQp n f s)
  | 0, s => .refl s
  | f + 1, s => by
    simp only [flushQp]
    split
    · exact .refl s
    · split
      · exact (sameLinks_flushQp n f _).after ((sameLinks_queuePacket ..).after (sameLinks_setQp rfl))
      · exact .refl s

theorem sameLinks_sendPackets (n : Nat) (l : List Outgoing) (s : State) : SameLinks s (sendPackets n l s) := by
  unfold sendPackets
  dsimp only
  split
  · exact .refl s
  · exact (sameLinks_flushQp ..).after (sameLinks_setQp rfl)

/-- What writes neither queue pairs nor ports, and then sends, leaves links in their states. -/
theorem sameLinks_emit (n : Nat) (l : List Outgoing) (x : Sent) (s : State) : SameLinks s (sendPackets n l (emit x s)) :=
  (sameLinks_sendPackets ..).after (sameLinks_of_fields rfl rfl)

theorem sameLinks_sendMsg (m : Msg) (s : State) : SameLinks s (sendMsg m s) := by
  unfold sendMsg
  split
  · exact sameLinks_emit ..
  · exact .refl s

theorem sameLinks_sendTile (n : Nat) (o : Outgoing) (s : State) : SameLinks s (sendTile n o s) := by
  unfold sendTile
  split
  · exact sameLinks_emit ..
  · exact .refl s

theorem sameLinks_sendPeer (node qp : Nat) (tag : BitVec 32) (h : Word) (c : Option Nat) (p : PeerMsg) (s : State) :
    SameLinks s (sendPeer node qp tag h c p s) := by
  unfold sendPeer
  split
  · exact sameLinks_emit ..
  · exact .refl s

/-! Counting in the performance counters writes no port. -/
theorem foldl_same {α β : Type} (g : State → β) {f : State → α → State} (h : ∀ s a, g (f s a) = g s) : ∀ (l : List α) (s : State),
    g (l.foldl f s) = g s
  | [], _ => rfl
  | a :: l, s => (foldl_same g h l (f s a)).trans (h s a)

theorem ports_pmuAdd : ∀ (f n w : Nat) (s : State), (pmuAdd f n w s).ports = s.ports
  | 0, _, _, _ => rfl
  | f + 1, n, w, s => by
    simp only [pmuAdd]
    split
    · rfl
    · split <;> split
      · exact ports_pmuAdd f ..
      · rfl
      · exact ports_pmuAdd f ..
      · rfl

@[simp] theorem ports_pmu (e : PmuEvent) (s : State) : (pmu e s).ports = s.ports := by
  unfold pmu
  split
  · rfl
  · refine foldl_same State.ports (fun t n => ?_) _ _
    split
    · exact ports_pmuAdd ..
    · rfl

@[simp] theorem ports_touchLine (p line : Nat) (v : Priv) (s : State) : (touchLine p line v s).ports = s.ports := by
  unfold touchLine
  dsimp only
  repeat' split
  all_goals exact ports_pmu ..

/-! Quiet events, from those that write nothing that a session shows. -/
theorem aside_of_apart (h : apart t = apart s) : aside t = aside s := by unfold aside; rw [h]

theorem quiet_of_fields (ha : aside t = aside s) (hs : t.sessions = s.sessions) (hq : t.qps = s.qps) (hp : t.ports = s.ports) : Quiet s t :=
  ⟨⟨sameLinks_of_fields hq hp, ha⟩, fun j => by unfold sessAt; rw [hs]⟩

theorem quiet_of_apart (ha : apart t = apart s) (hl : SameLinks s t) : Quiet s t :=
  ⟨⟨hl, aside_of_apart ha⟩, fun j => by rw [sessAt_of_apart ha]⟩

theorem quiet_of_bare (hb : bare t = bare s) (hl : SameLinks s t) : Quiet s t := quiet_of_apart (apart_of_bare hb) hl

theorem quiet_foldl {α : Type} {f : State → α → State} (h : ∀ s a, Quiet s (f s a)) : ∀ (l : List α) (s : State), Quiet s (l.foldl f s)
  | [], s => .refl s
  | a :: l, s => (h s a).trans (quiet_foldl h l (f s a))
theorem quiet_foldRange {f : State → Nat → State} (n : Nat) (h : ∀ s a, Quiet s (f s a)) (s : State) : Quiet s (foldRange n f s) := quiet_foldl h _ s

theorem quiet_bumpBy (k n : Nat) (s : State) : Quiet s (bumpBy k n s) := quiet_of_fields rfl rfl rfl rfl
theorem quiet_bump (k : Nat) (s : State) : Quiet s (bump k s) := quiet_bumpBy ..
theorem quiet_pmu (e : PmuEvent) (s : State) : Quiet s (pmu e s) := quiet_of_bare (bare_pmu ..) (sameLinks_of_fields (qps_pmu ..) (ports_pmu ..))
theorem quiet_pmuDispatch (c i : Nat) (s : State) : Quiet s (pmuDispatch c i s) := quiet_pmu ..
theorem quiet_touchLine (p l : Nat) (v : Priv) (s : State) : Quiet s (touchLine p l v s) :=
  quiet_of_bare (bare_touchLine ..) (sameLinks_of_fields (qps_touchLine ..) (ports_touchLine ..))
theorem quiet_sendMsg (m : Msg) (s : State) : Quiet s (sendMsg m s) := quiet_of_bare (bare_sendMsg ..) (sameLinks_sendMsg ..)
theorem quiet_sendTile (n : Nat) (o : Outgoing) (s : State) : Quiet s (sendTile n o s) := quiet_of_bare (bare_sendTile ..) (sameLinks_sendTile ..)
theorem quiet_sendPeer (node qp : Nat) (tag : BitVec 32) (h : Word) (c : Option Nat) (p : PeerMsg) (s : State) :
    Quiet s (sendPeer node qp tag h c p s) := quiet_of_bare (bare_sendPeer ..) (sameLinks_sendPeer ..)

theorem sameLinks_mirrorItem (i : Nat) (b : MirrorBody) (s : State) : SameLinks s (mirrorItem i b s) := by
  unfold mirrorItem
  dsimp only
  split
  · exact .refl s
  · refine SameLinks.trans (sameLinks_of_fields ?_ ?_) (sameLinks_sendPeer ..)
    · exact qps_pmu ..
    · exact ports_pmu ..
theorem quiet_mirrorItem (i : Nat) (b : MirrorBody) (s : State) : Quiet s (mirrorItem i b s) :=
  quiet_of_apart (apart_mirrorItem ..) (sameLinks_mirrorItem ..)
theorem quiet_syncOn (i : Nat) (page : Bool) (s : State) : Quiet s (syncOn i page s) := by
  unfold syncOn
  split
  · exact quiet_of_fields rfl rfl rfl rfl
  · exact .refl s
theorem quiet_mirrorUpdate (i : Nat) (s : State) : Quiet s (mirrorUpdate i s) := by
  unfold mirrorUpdate
  dsimp only
  split
  · exact quiet_mirrorItem ..
  · exact (quiet_syncOn ..).after (quiet_mirrorItem ..)

/-! Sessions: a write that a session does not show, and a write of one session. -/
theorem quiet_setSess {x : Session} (h : shown x = shown (sessAt s i)) : Quiet s (setSess i x s) := by
  refine ⟨⟨sameLinks_of_fields rfl rfl, rfl⟩, fun j => ?_⟩
  by_cases e : j = i
  · subst e; rw [sessAt_setSess]; exact h
  · rw [sessAt_setSess_ne (Ne.symm e)]
theorem quiet_modSess {f : Session → Session} (h : ∀ x, shown (f x) = shown x) : Quiet s (modSess i f s) := quiet_setSess (h _)
theorem beside_setSess (x : Session) (s : State) : Beside i s (setSess i x s) :=
  ⟨⟨sameLinks_of_fields rfl rfl, rfl⟩, fun j e => by rw [sessAt_setSess_ne (Ne.symm e)]⟩
theorem beside_modSess (f : Session → Session) (s : State) : Beside i s (modSess i f s) := beside_setSess ..

/-! Frames, slots, bytes. -/
theorem quiet_writeBytes (a : Nat) (l : List Byte) (s : State) : Quiet s (writeBytes a l s) := quiet_of_fields rfl rfl rfl rfl
theorem quiet_zeroBytes (a n : Nat) (s : State) : Quiet s (zeroBytes a n s) := quiet_of_fields rfl rfl rfl rfl
theorem quiet_setFrame (f : Nat) (x : Frame) (s : State) : Quiet s (setFrame f x s) := quiet_of_fields rfl rfl rfl rfl
theorem quiet_sealFrame (f : Nat) (k : List Byte) (s : State) : Quiet s (sealFrame f k s) := quiet_foldRange _ (fun _ _ => quiet_writeBytes ..) s
theorem quiet_freeFrame (f : Nat) (s : State) : Quiet s (freeFrame f s) := by
  unfold freeFrame
  dsimp only
  split
  · exact .refl s
  · split
    · exact quiet_of_fields rfl rfl rfl rfl
    · refine Quiet.trans ?_ (quiet_setFrame ..)
      split
      · exact quiet_sealFrame ..
      · exact .refl s
theorem quiet_dropRef (f : Nat) (s : State) : Quiet s (dropRef f s) := by
  unfold dropRef
  dsimp only
  split
  · exact quiet_setFrame ..
  · split
    · exact (quiet_freeFrame ..).after (quiet_of_fields rfl rfl rfl rfl)
    · exact quiet_setFrame ..
theorem quiet_freeHome (t k : Nat) (s : State) : Quiet s (freeHome t k s) := by
  unfold freeHome
  split
  · exact quiet_of_fields rfl rfl rfl rfl
  · split
    · exact quiet_of_fields rfl rfl rfl rfl
    · exact quiet_of_fields rfl rfl rfl rfl
theorem quiet_allocFrame {f n : Nat} {x : Frame} (h : allocFrame f x s = some (n, t)) : Quiet s t := by
  unfold allocFrame at h
  rw [Option.map_eq_some_iff] at h
  obtain ⟨a, _, h⟩ := h
  cases h
  exact (quiet_zeroBytes ..).after (quiet_setFrame ..)
theorem quiet_allocMapFrame {i a n : Nat} (h : allocMapFrame i a s = some (n, t)) : Quiet s t := by
  unfold allocMapFrame at h
  dsimp only at h
  rw [Option.bind_eq_some_iff] at h
  obtain ⟨f, _, h⟩ := h
  exact quiet_allocFrame h
theorem quiet_zeroRow (h : Shape) (f p : Nat) (s : State) : Quiet s (zeroRow h f p s) := quiet_foldRange _ (fun _ _ => quiet_zeroBytes ..) s
theorem quiet_zeroRows (h : Shape) (a b c : Nat) (s : State) : Quiet s (zeroRows h a b c s) := by
  refine quiet_foldRange _ (fun u j => ?_) s
  split
  · exact .refl u
  · exact quiet_zeroRow ..
theorem quiet_writeRow (h : Shape) (f p : Nat) (k v : List Byte) (s : State) : Quiet s (writeRow h f p k v s) :=
  quiet_foldRange _ (fun _ _ => quiet_writeBytes ..) s
theorem quiet_copyFrame (h : Shape) (a b c d : Nat) (s : State) : Quiet s (copyFrame h a b c d s) :=
  (quiet_zeroRows ..).after (quiet_writeBytes ..)

/-! Pages. -/
theorem quiet_putPage (i k : Nat) (e : PageEntry) (s : State) : Quiet s (putPage i k e s) := by
  unfold putPage
  dsimp only
  split
  · exact quiet_setSess rfl
  · exact (quiet_mirrorItem ..).after (quiet_setSess rfl)
theorem quiet_dropHome (i k : Nat) (s : State) : Quiet s (dropHome i k s) := by
  unfold dropHome
  dsimp only
  split
  · exact .refl s
  · split
    · exact quiet_putPage ..
    · exact (quiet_freeHome ..).after (quiet_putPage ..)
theorem quiet_dirtyPage (i k : Nat) (s : State) : Quiet s (dirtyPage i k s) := (quiet_putPage ..).after (quiet_dropHome ..)
theorem quiet_touchMap (i k : Nat) (s : State) : Quiet s (touchMap i k s) := by
  unfold touchMap
  dsimp only
  split <;> split
  · exact (quiet_touchLine ..).after (quiet_touchLine ..)
  · exact quiet_touchLine ..
  · exact quiet_touchLine ..
  · exact .refl s
theorem quiet_ensureLeaf {i l hd k : Nat} {h : Shape} (e : ensureLeaf i h l hd k s = some t) : Quiet s t := by
  unfold ensureLeaf at e
  dsimp only at e
  split at e
  · cases e; exact .refl s
  · rw [Option.map_eq_some_iff] at e
    obtain ⟨a, h1, rfl⟩ := e
    exact (quiet_allocMapFrame h1).trans (quiet_modSess (fun _ => rfl))
theorem quiet_allocPage {i l hd n : Nat} {h : Shape} {st : FrameState} (e : allocPage i h l hd n st s = some t) : Quiet s t := by
  unfold allocPage at e
  simp only [Option.bind_eq_some_iff, Option.map_eq_some_iff] at e
  obtain ⟨f, _, a, h1, v, h2, rfl⟩ := e
  exact ((quiet_allocFrame h1).trans (quiet_ensureLeaf h2)).trans (quiet_putPage ..)
theorem quiet_ownPage (i k f n : Nat) (h : Shape) (s : State) : Quiet s (ownPage i k h f n s) := by
  unfold ownPage
  dsimp only
  split
  · exact .refl s
  · exact (quiet_zeroRows ..).after (quiet_setSess rfl)
theorem quiet_writablePage {i l hd n len : Nat} {h : Shape} (e : writablePage i h l hd n len s = some t) : Quiet s t := by
  unfold writablePage at e
  dsimp only at e
  split at e
  · exact quiet_allocPage e
  · split at e
    · cases e; exact quiet_ownPage ..
    · split at e
      · cases e
      · rw [Option.map_eq_some_iff] at e
        obtain ⟨a, h1, rfl⟩ := e
        exact (quiet_pmu ..).after ((quiet_bump ..).after ((quiet_putPage ..).after ((quiet_dropRef ..).after
          ((quiet_copyFrame ..).after (quiet_allocFrame h1)))))
theorem quiet_appendHeads {i l p len : Nat} {h : Shape} {kv : List Byte} : ∀ {n : Nat} {t : State}, appendHeads i h l p len kv n s = some t → Quiet s t
  | 0, t, e => by cases e; exact .refl s
  | n + 1, t, e => by
    simp only [appendHeads, Option.bind_eq_some_iff, Option.map_eq_some_iff] at e
    obtain ⟨v, h1, w, h2, rfl⟩ := e
    exact (quiet_pmu ..).after ((quiet_dirtyPage ..).after ((quiet_writeRow ..).after ((quiet_touchMap ..).after
      ((quiet_writablePage h2).after (quiet_appendHeads h1)))))
theorem quiet_appendRow {i l p len : Nat} {kv : List Byte} (e : appendRow i l p len kv s = some t) : Quiet s t := by
  unfold appendRow at e
  rw [Option.map_eq_some_iff] at e
  obtain ⟨v, h1, rfl⟩ := e
  exact (quiet_appendHeads h1).trans (quiet_mirrorItem ..)

/-! Steps and jobs. -/
theorem quiet_appendLayer (i : Nat) (s : State) : Quiet s (appendLayer i s) := by
  unfold appendLayer
  dsimp only
  split
  · exact .refl s
  · split
    · split
      · exact Quiet.after (quiet_modSess (fun _ => rfl)) (quiet_sendPeer ..)
      · exact .refl s
    · split
      · rename_i h; exact Quiet.after (quiet_modSess (fun _ => rfl)) (quiet_appendRow h)
      · exact quiet_modSess (fun _ => rfl)
theorem quiet_retryAppends (s : State) : Quiet s (retryAppends s) := quiet_foldl (fun _ _ => quiet_appendLayer ..) _ _
theorem quiet_touchJobs (s : State) : Quiet s (touchJobs s) := quiet_of_fields rfl rfl rfl rfl
theorem quiet_releaseSet (n : Nat) (s : State) : Quiet s (releaseSet n s) := by
  unfold releaseSet
  split
  · exact .refl s
  · dsimp only
    split <;> exact quiet_of_fields rfl rfl rfl rfl
theorem quiet_endJob (n : Nat) (s : State) : Quiet s (endJob n s) :=
  Quiet.after (t := releaseSet n s) (quiet_of_fields rfl rfl rfl rfl) (quiet_releaseSet n s)
theorem quiet_settleJobs (s : State) : Quiet s (settleJobs s) :=
  (quiet_foldl (f := fun t (e : Nat × Job) => endJob e.1 t) (fun _ _ => quiet_endJob ..) _ s).trans (quiet_touchJobs _)
theorem quiet_settle (s : State) : Quiet s (settle s) := (quiet_retryAppends s).trans (quiet_settleJobs _)

/-! Steps that end without effect. -/
theorem quiet_dropSegments (l : List Nat) (s : State) : Quiet s (dropSegments l s) :=
  quiet_foldl (f := fun t k => { t with segments := Tab.drop t.segments k }) (fun _ _ => quiet_of_fields rfl rfl rfl rfl) l s
theorem quiet_dropTok (st : Step) (s : State) : Quiet s (dropTok st s) := quiet_dropSegments ..
theorem quiet_withdraw (n : Nat) (s : State) : Quiet s (withdraw n s) := by
  unfold withdraw
  split
  · exact .refl s
  · dsimp only
    split
    · exact .refl s
    · split
      · exact quiet_of_fields rfl rfl rfl rfl
      · exact quiet_of_fields rfl rfl rfl rfl
theorem quiet_withdrawSess (i : Nat) (hit : Merge → Bool) (s : State) : Quiet s (withdrawSess i hit s) :=
  quiet_foldl (f := fun t (e : Nat × Merge) => withdraw e.1 t) (fun _ _ => quiet_withdraw ..) _ s
theorem quiet_discardAppends (i : Nat) (st : Step) (s : State) : Quiet s (discardAppends i st s) := by
  refine quiet_foldRange _ (fun v layer => quiet_foldRange _ (fun w head => ?_) v) s
  dsimp only
  split
  · exact .refl w
  · split
    · exact (quiet_dropRef ..).after (quiet_putPage ..)
    · exact quiet_zeroRow ..
/-- No session shows its `TOKEN_CARRY` word. -/
theorem shown_tokenCarry (x : Session) (w : Word) : shown { x with record.tokenCarry := w } = shown x := rfl
theorem quiet_flushDetok (i qp : Nat) (tag : BitVec 32) (s : State) : Quiet s (flushDetok i qp tag s) := by
  unfold flushDetok
  exact (quiet_sendMsg ..).after ((quiet_bumpBy ..).after (quiet_modSess (fun x => shown_tokenCarry x _)))
theorem quiet_dropMask (i : Nat) (s : State) : Quiet s (dropMask i s) := quiet_of_fields rfl rfl rfl rfl
theorem quiet_closeStep (i : Nat) (st : Step) (status : Status) (s : State) : Quiet s (closeStep i st status s) := by
  unfold closeStep
  exact (quiet_foldl (f := fun t (f : Nat × BitVec 32) => flushDetok i f.1 f.2 t) (fun _ _ => quiet_flushDetok ..) st.flushes _).after
    ((quiet_pmuDispatch ..).after ((quiet_dropMask ..).after (quiet_modSess (fun _ => rfl))))

end Sys2Proof.Machine
end

section
/-!
How a step ends without effect (R82, R131, R435), and what a session's command finds as its own meaning starts.
-/
namespace Sys2Proof.Machine

variable {s t u : State} {i : Nat}

/-- The state in which the `STEP_END` of a step without effect is sent. -/
def voided (i : Nat) (st : Step) (status : Status) (s : State) : State :=
  let t := discardAppends i st (withdrawSess i stepMerge (dropTok st s))
  closeStep i st status (if status == .stepRestart then
      bump ctrStepRestarts (modSess i (fun x => { x with record.flags := x.record.flags ||| 8 }) t)
    else t)

theorem voidStep_eq {st : Step} (h : (sessAt s i).step = some st) (status : Status) :
    voidStep i status s = sendMsg (stepEndMsg (sessAt (voided i st status s) i) st status) (voided i st status s) := by
  unfold voidStep
  rw [h]
  rfl

/-- No session shows its flags. -/
theorem shown_flags (x : Session) (w : Word) : shown { x with record.flags := w } = shown x := rfl

theorem quiet_voided (i : Nat) (st : Step) (status : Status) (s : State) : Quiet s (voided i st status s) := by
  have h : Quiet s (discardAppends i st (withdrawSess i stepMerge (dropTok st s))) :=
    (quiet_discardAppends ..).after ((quiet_withdrawSess ..).after (quiet_dropTok ..))
  refine (quiet_closeStep ..).after ?_
  split
  · exact (quiet_bump ..).after (Quiet.after (quiet_modSess (fun x => shown_flags x _)) h)
  · exact h

theorem voided_ord (i : Nat) (st : Step) (status : Status) (s : State) : Ordinary s (voided i st status s) := by
  have h : Ordinary s (discardAppends i st (withdrawSess i stepMerge (dropTok st s))) :=
    discardAppends_ord (withdrawSess_ord (dropTok_ord (.refl s)))
  refine closeStep_ord ?_
  split
  · exact bump_ord (modSess_ord h)
  · exact h

theorem quiet_voidStep (i : Nat) (status : Status) (s : State) : Quiet s (voidStep i status s) := by
  cases h : (sessAt s i).step with
  | none => unfold voidStep; rw [h]; exact .refl s
  | some st => rw [voidStep_eq h]; exact (quiet_sendMsg ..).after (quiet_voided ..)

/-- The `STEP_END` names what the session shows before the step ends. -/
theorem stepEndMsg_quiet (h : Quiet s t) (st : Step) (status : Status) :
    stepEndMsg (sessAt t i) st status = stepEndMsg (sessAt s i) st status := by
  unfold stepEndMsg
  rw [h.handle, h.length]

/-- What stands behind what has been sent. -/
theorem mem_drop_of_sent {α : Type} {a b c : List α} {x : α} (h : a <+: b) (g : b ++ [x] <+: c) : x ∈ c.drop a.length := by
  obtain ⟨p, rfl⟩ := h
  obtain ⟨q, rfl⟩ := g
  simp

/-- A step that ends without effect sends its `STEP_END` (R435). -/
theorem voidStep_sends {st : Step} (h : (sessAt s i).step = some st) (status : Status) (hr : qpReady s st.qp = true) :
    ∃ o, s.out <+: o ∧ (voidStep i status s).out = o ++ [.msg (stepEndMsg (sessAt s i) st status)] := by
  have hq := quiet_voided i st status s
  refine ⟨_, (voided_ord i st status s).1.sent, ?_⟩
  rw [voidStep_eq h, stepEndMsg_quiet hq, out_sendMsg]
  exact (hq.ready st.qp).trans hr

/-- A step that ends without effect leaves its session READY where neither a cancel nor a wait is pending (R82). -/
theorem restartStep_eq {st : Step} (h : (sessAt s i).step = some st) (hc : (sessAt s i).entry.cancelPending = false)
    (hw : (sessAt s i).entry.waitPending = false) (status : Status) :
    restartStep i status s =
      settleJobs (mirrorUpdate i (modSess i (fun y => { y with entry.state := .ready }) (voidStep i status s))) := by
  unfold restartStep
  dsimp only
  rw [h, hc, hw]
  rfl

/-- What a step's end without effect leaves: no other session shows it, its own is READY as long as it was, and `STEP_END` has been sent. -/
structure EndsReady (i : Nat) (st : Step) (status : Status) (s t : State) : Prop where
  beside : Beside i s t
  entry : (sessAt t i).entry = { (sessAt s i).entry with state := .ready }
  length : (sessAt t i).record.length = (sessAt s i).record.length
  stepSeq : (sessAt t i).record.stepSeq = (sessAt s i).record.stepSeq
  told : qpReady s st.qp = true → ∃ o, s.out <+: o ∧ o ++ [.msg (stepEndMsg (sessAt s i) st status)] <+: t.out

theorem restartStep_endsReady {st : Step} (h : (sessAt s i).step = some st) (hc : (sessAt s i).entry.cancelPending = false)
    (hw : (sessAt s i).entry.waitPending = false) (status : Status) : EndsReady i st status s (restartStep i status s) := by
  rw [restartStep_eq h hc hw]
  have hv := quiet_voidStep i status s
  generalize hm : modSess i (fun y => { y with entry.state := .ready }) (voidStep i status s) = v
  have hx : sessAt v i = { sessAt (voidStep i status s) i with entry.state := .ready } := by rw [← hm, sessAt_modSess]
  have hq : Quiet v (settleJobs (mirrorUpdate i v)) := (quiet_settleJobs _).after (quiet_mirrorUpdate ..)
  refine ⟨?_, ?_, ?_, ?_, fun hr => ?_⟩
  · exact (hv.beside i).trans ((hm ▸ beside_modSess ..).trans (hq.beside i))
  · rw [hq.entry, hx, ← hv.entry i]
  · rw [hq.length, hx]; exact hv.length i
  · rw [hq.stepSeq, hx]; exact hv.stepSeq i
  · obtain ⟨o, ho, hs⟩ := voidStep_sends h status hr
    refine ⟨o, ho, ?_⟩
    rw [← hs, ← show v.out = (voidStep i status s).out by rw [← hm]; rfl]
    exact (settleJobs_ord (mirrorUpdate_ord (.refl v))).1.sent

/-- What follows quietly changes nothing of it. -/
theorem EndsReady.quiet {st : Step} {status : Status} (h : EndsReady i st status s t) (hq : Quiet t u) (sent : t.out <+: u.out) :
    EndsReady i st status s u :=
  ⟨h.beside.trans (hq.beside i), (hq.entry i).trans h.entry, (hq.length i).trans h.length, (hq.stepSeq i).trans h.stepSeq, fun hr => by
    obtain ⟨o, ho, hs⟩ := h.told hr
    exact ⟨o, ho, hs.trans sent⟩⟩

/-- What came quietly before changes nothing of it. -/
theorem EndsReady.before {st : Step} {status : Status} (hq : Quiet s t) (sent : s.out <+: t.out) (h : EndsReady i st status t u) :
    EndsReady i st status s u :=
  ⟨(hq.beside i).trans h.beside, by rw [h.entry, hq.entry], h.length.trans (hq.length i), h.stepSeq.trans (hq.stepSeq i), fun hr => by
    obtain ⟨o, ho, hs⟩ := h.told ((hq.ready _).trans hr)
    exact ⟨o, sent.trans ho, stepEndMsg_quiet hq .. ▸ hs⟩⟩

/-! What a session's command finds: its message has left ingress and its lookup has been traced. -/
section
variable (m : Msg) (s : State)
theorem bare_taken : bare (taken m s) = bare s := by simp [taken]
theorem out_taken : (taken m s).out = s.out := by simp [taken]
theorem ready_taken (n : Nat) : qpReady (taken m s) n = qpReady s n := by simp [taken]
theorem ports_taken : (taken m s).ports = s.ports := by
  unfold taken traceLookup
  split <;> simp [takeMsg]
theorem quiet_taken : Quiet s (taken m s) :=
  quiet_of_bare (bare_taken m s) (sameLinks_of_fields (by simp [taken, takeMsg]) (ports_taken m s))
@[simp] theorem sessAt_taken (i : Nat) : sessAt (taken m s) i = sessAt s i := sessAt_of_bare (bare_taken m s) i
end

section
variable (h : bare t = bare s)
include h
theorem modelOf_of_bare (x : Session) : modelOf t x = modelOf s x := by
  obtain ⟨_, _, _, _, _, _, _, _, _, _, rfl⟩ := exists_of_bare h; rfl
theorem sessShape_of_bare (i : Nat) : sessShape t i = sessShape s i := by
  obtain ⟨_, _, _, _, _, _, _, _, _, _, rfl⟩ := exists_of_bare h; rfl
theorem jobCheck_of_bare (j i : Nat) : jobCheck t j i = jobCheck s j i := by
  obtain ⟨_, _, _, _, _, _, _, _, _, _, rfl⟩ := exists_of_bare h; rfl
theorem roomAt_of_bare (p n : Nat) (a : Shape) : roomAt t p n a = roomAt s p n a := by
  obtain ⟨_, _, _, _, _, _, _, _, _, _, rfl⟩ := exists_of_bare h; rfl
theorem storeFull_of_bare (n b : Nat) : storeFull t n b = storeFull s n b := by
  obtain ⟨_, _, _, _, _, _, _, _, _, _, rfl⟩ := exists_of_bare h; rfl
end

@[simp] theorem modelOf_taken (m : Msg) (s : State) (x : Session) : modelOf (taken m s) x = modelOf s x := modelOf_of_bare (bare_taken m s) x
@[simp] theorem sessShape_taken (m : Msg) (s : State) (i : Nat) : sessShape (taken m s) i = sessShape s i := sessShape_of_bare (bare_taken m s) i
@[simp] theorem jobCheck_taken (m : Msg) (s : State) (j i : Nat) : jobCheck (taken m s) j i = jobCheck s j i := jobCheck_of_bare (bare_taken m s) j i
@[simp] theorem roomAt_taken (m : Msg) (s : State) (p n : Nat) (a : Shape) : roomAt (taken m s) p n a = roomAt s p n a :=
  roomAt_of_bare (bare_taken m s) p n a
@[simp] theorem storeFull_taken (m : Msg) (s : State) (n b : Nat) : storeFull (taken m s) n b = storeFull s n b :=
  storeFull_of_bare (bare_taken m s) n b

/-- A session's command that reaches it is its own meaning there. -/
theorem exec_reaches {c : Instr} {f : Form} {torn : Bool} {m : Msg} {h : Nat → State → State} (hx : exec c s = .next (sessionCmd f torn m false h s))
    (hr : Reaches torn m i s) (on : f.on = .bound) (need : f.need ≤ m.ops.length) (most : m.ops.length ≤ f.most) :
    exec c s = .next (h i (taken m s)) := by
  obtain ⟨_, _, _, e⟩ := sessionCmd_reaches (f := f) (h := h) hr on need most
  rw [hx, e]

/-- A session's command that is refused there changes nothing. -/
theorem does_refused {c : Instr} {m : Msg} {st : Status} (hx : exec c s = .next (refuse m st (taken m s))) (hr : qpReady s m.qp = true) :
    Does c s s [answer m st] :=
  ⟨_, hx, (bare_refuse ..).trans (bare_taken m s), by rw [out_refuse ((ready_taken m s _).trans hr), out_taken]⟩

end Sys2Proof.Machine
end

section
/-!
QUERY_BLOCK and the acknowledgement and time-out of appends.
-/
namespace Sys2Proof.Machine

variable {s t u : State} {i : Nat}

/-! A query block's circulating tiles (R189, R461): no session shows that they go round. -/
theorem quiet_dropPass (i : Nat) (drop : Nat → Bool) (s : State) : Quiet s (dropPass i drop s) := by
  unfold dropPass
  exact Quiet.after (quiet_modSess (fun _ => rfl))
    (quiet_foldl (f := fun t (e : Nat × Nat) => dropRef e.2 t) (fun _ _ => quiet_dropRef ..) ((sessAt s i).passPages.filter (fun e => drop e.1)) s)

theorem quiet_sendPass (i : Nat) (a : TileAddr) (data : List Byte) (s : State) : Quiet s (sendPass i a data s) := by
  unfold sendPass
  dsimp only
  split
  · exact .refl s
  · split
    · exact .refl s
    · exact (quiet_bump ..).after (quiet_sendTile ..)

theorem quiet_pumpPass (i : Nat) : ∀ (f : Nat) (s : State), Quiet s (pumpPass i f s)
  | 0, s => .refl s
  | f + 1, s => by
    simp only [pumpPass]
    split
    · exact .refl s
    · split
      · exact .refl s
      · exact (quiet_pumpPass i f _).after ((quiet_foldRange _ (fun _ _ => quiet_sendPass ..) _).after (quiet_modSess (fun _ => rfl)))

theorem quiet_startPass (i layer : Nat) (s : State) : Quiet s (startPass i layer s) := by
  unfold startPass
  dsimp only
  split
  · exact .refl s
  · exact (quiet_pumpPass ..).after ((quiet_dropPass ..).after (quiet_modSess (fun _ => rfl)))

theorem quiet_fanBlock (i : Nat) (b : QBlock) (s : State) : Quiet s (fanBlock i b s) := by
  unfold fanBlock
  dsimp only
  split
  · exact .refl s
  · refine (quiet_startPass ..).after (Quiet.after (quiet_modSess (fun _ => rfl)) ?_)
    exact quiet_foldl (fun _ _ => quiet_sendPeer ..) _ s

/-- The block of query positions that a `QUERY_BLOCK` brings a session of model slot `md`. -/
def blockOf (m : Msg) (md : Model) : QBlock :=
  { qp := m.qp, tag := m.tag, job := m.job.toNat, layer := argLayer m, first := opNat m 0, count := argCount m
    query := slice m.body 0 (argCount m * queryBytes md) }

/-- `QUERY_BLOCK` in a READY or WAITING session that its job names: out of range, or taken where the store has room. -/
theorem exec_queryBlock {m : Msg} (hr : Reaches false m i s) (hn : m.ops.length = 1)
    (hs : (sessAt s i).entry.state = .ready ∨ (sessAt s i).entry.state = .waiting) (hj : jobCheck s m.job.toNat i = .ok) :
    exec (.queryBlock m) s = .next (
      let x := sessAt s i
      let md := modelOf s x
      let b := blockOf m md
      let v := taken m s
      if md.layers ≤ argLayer m || x.record.length < opNat m 0 + argCount m then refuse m .queryRange v
      else if m.body.length < argCount m * queryBytes md then refuse m .messageMalformed v
      else if storeFull s m.job.toNat (argCount m * queryBytes md) then holdMsg m v
      else if x.qblock.isNone then touchJobs (fanBlock i b (modSess i (fun y => { y with qblock := some b }) v))
      else modSess i (fun y => { y with qwait := y.qwait ++ [b] }) v) := by
  have hs' : ((sessAt s i).entry.state != .ready && (sessAt s i).entry.state != .waiting) = false := by
    rcases hs with h | h <;> rw [h] <;> rfl
  rw [exec_reaches (f := { opcode := 0x0202, on := .bound, need := 1, most := 1, setup := true }) rfl hr rfl (by simp [hn]) (by simp [hn])]
  simp only [sessAt_taken, modelOf_taken, jobCheck_taken, storeFull_taken, hs', hj]
  rfl

/-- The first block becomes the session's, and no other session shows what goes round for it (R154, R189, R461). -/
theorem queryBlock_begins {m : Msg} {b : QBlock}
    (hx : exec (.queryBlock m) s = .next (touchJobs (fanBlock i b (modSess i (fun y => { y with qblock := some b }) (taken m s))))) :
    ∃ t, exec (.queryBlock m) s = .next t ∧ Only i s t ∧ (sessAt t i).entry = (sessAt s i).entry ∧ (sessAt t i).qblock = some b ∧
      (sessAt t i).qwait = (sessAt s i).qwait := by
  have sent : s.out <+: _ := ((execQueryBlock_ord (.refl s)).at_ _ hx).1.sent
  generalize hv : modSess i (fun y => { y with qblock := some b }) (taken m s) = v at hx sent
  have hi : sessAt v i = { sessAt s i with qblock := some b } := by rw [← hv, sessAt_modSess, sessAt_taken]
  have hb : Beside i s v := ((quiet_taken m s).beside i).trans (hv ▸ beside_modSess ..)
  have hq : Quiet v (touchJobs (fanBlock i b v)) := (quiet_touchJobs _).after (quiet_fanBlock ..)
  exact ⟨_, hx, (hb.trans (hq.beside i)).only sent, by rw [hq.entry, hi], by rw [hq.qblock, hi], by rw [hq.qwait, hi]⟩

/-- A further block waits behind the session's (R154, log entry 48). -/
theorem queryBlock_waits {m : Msg} {b : QBlock}
    (hx : exec (.queryBlock m) s = .next (modSess i (fun y => { y with qwait := y.qwait ++ [b] }) (taken m s))) :
    Does (.queryBlock m) s { s with sessions := Tab.put s.sessions i { sessAt s i with qwait := (sessAt s i).qwait ++ [b] } } [] := by
  refine ⟨_, hx, ?_, by rw [List.append_nil]; exact out_taken m s⟩
  obtain ⟨_, _, _, _, _, _, _, _, _, _, ht⟩ := exists_of_bare (bare_taken m s)
  rw [ht]
  rfl

/-- An acknowledged append lets its layer issue (R26). -/
theorem appendAck_frees {st : Step} (hl : Live s) (h : (sessAt s i).step = some st) (hp : st.phase = .appended) :
    Does (.appendAck i) s
      (touchJobs { s with sessions := Tab.put s.sessions i { sessAt s i with step := some { st with phase := .ready } } }) [] := by
  refine ⟨_, (next_live rfl hl).trans ?_, rfl, (List.append_nil _).symm⟩
  rw [h]
  dsimp only
  rw [hp]
  rfl

/-- An append that has waited too long ends its step without effect (R130, R82). -/
theorem appendWait_ends {w : Nat} {st : Step} (hg : Grants s) (h : (sessAt s i).step = some st) (hp : st.phase = .waitFrame)
    (hu : st.waitUntil = some w) (hw : w ≤ now s) (hc : (sessAt s i).entry.cancelPending = false)
    (hn : (sessAt s i).entry.waitPending = false) :
    ∃ t, exec (.appendWaitTimeout i) s = .next t ∧ EndsReady i st .frameShortage s t ∧ s.out <+: t.out := by
  have hx : exec (.appendWaitTimeout i) s = .next (settle (restartStep i .frameShortage (bump ctrFrameShortages s))) := by
    refine (next_held rfl hg).trans ?_
    rw [h]
    simp [hp, hu, hw]
  have he : EndsReady i st .frameShortage s (restartStep i .frameShortage (bump ctrFrameShortages s)) :=
    (restartStep_endsReady (s := bump ctrFrameShortages s) h hc hn _).before (quiet_bump ..) (List.prefix_refl _)
  exact ⟨_, hx, he.quiet (quiet_settle _) (settle_ord (.refl _)).1.sent, ((execAppendWaitTimeout_ord (.refl s)).at_ _ hx).1.sent⟩

/-- Nothing happens before the time. -/
theorem appendWait_early {st : Step} (hg : Grants s) (h : (sessAt s i).step = some st)
    (early : ∀ w, st.waitUntil = some w → now s < w) : Does (.appendWaitTimeout i) s s [] := by
  have late : st.waitUntil.any (· ≤ now s) = false := by
    cases hu : st.waitUntil with
    | none => rfl
    | some w => simpa using early w hu
  refine ⟨s, (next_held rfl hg).trans ?_, rfl, (List.append_nil _).symm⟩
  rw [h]
  simp [late]

/-- Settles O15: a block joins or waits as the session's block slot is free or taken; the append's acknowledgement is the model's own step; its
time-out is the step's end without effect. -/
theorem blocksAndAppendsAreTaken : Obligations.BlocksAndAppendsAreTaken := by
  unfold Obligations.BlocksAndAppendsAreTaken
  refine ⟨fun m i s hr hn => ?_, fun i st s hl h hp => appendAck_frees hl h hp, fun i w st s hg h hp hu hw hc hn hr => ?_,
    fun i st s hg h _ early => appendWait_early hg h early⟩
  · intro x md hs hj
    have hx := exec_queryBlock hr hn hs hj
    refine ⟨fun hl hf hb hst => ?_, fun h => ?_⟩
    · have hin : ¬(decide (md.layers ≤ argLayer m) || decide (x.record.length < opNat m 0 + argCount m)) = true := by simp; omega
      have hlen : ¬m.body.length < argCount m * queryBytes md := Nat.not_lt.2 hb
      refine ⟨fun hq => queryBlock_begins (hx.trans ?_), fun hq => queryBlock_waits (hx.trans ?_)⟩
      · dsimp only
        rw [if_neg hin, if_neg hlen, hst, hq]
        rfl
      · dsimp only
        rw [if_neg hin, if_neg hlen, hst, Option.isNone_eq_false_iff.2 hq]
        rfl
    · refine does_refused (hx.trans ?_) hr.serves.ready
      dsimp only
      rw [if_pos (by simpa using h)]
  · obtain ⟨t, hx, he, sent⟩ := appendWait_ends hg h hp hu hw hc hn
    obtain ⟨o, ho, hs⟩ := he.told hr
    exact ⟨t, hx, he.beside.only sent, he.entry, he.length, he.stepSeq, mem_drop_of_sent ho hs⟩

end Sys2Proof.Machine
end

section
/-!
Compass searches: taken or queued (R325, R331, R333), their slices on free fielders (R30, R332), their time-out (R335).
-/
namespace Sys2Proof.Machine

variable {s t : State} {m : Msg} {v : VIndex}

/-! `COMPASS_SEARCH`. -/

/-- A host's search command reaches the index `v` of its own context, which stands (R265, R311). -/
structure Searches (m : Msg) (v : VIndex) (s : State) : Prop where
  serves : Serves .bound m s
  run : s.mode = .run
  words : m.ops.length = 5
  found : Tab.find s.indexes (indexOf m) = some v
  own : v.context = (qpAt s m.qp).context
  whole : (ctxAt s (qpAt s m.qp).context).tornDown = false

theorem Searches.notDenied (h : Searches m v s) (always : Bool) : compassDenied s m always = none := by
  unfold compassDenied
  dsimp only
  rw [h.found]
  dsimp only
  simp [h.own, h.whole]

/-- A search of a sound index is judged `OK` (R338). -/
theorem Searches.judged (h : Searches m v s) (sound : v.faulted = false) : compassJudge s m false = .ok := by
  unfold compassJudge
  rw [h.notDenied, h.found]
  dsimp only
  rw [sound]
  rfl

/-- `COMPASS_SEARCH` waits behind a change of its index, if the queue has room, and acts at once otherwise (R333). -/
theorem exec_compassSearch (h : Searches m v s) : exec (.compassSearch m) s = .next (
    if compassBlocked s (indexOf m) true s.searchWaits then
      if searchQueueMaxVal s ≤ (s.searchWaits.filter (fun w => w.2.search)).length then refuse m .searchBusy (takeMsg m s)
      else { takeMsg m s with
        searchWaits := Tab.put s.searchWaits s.searchCount { msg := m, index := indexOf m, at_ := now s, search := true }
        searchCount := s.searchCount + 1 }
    else settleCompass (applyCompass m (now s) s.searchCount (takeMsg m s))) := by
  have hd : compassDenied (takeMsg m s) m (m.opcode == 0x040B) = none := h.notDenied _
  refine (next_request (f := { opcode := 0x0409, on := .bound, need := 5, most := 5, setup := true }) rfl h.serves
    (Nat.le_of_eq h.words.symm) (Nat.le_of_eq h.words) (fun _ => h.run) rfl).trans ?_
  dsimp only
  rw [hd, Option.filter_none]
  simp only [Bool.true_and, decide_eq_true_eq]
  rfl

/-- The search that a command starts: its first stage scans the centroid frames (R325, R327, R332). -/
def searchOf (m : Msg) (v : VIndex) (at_ : Nat) : Search :=
  { msg := m, index := indexOf m, at_, query := m.body, probe := opNat m 2, count := opNat m 3, extend := bit (opWord m 4) 0
    todo := v.centroidFrames.zipIdx.map (fun f =>
      { coarse := true, list := 0, ord := f.2, frame := f.1
        entries := min (codesPerFrame v) (v.centroids - f.2 * codesPerFrame v) }) }

/-- A search's probe, count and code are in their ranges (R325). -/
def InSearchRange (m : Msg) (v : VIndex) : Prop :=
  1 ≤ opNat m 2 ∧ opNat m 2 ≤ 256 ∧ 1 ≤ opNat m 3 ∧ opNat m 3 ≤ 1024 ∧ m.body.length = codeBytes v

/-- A search that acts: out of range it is refused, else it is taken under its number. -/
theorem applyCompass_search (h : Searches m v s) (sound : v.faulted = false) (op : m.opcode = 0x0409) (at_ k : Nat) :
    applyCompass m at_ k s =
      if opNat m 2 = 0 || 256 < opNat m 2 || opNat m 3 = 0 || 1024 < opNat m 3 || m.body.length ≠ codeBytes v then refuse m .searchRange s
      else { s with searches := Tab.put s.searches k (searchOf m v at_), searchCount := max s.searchCount (k + 1) } := by
  have ha : applyCompass m at_ k s = doSearch m at_ k s := by
    unfold applyCompass
    rw [op]
    rfl
  rw [ha]
  unfold doSearch onIndex
  rw [h.judged sound, h.found]
  rfl

theorem outOfSearchRange_iff : (decide (opNat m 2 = 0) || decide (256 < opNat m 2) || decide (opNat m 3 = 0) || decide (1024 < opNat m 3) ||
    decide (m.body.length ≠ codeBytes v)) = true ↔ ¬InSearchRange m v := by
  unfold InSearchRange
  simp only [Bool.or_eq_true, decide_eq_true_eq]
  omega

section
variable (h : Searches m v s) (sound : v.faulted = false) (op : m.opcode = 0x0409)
include h

/-- The command leaves ingress, and finds its index as before. -/
theorem Searches.take : Searches m v (takeMsg m s) :=
  ⟨⟨h.serves.powered, h.serves.ready, h.serves.works, h.serves.firmware, h.serves.kind, h.serves.whole, h.serves.unfrozen⟩,
    h.run, h.words, h.found, h.own, h.whole⟩

include sound op in
theorem search_starts (free : compassBlocked s (indexOf m) true s.searchWaits = false) (ok : InSearchRange m v) :
    DoesThen (.compassSearch m) settleCompass s
      { s with searches := Tab.put s.searches s.searchCount (searchOf m v (now s)), searchCount := s.searchCount + 1 } [] := by
  refine ⟨_, (exec_compassSearch h).trans (by rw [free]; rfl), ?_⟩
  rw [applyCompass_search h.take sound op, if_neg (by rw [outOfSearchRange_iff]; exact fun n => n ok),
    show max (takeMsg m s).searchCount (s.searchCount + 1) = s.searchCount + 1 from Nat.max_eq_right (Nat.le_succ _)]
  exact ⟨rfl, (List.append_nil _).symm⟩

include sound op in
theorem search_outOfRange (free : compassBlocked s (indexOf m) true s.searchWaits = false) (bad : ¬InSearchRange m v) :
    DoesThen (.compassSearch m) settleCompass s s [answer m .searchRange] := by
  refine ⟨_, (exec_compassSearch h).trans (by rw [free]; rfl), ?_⟩
  rw [applyCompass_search h.take sound op, if_pos (outOfSearchRange_iff.2 bad)]
  exact ⟨by simp, out_refuse h.serves.ready⟩

theorem search_waits (blocked : compassBlocked s (indexOf m) true s.searchWaits = true)
    (room : (s.searchWaits.filter (fun w => w.2.search)).length < searchQueueMaxVal s) :
    Does (.compassSearch m) s
      { s with
        searchWaits := Tab.put s.searchWaits s.searchCount { msg := m, index := indexOf m, at_ := now s, search := true }
        searchCount := s.searchCount + 1 } [] := by
  have hx := exec_compassSearch h
  rw [blocked, if_pos rfl, if_neg (Nat.not_le.2 room)] at hx
  exact ⟨_, hx, rfl, (List.append_nil _).symm⟩

theorem search_turnedAway (blocked : compassBlocked s (indexOf m) true s.searchWaits = true)
    (full : searchQueueMaxVal s ≤ (s.searchWaits.filter (fun w => w.2.search)).length) :
    Does (.compassSearch m) s s [answer m .searchBusy] := by
  have hx := exec_compassSearch h
  rw [blocked, if_pos rfl, if_pos full] at hx
  exact ⟨_, hx, by simp, out_refuse h.serves.ready⟩
end

/-! Slices. -/

/-- A fielder that no step job holds starts the first slice queued for it (R30, R184, R333). -/
theorem sliceIssue_starts {f p k : Nat} {q : Search} {l : Slice} (hl : Live s) (part : partOfFielder s f = some p) (thawed : s.survey.frozen = false)
    (free : (partAt s p).holder = none) (idle : (fielderAt s f).slice = none)
    (first : s.searches.findSome? (fun e => (e.2.todo.find? (fun l => frameFielder l.frame == f)).map (fun l => (e.1, e.2, l))) = some (k, q, l)) :
    Does (.compassSliceIssue f) s
      (setFielder f { fielderAt s f with slice := some (k, l) }
        { s with searches := Tab.put s.searches k { q with todo := q.todo.erase l, running := q.running + 1 } }) [] := by
  refine ⟨_, (next_live rfl hl).trans ?_, rfl, ?_⟩
  · rw [part]
    dsimp only
    rw [thawed, free, idle, first]
    rfl
  · exact (List.append_nil _).symm

/-- A slice's work is counted: its read of a frame, the handshakes `n` of its fielder's lanes, its entries. -/
def sliceCounted (f n : Nat) (l : Slice) (v : VIndex) (s : State) : State :=
  bumpBy ctrEntriesCompared l.entries (bump ctrSlicesScanned (laneBusy f n (.context v.context) none
    (pmu { code := 0x08, priv := .context v.context, requester := some f, addr := some (hbmAddr l.frame 0) } s)))

theorem bare_sliceCounted (f n : Nat) (l : Slice) (v : VIndex) (s : State) : bare (sliceCounted f n l v s) = bare s :=
  (bare_foldl (fun _ _ => bare_pmu ..) (List.range (ceilDiv n 4096)) _).trans (bare_pmu ..)
theorem out_sliceCounted (f n : Nat) (l : Slice) (v : VIndex) (s : State) : (sliceCounted f n l v s).out = s.out :=
  (foldl_same State.out (fun _ _ => out_pmu ..) (List.range (ceilDiv n 4096)) _).trans (out_pmu ..)

/-- What a search has found once a slice's entries have been compared (R327, R329, R332). -/
def scanned (s : State) (v : VIndex) (q : Search) (l : Slice) : Search :=
  if l.coarse then scanCentroids s v q l else { q with found := Tab.put q.found l.list (scanList s v q l) }

/-- Comparing reads HBM alone. -/
theorem scanned_of_hbm (h : t.hbm = s.hbm) (v : VIndex) (q : Search) (l : Slice) : scanned t v q l = scanned s v q l := by
  have hb : readByte t = readByte s := by unfold readByte; rw [h]
  unfold scanned scanCentroids scanList centroidCode entryOf recordState readBytes
  rw [hb]

theorem hbm_of_bare (h : bare t = bare s) : t.hbm = s.hbm := by
  have g := congrArg State.hbm h
  exact g
theorem bare_searches (h : bare t = bare s) (k : Nat) (q : Search) :
    bare { t with searches := Tab.put t.searches k q } = bare { s with searches := Tab.put s.searches k q } := by
  obtain ⟨_, _, _, _, _, _, _, _, _, _, rfl⟩ := exists_of_bare h
  rfl

/-- What a slice found joins its search, and the entries it skipped are counted (R329, R332). -/
def sliceMerged (k : Nat) (l : Slice) (v : VIndex) (q : Search) (s : State) : State :=
  if l.coarse then { s with searches := Tab.put s.searches k (scanCentroids s v q l) }
  else
    let r := scanList s v q l
    bumpBy ctrTombstoneSkips (r.skipped - (Tab.get q.found l.list {}).skipped)
      { s with searches := Tab.put s.searches k { q with found := Tab.put q.found l.list r } }

theorem bare_sliceMerged (k : Nat) (l : Slice) (v : VIndex) (q : Search) (s : State) :
    bare (sliceMerged k l v q s) = bare { s with searches := Tab.put s.searches k (scanned s v q l) } := by
  unfold sliceMerged scanned
  split
  · rfl
  · exact bare_bumpBy ..
theorem out_sliceMerged (k : Nat) (l : Slice) (v : VIndex) (q : Search) (s : State) : (sliceMerged k l v q s).out = s.out := by
  unfold sliceMerged
  split
  · rfl
  · exact out_bumpBy ..

theorem exec_sliceDone {f k : Nat} {l : Slice} {q : Search} (hl : Live s) (slice : (fielderAt s f).slice = some (k, l))
    (search : Tab.find s.searches k = some q) (index : Tab.find s.indexes q.index = some v) :
    ∃ n, exec (.compassSliceDone f) s = .next (settleCompass (advanceSearch k 1024 (freeStage k l
      (sliceMerged k l v { q with running := q.running - 1 }
        (sliceCounted f n l v (setFielder f { fielderAt s f with slice := none } s)))))) := by
  have hx : exec (.compassSliceDone f) s = .next _ := next_live rfl hl
  rw [slice] at hx
  dsimp only at hx
  rw [show Tab.find (setFielder f { fielderAt s f with slice := none } s).searches k = some q from search] at hx
  dsimp only at hx
  rw [show Tab.find (setFielder f { fielderAt s f with slice := none } s).indexes q.index = some v from index] at hx
  exact ⟨_, hx⟩

/-- A fielder's slice is done: its candidates join its search's, which goes on (R332, R334). -/
theorem sliceDone_merges {f k : Nat} {l : Slice} {q : Search} (hl : Live s) (slice : (fielderAt s f).slice = some (k, l))
    (search : Tab.find s.searches k = some q) (index : Tab.find s.indexes q.index = some v) :
    DoesThen (.compassSliceDone f) (fun u => settleCompass (advanceSearch k 1024 (freeStage k l u))) s
      { setFielder f { fielderAt s f with slice := none } s with
        searches := Tab.put s.searches k (scanned s v { q with running := q.running - 1 } l) } [] := by
  obtain ⟨n, hx⟩ := exec_sliceDone hl slice search index
  refine ⟨_, hx, ?_, ?_⟩
  · have hb := bare_sliceCounted f n l v (setFielder f { fielderAt s f with slice := none } s)
    rw [bare_sliceMerged, bare_searches hb, scanned_of_hbm (hbm_of_bare hb), scanned_of_hbm (s := s) rfl]
    rfl
  · rw [out_sliceMerged, out_sliceCounted]
    exact (List.append_nil _).symm

/-! What a search's end frees: it sends nothing, and does not depend on what answering, counting and tracing write. -/
theorem bare_writeBytes (a : Nat) (l : List Byte) (s : State) : bare (writeBytes a l s) = writeBytes a l (bare s) := rfl
theorem out_writeBytes (a : Nat) (l : List Byte) (s : State) : (writeBytes a l s).out = s.out := rfl
theorem readBytes_bare (s : State) (a n : Nat) : readBytes (bare s) a n = readBytes s a n := rfl
theorem bare_setFrame (f : Nat) (x : Frame) (s : State) : bare (setFrame f x s) = setFrame f x (bare s) := rfl
theorem bare_sealFrame (f : Nat) (k : List Byte) (s : State) : bare (sealFrame f k s) = sealFrame f k (bare s) := by
  unfold sealFrame foldRange
  refine (List.foldl_hom bare (fun t i => ?_)).symm
  dsimp only
  rw [readBytes_bare, bare_writeBytes]
theorem bare_freeFrame (f : Nat) (s : State) : bare (freeFrame f s) = freeFrame f (bare s) := by
  unfold freeFrame
  rw [show frameAt (bare s) f = frameAt s f from rfl, show (bare s).survey = s.survey from rfl, show (bare s).contexts = s.contexts from rfl]
  dsimp only
  split
  · rfl
  · split
    · rfl
    · rw [bare_setFrame]
      split
      · rw [bare_sealFrame]
      · rfl
theorem out_sealFrame (f : Nat) (k : List Byte) (s : State) : (sealFrame f k s).out = s.out := by
  unfold sealFrame foldRange
  refine foldl_same State.out (fun t i => ?_) _ s
  dsimp only
  rw [out_writeBytes]
theorem out_setFrame (f : Nat) (x : Frame) (s : State) : (setFrame f x s).out = s.out := rfl
theorem out_freeFrame (f : Nat) (s : State) : (freeFrame f s).out = s.out := by
  unfold freeFrame
  dsimp only
  split
  · rfl
  · split
    · rfl
    · rw [out_setFrame]
      split
      · exact out_sealFrame ..
      · rfl

/-- A search's staging frames are freed but those that a slice reads (R336). -/
def stagingFreed (l : List Staging) (s : State) : State := l.foldl (fun t g => if sliceOn t g.frame then t else freeFrame g.frame t) s

theorem bare_stagingFreed (l : List Staging) (s : State) : bare (stagingFreed l s) = stagingFreed l (bare s) := by
  refine (List.foldl_hom bare (fun t g => ?_)).symm
  rw [show sliceOn (bare t) g.frame = sliceOn t g.frame from rfl]
  split
  · rfl
  · exact (bare_freeFrame ..).symm
theorem out_stagingFreed (l : List Staging) (s : State) : (stagingFreed l s).out = s.out := by
  refine foldl_same State.out (fun t g => ?_) l s
  split
  · rfl
  · exact out_freeFrame ..
theorem quiet_stagingFreed (l : List Staging) (s : State) : Quiet s (stagingFreed l s) := by
  refine quiet_foldl (fun t g => ?_) l s
  split
  · exact .refl t
  · exact quiet_freeFrame ..

/-- The search has ended and its fetches are given up (R336). -/
def searchDropped (k : Nat) (s : State) : State :=
  { s with
    searches := Tab.drop s.searches k
    transfers := s.transfers.filter (fun e => match e.2.consumer with | .slice n _ _ => n != k | _ => true) }

theorem bare_searchDropped (k : Nat) (e : bare t = bare s) : bare (searchDropped k t) = bare (searchDropped k s) := by
  obtain ⟨_, _, _, _, _, _, _, _, _, _, rfl⟩ := exists_of_bare e
  rfl

section
variable {k : Nat} {q : Search} (h : Tab.find s.searches k = some q) (a : Answer)
include h
theorem endSearch_eq : endSearch k a s = respond q.msg a (stagingFreed q.staging (searchDropped k s)) := by
  unfold endSearch
  rw [h]
  rfl

/-- A search's end leaves the same whatever answering, counting and tracing have written. -/
theorem bare_endSearch (e : bare t = bare s) : bare (endSearch k a t) = bare (endSearch k a s) := by
  have ht : Tab.find t.searches k = some q := by rw [← h]; exact congrArg (fun u => Tab.find u.searches k) e
  rw [endSearch_eq ht, endSearch_eq h, bare_respond, bare_respond, bare_stagingFreed, bare_stagingFreed, bare_searchDropped k e]

theorem out_endSearch (hr : qpReady s q.msg.qp = true) : (endSearch k a s).out = s.out ++ [.msg (response q.msg a)] := by
  rw [endSearch_eq h, out_respond, out_stagingFreed]
  · rfl
  · exact ((quiet_stagingFreed ..).ready _).trans hr
end

/-! Time-out. -/

/-- A search in progress that has lasted too long ends (R335). -/
theorem searchTimeout_ends {k : Nat} {q : Search} (hl : Live s) (search : Tab.find s.searches k = some q)
    (due : q.at_ + searchTimeoutMsVal s * 1000000 ≤ now s) (hr : qpReady s q.msg.qp = true) :
    DoesThen (.searchTimeout k) settleCompass s (endSearch k { status := .searchTimeout } s) [answer q.msg .searchTimeout] := by
  have hx : exec (.searchTimeout k) s = .next _ := next_live rfl hl
  rw [search] at hx
  dsimp only at hx
  rw [if_pos (decide_eq_true due)] at hx
  exact ⟨_, hx, bare_endSearch search _ (bare_bump ..), out_endSearch (s := bump ctrSearchTimeouts s) search _ hr⟩

/-- So does one that waits (R335). -/
theorem searchTimeout_waiting {k : Nat} {w : SearchWait} (hl : Live s) (search : Tab.find s.searches k = none)
    (wait : Tab.find s.searchWaits k = some w) (kind : w.search = true) (due : w.at_ + searchTimeoutMsVal s * 1000000 ≤ now s)
    (hr : qpReady s w.msg.qp = true) :
    DoesThen (.searchTimeout k) settleCompass s { s with searchWaits := Tab.drop s.searchWaits k } [answer w.msg .searchTimeout] := by
  have hx : exec (.searchTimeout k) s = .next _ := next_live rfl hl
  rw [search, wait] at hx
  dsimp only at hx
  rw [if_pos (Bool.and_eq_true_iff.2 ⟨kind, decide_eq_true due⟩)] at hx
  exact ⟨_, hx, bare_refuse .., out_refuse hr⟩

/-- Settles O20: a search is taken, queued or refused by `COMPASS_SEARCH`'s own cases; a slice starts, merges what it finds, and a search that
lasts too long ends, each as its engine's one step. -/
theorem searchesRunInSlices : Obligations.SearchesRunInSlices := by
  unfold Obligations.SearchesRunInSlices
  refine ⟨fun m v s hs run words found own sound whole op => ?_, fun f p k q l s hl part thawed free idle first => ?_,
    fun f k l q v s hl slice search index => sliceDone_merges hl slice search index, fun k s hl => ⟨fun q search due hr => ?_, ?_⟩⟩
  · have h : Searches m v s := ⟨hs, run, words, found, own, whole⟩
    exact ⟨search_starts h sound op, search_outOfRange h sound op, search_waits h, search_turnedAway h⟩
  · exact sliceIssue_starts hl part thawed free idle first
  · exact searchTimeout_ends hl search due hr
  · exact fun w search wait kind due hr => searchTimeout_waiting hl search wait kind due hr

end Sys2Proof.Machine
end

section
/-!
Steps as they open and take their layers: the token side's work (R297 to R299), the append of a layer (R26, R130), STEP and LAYER_IN.
-/
namespace Sys2Proof.Machine

variable {s t u : State} {i : Nat} {m : Msg}

/-! The token side's work: no session shows it. -/
theorem quiet_sendText (i : Nat) (st : Step) (text : List Byte) (s : State) : Quiet s (sendText i st text s) := quiet_sendMsg ..
theorem quiet_feedText (i : Nat) (st : Step) (v : Vocab) (n : Nat) (k : Tok) (s : State) : Quiet s (feedText i st v n k s).2 := by
  unfold feedText
  dsimp only
  split
  · exact quiet_sendText ..
  · exact (quiet_sendText ..).after (quiet_bumpBy ..)
theorem quiet_reserveSegment (i : Nat) (k : Tok) (s : State) : Quiet s (reserveSegment i k s).2 := by
  unfold reserveSegment
  dsimp only
  split
  · exact .refl s
  · split
    · exact quiet_of_fields rfl rfl rfl rfl
    · exact quiet_bump ..
theorem quiet_advanceGrammar (g : Grammar) (i n : Nat) (k : Tok) (s : State) : Quiet s (advanceGrammar g i n k s).2 := by
  unfold advanceGrammar
  dsimp only
  split
  · exact .refl s
  · repeat' split
    all_goals exact quiet_of_fields rfl rfl rfl rfl
theorem quiet_advanceLists (n : Nat) (k : Tok) (s : State) : Quiet s (advanceLists n k s).2 := by
  unfold advanceLists
  extract_lets l
  clear_value l
  split
  · exact .refl s
  · split
    · split <;> exact .refl s
    · dsimp only
      split
      · exact quiet_bump ..
      · exact .refl s
theorem quiet_feedState (i n : Nat) (k : Tok) (s : State) : Quiet s (feedState i n k s).2 := by
  unfold feedState
  split
  · exact quiet_bump ..
  · split
    · exact .refl s
    · refine (quiet_advanceLists ..).after ?_
      split
      · exact quiet_advanceGrammar ..
      · exact .refl s

/-- The end of the token side's work: a step whose mask is off is masked, and another's mask will be formed (R298, R304). -/
def askMask (i : Nat) (st : Step) (k : Tok) (s : State) : Step × Bool × State :=
  if maskMode k.c = 0 then ({ withTok k st with masked := true }, true, s)
  else (withTok k st, true, { s with masks := s.masks ++ [{ index := i, qp := st.qp, tag := st.tag, seq := st.seq0, at_ := now s }] })

/-- The segment that a fed token's push may need is reserved where masks are formed (R288). -/
def reserved (i : Nat) (k : Tok) (s : State) : Tok × State := if maskMode k.c = 0 then (k, s) else reserveSegment i k s

/-- What an allowed token does: its text is sent, then grammar and lists advance (R297). -/
def tokenTaken (i : Nat) (st : Step) (v : Vocab) (n : Nat) (r : Tok × State) : Tok × State :=
  let k := feedText i st v n r.1 r.2
  feedState i n k.1 k.2

theorem feedStep_eq (i : Nat) (fed : Option Nat) (st : Step) (s : State) : feedStep i fed st s =
    match vocabOf s st.tokenCarry, fed with
    | none, _ => ({ st with masked := true }, true, s)
    | some _, none => askMask i st (stepTok st) s
    | some v, some n =>
      let r := reserved i (stepTok st) s
      if tokenAllowed r.2 i v r.1 n then askMask i st (tokenTaken i st v n r).1 (tokenTaken i st v n r).2
      else ({ withTok r.1 st with masked := true }, false, r.2) := by
  unfold feedStep
  cases vocabOf s st.tokenCarry with
  | none => rfl
  | some v =>
    cases fed with
    | none => rfl
    | some n =>
      dsimp only
      rw [show (if maskMode (stepTok st).c = 0 then (stepTok st, s) else reserveSegment i (stepTok st) s) = reserved i (stepTok st) s from rfl]
      cases tokenAllowed (reserved i (stepTok st) s).2 i v (reserved i (stepTok st) s).1 n with
      | true => rfl
      | false => rfl

theorem quiet_askMask (i : Nat) (st : Step) (k : Tok) (s : State) : Quiet s (askMask i st k s).2.2 := by
  unfold askMask
  split
  · exact .refl s
  · exact quiet_of_fields rfl rfl rfl rfl
theorem quiet_reserved (i : Nat) (k : Tok) (s : State) : Quiet s (reserved i k s).2 := by
  unfold reserved
  split
  · exact .refl s
  · exact quiet_reserveSegment ..
theorem quiet_tokenTaken (i : Nat) (st : Step) (v : Vocab) (n : Nat) (r : Tok × State) : Quiet r.2 (tokenTaken i st v n r).2 :=
  (quiet_feedState ..).after (quiet_feedText ..)
theorem quiet_feedStep (i : Nat) (fed : Option Nat) (st : Step) (s : State) : Quiet s (feedStep i fed st s).2.2 := by
  rw [feedStep_eq]
  split
  · exact .refl s
  · exact quiet_askMask ..
  · dsimp only
    split
    · exact (quiet_askMask ..).after ((quiet_tokenTaken ..).after (quiet_reserved ..))
    · exact quiet_reserved ..

/-- The token side writes a step's token values and whether it is masked, nothing else of it. -/
def TokenOnly (st u : Step) : Prop := u = { withTok (stepTok u) st with masked := u.masked }

theorem askMask_tokenOnly (i : Nat) (st : Step) (k : Tok) (s : State) : TokenOnly st (askMask i st k s).1 := by
  unfold askMask
  split
  · exact rfl
  · exact rfl
theorem feedStep_tokenOnly (i : Nat) (fed : Option Nat) (st : Step) (s : State) : TokenOnly st (feedStep i fed st s).1 := by
  rw [feedStep_eq]
  split
  · exact rfl
  · exact askMask_tokenOnly ..
  · dsimp only
    split
    · exact askMask_tokenOnly ..
    · exact rfl

/-- A step numbered among the rotary loads, the session's other fields aside (R166). -/
def atLoad (n : Nat) (f : Step × Bool × State) : Step × Bool × State := ({ f.1 with ropeSeq := n }, f.2)

theorem askMask_atLoad (i n : Nat) (st : Step) (k : Tok) (s : State) :
    askMask i { st with ropeSeq := n } k s = atLoad n (askMask i st k s) := by
  unfold askMask
  split
  · rfl
  · rfl
theorem feedStep_atLoad (i n : Nat) (fed : Option Nat) (st : Step) (s : State) :
    feedStep i fed { st with ropeSeq := n } s = atLoad n (feedStep i fed st s) := by
  rw [feedStep_eq, feedStep_eq]
  dsimp only
  split
  · rfl
  · exact askMask_atLoad ..
  · rw [show stepTok { st with ropeSeq := n } = stepTok st from rfl]
    split
    · exact askMask_atLoad ..
    · rfl

/-! The append of a layer. -/
theorem ringOf_of_not_holdsPos {p n : Nat} (h : holdsPos s p n = false) : ∃ r, ringOf s p = some r := by
  cases e : ringOf s p with
  | some r => exact ⟨r, rfl⟩
  | none => unfold holdsPos at h; rw [e] at h; cases h

/-- The append of a layer writes a step's phase and what its append did, nothing else of it. -/
def PhaseOnly (st u : Step) : Prop := u =
  { st with phase := u.phase, waitUntil := u.waitUntil, layersAppended := u.layersAppended, freshPages := u.freshPages, mirrorAt := u.mirrorAt }

/-- A step's layer is appended, or waits for a frame (R26, R130). -/
theorem appendLayer_step {st : Step} (h : (sessAt s i).step = some st) :
    ∃ u, (sessAt (appendLayer i s) i).step = some u ∧ PhaseOnly st u ∧ (u.phase = .appended ∨ u.phase = .waitFrame) := by
  unfold appendLayer
  dsimp only
  rw [h]
  dsimp only
  cases hp : holdsPos s (sessAt s i).entry.partition st.len0 with
  | false =>
    obtain ⟨⟨m, mu, g⟩, hr⟩ := ringOf_of_not_holdsPos hp
    simp only [hr, Bool.not_false, if_true, sessAt_modSess]
    exact ⟨_, rfl, rfl, .inl rfl⟩
  | true =>
    rw [Bool.not_true, if_neg Bool.false_ne_true]
    split
    · rw [sessAt_modSess]
      exact ⟨_, rfl, rfl, .inl rfl⟩
    · rw [sessAt_modSess]
      exact ⟨_, rfl, rfl, .inr rfl⟩

/-! Routes, ring parameters, rotary loads and models are read from what no event of one session writes. -/
section
variable (h : Outside s t)
include h
theorem Outside.firstHop : firstHop t = firstHop s := by
  funext n
  have g := congrArg (Machine.firstHop · n) h.aside
  exact g
theorem Outside.ringOf : ringOf t = ringOf s := by
  funext p
  have g := congrArg (Machine.ringOf · p) h.aside
  exact g
theorem Outside.ringNodeBaseVal : ringNodeBaseVal t = ringNodeBaseVal s := by
  funext p
  have g := congrArg (Machine.ringNodeBaseVal · p) h.aside
  exact g
theorem Outside.modelOf : modelOf t = modelOf s := by
  funext x
  have g := congrArg (Machine.modelOf · x) h.aside
  exact g
theorem Outside.ropeLoads : t.ropeLoads = s.ropeLoads := by
  have g := congrArg State.ropeLoads h.aside
  exact g

theorem Outside.nodeLost : nodeLost t = nodeLost s := by
  funext n
  unfold Machine.nodeLost
  rw [h.qps, h.firstHop]
  cases Machine.firstHop s n with
  | none => rfl
  | some k => dsimp only; rw [h.ports]

theorem Outside.stepNeeds {st u : Step} (hp : (sessAt t i).entry.partition = (sessAt s i).entry.partition) (hn : u.len0 = st.len0) :
    stepNeeds t i u = stepNeeds s i st := by
  unfold Machine.stepNeeds
  rw [hp, hn, h.ringOf, h.ringNodeBaseVal]
end

/-! A step as it opens. -/
/-- The step that a `STEP` opens in session `i`, with `n` rotary loads granted so far. -/
def opening (m : Msg) (i n : Nat) (s : State) : Step :=
  let x := sessAt s i
  let md := modelOf s x
  { qp := m.qp, tag := m.tag, outQp := m.qp, outTag := m.tag, job := m.job.toNat, seq0 := x.record.stepSeq, len0 := x.record.length
    query := slice m.body 0 (queryBytes md), kv := slice m.body (queryBytes md) (kvBytes (sessShape s i)), grammar := x.record.grammar
    tokenCarry := x.record.tokenCarry, seqLists := x.record.seqLists, reserved := x.reservedSeg, ropeSeq := n }

/-- Whether a message's job decodes. -/
def decodes (m : Msg) (s : State) : Bool := match Tab.find s.jobs m.job.toNat with | some j => j.kind == .decode | none => false

/-- The step once the token side has worked, where its job decodes and tokens are on; whether its fed token passed (R297). -/
def opened (m : Msg) (i n : Nat) (s : State) : Step × Bool × State :=
  if decodes m s && tokOn (opening m i n s).tokenCarry then feedStep i (if argFedValid m then some (argFed m) else none) (opening m i n s) s
  else ({ opening m i n s with masked := true }, true, s)

/-- The session as it becomes ACTIVE (R72, R87). -/
def active (st : Step) (x : Session) : Session :=
  { x with
    entry := { x.entry with state := .active, cancelPending := false, waitPending := false }
    record.reason := .none
    step := some st
    ended := none
    timerOn := false
    record.timerNs := 0 }

/-- The session is ACTIVE with its step, which is traced and mirrored. -/
def activated (i : Nat) (st : Step) (s : State) : State :=
  mirrorUpdate i (pmuDispatch 0x0E i (stopTimer i (modSess i (fun y => { y with
    entry := { y.entry with state := .active, cancelPending := false, waitPending := false }
    record.reason := .none
    step := some st
    ended := none }) s)))

theorem openStep_eq (i : Nat) (m : Msg) (s : State) : openStep i m s =
    let f := opened m i s.ropeCount s
    let t := activated i f.1 f.2.2
    if !f.2.1 then restartStep i .tokenRejected (bump ctrTokensRejected t)
    else if (stepNeeds t i f.1).any (nodeLost t) then restartStep i .stepRestart (bump ctrRingStepRestarts t)
    else if ropeHeld t i then modSess i (fun y => { y with step := some { f.1 with phase := .waitRope } }) t
    else appendLayer i t := rfl

theorem opened_atLoad (m : Msg) (i n : Nat) (s : State) : opened m i n s = atLoad n (opened m i 0 s) := by
  unfold opened
  rw [show (opening m i n s).tokenCarry = (opening m i 0 s).tokenCarry from rfl]
  split
  · exact feedStep_atLoad i n _ (opening m i 0 s) s
  · rfl
theorem opened_tokenOnly (m : Msg) (i n : Nat) (s : State) : TokenOnly (opening m i n s) (opened m i n s).1 := by
  unfold opened
  split
  · exact feedStep_tokenOnly ..
  · exact rfl
theorem quiet_opened (m : Msg) (i n : Nat) (s : State) : Quiet s (opened m i n s).2.2 := by
  unfold opened
  split
  · exact quiet_feedStep ..
  · exact .refl s

theorem beside_activated (i : Nat) (st : Step) (s : State) : Beside i s (activated i st s) :=
  (beside_modSess ..).trans ((beside_modSess ..).trans (((quiet_mirrorUpdate ..).after (quiet_pmuDispatch ..)).beside i))
theorem sessAt_activated (i : Nat) (st : Step) (s : State) : sessAt (activated i st s) i = active st (sessAt s i) := by
  unfold activated stopTimer startTimer
  rw [sessAt_of_apart (apart_mirrorUpdate ..), sessAt_of_apart (t := pmuDispatch ..) (apart_pmu ..), sessAt_modSess, sessAt_modSess]
  rfl

/-- The step waits for a rotary load that its model slot uses and that was granted before it (R166). -/
theorem ropeHeld_activated (i : Nat) (st : Step) (s : State) : ropeHeld (activated i st s) i =
    s.ropeLoads.any (fun l => l.order < st.ropeSeq && usesRope (modelOf s (sessAt s i)) l.table) := by
  have h := (beside_activated i st s).toOutside
  unfold ropeHeld
  rw [sessAt_activated, h.ropeLoads, h.modelOf]
  rfl

/-! What a `STEP` leaves, from the state in which its session opens it. -/
/-- A step opens: no other session shows it, its own is ACTIVE, as long as before, with step `u`. -/
structure Opens (i : Nat) (u : Step) (s t : State) : Prop where
  beside : Beside i s t
  entry : (sessAt t i).entry = { (sessAt s i).entry with state := .active, cancelPending := false, waitPending := false }
  reason : (sessAt t i).record.reason = .none
  length : (sessAt t i).record.length = (sessAt s i).record.length
  stepSeq : (sessAt t i).record.stepSeq = (sessAt s i).record.stepSeq
  handle : (sessAt t i).record.handle = (sessAt s i).record.handle
  step : (sessAt t i).step = some u

/-- What no session shows keeps a step open, as the step that its session then holds. -/
theorem Opens.quiet {st u : Step} {v : State} (h : Opens i st s t) (hq : Quiet t v) (step : (sessAt v i).step = some u) : Opens i u s v :=
  ⟨h.beside.trans (hq.beside i), (hq.entry i).trans h.entry, (hq.reason i).trans h.reason, (hq.length i).trans h.length,
    (hq.stepSeq i).trans h.stepSeq, (hq.handle i).trans h.handle, step⟩

/-- A ring member that the step needs is lost (R462). -/
def memberLost (s : State) (i : Nat) (st : Step) : Bool := (stepNeeds s i st).any (nodeLost s)

theorem memberLost_outside (h : Outside s t) {st u : Step} (hp : (sessAt t i).entry.partition = (sessAt s i).entry.partition)
    (hn : u.len0 = st.len0) : memberLost t i u = memberLost s i st := by
  unfold memberLost
  rw [h.nodeLost, h.stepNeeds hp hn]

/-- Rotary loads granted so far keep the session's steps waiting (R166). -/
def loadsAwaited (s : State) (i : Nat) : Bool :=
  s.ropeLoads.any (fun l => l.order < s.ropeCount && usesRope (modelOf s (sessAt s i)) l.table)

/-- The step with which the session becomes ACTIVE. -/
def openStepOf (m : Msg) (i : Nat) (s : State) : Step := (opened m i s.ropeCount s).1

/-- The state in which the opened step goes on, or ends at once. -/
def openedAt (m : Msg) (i : Nat) (s : State) : State := activated i (openStepOf m i s) (opened m i s.ropeCount s).2.2

section
variable (m : Msg) (i : Nat) (s : State)

theorem opens_openedAt : Opens i (openStepOf m i s) s (openedAt m i s) := by
  have hq := quiet_opened m i s.ropeCount s
  have hx : sessAt (openedAt m i s) i = active (openStepOf m i s) (sessAt (opened m i s.ropeCount s).2.2 i) := sessAt_activated ..
  refine ⟨(hq.beside i).trans (beside_activated ..), ?_, ?_, ?_, ?_, ?_, ?_⟩
  · rw [hx, ← hq.entry]; rfl
  · rw [hx]; rfl
  · rw [hx, ← hq.length]; rfl
  · rw [hx, ← hq.stepSeq]; rfl
  · rw [hx, ← hq.handle]; rfl
  · rw [hx]; rfl

theorem openStepOf_tokenOnly : TokenOnly (opening m i s.ropeCount s) (openStepOf m i s) := opened_tokenOnly ..

theorem memberLost_openedAt : memberLost (openedAt m i s) i (openStepOf m i s) = memberLost s i (opening m i 0 s) := by
  refine memberLost_outside (opens_openedAt m i s).beside.toOutside ?_ ?_
  · rw [(opens_openedAt m i s).entry]
  · rw [openStepOf_tokenOnly m i s]; rfl

theorem ropeHeld_openedAt : ropeHeld (openedAt m i s) i = loadsAwaited s i := by
  have hq := quiet_opened m i s.ropeCount s
  have hn : (openStepOf m i s).ropeSeq = s.ropeCount := by rw [openStepOf_tokenOnly m i s]; rfl
  unfold openedAt loadsAwaited
  rw [ropeHeld_activated, hn, hq.ropeLoads, hq.toOutside.modelOf]
  unfold modelOf
  rw [hq.modelSlot]

/-- A step that opens ends at once, or waits for rotary loads, or is appended (R26, R166, R297, R462). -/
theorem openStep_cases : openStep i m s =
    if !(opened m i 0 s).2.1 then restartStep i .tokenRejected (bump ctrTokensRejected (openedAt m i s))
    else if memberLost s i (opening m i 0 s) then restartStep i .stepRestart (bump ctrRingStepRestarts (openedAt m i s))
    else if loadsAwaited s i then modSess i (fun y => { y with step := some { openStepOf m i s with phase := .waitRope } }) (openedAt m i s)
    else appendLayer i (openedAt m i s) := by
  rw [← memberLost_openedAt, ← ropeHeld_openedAt, openStep_eq]
  dsimp only
  rw [show (opened m i 0 s).2.1 = (opened m i s.ropeCount s).2.1 by rw [opened_atLoad m i s.ropeCount]; rfl]
  rfl

/-- A step whose token passes and whose members are there opens (R72). -/
theorem openStep_opens (pass : (opened m i 0 s).2.1 = true) (kept : memberLost s i (opening m i 0 s) = false) :
    ∃ u, Opens i u s (openStep i m s) ∧ PhaseOnly (openStepOf m i s) u ∧ (loadsAwaited s i = true → u.phase = .waitRope) ∧
      (loadsAwaited s i = false → u.phase = .appended ∨ u.phase = .waitFrame) := by
  have ho := opens_openedAt m i s
  rw [openStep_cases, pass, kept, if_neg (by decide : ¬(!true) = true), if_neg Bool.false_ne_true]
  cases loadsAwaited s i with
  | true =>
    rw [if_pos rfl]
    have hs : (sessAt (modSess i (fun y => { y with step := some { openStepOf m i s with phase := .waitRope } }) (openedAt m i s)) i).step =
        some { openStepOf m i s with phase := .waitRope } := congrArg Session.step (sessAt_modSess ..)
    exact ⟨_, ho.quiet (quiet_modSess (fun _ => rfl)) hs, rfl, (fun _ => rfl), (fun h => nomatch h)⟩
  | false =>
    rw [if_neg Bool.false_ne_true]
    obtain ⟨u, hs, hu, hp⟩ := appendLayer_step ho.step
    exact ⟨u, ho.quiet (quiet_appendLayer ..) hs, hu, (fun h => nomatch h), fun _ => hp⟩

/-- A step that opens ends at once without effect where its token is refused or a member is lost: its `STEP_END` says which (R297, R462). -/
theorem openStep_ends {w : Status} (h : ((opened m i 0 s).2.1 = false ∧ w = .tokenRejected) ∨
    ((opened m i 0 s).2.1 = true ∧ memberLost s i (opening m i 0 s) = true ∧ w = .stepRestart)) :
    EndsReady i (openStepOf m i s) w (openedAt m i s) (openStep i m s) := by
  have ho := opens_openedAt m i s
  have hc : (sessAt (openedAt m i s) i).entry.cancelPending = false := by rw [ho.entry]
  have hw : (sessAt (openedAt m i s) i).entry.waitPending = false := by rw [ho.entry]
  have hr (c : Nat) (w : Status) : EndsReady i (openStepOf m i s) w (openedAt m i s) (restartStep i w (bump c (openedAt m i s))) :=
    (restartStep_endsReady (s := bump c (openedAt m i s)) ho.step hc hw w).before (quiet_bump ..) (List.prefix_refl _)
  rw [openStep_cases]
  rcases h with ⟨pass, rfl⟩ | ⟨pass, lost, rfl⟩
  · rw [pass]; exact hr ..
  · rw [pass, lost]; exact hr ..
end

/-! What a step keeps of its opening. -/
/-- Whose a step is, where it stands and what it was given. -/
structure Carries (st u : Step) : Prop where
  qp : u.qp = st.qp
  tag : u.tag = st.tag
  outQp : u.outQp = st.outQp
  outTag : u.outTag = st.outTag
  job : u.job = st.job
  seq0 : u.seq0 = st.seq0
  len0 : u.len0 = st.len0
  layer : u.layer = st.layer
  query : u.query = st.query
  kv : u.kv = st.kv

theorem TokenOnly.carries {st u : Step} (h : TokenOnly st u) : Carries st u := by
  rw [show u = _ from h]; exact ⟨rfl, rfl, rfl, rfl, rfl, rfl, rfl, rfl, rfl, rfl⟩
theorem PhaseOnly.carries {st u : Step} (h : PhaseOnly st u) : Carries st u := by
  rw [show u = _ from h]; exact ⟨rfl, rfl, rfl, rfl, rfl, rfl, rfl, rfl, rfl, rfl⟩
theorem Carries.trans {st u w : Step} (h : Carries st u) (g : Carries u w) : Carries st w :=
  ⟨g.qp.trans h.qp, g.tag.trans h.tag, g.outQp.trans h.outQp, g.outTag.trans h.outTag, g.job.trans h.job, g.seq0.trans h.seq0,
    g.len0.trans h.len0, g.layer.trans h.layer, g.query.trans h.query, g.kv.trans h.kv⟩
theorem PhaseOnly.tok {st u : Step} (h : PhaseOnly st u) : stepTok u = stepTok st := by rw [show u = _ from h]; rfl
theorem PhaseOnly.masked {st u : Step} (h : PhaseOnly st u) : u.masked = st.masked := by rw [show u = _ from h]

section
variable (m : Msg) (i : Nat) (s : State)
theorem opening_carries (n : Nat) : Carries (opening m i 0 s) (opening m i n s) := ⟨rfl, rfl, rfl, rfl, rfl, rfl, rfl, rfl, rfl, rfl⟩
theorem openStepOf_carries : Carries (opening m i 0 s) (openStepOf m i s) :=
  (opening_carries m i s s.ropeCount).trans (openStepOf_tokenOnly m i s).carries
theorem openStepOf_tok : stepTok (openStepOf m i s) = stepTok (opened m i 0 s).1 := by unfold openStepOf; rw [opened_atLoad]; rfl
theorem openStepOf_masked : (openStepOf m i s).masked = (opened m i 0 s).1.masked := by unfold openStepOf; rw [opened_atLoad]; rfl

theorem openedAt_ord : Ordinary s (openedAt m i s) := by
  refine mirrorUpdate_ord (pmuDispatch_ord (stopTimer_ord (modSess_ord ?_)))
  unfold opened
  split
  · exact feedStep_ord (.refl s)
  · exact .refl s

/-! As its message has left ingress and its lookup has been traced, a `STEP` finds what it found before. -/
theorem opening_taken : opening m i 0 (taken m s) = opening m i 0 s := by
  unfold opening
  dsimp only
  rw [sessAt_taken, modelOf_taken, sessShape_taken]
theorem decodes_taken : decodes m (taken m s) = decodes m s := by
  obtain ⟨_, _, _, _, _, _, _, _, _, _, h⟩ := exists_of_bare (bare_taken m s)
  rw [h]
  rfl
theorem opened_taken : opened m i 0 (taken m s) =
    if decodes m s && tokOn (opening m i 0 s).tokenCarry then
      feedStep i (if argFedValid m then some (argFed m) else none) (opening m i 0 s) (taken m s)
    else ({ opening m i 0 s with masked := true }, true, taken m s) := by
  unfold opened
  rw [opening_taken, decodes_taken]
theorem memberLost_taken (st : Step) : memberLost (taken m s) i st = memberLost s i st :=
  memberLost_outside (quiet_taken m s).toOutside (by rw [sessAt_taken]) rfl
theorem loadsAwaited_taken : loadsAwaited (taken m s) i = loadsAwaited s i := by
  obtain ⟨_, _, _, _, _, _, _, _, _, _, h⟩ := exists_of_bare (bare_taken m s)
  rw [h]
  rfl
end

/-! `STEP`. -/
/-- `STEP` in a session that it reaches (R72, R129, R239). -/
theorem exec_step (hr : Reaches false m i s) (hn : m.ops.length = 0) : exec (.step m) s = .next (
    let x := sessAt s i
    let md := modelOf s x
    let h := sessShape s i
    let v := taken m s
    if x.entry.state != .ready && x.entry.state != .waiting then refuse m (stateStatus x) v
    else if jobCheck s m.job.toNat i != .ok then refuse m (jobCheck s m.job.toNat i) v
    else if !roomAt s x.entry.partition x.record.length h then refuse m .lengthLimit (bump ctrLengthLimits v)
    else if m.body.length < queryBytes md + kvBytes h then refuse m .messageMalformed v
    else if storeFull s m.job.toNat (queryBytes md) then holdMsg m v
    else touchJobs (openStep i m v)) := by
  rw [exec_reaches (f := { opcode := 0x0102, on := .bound, setup := true }) rfl hr rfl (by simp) (by simp [hn])]
  simp only [sessAt_taken, modelOf_taken, sessShape_taken, jobCheck_taken, roomAt_taken, storeFull_taken]

/-- The step's session is the only one that its opening changes. -/
theorem step_only (hx : exec (.step m) s = .next (touchJobs (openStep i m (taken m s)))) (h : Beside i (taken m s) (openStep i m (taken m s))) :
    Only i s (touchJobs (openStep i m (taken m s))) :=
  ((((quiet_taken m s).beside i).trans h).trans ((quiet_touchJobs _).beside i)).only ((execStep_ord (.refl s)).at_ _ hx).1.sent

section
variable (hx : exec (.step m) s = .next (touchJobs (openStep i m (taken m s))))
include hx

theorem step_opens (pass : (opened m i 0 (taken m s)).2.1 = true) (kept : memberLost s i (opening m i 0 s) = false) :
    ∃ t u, exec (.step m) s = .next t ∧ Only i s t ∧ Opens i u s t ∧ Carries (opening m i 0 s) u ∧
      stepTok u = stepTok (opened m i 0 (taken m s)).1 ∧ u.masked = (opened m i 0 (taken m s)).1.masked ∧
      (loadsAwaited s i = true → u.phase = .waitRope) ∧ (loadsAwaited s i = false → u.phase = .appended ∨ u.phase = .waitFrame) := by
  rw [← memberLost_taken m, ← opening_taken] at kept
  obtain ⟨u, ho, hu, wait, go⟩ := openStep_opens m i (taken m s) pass kept
  rw [loadsAwaited_taken] at wait go
  have hc := (openStepOf_carries m i (taken m s)).trans hu.carries
  rw [opening_taken] at hc
  refine ⟨_, u, hx, step_only hx ho.beside, ?_, hc, hu.tok.trans (openStepOf_tok ..), hu.masked.trans (openStepOf_masked ..), wait, go⟩
  have hs := sessAt_taken m s i
  have hq := ho.quiet (quiet_touchJobs _) (u := u) ho.step
  exact ⟨((quiet_taken m s).beside i).trans hq.beside, by rw [hq.entry, hs], hq.reason, by rw [hq.length, hs], by rw [hq.stepSeq, hs],
    by rw [hq.handle, hs], hq.step⟩

theorem step_ends {w : Status} (h : ((opened m i 0 (taken m s)).2.1 = false ∧ w = .tokenRejected) ∨
    ((opened m i 0 (taken m s)).2.1 = true ∧ memberLost s i (opening m i 0 s) = true ∧ w = .stepRestart)) (hr : qpReady s m.qp = true) :
    ∃ t, exec (.step m) s = .next t ∧ Only i s t ∧
      (sessAt t i).record.length = (sessAt s i).record.length ∧ (sessAt t i).record.stepSeq = (sessAt s i).record.stepSeq ∧
      (sessAt t i).entry = { (sessAt s i).entry with state := .ready, cancelPending := false, waitPending := false } ∧
      .msg (stepEndMsg (sessAt s i) (opening m i 0 s) w) ∈ t.out.drop s.out.length := by
  rw [← memberLost_taken m, ← opening_taken] at h
  have ho := opens_openedAt m i (taken m s)
  have he := openStep_ends m i (taken m s) h
  have hq := quiet_touchJobs (openStep i m (taken m s))
  have hs := sessAt_taken m s i
  have hc := openStepOf_carries m i (taken m s)
  refine ⟨_, hx, step_only hx (ho.beside.trans he.beside), ?_, ?_, ?_, ?_⟩
  · rw [hq.length, he.length, ho.length, hs]
  · rw [hq.stepSeq, he.stepSeq, ho.stepSeq, hs]
  · rw [hq.entry, he.entry, ho.entry, hs]
  · obtain ⟨o, h1, h2⟩ := he.told (by
      rw [ho.beside.ready, ready_taken, hc.qp]; exact hr)
    have hm : stepEndMsg (sessAt (openedAt m i (taken m s)) i) (openStepOf m i (taken m s)) w = stepEndMsg (sessAt s i) (opening m i 0 s) w := by
      unfold stepEndMsg
      rw [ho.handle, ho.length, hc.qp, hc.tag, hc.seq0, opening_taken, hs]
    rw [← hm]
    exact mem_drop_of_sent ((out_taken m s) ▸ (openedAt_ord m i (taken m s)).1.sent.trans h1) h2
end

/-! `LAYER_IN`. -/
theorem exec_layerIn (hr : Reaches false m i s) (hn : m.ops.length = 0) : exec (.layerIn m) s = .next (
    let x := sessAt s i
    let md := modelOf s x
    let h := sessShape s i
    let v := taken m s
    match x.step with
    | none =>
      if x.ended == some .stepRestart then refuse m .stepRestart v
      else if stateStatus x == .ok then refuse m .layerOrder v
      else refuse m (stateStatus x) v
    | some st =>
      if st.phase != .idle || st.ending || argLayer m != st.layer + 1 then refuse m .layerOrder v
      else if m.body.length < queryBytes md + kvBytes h then refuse m .messageMalformed v
      else if storeFull s st.job (queryBytes md) then holdMsg m v
      else
        touchJobs (appendLayer i (modSess i (fun y => { y with step := some { st with
          layer := argLayer m, outQp := m.qp, outTag := m.tag
          query := slice m.body 0 (queryBytes md), kv := slice m.body (queryBytes md) (kvBytes h) } }) v))) := by
  rw [exec_reaches (f := { opcode := 0x0201, on := .bound, setup := true }) rfl hr rfl (by simp) (by simp [hn])]
  simp only [sessAt_taken, modelOf_taken, sessShape_taken, storeFull_taken] <;> rfl

/-- The step takes its next layer and appends it (R27, R83). -/
theorem layerIn_appends {st : Step}
    (hx : exec (.layerIn m) s = .next (touchJobs (appendLayer i (modSess i (fun y => { y with step := some st }) (taken m s))))) :
    ∃ t u, exec (.layerIn m) s = .next t ∧ Only i s t ∧ (sessAt t i).entry = (sessAt s i).entry ∧ (sessAt t i).step = some u ∧
      Carries st u ∧ (u.phase = .appended ∨ u.phase = .waitFrame) := by
  have sent : s.out <+: _ := ((execLayerIn_ord (.refl s)).at_ _ hx).1.sent
  generalize hv : modSess i (fun y => { y with step := some st }) (taken m s) = v at hx sent
  have hi : sessAt v i = { sessAt s i with step := some st } := by rw [← hv, sessAt_modSess, sessAt_taken]
  have hb : Beside i s v := ((quiet_taken m s).beside i).trans (hv ▸ beside_modSess ..)
  have hq : Quiet v (touchJobs (appendLayer i v)) := (quiet_touchJobs _).after (quiet_appendLayer ..)
  obtain ⟨u, hs, hu, hp⟩ := appendLayer_step (s := v) (i := i) (st := st) (by rw [hi])
  exact ⟨_, u, hx, (hb.trans (hq.beside i)).only sent, by rw [hq.entry, hi], hs, hu.carries, hp⟩

/-- Settles O14: `openStep` is cut at the token side's answer, the lost member and the rotary loads; each end of it is one lemma. `LAYER_IN` is
the append of the step that it writes, or a refusal. -/
theorem stepsRunLayerByLayer : Obligations.StepsRunLayerByLayer := by
  unfold Obligations.StepsRunLayerByLayer
  refine ⟨fun m i s hr hn => ?_, fun m i s hr hn => ?_⟩
  · intro x md h held
    have hx := exec_step hr hn
    have ready := hr.serves.ready
    refine ⟨fun hs => ?_, fun h1 h2 => does_refused (hx.trans ?_) ready⟩
    · have hs' : (x.entry.state != .ready && x.entry.state != .waiting) = false := by
        rcases hs with e | e <;> rw [e] <;> rfl
      dsimp only at hx
      rw [hs', if_neg Bool.false_ne_true] at hx
      refine ⟨fun hj hroom hlen hst => ?_, fun hj => does_refused (hx.trans ?_) ready, fun hj hroom => ?_⟩
      · intro st decode f lost
        have hx : exec (.step m) s = .next (touchJobs (openStep i m (taken m s))) := by
          rw [hx, hj, hroom, hst, if_neg (Nat.not_lt.2 hlen)]
          rfl
        have hf : opened m i 0 (taken m s) = f := opened_taken m i s
        rw [← hf]
        refine ⟨fun pass kept => ?_, fun w hw hq => ?_⟩
        · obtain ⟨t, u, ht, only, ho, hc, tok, masked, wait, go⟩ := step_opens hx pass kept
          exact ⟨t, u, ht, only, ho.length, ho.stepSeq, ho.reason, ho.entry, ho.step, tok, masked, hc.qp, hc.tag, hc.job, hc.seq0, hc.len0,
            hc.layer, hc.query, hc.kv, wait, go⟩
        · exact step_ends hx hw hq
      · rw [if_pos (by simpa using hj)]
      · have hx : exec (.step m) s = .next (refuse m .lengthLimit (bump ctrLengthLimits (taken m s))) := by
          rw [hx, hj, hroom]
          rfl
        exact ⟨_, hx, (bare_refuse ..).trans (bare_taken m s),
          by rw [out_refuse (s := bump ctrLengthLimits (taken m s)) ((ready_taken m s _).trans ready)]; exact congrArg (· ++ _) (out_taken m s)⟩
    · dsimp only
      rw [if_pos (by simpa using And.intro h1 h2)]
  · intro x md h
    have hx := exec_layerIn hr hn
    have ready := hr.serves.ready
    dsimp only at hx
    refine ⟨fun st hst => ?_, fun hn he => does_refused (hx.trans ?_) ready, fun hn he hok => does_refused (hx.trans ?_) ready⟩
    · rw [hst] at hx
      dsimp only at hx
      refine ⟨fun hp hend hl hlen hfull => ?_, fun bad => does_refused (hx.trans ?_) ready⟩
      · rw [if_neg (by simp [hp, hend, hl]), if_neg (Nat.not_lt.2 hlen), hfull, if_neg Bool.false_ne_true] at hx
        obtain ⟨t, u, ht, only, entry, step, hc, phase⟩ := layerIn_appends hx
        exact ⟨t, u, ht, only, entry, step, hc.layer, hc.outQp, hc.outTag, hc.query, hc.kv, hc.len0, hc.seq0, phase⟩
      · rw [if_pos (by simpa [or_assoc] using bad)]
    · rw [hn, he]; rfl
    · rw [hn]
      dsimp only
      rw [if_neg (by simpa using he), hok]
      rfl

end Sys2Proof.Machine
end

section
/-!
Model slots, rotary tables and re-arming (R148 to R150, R165, R166, R268), and the table images of the token side as their pieces come (R271, R439).
-/
namespace Sys2Proof.Machine

variable {s t u e : State} {m : Msg} {c : Instr}

/-- A command that ends in an answer completes with what it has written by then. -/
theorem does_responds {a : Answer} (hx : exec c s = .next (respond m a u)) (hu : bare u = bare e) (hr : qpReady u m.qp = true)
    (ho : u.out = s.out) : Does c s e [.msg (response m a)] :=
  ⟨_, hx, (bare_respond ..).trans hu, by rw [out_respond hr, ho]⟩

/-- As `does_responds`, for an answer that carries a status alone. -/
theorem does_answers {st : Status} (hx : exec c s = .next (refuse m st u)) (hu : bare u = bare e) (hr : qpReady u m.qp = true)
    (ho : u.out = s.out) : Does c s e [answer m st] := does_responds (a := { status := st }) hx hu hr ho

/-! Model slots. -/

/-- `MODEL_LOAD` of a whole image into one of the 256 slots (R148 to R150). -/
theorem exec_modelLoad (hs : Serves .mailbox m s) (hn : m.ops.length = 1) (whole : m.body.length = 4112) (slot : opNat m 0 ≤ 255) :
    exec (.modelLoad m) s = .next (
      let x := parseModel m.body
      let v := takeMsg m s
      if !modelOk x (ropePairs s) then refuse m .modelInvalid v
      else if slotHeld s (opNat m 0) then holdMsg m v
      else if modelInUse s (opNat m 0) then refuse m .modelInUse v
      else refuse m .ok { v with models := if x.layers = 0 then Tab.drop s.models (opNat m 0) else Tab.put s.models (opNat m 0) x }) := by
  refine (next_request (f := { opcode := 0x0210, on := .mailbox, need := 1, most := 1 }) rfl hs (Nat.le_of_eq hn.symm) (Nat.le_of_eq hn)
    (fun h => nomatch h) (decide_eq_false (by omega))).trans ?_
  dsimp only
  rw [decide_eq_false (Nat.not_lt.2 slot), decide_eq_false (by omega : ¬m.body.length > 4112), Bool.false_or, Bool.false_or]
  rfl

/-- `MODEL_READ` of one of the 256 slots (R148). -/
theorem exec_modelRead (hs : Serves .mailbox m s) (hn : m.ops.length = 1) (slot : opNat m 0 ≤ 255) :
    exec (.modelRead m) s = .next (respond m { body := modelImage (Tab.get s.models (opNat m 0) {}) } (takeMsg m s)) := by
  refine (next_request (f := { opcode := 0x0211, on := .mailbox, need := 1, most := 1 }) rfl hs (Nat.le_of_eq hn.symm) (Nat.le_of_eq hn)
    (fun h => nomatch h) rfl).trans ?_
  rw [if_neg (Nat.not_lt.2 slot)]
  rfl

/-! Rotary tables. -/

/-- A model slot rotates heads by table `k`, and its head dimension is less than twice the pairs of `x` (R165). -/
def pairsTooMany (s : State) (k : Nat) (x : Rope) : Bool :=
  s.models.any (fun e => (e.2.entries.take e.2.layers).any (fun l => l.ropeOn && l.ropeTable == k && headDim e.2 < 2 * x.pairs))

/-- `ROPE_LOAD` of a whole image: it joins the loads, or is refused at its grant (R165, R166). -/
theorem exec_ropeLoad (hs : Serves .mailbox m s) (hn : m.ops.length = 1) (whole : m.body.length = 1032) :
    exec (.ropeLoad m) s = .next (
      let x := parseRope m.body
      let v := takeMsg m s
      if opNat m 0 > 31 || x.pairs > 128 || pairsTooMany s (opNat m 0) x then refuse m .ropeInvalid v
      else { v with
        ropeCount := s.ropeCount + 1
        ropeLoads := s.ropeLoads ++ [{ table := opNat m 0, image := x, qp := m.qp, tag := m.tag, order := s.ropeCount
                                       deadline := now s + ropeLoadWaitMsVal s * 1000000 }] }) := by
  refine (next_request (f := { opcode := 0x0212, on := .mailbox, need := 1, most := 1 }) rfl hs (Nat.le_of_eq hn.symm) (Nat.le_of_eq hn)
    (fun h => nomatch h) (decide_eq_false (by omega))).trans ?_
  dsimp only
  rw [decide_eq_false (by omega : ¬m.body.length > 1032), Bool.or_false]
  rfl

/-- What a rotary load sends when it is answered: nothing where its queue pair is no longer READY. -/
theorem out_answerRope (l : RopeLoad) (st : Status) (s : State) :
    (answerRope l st s).out = s.out ++ if qpReady s l.qp then [.msg { qp := l.qp, opcode := 0x8212, status := st.code, tag := l.tag }] else [] := by
  unfold answerRope
  cases h : qpReady s l.qp with
  | true => exact out_sendMsg h
  | false => rw [sendMsg_idle h]; exact (List.append_nil _).symm

/-- The oldest load of a table is applied once no step in flight uses the table, and steps that waited for it go on (R166). -/
theorem ropeLoad_applies {k : Nat} {l : RopeLoad} (hg : Grants s) (oldest : s.ropeLoads.find? (fun l => l.table == k) = some l)
    (free : ropeUsed s l = false) :
    DoesThen (.ropeLoadApply k) (fun u => touchJobs (retryRope u)) s
      { s with ropes := Tab.put s.ropes k l.image, ropeLoads := s.ropeLoads.erase l }
      (if qpReady s l.qp then [.msg { qp := l.qp, opcode := 0x8212, status := 0, tag := l.tag }] else []) := by
  have hx : exec (.ropeLoadApply k) s = .next _ := next_held rfl hg
  rw [oldest] at hx
  dsimp only at hx
  rw [free] at hx
  exact ⟨_, hx, bare_sendMsg .., out_answerRope ..⟩

theorem ropeLoad_waits {k : Nat} {l : RopeLoad} (hg : Grants s) (oldest : s.ropeLoads.find? (fun l => l.table == k) = some l)
    (used : ropeUsed s l = true) : exec (.ropeLoadApply k) s = .next s := by
  have hx : exec (.ropeLoadApply k) s = .next _ := next_held rfl hg
  rw [oldest] at hx
  dsimp only at hx
  rw [used] at hx
  exact hx

/-- A load whose deadline has passed is given up, and steps that waited for it go on (R166). -/
theorem ropeLoad_timesOut {k : Nat} {l : RopeLoad} (hl : Live s) (due : s.ropeLoads.find? (fun l => l.table == k && l.deadline ≤ now s) = some l) :
    DoesThen (.ropeLoadTimeout k) (fun u => touchJobs (retryRope u)) s { s with ropeLoads := s.ropeLoads.erase l }
      (if qpReady s l.qp then [.msg { qp := l.qp, opcode := 0x8212, status := Status.ropeBusy.code, tag := l.tag }] else []) := by
  have hx : exec (.ropeLoadTimeout k) s = .next _ := next_live rfl hl
  rw [due] at hx
  exact ⟨_, hx, bare_sendMsg .., out_answerRope ..⟩

/-! Contexts. -/

/-- Sessions of a context that are neither FREE nor TOMBSTONE (R268). -/
def contextLives (s : State) (k : Nat) : Bool :=
  s.sessions.any (fun e => e.2.record.context == k && e.2.entry.state != .free && e.2.entry.state != .tombstone)

/-- `CONTEXT_REARM` of a context that there is (R268). -/
theorem exec_contextRearm (hs : Serves .mailbox m s) (hn : m.ops.length = 1) (there : (ctxAt s (opNat m 0)).mode ≠ .none) :
    exec (.contextRearm m) s = .next (
      let v := takeMsg m s
      if contextLives s (opNat m 0) then refuse m .contextBusy v
      else refuse m .ok { v with contexts := Tab.put s.contexts (opNat m 0) { ctxAt s (opNat m 0) with tornDown := false } }) := by
  refine (next_request (f := { opcode := 0x0213, on := .mailbox, need := 1, most := 1 }) rfl hs (Nat.le_of_eq hn.symm) (Nat.le_of_eq hn)
    (fun h => nomatch h) rfl).trans ?_
  dsimp only
  rw [if_neg (by simpa using there)]
  rfl

/-! Table images. -/

/-- Whether a staging image is that of a slot of a kind. -/
def stagesSlot (k : LoadKind) (slot : Nat) (g : Stage) : Bool := g.kind == k && g.slot == slot

/-- What a slot's staging image becomes with a message's piece. -/
def pieced (k : LoadKind) (m : Msg) (s : State) : List Byte :=
  placeBytes (((s.stages.find? (stagesSlot k (opNat m 0))).map (·.data)).getD []) (opNat m 1) m.body

theorem pieced_new {k : LoadKind} (new : s.stages.find? (stagesSlot k (opNat m 0)) = none) :
    pieced k m s = placeBytes [] (opNat m 1) m.body := by unfold pieced; rw [new]; rfl

/-- The state without a slot's staging image. -/
def unstaged (k : LoadKind) (slot : Nat) (s : State) : State := { s with stages := s.stages.filter (fun g => !stagesSlot k slot g) }

/-- A command that loads a piece does so as `k` loads it. -/
def LoadsPiece (c : Instr) (k : LoadKind) (m : Msg) : Prop := ∃ op, ∀ s, exec c s = .next (loadPiece op k m s)

theorem vocabLoad_loads (m : Msg) : LoadsPiece (.vocabLoad m) .vocab m := ⟨0x0301, fun _ => rfl⟩
theorem grammarLoad_loads (m : Msg) : LoadsPiece (.grammarLoad m) .grammar m := ⟨0x0302, fun _ => rfl⟩
theorem listLoad_loads (m : Msg) : LoadsPiece (.listLoad m) .list m := ⟨0x0303, fun _ => rfl⟩

/-- A piece for a slot whose image, if any, is staged from the same queue pair (R271, R439). -/
theorem exec_loadPiece {k : LoadKind} (load : LoadsPiece c k m) (hs : Serves .mailbox m s) (hn : m.ops.length = 3)
    (slot : opNat m 0 < kindSlots k) (own : ∀ g, s.stages.find? (stagesSlot k (opNat m 0)) = some g → g.qp = m.qp) :
    exec c s = .next (
      if bit (opWord m 2) 0 then
        refuse m (commitImage k (opNat m 0) (pieced k m s) (unstaged k (opNat m 0) (takeMsg m s))).1
          (commitImage k (opNat m 0) (pieced k m s) (unstaged k (opNat m 0) (takeMsg m s))).2
      else refuse m .ok { unstaged k (opNat m 0) (takeMsg m s) with
        stages := s.stages.filter (fun g => !stagesSlot k (opNat m 0) g) ++ [{ kind := k, slot := opNat m 0, qp := m.qp, data := pieced k m s, at_ := now s }] }) := by
  obtain ⟨op, load⟩ := load
  refine (next_request (f := { opcode := op, on := .mailbox, need := 3, most := 3 }) (load s) hs (Nat.le_of_eq hn.symm) (Nat.le_of_eq hn)
    (fun h => nomatch h) rfl).trans ?_
  dsimp only
  rw [if_neg (Nat.not_le.2 slot)]
  unfold pieced
  cases old : s.stages.find? (stagesSlot k (opNat m 0)) with
  | none =>
    rw [show (takeMsg m s).stages.find? (fun g => g.kind == k && g.slot == opNat m 0) = none from old]
    rfl
  | some g =>
    rw [show (takeMsg m s).stages.find? (fun g => g.kind == k && g.slot == opNat m 0) = some g from old]
    dsimp only [Option.map_some, Option.getD_some]
    rw [if_neg (by simp [own g old]), own g old]
    rfl

theorem placeBytes_ne_nil {l b : List Byte} (o : Nat) (h : b ≠ []) : placeBytes l o b ≠ [] := by
  unfold placeBytes
  simp [h]

/-! What a commit answers and leaves (R271). -/
section
variable {k : LoadKind} {slot n : Nat} {l : List Byte}

theorem judgeImage_vocab {v : Vocab} (parsed : parseVocab l = some v) (ok : vocabOk v = true) :
    judgeImage .vocab slot l s = some (v.bytes, { s with vocabs := Tab.put s.vocabs slot v }) := by
  unfold judgeImage
  dsimp only
  rw [parsed, Option.bind_some, if_pos ok]
theorem judgeImage_grammar_none (parsed : parseGrammar l = none) : judgeImage .grammar slot l s = none := by
  unfold judgeImage
  dsimp only
  rw [parsed, Option.bind_none]
theorem judgeImage_list {x : SeqList} (parsed : parseList l = some x) :
    judgeImage .list slot l s = some (x.total, { s with lists := Tab.put s.lists slot x }) := by
  unfold judgeImage
  dsimp only
  rw [parsed, Option.map_some]

theorem commitImage_empty : commitImage k slot [] s = if slotInUse s k slot then (kindInUse k, s) else (.ok, clearSlot k slot s) := rfl

theorem commitImage_bad (h : l ≠ []) (bad : judgeImage k slot l s = none) : commitImage k slot l s = (kindInvalid k, s) := by
  unfold commitImage
  rw [List.isEmpty_eq_false_iff.2 h, bad]
  rfl

theorem commitImage_fits (h : l ≠ []) (ok : judgeImage k slot l s = some (n, t)) (room : storeUsed s k slot + n ≤ storeSize k)
    (free : slotInUse s k slot = false) : commitImage k slot l s = (.ok, t) := by
  unfold commitImage
  rw [List.isEmpty_eq_false_iff.2 h, ok]
  dsimp only
  rw [if_neg Bool.false_ne_true, if_neg (Nat.not_lt.2 room), free]
  rfl
end

section
variable {k : LoadKind} (load : LoadsPiece c k m) (hs : Serves .mailbox m s) (hn : m.ops.length = 3) (slot : opNat m 0 < kindSlots k)
include load hs hn slot

/-- A piece that commits nothing is staged (R439). -/
theorem piece_stages (own : ∀ g, s.stages.find? (stagesSlot k (opNat m 0)) = some g → g.qp = m.qp) (more : bit (opWord m 2) 0 = false) :
    Does c s { s with stages := s.stages.filter (fun g => !stagesSlot k (opNat m 0) g) ++
      [{ kind := k, slot := opNat m 0, qp := m.qp, data := pieced k m s, at_ := now s }] } [answer m .ok] := by
  have hx := exec_loadPiece load hs hn slot own
  rw [more] at hx
  exact does_answers hx rfl hs.ready rfl

/-- A piece that commits answers as the image is judged, and its staging image is gone (R271). -/
theorem piece_commits {st : Status} (own : ∀ g, s.stages.find? (stagesSlot k (opNat m 0)) = some g → g.qp = m.qp)
    (last : bit (opWord m 2) 0 = true)
    (judged : commitImage k (opNat m 0) (pieced k m s) (unstaged k (opNat m 0) (takeMsg m s)) = (st, u)) (hu : bare u = bare e)
    (hq : u.qps = s.qps) (ho : u.out = s.out) : Does c s e [answer m st] := by
  have hx := exec_loadPiece load hs hn slot own
  rw [last, judged] at hx
  exact does_answers hx hu ((qpReady_of_qps hq _).trans hs.ready) ho

/-- The commit of an empty image empties its slot, unless a session names it (R271). -/
theorem emptyImage_clears (own : ∀ g, s.stages.find? (stagesSlot k (opNat m 0)) = some g → g.qp = m.qp)
    (last : bit (opWord m 2) 0 = true) (empty : pieced k m s = []) (free : slotInUse s k (opNat m 0) = false) :
    Does c s (clearSlot k (opNat m 0) (unstaged k (opNat m 0) s)) [answer m .ok] := by
  refine piece_commits load hs hn slot own last (u := clearSlot k (opNat m 0) (unstaged k (opNat m 0) (takeMsg m s))) ?_ ?_ ?_ ?_
  · rw [empty, commitImage_empty, show slotInUse (unstaged k (opNat m 0) (takeMsg m s)) k (opNat m 0) = false from free]
    rfl
  all_goals cases k <;> rfl

theorem emptyImage_kept (own : ∀ g, s.stages.find? (stagesSlot k (opNat m 0)) = some g → g.qp = m.qp)
    (last : bit (opWord m 2) 0 = true) (empty : pieced k m s = []) (used : slotInUse s k (opNat m 0) = true) :
    Does c s (unstaged k (opNat m 0) s) [answer m (kindInUse k)] := by
  refine piece_commits load hs hn slot own last (u := unstaged k (opNat m 0) (takeMsg m s)) ?_ rfl rfl rfl
  rw [empty, commitImage_empty, show slotInUse (unstaged k (opNat m 0) (takeMsg m s)) k (opNat m 0) = true from used]
  rfl

/-! An image that comes in one piece. -/
variable (new : s.stages.find? (stagesSlot k (opNat m 0)) = none)
include new

/-- An image that passes its checks and has room is installed (R271). -/
theorem image_installs {n : Nat} (last : bit (opWord m 2) 0 = true) (some_ : m.body ≠ [])
    (ok : judgeImage k (opNat m 0) (placeBytes [] (opNat m 1) m.body) (unstaged k (opNat m 0) (takeMsg m s)) = some (n, u))
    (room : storeUsed s k (opNat m 0) + n ≤ storeSize k) (free : slotInUse s k (opNat m 0) = false) (hu : bare u = bare e)
    (hq : u.qps = s.qps) (ho : u.out = s.out) : Does c s e [answer m .ok] := by
  refine piece_commits load hs hn slot (fun g h => nomatch h.symm.trans new) last ?_ hu hq ho
  rw [pieced_new new]
  exact commitImage_fits (placeBytes_ne_nil _ some_) ok (by cases k <;> exact room) free

/-- An image that fails them is not (R271). -/
theorem image_refused (last : bit (opWord m 2) 0 = true) (some_ : m.body ≠ [])
    (bad : judgeImage k (opNat m 0) (placeBytes [] (opNat m 1) m.body) (unstaged k (opNat m 0) (takeMsg m s)) = none) :
    Does c s (unstaged k (opNat m 0) s) [answer m (kindInvalid k)] := by
  refine piece_commits load hs hn slot (fun g h => nomatch h.symm.trans new) last (u := unstaged k (opNat m 0) (takeMsg m s)) ?_ rfl rfl rfl
  rw [pieced_new new]
  exact commitImage_bad (placeBytes_ne_nil _ some_) bad
end

/-- Settles O6: each command and each engine's event is the one case of its meaning that the clause's conditions choose; a table image's piece is
the same for the three kinds. -/
theorem tablesAndImagesAreLoaded : Obligations.TablesAndImagesAreLoaded := by
  unfold Obligations.TablesAndImagesAreLoaded
  refine ⟨⟨fun m s hs hn whole slot => ?_, fun m s hs hn slot => does_responds (exec_modelRead hs hn slot) rfl hs.ready rfl,
    fun m s hs hn whole => ?_, fun k l s hg oldest => ⟨ropeLoad_applies hg oldest, ropeLoad_waits hg oldest⟩,
    fun k l s hl due => ropeLoad_timesOut hl due, fun m s hs hn there => ?_⟩,
    fun k m s hs hn slot => ?_, fun m s v hs hn slot last body new parsed ok room free => ?_, fun m s hs hn slot last body new parsed => ?_,
    fun m s x hs hn slot last body new parsed room free => ?_, fun k slot s hl => ?_⟩
  · intro x held
    have hx := exec_modelLoad hs hn whole slot
    dsimp only at hx
    refine ⟨fun ok free => ?_, fun ok used => ?_, fun bad => ?_⟩
    · rw [ok, held, free] at hx
      exact does_answers hx rfl hs.ready rfl
    · rw [ok, held, used] at hx
      exact does_answers hx rfl hs.ready rfl
    · rw [bad] at hx
      exact does_answers hx rfl hs.ready rfl
  · intro x small
    have hx := exec_ropeLoad hs hn whole
    dsimp only at hx
    refine ⟨fun table pairs fit => ?_, fun bad => ?_⟩
    · rw [decide_eq_false (Nat.not_lt.2 table), decide_eq_false (Nat.not_lt.2 pairs), show pairsTooMany s (opNat m 0) x = false from fit] at hx
      exact ⟨_, hx, rfl, (List.append_nil _).symm⟩
    · have bad : 31 < opNat m 0 ∨ 128 < (parseRope m.body).pairs ∨ pairsTooMany s (opNat m 0) (parseRope m.body) = true := bad
      rw [if_pos (by simpa [or_assoc] using bad)] at hx
      exact does_answers hx rfl hs.ready rfl
  · intro live
    have hx := exec_contextRearm hs hn there
    dsimp only at hx
    refine ⟨fun h => ?_, fun h => ?_⟩
    · rw [show contextLives s (opNat m 0) = false from h] at hx
      exact does_answers hx rfl hs.ready rfl
    · rw [show contextLives s (opNat m 0) = true from h] at hx
      exact does_answers hx rfl hs.ready rfl
  · intro load mine old data rest own
    have hl : LoadsPiece load k m := by
      cases k with
      | vocab => exact vocabLoad_loads m
      | grammar => exact grammarLoad_loads m
      | list => exact listLoad_loads m
    exact ⟨piece_stages hl hs hn slot own, emptyImage_clears hl hs hn slot own, emptyImage_kept hl hs hn slot own⟩
  · exact image_installs (vocabLoad_loads m) hs hn slot new last body (judgeImage_vocab parsed ok) room free rfl rfl rfl
  · exact image_refused (grammarLoad_loads m) hs hn slot new last body (judgeImage_grammar_none parsed)
  · exact image_installs (listLoad_loads m) hs hn slot new last body (judgeImage_list parsed) room free rfl rfl rfl
  · exact ⟨_, next_live rfl hl, rfl, (List.append_nil _).symm⟩

end Sys2Proof.Machine
end

section
/-!
Merges under way: what advancing one that is not yet complete leaves of it and of everything else (before R208, R211, R212).
-/
namespace Sys2Proof.Machine

variable {s t u : State} {m g k : Merge} {tag : Nat}

/-- A merge that has gone on without accepting anything: its pass, head group, frontier and what it has sent may differ. -/
def Underway (m g : Merge) : Prop := g = { m with pass := g.pass, eta := g.eta, frontier := g.frontier, sent := g.sent }

theorem Underway.refl (m : Merge) : Underway m m := rfl
theorem Underway.trans (h : Underway m g) (h' : Underway g k) : Underway m k := by
  unfold Underway at *
  rw [h'.trans (congrArg (fun x : Merge => { x with pass := k.pass, eta := k.eta, frontier := k.frontier, sent := k.sent }) h)]

theorem advancePair_underway (heads g : Nat) : ∀ (f : Nat) (m : Merge), Underway m (advancePair heads g f m)
  | 0, m => .refl m
  | f + 1, m => by
    simp only [advancePair]
    split
    · exact rfl
    · split
      · exact Underway.trans (g := { m with eta := m.eta + 1, frontier := 0 }) rfl (advancePair_underway heads g f _)
      · split
        · exact Underway.trans (g := { m with pass := m.pass + 1, eta := 0, frontier := 0 }) rfl (advancePair_underway heads g f _)
        · exact rfl

section
variable (h : Underway m g)
include h
theorem Underway.index : g.index = m.index := by rw [h]
theorem Underway.catcher : g.catcher = m.catcher := by rw [h]
theorem Underway.layer : g.layer = m.layer := by rw [h]
theorem Underway.job : g.job = m.job := by rw [h]
theorem Underway.todo : g.todo = m.todo := by rw [h]
theorem Underway.leaves : g.leaves = m.leaves := by rw [h]
theorem Underway.blocks : g.blocks = m.blocks := by rw [h]
theorem Underway.segNodes : g.segNodes = m.segNodes := by rw [h]
theorem Underway.homeFrontier : g.homeFrontier = m.homeFrontier := by rw [h]
theorem Underway.mergeComplete (s : State) : mergeComplete s g = mergeComplete s m := by rw [h]; rfl
end

/-- Whether a merge is complete depends on its session's model slot alone. -/
theorem Quiet.sessShape (h : Quiet s t) (i : Nat) : sessShape t i = sessShape s i := by
  unfold Machine.sessShape
  rw [h.modelOf]
  unfold modelOf
  rw [h.modelSlot]
theorem Quiet.mergeComplete (h : Quiet s t) (m : Merge) : mergeComplete t m = mergeComplete s m := by
  unfold Machine.mergeComplete
  rw [h.sessShape]

/-- A state without its merges and what answering, counting and tracing write. -/
def besideMerges (s : State) : State := { bare s with merges := [] }

/-- Merge `tag` has gone on to `g`; beside it only what answering, counting and tracing write has changed, and links are in their states. -/
structure Advances (tag : Nat) (g : Merge) (s t : State) : Prop extends SameLinks s t where
  beside : besideMerges t = besideMerges s
  found : Tab.find t.merges tag = some g
  others : ∀ k, k ≠ tag → Tab.find t.merges k = Tab.find s.merges k

section
variable (h : Advances tag g s t)
include h
theorem Advances.sessions : t.sessions = s.sessions := by
  have e := congrArg State.sessions h.beside
  exact e
theorem Advances.mergeTag : t.mergeTag = s.mergeTag := by
  have e := congrArg State.mergeTag h.beside
  exact e
theorem Advances.sessAt (i : Nat) : sessAt t i = sessAt s i := by unfold Machine.sessAt; rw [h.sessions]
theorem Advances.quiet : Quiet s t := by
  refine ⟨⟨h.toSameLinks, ?_⟩, fun j => by rw [h.sessAt]⟩
  have e := congrArg aside h.beside
  exact e
theorem Advances.trans (h' : Advances tag k t u) : Advances tag k s u :=
  ⟨h.toSameLinks.trans h'.toSameLinks, h'.beside.trans h.beside, h'.found, fun n hn => (h'.others n hn).trans (h.others n hn)⟩
end

theorem advances_setMerge (tag : Nat) (g : Merge) (s : State) : Advances tag g s (setMerge tag g s) :=
  ⟨sameLinks_of_fields rfl rfl, rfl, Tab.find_put_self .., fun k hk => by
    unfold setMerge
    dsimp only
    rw [Tab.find_put, if_neg (Ne.symm hk)]⟩

theorem merges_of_bare (h : bare t = bare s) : t.merges = s.merges := by
  have e := congrArg State.merges h
  exact e

/-- What only sends, counts and traces keeps a merge where it is. -/
theorem advances_of_bare (hb : bare t = bare s) (hl : SameLinks s t) (h : Tab.find s.merges tag = some g) : Advances tag g s t :=
  ⟨hl, congrArg (fun u : State => { u with merges := [] }) hb, by rw [merges_of_bare hb, h], fun k _ => by rw [merges_of_bare hb]⟩

/-! Segment partials that a ring member sends (R211, R212). -/

/-- What sending segment partials has left of a merge and of the state. -/
structure Sends (m : Merge) (s : State) (a : Merge × State) : Prop extends SameLinks s a.2 where
  merge : Underway m a.1
  state : bare a.2 = bare s

theorem bare_sendSegment (m : Merge) (home tag head j : Nat) (v : Partial) (s : State) : bare (sendSegment m home tag head j v s) = bare s :=
  bare_sendPeer ..
theorem sameLinks_sendSegment (m : Merge) (home tag head j : Nat) (v : Partial) (s : State) : SameLinks s (sendSegment m home tag head j v s) :=
  sameLinks_sendPeer ..

theorem sends_sendSegmentHeads {home n j : Nat} {heads : List Nat} {a : Merge × State} (h : Sends m s a) :
    Sends m s (sendSegmentHeads home n j heads a.1 a.2).2 := by
  unfold sendSegmentHeads
  refine List.foldlRecOn (motive := fun b : Bool × Merge × State => Sends m s b.2) heads _ h (fun b hb hd _ => ?_)
  split
  · exact hb
  · dsimp only
    split
    · exact ⟨hb.toSameLinks.trans (sameLinks_sendSegment ..), hb.merge.trans rfl, (bare_sendSegment ..).trans hb.state⟩
    · exact hb

/-- Sending the segment partials that are ready changes nothing of a merge but what it has sent. -/
theorem sendSegments_advances (h : Tab.find s.merges tag = some m) : ∃ g, Underway m g ∧ Advances tag g s (sendSegments tag s) := by
  unfold sendSegments
  rw [h]
  dsimp only
  split
  · exact ⟨m, .refl m, advances_of_bare rfl (.refl s) h⟩
  · rename_i home n _
    split
    · exact ⟨m, .refl m, advances_of_bare rfl (.refl s) h⟩
    · have hs : Sends m s (true, m, s).2 := ⟨.refl s, .refl m, rfl⟩
      have ha := List.foldlRecOn (motive := fun b : Bool × Merge × State => Sends m s b.2) (ownSegments s m)
        (fun a j => if a.1 then
          sendSegmentHeads home n j ((List.range (min m.hg ((sessShape s m.index).heads - m.eta * m.hg))).map (m.eta * m.hg + ·)) a.2.1 a.2.2
          else a)
        hs (fun b hb j _ => by
          split
          · exact sends_sendSegmentHeads hb
          · exact hb)
      exact ⟨_, ha.merge, (advances_of_bare ha.state ha.toSameLinks h).trans (advances_setMerge ..)⟩

/-! Advancing. -/

/-- A merge goes through its passes and head groups while the current ones are accepted whole (before R208). -/
def goesOn (tag heads : Nat) (s : State) : State :=
  match Tab.find s.merges tag with
  | none => s
  | some m => setMerge tag (advancePair heads (mergeSegment s m) (heads * (m.count + 1)) m) (sendSegments tag s)

theorem goesOn_advances {heads : Nat} (h : Tab.find s.merges tag = some m) : ∃ g, Underway m g ∧ Advances tag g s (goesOn tag heads s) := by
  obtain ⟨g, _, ha⟩ := sendSegments_advances h
  unfold goesOn
  rw [h]
  exact ⟨_, advancePair_underway .., ha.trans (advances_setMerge ..)⟩

/-- A merge as far as it can go. -/
def wentOn (tag : Nat) (m : Merge) (s : State) : State :=
  (List.range (sessShape s m.index).heads).foldl (fun u _ => goesOn tag (sessShape s m.index).heads u) (sendSegments tag s)

theorem wentOn_advances (h : Tab.find s.merges tag = some m) : ∃ g, Underway m g ∧ Advances tag g s (wentOn tag m s) := by
  refine List.foldlRecOn (motive := fun u : State => ∃ g, Underway m g ∧ Advances tag g s u) _ _ (sendSegments_advances h) ?_
  rintro u ⟨g, hg, ha⟩ _ _
  obtain ⟨k, hk, hb⟩ := goesOn_advances (heads := (sessShape s m.index).heads) ha.found
  exact ⟨k, hg.trans hk, ha.trans hb⟩

/-- A merge that is still not complete then stays open. -/
theorem advanceMerge_open (h : Tab.find s.merges tag = some m) (found : Tab.find (wentOn tag m s).merges tag = some g)
    (open_ : mergeComplete (wentOn tag m s) g = false) : advanceMerge tag s = wentOn tag m s := by
  unfold advanceMerge
  rw [h]
  change (match Tab.find (wentOn tag m s).merges tag with
    | none => _
    | some k => if !mergeComplete (wentOn tag m s) k then wentOn tag m s else _) = _
  rw [found]
  dsimp only
  rw [open_]
  rfl

/-- A merge that is not complete goes on, and stays open. -/
theorem advanceMerge_incomplete (h : Tab.find s.merges tag = some m) (open_ : mergeComplete s m = false) :
    ∃ g, Underway m g ∧ Advances tag g s (advanceMerge tag s) := by
  obtain ⟨g, hg, ha⟩ := wentOn_advances h
  have still : mergeComplete (wentOn tag m s) g = false := by rw [ha.quiet.mergeComplete, hg.mergeComplete, open_]
  rw [advanceMerge_open h ha.found still]
  exact ⟨g, hg, ha⟩

end Sys2Proof.Machine
end

section
/-!
Fielders and catchers: a partial leaves an emitter for its catcher's input buffer (R171, R213 to R215), and what that leaves alone.
-/
namespace Sys2Proof.Machine

variable {s t u : State}

theorem Tab.find_of_mem {α : Type} {k : Nat} {a : α} : ∀ {l : Tab α}, Tab.rising l = true → (k, a) ∈ l → Tab.find l k = some a
  | (i, b) :: l, h, he => by
    unfold Tab.find
    rcases List.mem_cons.1 he with e | he
    · cases e; exact if_pos rfl
    · rw [if_neg (Nat.ne_of_lt (Tab.rising_lt h _ he))]
      exact Tab.find_of_mem (Tab.rising_tail h) he

theorem Tab.find_drop_ne {α : Type} {k j : Nat} (h : k ≠ j) (l : Tab α) : Tab.find (Tab.drop l k) j = Tab.find l j := by
  unfold Tab.drop
  induction l with
  | nil => rfl
  | cons e l ih =>
    obtain ⟨i, a⟩ := e
    rw [List.filter_cons]
    split
    · unfold Tab.find
      rw [ih]
    · rename_i hi
      have hi : i = k := by simpa using hi
      rw [ih, Tab.find, if_neg (hi ▸ h)]

@[simp] theorem fielderAt_setFielder (f : Nat) (x : Fielder) (s : State) : fielderAt (setFielder f x s) f = x := by
  unfold fielderAt setFielder
  dsimp only
  split
  · rename_i h
    unfold Tab.get
    rw [Tab.find_drop_self]
    exact (beq_iff_eq.1 h).symm
  · exact Tab.get_put_self ..
theorem fielderAt_setFielder_ne {f k : Nat} (h : f ≠ k) (x : Fielder) (s : State) : fielderAt (setFielder f x s) k = fielderAt s k := by
  unfold fielderAt setFielder
  dsimp only
  split
  · unfold Tab.get
    rw [Tab.find_drop_ne h]
  · exact Tab.get_put_ne h ..
@[simp] theorem catcherAt_setCatcher (c : Nat) (x : Catcher) (s : State) : catcherAt (setCatcher c x s) c = x := by
  unfold catcherAt setCatcher
  dsimp only
  split
  · rename_i h
    unfold Tab.get
    rw [Tab.find_drop_self]
    exact (beq_iff_eq.1 h).symm
  · exact Tab.get_put_self ..
theorem rising_setFielder (f : Nat) (x : Fielder) (h : Tab.rising s.fielders = true) : Tab.rising (setFielder f x s).fielders = true := by
  unfold setFielder
  dsimp only
  split
  · exact Tab.rising_filter _ h
  · exact Tab.rising_put h

/-! A catcher takes what waits in emitters for it. -/

/-- Fielder `f`, which was `y`, has handed its oldest partial `p` to catcher `c`. -/
def handed (c f : Nat) (y : Fielder) (p : Emitted) (rest : List Emitted) (s : State) : State :=
  setCatcher c { catcherAt s c with input := (catcherAt s c).input ++ [p] } (setFielder f { y with emitter := rest } s)

/-- What each hand-over keeps, pumping keeps. -/
theorem pumpCatcher_keeps {P : State → Prop} {c : Nat}
    (h : ∀ s f y p rest, (f, y) ∈ s.fielders → y.emitter = p :: rest → P s → P (handed c f y p rest s)) :
    ∀ (n : Nat) (s : State), P s → P (pumpCatcher c n s)
  | 0, _, hs => hs
  | n + 1, s, hs => by
    simp only [pumpCatcher]
    split
    · exact hs
    · split
      · exact hs
      · rename_i f y found
        split
        · exact hs
        · rename_i p rest he
          exact pumpCatcher_keeps h n _ (h s f y p rest (List.mem_of_find?_eq_some found) he hs)

theorem quiet_setFielder (f : Nat) (x : Fielder) (s : State) : Quiet s (setFielder f x s) := quiet_of_fields rfl rfl rfl rfl
theorem quiet_setCatcher (c : Nat) (x : Catcher) (s : State) : Quiet s (setCatcher c x s) := quiet_of_fields rfl rfl rfl rfl
theorem quiet_pumpCatcher (c n : Nat) (s : State) : Quiet s (pumpCatcher c n s) :=
  pumpCatcher_keeps (P := Quiet s) (fun _ _ _ _ _ _ _ h => h.trans ((quiet_setCatcher ..).after (quiet_setFielder ..))) n s (.refl s)
@[simp] theorem out_pumpCatcher (c n : Nat) (s : State) : (pumpCatcher c n s).out = s.out :=
  pumpCatcher_keeps (P := fun t => t.out = s.out) (fun _ _ _ _ _ _ _ h => h) n s rfl
@[simp] theorem merges_pumpCatcher (c n : Nat) (s : State) : (pumpCatcher c n s).merges = s.merges :=
  pumpCatcher_keeps (P := fun t => t.merges = s.merges) (fun _ _ _ _ _ _ _ h => h) n s rfl

/-- A partial is on its way from fielder `f` to catcher `c`: in the emitter of the one or in the input buffer of the other. -/
def OnItsWay (p : Emitted) (f c : Nat) (s : State) : Prop := p ∈ (fielderAt s f).emitter ++ (catcherAt s c).input

theorem onItsWay_handed {p q : Emitted} {f g c : Nat} {y : Fielder} {rest : List Emitted} (rise : Tab.rising s.fielders = true)
    (listed : (g, y) ∈ s.fielders) (he : y.emitter = q :: rest) (h : OnItsWay p f c s) : OnItsWay p f c (handed c g y q rest s) := by
  have hi : (catcherAt (handed c g y q rest s) c).input = (catcherAt s c).input ++ [q] := by unfold handed; rw [catcherAt_setCatcher]
  unfold OnItsWay at *
  rw [hi]
  rcases List.mem_append.1 h with h | h
  · by_cases e : g = f
    · subst e
      have hy : fielderAt s g = y := by
        unfold fielderAt Tab.get
        rw [Tab.find_of_mem rise listed]
        rfl
      have hf : fielderAt (handed c g y q rest s) g = { y with emitter := rest } := fielderAt_setFielder ..
      rw [hf]
      rw [hy, he] at h
      rcases List.mem_cons.1 h with rfl | h
      · simp
      · simp [h]
    · have hf : fielderAt (handed c g y q rest s) f = fielderAt s f := fielderAt_setFielder_ne e ..
      rw [hf]
      simp [h]
  · simp [h]

theorem onItsWay_pumpCatcher {p : Emitted} {f c : Nat} (n : Nat) (rise : Tab.rising s.fielders = true) (h : OnItsWay p f c s) :
    OnItsWay p f c (pumpCatcher c n s) :=
  (pumpCatcher_keeps (P := fun t => Tab.rising t.fielders = true ∧ OnItsWay p f c t)
    (fun _ _ _ _ _ listed he h => ⟨rising_setFielder _ _ h.1, onItsWay_handed h.1 listed he h.2⟩) n s ⟨rise, h⟩).2

/-! A fielder emits a partial. -/
theorem fielders_of_bare (h : bare t = bare s) : t.fielders = s.fielders := by
  have e := congrArg State.fielders h
  exact e
theorem catchers_of_bare (h : bare t = bare s) : t.catchers = s.catchers := by
  have e := congrArg State.catchers h
  exact e

/-- The state in which a fielder has its new partial in its emitter, traced. -/
def emitted (f : Nat) (p : Emitted) (s : State) : State :=
  let x := sessAt s p.index
  pmu { code := 0x05, priv := .context x.record.context, requester := some f, svc := some x.record.cls }
    (bump ctrPartialsEmitted (setFielder f { fielderAt s f with emitter := (fielderAt s f).emitter ++ [p], waiting := none } s))

section
variable (f : Nat) (p : Emitted) (s : State)
theorem emitPartial_eq : emitPartial f p s = pumpCatcher p.catcher 1088 (emitted f p s) := rfl
theorem bare_emitted : bare (emitted f p s) =
    bare (setFielder f { fielderAt s f with emitter := (fielderAt s f).emitter ++ [p], waiting := none } s) := bare_pmu ..
theorem quiet_emitPartial : Quiet s (emitPartial f p s) :=
  (quiet_pumpCatcher ..).after ((quiet_pmu ..).after ((quiet_bump ..).after (quiet_setFielder ..)))
@[simp] theorem out_emitPartial : (emitPartial f p s).out = s.out := by
  rw [emitPartial_eq, out_pumpCatcher]
  exact out_pmu ..
@[simp] theorem merges_emitPartial : (emitPartial f p s).merges = s.merges := by
  rw [emitPartial_eq, merges_pumpCatcher, merges_of_bare (bare_emitted ..)]
  rfl

/-- The partial that a fielder emits is on its way to its catcher (R171, R215). -/
theorem emitPartial_onItsWay (rise : Tab.rising s.fielders = true) : OnItsWay p f p.catcher (emitPartial f p s) := by
  rw [emitPartial_eq]
  have hf := fielders_of_bare (bare_emitted f p s)
  refine onItsWay_pumpCatcher _ ?_ ?_
  · rw [hf]; exact rising_setFielder _ _ rise
  · refine List.mem_append_left _ ?_
    have he : fielderAt (emitted f p s) f = { fielderAt s f with emitter := (fielderAt s f).emitter ++ [p], waiting := none } :=
      (congrArg (fun l : Tab Fielder => Tab.get l f {}) hf).trans (fielderAt_setFielder f _ s)
    rw [he]
    simp
end

/-! What frees a frame leaves merges, fielders and catchers alone, and sends nothing. -/

/-- Merges, fielders and catchers are the same, and nothing has been sent. -/
structure SameEngines (s t : State) : Prop where
  merges : t.merges = s.merges
  fielders : t.fielders = s.fielders
  catchers : t.catchers = s.catchers
  out : t.out = s.out

theorem SameEngines.refl (s : State) : SameEngines s s := ⟨rfl, rfl, rfl, rfl⟩
theorem SameEngines.trans (h : SameEngines s t) (g : SameEngines t u) : SameEngines s u :=
  ⟨g.merges.trans h.merges, g.fielders.trans h.fielders, g.catchers.trans h.catchers, g.out.trans h.out⟩
theorem SameEngines.onItsWay (h : SameEngines s t) {p : Emitted} {f c : Nat} (g : OnItsWay p f c s) : OnItsWay p f c t := by
  unfold OnItsWay fielderAt catcherAt
  rw [h.fielders, h.catchers]
  exact g
theorem sameEngines_of_bare (h : bare t = bare s) (ho : t.out = s.out) : SameEngines s t :=
  ⟨merges_of_bare h, fielders_of_bare h, catchers_of_bare h, ho⟩

theorem sameEngines_sealFrame (f : Nat) (k : List Byte) (s : State) : SameEngines s (sealFrame f k s) :=
  List.foldlRecOn (motive := SameEngines s) _ _ (.refl s) (fun _ h _ _ => h.trans ⟨rfl, rfl, rfl, rfl⟩)
theorem sameEngines_freeFrame (f : Nat) (s : State) : SameEngines s (freeFrame f s) := by
  unfold freeFrame
  dsimp only
  split
  · exact .refl s
  · split
    · exact ⟨rfl, rfl, rfl, rfl⟩
    · refine SameEngines.trans (t := if _ then _ else s) ?_ ⟨rfl, rfl, rfl, rfl⟩
      split
      · exact sameEngines_sealFrame ..
      · exact .refl s
theorem sameEngines_dropRef (f : Nat) (s : State) : SameEngines s (dropRef f s) := by
  unfold dropRef
  dsimp only
  split
  · exact ⟨rfl, rfl, rfl, rfl⟩
  · split
    · exact SameEngines.trans (t := { s with fills := Tab.drop s.fills f }) ⟨rfl, rfl, rfl, rfl⟩ (sameEngines_freeFrame ..)
    · exact ⟨rfl, rfl, rfl, rfl⟩
theorem sameEngines_dropPass (i : Nat) (drop : Nat → Bool) (s : State) : SameEngines s (dropPass i drop s) := by
  unfold dropPass
  exact SameEngines.trans (t := ((sessAt s i).passPages.filter (fun e => drop e.1)).foldl (fun t e => dropRef e.2 t) s)
    (List.foldlRecOn (motive := SameEngines s) _ _ (.refl s) (fun _ h _ _ => h.trans (sameEngines_dropRef ..))) ⟨rfl, rfl, rfl, rfl⟩
theorem sameEngines_sweepPass (m : Merge) (u : WorkUnit) (s : State) : SameEngines s (sweepPass m u s) := by
  unfold sweepPass
  split
  · exact .refl s
  · exact sameEngines_dropPass ..
theorem quiet_sweepPass (m : Merge) (u : WorkUnit) (s : State) : Quiet s (sweepPass m u s) := by
  unfold sweepPass
  split
  · exact .refl s
  · exact quiet_dropPass ..

end Sys2Proof.Machine
end

section
/-!
Merges open under the next tag (R204 to R207, R262), and units of work become partials (R171, R184, R209, R215).
-/
namespace Sys2Proof.Machine

variable {s t u : State} {i : Nat} {st : Step} {b : QBlock} {g : Merge}

/-! `MERGE_OPEN`. -/

/-- The tag of the next merge (R206). -/
def followingTag (s : State) : Nat := (s.mergeTag + 1) % 2 ^ 32

/-- Merge `g` of session `i` opens under the next tag, nothing accepted, and nothing else changes. -/
structure Opened (i layer job : Nat) (g : Merge) (s u : State) : Prop where
  quiet : Quiet s u
  sessions : u.sessions = s.sessions
  out : u.out = s.out
  tag : u.mergeTag = followingTag s
  found : Tab.find u.merges u.mergeTag = some g
  others : ∀ k, k ≠ u.mergeTag → Tab.find u.merges k = Tab.find s.merges k
  index : g.index = i
  layer : g.layer = layer
  job : g.job = job
  leaves : g.leaves = []

theorem openMerge_opens {layer job first : Nat} {prefill : Bool} {qs : List Nat} {query : List Byte} {home : Option (Nat × Nat)}
    (h : openMerge i layer job prefill first qs query home s = some u) : ∃ g, Opened i layer job g s u := by
  unfold openMerge at h
  dsimp only at h
  split at h
  · cases h
  · cases h
    exact ⟨_, quiet_of_fields rfl rfl rfl rfl, rfl, rfl, rfl, Tab.find_put_self .., fun k hk => (Tab.find_put ..).trans (if_neg (Ne.symm hk)),
      rfl, rfl, rfl, rfl⟩

theorem bare_askRing (i tag : Nat) (m : Merge) (s : State) : bare (askRing i tag m s) = bare s := bare_foldl (fun _ _ => bare_sendPeer ..) _ s
theorem sameLinks_askRing (i tag : Nat) (m : Merge) (s : State) : SameLinks s (askRing i tag m s) :=
  List.foldlRecOn (motive := SameLinks s) _ _ (.refl s) (fun _ h _ _ => h.trans (sameLinks_sendPeer ..))

/-- Dispatch opens the merge of a layer that is ready. -/
theorem exec_mergeOpen_step (hg : Grants s) (alone : mergeOf s i = none) (h : (sessAt s i).step = some st) (hp : st.phase = .ready) :
    exec (.mergeOpen i) s = .next (touchJobs (openStepMerge i st s)) := by
  refine (next_held rfl hg).trans ?_
  rw [alone]
  dsimp only
  rw [h, Option.filter_some, if_pos (beq_iff_eq.2 hp)]
  rfl

/-- Dispatch opens the merge of a query block that is ready where no layer is. -/
theorem exec_mergeOpen_block (hg : Grants s) (alone : mergeOf s i = none) (idle : ∀ st, (sessAt s i).step = some st → st.phase ≠ .ready)
    (h : (sessAt s i).qblock = some b) (hp : b.phase = .ready) :
    exec (.mergeOpen i) s = .next (touchJobs (openBlockMerge i b s)) := by
  have hn : (sessAt s i).step.filter (·.phase == .ready) = none := by
    rw [Option.filter_eq_none_iff]
    exact fun st hst => by simpa using idle st hst
  refine (next_held rfl hg).trans ?_
  rw [alone]
  dsimp only
  rw [hn, h, Option.filter_some, if_pos (beq_iff_eq.2 hp)]
  rfl

/-- Session `i`'s step is MERGING. -/
def stepMerging (i : Nat) (st : Step) (s : State) : State :=
  modSess i (fun x => { x with step := some { st with phase := .merging, mergeWaited := false } }) s

section
variable (issues : jobIssues s st.job = true) (there : layerThere s i st.layer = true)
include issues there

theorem openStepMerge_opens (h : openMerge i st.layer st.job false st.len0 [st.len0] st.query none s = some u)
    (hu : Tab.find u.merges u.mergeTag = some g) :
    openStepMerge i st s = advanceMerge u.mergeTag (askRing i u.mergeTag g (stepMerging i st u)) := by
  unfold openStepMerge
  rw [issues, there, h]
  change (match Tab.find u.merges u.mergeTag with | some m => _ | none => _) = _
  rw [hu]
  rfl

theorem openStepMerge_waits (h : openMerge i st.layer st.job false st.len0 [st.len0] st.query none s = none) :
    openStepMerge i st s =
      waitMerge st.mergeWaited (modSess i (fun x => { x with step := some { st with mergeWaited := true } }) s) := by
  unfold openStepMerge
  rw [issues, there, h]
  rfl
end

/-- A layer's merge that waits for a catcher has opened nothing (R205). -/
theorem mergeOpen_waits (hx : exec (.mergeOpen i) s = .next (touchJobs (waitMerge st.mergeWaited
      (modSess i (fun x => { x with step := some { st with mergeWaited := true } }) s)))) :
    Does (.mergeOpen i) s
      (touchJobs { s with sessions := Tab.put s.sessions i { sessAt s i with step := some { st with mergeWaited := true } } }) [] := by
  refine ⟨_, hx, ?_, ?_⟩ <;> unfold waitMerge <;> split
  · rfl
  · rfl
  · exact (List.append_nil _).symm
  · exact (List.append_nil _).symm

/-- A merge that has just opened asks the ring's members and goes on; nothing of it has been accepted (R460). -/
theorem askedMerge_advances {tag : Nat} (found : Tab.find s.merges tag = some g) (open_ : mergeComplete s g = false) :
    ∃ g', Underway g g' ∧ Advances tag g' s (advanceMerge tag (askRing i tag g s)) := by
  have asked : Advances tag g s (askRing i tag g s) := advances_of_bare (bare_askRing ..) (sameLinks_askRing ..) found
  obtain ⟨g', under, ha⟩ := advanceMerge_incomplete asked.found ((asked.quiet.mergeComplete g).trans open_)
  exact ⟨g', under, asked.trans ha⟩

/-- A layer's merge that opens leaves its session's step MERGING and every other merge as it was. -/
theorem mergeOpen_opens (hx : exec (.mergeOpen i) s = .next (touchJobs (openStepMerge i st s)))
    (issues : jobIssues s st.job = true) (there : layerThere s i st.layer = true)
    (h : openMerge i st.layer st.job false st.len0 [st.len0] st.query none s = some u)
    (ho : Opened i st.layer st.job g s u) (open_ : mergeComplete u g = false) :
    ∃ t g', exec (.mergeOpen i) s = .next t ∧ Only i s t ∧ t.mergeTag = followingTag s ∧
      (sessAt t i).step = some { st with phase := .merging, mergeWaited := false } ∧ Tab.find t.merges t.mergeTag = some g' ∧
      Underway g g' ∧ (∀ k, k ≠ t.mergeTag → Tab.find t.merges k = Tab.find s.merges k) := by
  have sent : s.out <+: _ := ((execMergeOpen_ord (.refl s)).at_ _ hx).1.sent
  rw [openStepMerge_opens issues there h ho.found] at hx sent
  have step : (sessAt (stepMerging i st u) i).step = some { st with phase := .merging, mergeWaited := false } :=
    congrArg Session.step (sessAt_modSess ..)
  have hv : Quiet u (stepMerging i st u) := quiet_modSess (fun _ => rfl)
  obtain ⟨g', under, ha⟩ := askedMerge_advances (i := i) (s := stepMerging i st u) ho.found ((hv.mergeComplete g).trans open_)
  generalize advanceMerge u.mergeTag (askRing i u.mergeTag g (stepMerging i st u)) = w at hx sent ha
  have tag : w.mergeTag = u.mergeTag := ha.mergeTag
  refine ⟨_, g', hx, (((ho.quiet.trans (hv.trans ha.quiet)).trans (quiet_touchJobs w)).beside i).only sent, tag.trans ho.tag, ?_, ?_, under, ?_⟩
  · exact (congrArg Session.step (ha.sessAt i)).trans step
  · exact (congrArg (Tab.find w.merges) tag).trans ha.found
  · intro n hn
    have hn : n ≠ u.mergeTag := fun e => hn (e.trans tag.symm)
    exact (ha.others n hn).trans (ho.others n hn)

/-- The offsets of a query block's positions that this module holds (R179). -/
def heldOffsets (i : Nat) (b : QBlock) (s : State) : List Nat :=
  (List.range b.count).filter (fun o => holdsPos s (sessAt s i).entry.partition (b.first + o))

/-- The queries of those positions. -/
def heldQueries (i : Nat) (b : QBlock) (s : State) : List Byte :=
  let qb := queryBytes (modelOf s (sessAt s i))
  ((heldOffsets i b s).map (fun o => slice b.query (o * qb) qb)).flatten

theorem openBlockMerge_opens (issues : jobIssues s b.job = true) (there : layerThere s i b.layer = true) (some_ : heldOffsets i b s ≠ [])
    (h : openMerge i b.layer b.job true b.first ((heldOffsets i b s).map (b.first + ·)) (heldQueries i b s) none s = some u) :
    openBlockMerge i b s = modSess i (fun x => { x with qblock := some { b with phase := .merging, mergeWaited := false } }) u := by
  unfold heldQueries at h
  unfold heldOffsets at some_ h
  unfold openBlockMerge
  dsimp only at h ⊢
  rw [issues, there, h, List.isEmpty_eq_false_iff.2 some_]
  rfl

/-! `UNIT_COMPLETE`. -/
section
variable (f : Nat) (q : Nat) (m : Merge) (w : WorkUnit) (x : Session) (nan : Bool) (s : State)

/-- A unit's work as it is counted and traced: its lanes' handshakes, the page map and the tiles that a pass reads first, a NaN partial. -/
def unitCounted : State :=
  let pv : Priv := .context x.record.context
  let t := laneBusy f (unitHs s m.index m.layer w.head w.block q) pv (some x.record.cls) s
  let t := if w.qoff % m.passSize = 0 then
      let v := touchUnit m.index m.layer w.head w.block t
      (unitTiles v m.index m.layer w.head w.block (passPositions m w)).foldl (fun t a =>
        pmu { code := 0x02, priv := pv, requester := some f, addr := some (hbmAddr a.1 (4096 * a.2)), svc := some x.record.cls }
          (bump ctrTilesRead t)) v
    else t
  if nan then bump ctrNanPartials t else t

/-- Nothing but what answering, counting and tracing write has changed, nothing is sent, and links are in their states. -/
structure Counts (s t : State) : Prop extends SameLinks s t where
  bare : bare t = bare s
  out : t.out = s.out
end

theorem Counts.refl (s : State) : Counts s s := ⟨.refl s, rfl, rfl⟩
theorem Counts.trans (h : Counts s t) (k : Counts t u) : Counts s u :=
  ⟨h.toSameLinks.trans k.toSameLinks, k.bare.trans h.bare, k.out.trans h.out⟩
theorem Counts.quiet (h : Counts s t) : Quiet s t := quiet_of_bare h.bare h.toSameLinks
theorem counts_bump (k : Nat) (s : State) : Counts s (bump k s) := ⟨sameLinks_of_fields rfl rfl, rfl, rfl⟩
theorem counts_pmu (e : PmuEvent) (s : State) : Counts s (pmu e s) := ⟨sameLinks_of_fields (qps_pmu ..) (ports_pmu ..), bare_pmu .., out_pmu ..⟩
theorem counts_touchLine (p l : Nat) (v : Priv) (s : State) : Counts s (touchLine p l v s) :=
  ⟨sameLinks_of_fields (qps_touchLine ..) (ports_touchLine ..), bare_touchLine .., out_touchLine ..⟩
theorem counts_foldl {α : Type} {f : State → α → State} (h : ∀ s a, Counts s (f s a)) (l : List α) (s : State) : Counts s (l.foldl f s) :=
  List.foldlRecOn (motive := Counts s) l f (.refl s) (fun t ht a _ => ht.trans (h t a))
theorem counts_touchMap (i k : Nat) (s : State) : Counts s (touchMap i k s) := by
  unfold touchMap
  dsimp only
  split <;> split
  · exact (counts_touchLine ..).trans (counts_touchLine ..)
  · exact counts_touchLine ..
  · exact counts_touchLine ..
  · exact .refl s
theorem counts_touchUnit (i layer head block : Nat) (s : State) : Counts s (touchUnit i layer head block s) :=
  counts_foldl (fun t k => by
    split
    · exact counts_touchMap ..
    · exact .refl t) _ s
theorem counts_laneBusy (f hs : Nat) (v : Priv) (svc : Option Nat) (s : State) : Counts s (laneBusy f hs v svc s) :=
  counts_foldl (fun _ _ => counts_pmu ..) _ s

theorem counts_unitCounted (f q : Nat) (m : Merge) (w : WorkUnit) (x : Session) (nan : Bool) (s : State) :
    Counts s (unitCounted f q m w x nan s) := by
  have lanes := counts_laneBusy f (unitHs s m.index m.layer w.head w.block q) (.context x.record.context) (some x.record.cls) s
  unfold unitCounted
  dsimp only
  generalize laneBusy f (unitHs s m.index m.layer w.head w.block q) (.context x.record.context) (some x.record.cls) s = t at *
  have reads : ∀ l : List (Nat × Nat), Counts s (l.foldl (fun t a =>
      pmu { code := 0x02, priv := .context x.record.context, requester := some f, addr := some (hbmAddr a.1 (4096 * a.2)), svc := some x.record.cls }
        (bump ctrTilesRead t)) (touchUnit m.index m.layer w.head w.block t)) := fun l =>
    (lanes.trans (counts_touchUnit ..)).trans (counts_foldl (fun _ _ => (counts_bump ..).trans (counts_pmu ..)) l _)
  split <;> split
  · exact (reads _).trans (counts_bump ..)
  · exact lanes.trans (counts_bump ..)
  · exact reads _
  · exact lanes

/-- A fielder may go on with a unit of work (R184, R215, R515, R597). -/
structure MayWork (f tag : Nat) (m : Merge) (w : WorkUnit) (s : State) : Prop where
  live : Live s
  mode : s.mode ≠ .setup
  room : (fielderAt s f).emitter.length < 4
  idle : (fielderAt s f).slice = none
  thawed : s.survey.quiet.contains f = false
  next : nextUnit s f = some (tag, m, w)

/-- The query position of a unit. -/
def unitPosition (m : Merge) (w : WorkUnit) : Nat := m.positions.getD w.qoff 0

/-- The first tile of a unit that has not arrived (R180). -/
def missingTile (m : Merge) (w : WorkUnit) (s : State) : Option (Nat × Nat) :=
  (unitTiles s m.index m.layer w.head w.block [unitPosition m w]).find? (fun a => !tileThere s a.1 a.2)

/-- The merge's unit has left its list. -/
def unitTaken (f tag : Nat) (m : Merge) (w : WorkUnit) (s : State) : State :=
  setMerge tag { m with todo := m.todo.erase w } { s with survey.quiet := if s.survey.frozen then f :: s.survey.quiet else [] }

/-- The value of a unit's partial (R171). -/
def unitValue (m : Merge) (w : WorkUnit) (s : State) : Partial :=
  let qb := queryBytes (modelOf s (sessAt s m.index))
  unitPartial s m.index m.layer w.head w.block (unitPosition m w) (slice m.query (w.qoff * qb) qb)

/-- A unit's partial as its fielder emits it (R171, R176). -/
def unitEmitted (m : Merge) (w : WorkUnit) (group : Nat) (v : Partial) : Emitted :=
  { tag := partialTag m w (unitPosition m w) group v, catcher := m.catcher, index := m.index, innings := m.innings % 65536, layer := m.layer
    unit := w, value := v }

section
variable {f tag : Nat} {m : Merge} {w : WorkUnit} (h : MayWork f tag m w s)
include h

theorem exec_unitComplete : exec (.unitComplete f) s = .next (
    let x := sessAt s m.index
    match missingTile m w s with
    | some a =>
      if (fielderAt s f).waiting == some a then s
      else pmu { code := 0x03, priv := .context x.record.context, requester := some f, addr := some (hbmAddr a.1 (4096 * a.2)), svc := some x.record.cls }
        (bump ctrFillWaits (setFielder f { fielderAt s f with waiting := some a } s))
    | none =>
      let v := unitCounted f (unitPosition m w) m w x (unitValue m w s).nan (unitTaken f tag m w s)
      touchJobs (sweepPass { m with todo := m.todo.erase w } w (emitPartial f (unitEmitted m w (modelOf v x).group (unitValue m w s)) v))) := by
  have thawed : f ∉ s.survey.quiet := by simpa using h.thawed
  refine (next_live rfl h.live).trans ?_
  rw [if_neg (by simp [h.mode, h.room, h.idle, thawed]), h.next]
  dsimp only
  change Host.Outcome.next (match missingTile m w s with | some a => _ | none => _) = _
  cases missingTile m w s with
  | some a => rfl
  | none => rfl

/-- A unit whose tiles are there leaves its merge's list, and its partial is on its way to the merge's catcher (R171, R209, R215). -/
theorem unitComplete_emits (there : missingTile m w s = none) (rise : Tab.rising s.fielders = true) :
    ∃ t, exec (.unitComplete f) s = .next t ∧ Only m.index s t ∧ (sessAt t m.index).entry = (sessAt s m.index).entry ∧
      Tab.find t.merges tag = some { m with todo := m.todo.erase w } ∧
      OnItsWay (unitEmitted m w (modelOf s (sessAt s m.index)).group (unitValue m w s)) f m.catcher t ∧ t.out = s.out := by
  have hx := exec_unitComplete h
  rw [there] at hx
  dsimp only at hx
  have taken : Quiet s (unitTaken f tag m w s) := quiet_of_fields rfl rfl rfl rfl
  have hc := counts_unitCounted f (unitPosition m w) m w (sessAt s m.index) (unitValue m w s).nan (unitTaken f tag m w s)
  generalize unitCounted f (unitPosition m w) m w (sessAt s m.index) (unitValue m w s).nan (unitTaken f tag m w s) = v at hx hc
  rw [show modelOf v = modelOf s from (taken.trans hc.quiet).modelOf] at hx
  generalize hp : unitEmitted m w (modelOf s (sessAt s m.index)).group (unitValue m w s) = p at hx
  have pc : p.catcher = m.catcher := hp ▸ rfl
  have he := sameEngines_sweepPass { m with todo := m.todo.erase w } w (emitPartial f p v)
  have hq : Quiet s (touchJobs (sweepPass { m with todo := m.todo.erase w } w (emitPartial f p v))) :=
    (quiet_touchJobs _).after ((quiet_sweepPass ..).after ((quiet_emitPartial ..).after (taken.trans hc.quiet)))
  have ho : (touchJobs (sweepPass { m with todo := m.todo.erase w } w (emitPartial f p v))).out = s.out :=
    (he.out.trans (out_emitPartial ..)).trans hc.out
  refine ⟨_, hx, (hq.beside m.index).only (ho ▸ List.prefix_refl _), hq.entry m.index, ?_, ?_, ho⟩
  · refine (congrArg (Tab.find · tag) ((he.merges.trans (merges_emitPartial ..)).trans (merges_of_bare hc.bare))).trans ?_
    exact Tab.find_put_self ..
  · refine SameEngines.onItsWay (s := sweepPass { m with todo := m.todo.erase w } w (emitPartial f p v)) ⟨rfl, rfl, rfl, rfl⟩ (he.onItsWay ?_)
    rw [← pc]
    exact emitPartial_onItsWay f p v (by rw [fielders_of_bare hc.bare]; exact rise)

/-- A unit whose tiles have not all arrived waits for the first (R180). -/
theorem unitComplete_waits {a : Nat × Nat} (missing : missingTile m w s = some a) (new : (fielderAt s f).waiting ≠ some a) :
    Does (.unitComplete f) s (setFielder f { fielderAt s f with waiting := some a } s) [] := by
  have hx := exec_unitComplete h
  rw [missing] at hx
  dsimp only at hx
  rw [if_neg (by simpa using new)] at hx
  exact ⟨_, hx, bare_pmu .., (out_pmu ..).trans (List.append_nil _).symm⟩
end

/-- Settles O16: a layer's merge opens, asks the ring and goes on while nothing has been accepted, or waits; a query block's merge opens as it is.
A unit's partial stands in its fielder's emitter until its catcher takes it. -/
theorem mergesOpenAndUnitsFinish : Obligations.MergesOpenAndUnitsFinish := by
  unfold Obligations.MergesOpenAndUnitsFinish
  refine ⟨⟨fun i st s hg alone h hp issues there => ?_, fun i b u s hg alone idle h hp issues there => ?_⟩,
    fun f tag m w s hl mode room idle thawed next rise => ?_⟩
  · have hx := exec_mergeOpen_step hg alone h hp
    refine ⟨fun u g ho hu open_ => ?_, fun ho => mergeOpen_waits (hx.trans ?_)⟩
    · obtain ⟨k, opened⟩ := openMerge_opens ho
      obtain rfl : k = g := Option.some.inj (opened.found.symm.trans hu)
      obtain ⟨t, g', ht, only, tag, step, found, under, others⟩ := mergeOpen_opens hx issues there ho opened open_
      exact ⟨t, g', ht, only, tag, step, found, under.index.trans opened.index, under.catcher, under.layer.trans opened.layer,
        under.job.trans opened.job, under.todo, under.leaves.trans opened.leaves, under.blocks, others⟩
    · rw [openStepMerge_waits issues there ho]
  · intro offs qb query some_ ho
    have hx := exec_mergeOpen_block hg alone idle h hp
    rw [openBlockMerge_opens issues there some_ ho] at hx
    obtain ⟨g, opened⟩ := openMerge_opens ho
    refine ⟨_, hx, ?_, opened.out.trans (List.append_nil _).symm⟩
    unfold modSess setSess sessAt
    rw [opened.sessions]
  · intro q x
    have hw : MayWork f tag m w s := ⟨hl, mode, room, idle, thawed, next⟩
    exact ⟨fun there => unitComplete_emits hw there rise, fun a missing new => unitComplete_waits hw missing new⟩

end Sys2Proof.Machine
end

section
/-!
What a ring home asks of a member (R457 to R461): its commands on the member's part, rows appended, work for a query or a block, rows that return;
and the segment partials that come to the home (R200, R212, R225, R226).
-/
namespace Sys2Proof.Machine

variable {s t u : State} {i : Nat} {m : Msg} {r : RingCmd}

theorem quiet_takeMsg (m : Msg) (s : State) : Quiet s (takeMsg m s) := quiet_of_fields rfl rfl rfl rfl

/-! How a session ends as TOMBSTONE (R86): what is released is shown by no session. -/
theorem quiet_dropTransfers (i : Nat) (s : State) : Quiet s (dropTransfers i s) := quiet_of_fields rfl rfl rfl rfl
theorem quiet_freeParkSlots (p : ParkMove) (s : State) : Quiet s (freeParkSlots p s) := quiet_foldl (fun _ _ => quiet_freeHome ..) _ s
theorem quiet_parkNotice (i : Nat) (p : ParkMove) (st : Status) (s : State) : Quiet s (parkNotice i p st s) := by
  unfold parkNotice
  split
  · exact .refl s
  · exact quiet_sendMsg ..
theorem quiet_askPeer (node qp : Nat) (h : Word) (c : WaitFor) (p : PeerMsg) (s : State) : Quiet s (askPeer node qp h c p s) := by
  have tagged : SameLinks s (nextTag s).2 := sameLinks_of_fields rfl rfl
  have waits : SameLinks (sendPeer node qp (nextTag s).1 h none p (nextTag s).2) (askPeer node qp h c p s) := sameLinks_of_fields rfl rfl
  exact quiet_of_apart (apart_askPeer ..) ((tagged.trans (sameLinks_sendPeer ..)).trans waits)
theorem quiet_failMigration (i : Nat) (v : SourceMove) (s : State) : Quiet s (failMigration i v s) := by
  unfold failMigration
  refine Quiet.after (quiet_sendMsg ..) (Quiet.after (quiet_bump ..) ?_)
  split
  · exact (quiet_askPeer ..).after (quiet_of_fields rfl rfl rfl rfl)
  · exact quiet_of_fields rfl rfl rfl rfl
theorem quiet_abandonMove (i : Nat) (st : Status) (s : State) : Quiet s (abandonMove i st s) := by
  unfold abandonMove
  split
  · exact .refl s
  · exact (quiet_parkNotice ..).after (Quiet.after (quiet_modSess (fun _ => rfl)) ((quiet_freeParkSlots ..).after (quiet_dropTransfers ..)))
  · exact (quiet_failMigration ..).after (quiet_modSess (fun _ => rfl))
  · exact quiet_modSess (fun _ => rfl)
theorem quiet_dropRevive (i : Nat) (s : State) : Quiet s (dropRevive i s) := by
  unfold dropRevive
  dsimp only
  split
  · exact .refl s
  · exact Quiet.after (quiet_modSess (fun _ => rfl))
      (quiet_foldl (f := fun t (e : Nat × Nat × Nat) => freeHome e.2.1 e.2.2 t) (fun _ _ => quiet_freeHome ..) _ s)
theorem quiet_dropCopy (i : Nat) (s : State) : Quiet s (dropCopy i s) := by
  unfold dropCopy
  split
  · exact .refl s
  · exact (quiet_foldl (fun _ _ => quiet_freeHome ..) _ _).after (Quiet.after (quiet_modSess (fun _ => rfl)) (quiet_of_fields rfl rfl rfl rfl))
theorem quiet_releaseHomes (i : Nat) (s : State) : Quiet s (releaseHomes i s) := by
  unfold releaseHomes
  refine Quiet.after (quiet_modSess (fun _ => rfl)) ((quiet_foldl (fun _ _ => quiet_freeHome ..) _ _).after (quiet_foldl (fun t e => ?_) _ s))
  split
  · exact quiet_freeHome ..
  · exact .refl t
theorem quiet_releasePages (i : Nat) (s : State) : Quiet s (releasePages i s) := by
  unfold releasePages
  refine Quiet.after (quiet_modSess (fun _ => rfl)) (quiet_foldl (fun t e => ?_) _ s)
  split
  · exact quiet_dropRef ..
  · exact .refl t
theorem quiet_releaseMap (i : Nat) (s : State) : Quiet s (releaseMap i s) := by
  unfold releaseMap
  exact Quiet.after (quiet_modSess (fun _ => rfl)) (quiet_foldl (fun _ _ => quiet_freeFrame ..) _ s)
theorem quiet_releaseSegments (i : Nat) (s : State) : Quiet s (releaseSegments i s) := by
  unfold releaseSegments
  exact Quiet.after (quiet_modSess (fun _ => rfl)) (quiet_of_fields rfl rfl rfl rfl)
theorem quiet_leaveParent (i : Nat) (s : State) : Quiet s (leaveParent i s) := by
  unfold leaveParent
  dsimp only
  split
  · exact quiet_modSess (fun _ => rfl)
  · exact .refl s

/-- Session `i` has become TOMBSTONE for reason `r`; no other session shows it. -/
structure Tombstones (i : Nat) (r : Reason) (s t : State) : Prop where
  beside : Beside i s t
  entry : (sessAt t i).entry =
    { (sessAt s i).entry with state := .tombstone, cancelPending := false, waitPending := false, reviving := false }
  reason : (sessAt t i).record.reason = r

theorem Tombstones.quiet {r : Reason} (h : Tombstones i r s t) (hq : Quiet t u) : Tombstones i r s u :=
  ⟨h.beside.trans (hq.beside i), (hq.entry i).trans h.entry, (hq.reason i).trans h.reason⟩

/-- A session forgets its query blocks and keeps its entry. -/
theorem dropBlock_beside (i : Nat) (s : State) : Beside i s (dropBlock i s) ∧ (sessAt (dropBlock i s) i).entry = (sessAt s i).entry := by
  have hw := quiet_withdrawSess i (fun m => !stepMerge m) s
  unfold dropBlock
  dsimp only
  split
  · exact ⟨hw.beside i, hw.entry i⟩
  · have hd := quiet_dropPass i (fun _ => true) (modSess i (fun x => { x with
      qblock := none, qwait := [], ringWork := [], passTodo := [], passLeft := 0, passEarly := 0 }) (withdrawSess i (fun m => !stepMerge m) s))
    refine ⟨(hw.beside i).trans ((beside_modSess ..).trans (hd.beside i)), ?_⟩
    rw [hd.entry, sessAt_modSess]
    exact hw.entry i

theorem markTombstone_tombstones (i : Nat) (r : Reason) (s : State) : Tombstones i r s (markTombstone i r s) := by
  unfold markTombstone stopTimer startTimer
  refine ⟨(beside_setSess ..).trans (beside_modSess ..), ?_, ?_⟩
  all_goals rw [sessAt_modSess, sessAt_setSess]

theorem toTombstone_tombstones (i : Nat) (r : Reason) (s : State) : Tombstones i r s (toTombstone i r s) := by
  unfold toTombstone
  dsimp only
  obtain ⟨hb, he⟩ := dropBlock_beside i (dropTransfers i s)
  have hq : Quiet (dropBlock i (dropTransfers i s)) _ :=
    (quiet_releaseSegments i _).after ((quiet_releaseMap i _).after ((quiet_releasePages i _).after ((quiet_releaseHomes i _).after
      ((quiet_dropCopy i _).after (quiet_dropRevive i (dropBlock i (dropTransfers i s)))))))
  have hm := markTombstone_tombstones i r (releaseSegments i (releaseMap i (releasePages i (releaseHomes i (dropCopy i (dropRevive i
    (dropBlock i (dropTransfers i s))))))))
  refine Tombstones.quiet (t := markTombstone i r _) ⟨?_, ?_, hm.reason⟩ ((quiet_mirrorUpdate ..).after (quiet_leaveParent ..))
  · exact ((quiet_dropTransfers i s).beside i).trans (hb.trans ((hq.beside i).trans hm.beside))
  · rw [hm.entry, hq.entry, he, (quiet_dropTransfers i s).entry]

/-- `CANCEL` of a session that is neither ACTIVE nor ended (R72, R86). -/
theorem applyCancel_ends (h1 : (sessAt s i).entry.state ≠ .active) (h2 : (sessAt s i).entry.state ≠ .tombstone)
    (h3 : (sessAt s i).entry.state ≠ .free) :
    applyCancel i s = (.ok, bump ctrCancels (toTombstone i .cancelled (abandonMove i .sessionCancelled s))) := by
  unfold applyCancel
  dsimp only
  split
  · exact absurd ‹_› h1
  · exact absurd ‹_› h2
  · exact absurd ‹_› h3
  · rfl

/-! `RING_CMD`. -/

/-- A home's command on the member's part of a session whose context stands (R458). -/
theorem exec_ringCmd (hs : Serves .peer m s) (run : s.mode = .run) (hn : m.ops.length ≤ 255) (found : ringResolve s m.qp r.home = some i)
    (stands : (ctxAt s (sessAt s i).record.context).tornDown = false) :
    exec (.ringCmd m r) s = .next (refuse m (applyRing i m r (takeMsg m s)).1 (applyRing i m r (takeMsg m s)).2) := by
  refine (next_request (f := { opcode := 0x0721, on := .peer, most := 255, setup := true }) rfl hs (Nat.zero_le _) hn (fun _ => run) rfl).trans ?_
  dsimp only
  rw [show ringResolve (takeMsg m s) m.qp r.home = some i from found]
  dsimp only
  rw [show (ctxAt (takeMsg m s) (sessAt (takeMsg m s) i).record.context).tornDown = false from stands]
  rfl

/-- A home's command on a session that no part stands for here. -/
theorem ringCmd_stale (hs : Serves .peer m s) (run : s.mode = .run) (hn : m.ops.length ≤ 255) (none_ : ringResolve s m.qp r.home = none) :
    Does (.ringCmd m r) s s [answer m .handleStale] := by
  have hx := next_request (c := .ringCmd m r) (f := { opcode := 0x0721, on := .peer, most := 255, setup := true }) rfl hs (Nat.zero_le _) hn
    (fun _ => run) rfl
  dsimp only at hx
  rw [show ringResolve (takeMsg m s) m.qp r.home = none from none_] at hx
  exact does_answers (u := bump ctrStaleHandles (takeMsg m s)) hx rfl hs.ready rfl

/-- A member's part of a session as it first takes the home's `LENGTH`. -/
def lengthTaken (i n : Nat) (s : State) : State := modSess i (fun y => { y with record.length := n }) s

theorem applyRing_freeze (op : r.opcode = 0x0108) : applyRing i m r s = applyFreeze i (lengthTaken i r.length s) := by
  unfold applyRing
  rw [op]
  rfl
theorem applyRing_cancel (op : r.opcode = 0x0107) :
    applyRing i m r s = ((applyCancel i (lengthTaken i r.length s)).1, settle (applyCancel i (lengthTaken i r.length s)).2) := by
  unfold applyRing
  rw [op]
  rfl
theorem applyRing_extend (op : r.opcode = 0x0203) :
    applyRing i m r s = applyExtend i (r.ops.getD 0 allOnes).toNat (lengthTaken i (r.length - (r.ops.getD 0 allOnes).toNat) s) := by
  unfold applyRing
  rw [op]
  rfl
theorem applyRing_admit (op : r.opcode = 0x0101) : applyRing i m r s = (.opcodeUnknown, s) := by
  unfold applyRing
  rw [op]
  rfl

theorem applyFreeze_ready (h : (sessAt s i).entry.state = .ready) : applyFreeze i s = (.ok, mirrorUpdate i (modSess i (fun y => { y with
    entry.state := .frozen, record.returnState := .ready, record.timerNs := (timerLeft s i).getD 0 }) s)) := by
  unfold applyFreeze
  dsimp only
  rw [h]
  rfl
theorem applyExtend_fits {n : Nat} (h : (sessAt s i).entry.state = .ready)
    (fits : (sessAt s i).record.length + n ≤ maxLength s (sessAt s i).entry.partition (sessShape s i)) :
    applyExtend i n s = (.ok, mirrorUpdate i (modSess i (fun y => { y with record.length := y.record.length + n }) s)) := by
  unfold applyExtend
  dsimp only
  rw [h, if_neg (by decide), if_neg (Nat.not_lt.2 fits)]

theorem modSess_modSess (i : Nat) (f g : Session → Session) (s : State) : modSess i f (modSess i g s) = modSess i (fun x => f (g x)) s := by
  unfold modSess
  rw [sessAt_setSess]
  unfold setSess
  rw [Tab.put_put]

/-- A member's part changes by a write of its session that the partner is told of. -/
theorem ringCmd_writes {a : Status} {f : Session → Session} (hs : Serves .peer m s)
    (hx : exec (.ringCmd m r) s = .next (refuse m a (mirrorUpdate i (modSess i f (takeMsg m s))))) :
    DoesApart (.ringCmd m r) s { s with sessions := Tab.put s.sessions i (f (sessAt s i)) } [answer m a] :=
  apart_answered (a := { status := a }) hx (apart_mirrorUpdate ..) ((ready_mirrorUpdate ..).trans hs.ready)
    (mirrorUpdate_ord (modSess_ord (.refl (takeMsg m s)))).1.sent

section
variable (hs : Serves .peer m s)
  (hx : exec (.ringCmd m r) s = .next (refuse m (applyRing i m r (takeMsg m s)).1 (applyRing i m r (takeMsg m s)).2))
include hs hx

theorem ringCmd_freezes (op : r.opcode = 0x0108) (h : (sessAt s i).entry.state = .ready) :
    DoesApart (.ringCmd m r) s { s with sessions := Tab.put s.sessions i { sessAt s i with
      entry.state := .frozen, record.length := r.length, record.returnState := .ready, record.timerNs := (timerLeft s i).getD 0 } }
      [answer m .ok] := by
  have left : timerLeft (lengthTaken i r.length (takeMsg m s)) i = timerLeft s i := by
    unfold timerLeft lengthTaken
    rw [sessAt_modSess]
    rfl
  have state : (sessAt (lengthTaken i r.length (takeMsg m s)) i).entry.state = .ready := by
    unfold lengthTaken
    rw [sessAt_modSess]
    exact h
  rw [applyRing_freeze op, applyFreeze_ready state, left] at hx
  unfold lengthTaken at hx
  rw [modSess_modSess] at hx
  exact ringCmd_writes hs hx

theorem ringCmd_extends (op : r.opcode = 0x0203) (h : (sessAt s i).entry.state = .ready)
    (fits : r.length - (r.ops.getD 0 allOnes).toNat + (r.ops.getD 0 allOnes).toNat ≤ maxLength s (sessAt s i).entry.partition (sessShape s i)) :
    DoesApart (.ringCmd m r) s { s with sessions := Tab.put s.sessions i { sessAt s i with
      record.length := r.length - (r.ops.getD 0 allOnes).toNat + (r.ops.getD 0 allOnes).toNat } } [answer m .ok] := by
  have at_ : ∀ n, sessAt (lengthTaken i n (takeMsg m s)) i = { sessAt s i with record.length := n } := fun n => by
    unfold lengthTaken
    rw [sessAt_modSess]
    rfl
  have shape : ∀ n, sessShape (lengthTaken i n (takeMsg m s)) i = sessShape s i := fun n => by
    unfold sessShape modelOf
    rw [at_]
    rfl
  rw [applyRing_extend op, applyExtend_fits (by rw [at_]; exact h) (by rw [at_, shape]; exact fits)] at hx
  unfold lengthTaken at hx
  rw [modSess_modSess] at hx
  exact ringCmd_writes hs hx

theorem ringCmd_cancels (op : r.opcode = 0x0107) (h1 : (sessAt s i).entry.state ≠ .active) (h2 : (sessAt s i).entry.state ≠ .tombstone)
    (h3 : (sessAt s i).entry.state ≠ .free) :
    ∃ t q, exec (.ringCmd m r) s = .next t ∧ Only i s t ∧ t.out = s.out ++ q ++ [answer m .ok] ∧ (sessAt t i).record.reason = .cancelled ∧
      (sessAt t i).entry =
        { (sessAt s i).entry with state := .tombstone, cancelPending := false, waitPending := false, reviving := false } := by
  have he : (sessAt (lengthTaken i r.length (takeMsg m s)) i).entry = (sessAt s i).entry := by
    unfold lengthTaken
    rw [sessAt_modSess]
    rfl
  rw [applyRing_cancel op, applyCancel_ends (by rwa [he]) (by rwa [he]) (by rwa [he])] at hx
  dsimp only at hx
  generalize hv : lengthTaken i r.length (takeMsg m s) = v at hx he
  have hb : Beside i s v := hv ▸ ((quiet_takeMsg m s).beside i).trans (beside_modSess ..)
  have out : v.out = s.out := hv ▸ rfl
  have ha := quiet_abandonMove i .sessionCancelled v
  have ht := (toTombstone_tombstones i .cancelled (abandonMove i .sessionCancelled v)).quiet ((quiet_settle _).after (quiet_bump ctrCancels _))
  have ho : v.out <+: _ := (settle_ord (bump_ord (key := ctrCancels)
    (toTombstone_ord (i := i) (r := .cancelled) (abandonMove_ord (i := i) (status := .sessionCancelled) (.refl v))))).1.sent
  generalize settle (bump ctrCancels (toTombstone i .cancelled (abandonMove i .sessionCancelled v))) = w at hx ht ho
  obtain ⟨q, ho⟩ := ho
  have hw : Beside i s w := hb.trans ((ha.beside i).trans ht.beside)
  have hr : Quiet w (refuse m .ok w) := quiet_sendMsg ..
  have sent : (refuse m .ok w).out = s.out ++ q ++ [answer m .ok] := by rw [out_refuse ((hw.ready _).trans hs.ready), ← ho, out]
  refine ⟨_, q, hx, (hw.trans (hr.beside i)).only (t := refuse m .ok w) ?_, sent, (hr.reason i).trans ht.reason, ?_⟩
  · rw [sent, List.append_assoc]
    exact List.prefix_append ..
  · exact (hr.entry i).trans (by rw [ht.entry, ha.entry, he])

theorem ringCmd_admit (op : r.opcode = 0x0101) : Does (.ringCmd m r) s s [answer m .opcodeUnknown] := by
  rw [applyRing_admit op] at hx
  exact does_answers hx rfl hs.ready rfl
end

/-! Tiles that go round (R189) leave a session's work and the layer they are of as they were. -/

theorem sessAt_of_sessions (h : t.sessions = s.sessions) (i : Nat) : sessAt t i = sessAt s i := by
  unfold sessAt
  rw [h]

theorem sessions_sendPass (i : Nat) (a : TileAddr) (data : List Byte) (s : State) : (sendPass i a data s).sessions = s.sessions := by
  unfold sendPass
  dsimp only
  split
  · rfl
  · split
    · rfl
    · exact sessions_of_apart (apart_of_bare (bare_sendTile ..))

/-- A session without the frames and the list of the tiles that go round. -/
def withoutTiles (x : Session) : Session := { x with passPages := [], passTodo := [] }

theorem pumpPass_withoutTiles (i : Nat) : ∀ (f : Nat) (s : State), withoutTiles (sessAt (pumpPass i f s) i) = withoutTiles (sessAt s i)
  | 0, _ => rfl
  | f + 1, s => by
    simp only [pumpPass]
    split
    · rfl
    · split
      · rfl
      · have sent (n : Nat) (g : State → Nat → State) (hg : ∀ t k, (g t k).sessions = t.sessions) (t : State) :
            sessAt (foldRange n g t) i = sessAt t i := sessAt_of_sessions (sessions_foldl hg _ t) i
        rw [pumpPass_withoutTiles i f, sent _ _ fun _ _ => sessions_sendPass .., sessAt_modSess]
        rfl

theorem dropPass_withoutTiles (i : Nat) (drop : Nat → Bool) (s : State) :
    withoutTiles (sessAt (dropPass i drop s) i) = withoutTiles (sessAt s i) := by
  unfold dropPass
  dsimp only
  rw [sessAt_modSess, sessAt_of_sessions (sessions_foldl (f := fun t (e : Nat × Nat) => dropRef e.2 t) (fun _ _ => sessions_dropRef ..) _ s)]
  rfl

theorem resumePass_withoutTiles (i : Nat) (drop : Nat → Bool) (s : State) :
    withoutTiles (sessAt (resumePass i (dropPass i drop s)) i) = withoutTiles (sessAt s i) :=
  (pumpPass_withoutTiles ..).trans (dropPass_withoutTiles ..)

/-- Key blocks that start round leave a session's ring work. -/
theorem startPass_ringWork (i layer : Nat) (s : State) : (sessAt (startPass i layer s) i).ringWork = (sessAt s i).ringWork := by
  unfold startPass
  dsimp only
  split
  · rfl
  · refine (congrArg Session.ringWork (resumePass_withoutTiles ..)).trans ?_
    rw [sessAt_modSess]
    rfl

/-- Key blocks that start round are of the layer named, where a ring holds the session. -/
theorem startPass_passLayer {layer : Nat} (h : (ringOf s (sessAt s i).entry.partition).isSome) :
    (sessAt (startPass i layer s) i).passLayer = some layer := by
  unfold startPass
  dsimp only
  rw [if_neg (by simpa [Option.isSome_iff_ne_none] using h)]
  refine (congrArg Session.passLayer (resumePass_withoutTiles ..)).trans ?_
  rw [sessAt_modSess]
  rfl

/-! Rows and work from a home. -/

/-- A peer message that the module takes: the next state. -/
theorem next_peer {c : Instr} {f : Form} {h : State → State} (hx : exec c s = .next (peerMessage f m h s)) (hs : Serves f.on m s)
    (need : f.need ≤ m.ops.length) (most : m.ops.length ≤ f.most) (run : f.setup = true → s.mode = .run) :
    exec c s = .next (h (takeMsg m s)) := by
  rw [hx, peerMessage_serves hs need most run]

section
variable {a : RingAppend} (hs : Serves .peer m s) (hn : m.ops.length ≤ 255) (found : ringResolve s m.qp a.home = some i)
  (ready : (sessAt s i).entry.state = .ready) (layer : a.layer < (sessShape s i).layers)
  (mine : holdsPos s (sessAt s i).entry.partition a.position = true)
include hs hn found ready layer mine

/-- A row that a home sends to the member that holds its position (R460). -/
theorem exec_ringAppend : exec (.ringAppend m a) s = .next (
    ((appendRow i a.layer (localPos s (sessAt s i).entry.partition a.position) (localPos s (sessAt s i).entry.partition a.position) a.kv
      (setSess i { sessAt s i with record.length := a.position } (takeMsg m s))).getD (holdMsg m (takeMsg m s)))) := by
  refine (next_peer (f := { opcode := 0xF101, on := .peer, most := 255 }) rfl hs (Nat.zero_le _) hn (fun h => nomatch h)).trans ?_
  dsimp only
  rw [show ringResolve (takeMsg m s) m.qp a.home = some i from found]
  dsimp only
  rw [if_neg (by
    rw [show (sessAt (takeMsg m s) i).entry.state = .ready from ready, takeMsg_at_sessShape,
      show holdsPos (takeMsg m s) (sessAt (takeMsg m s) i).entry.partition a.position = true from mine]
    simp [layer])]
  change Host.Outcome.next (match appendRow i a.layer (localPos s (sessAt s i).entry.partition a.position)
    (localPos s (sessAt s i).entry.partition a.position) a.kv (setSess i { sessAt s i with record.length := a.position } (takeMsg m s)) with
    | some u => u | none => _) = _
  cases appendRow i a.layer (localPos s (sessAt s i).entry.partition a.position) (localPos s (sessAt s i).entry.partition a.position) a.kv
    (setSess i { sessAt s i with record.length := a.position } (takeMsg m s)) with
  | some u => rfl
  | none => rfl

theorem ringAppend_appends (h : appendRow i a.layer (localPos s (sessAt s i).entry.partition a.position)
      (localPos s (sessAt s i).entry.partition a.position) a.kv (setSess i { sessAt s i with record.length := a.position } (takeMsg m s)) = some u) :
    ∃ t, exec (.ringAppend m a) s = .next t ∧ Only i s t ∧ (sessAt t i).entry = (sessAt s i).entry ∧ (sessAt t i).record.length = a.position := by
  have hx := exec_ringAppend hs hn found ready layer mine
  rw [h, Option.getD_some] at hx
  have hq := quiet_appendRow h
  refine ⟨u, hx, ((((quiet_takeMsg m s).beside i).trans (beside_setSess ..)).trans (hq.beside i)).only
    ((execRingAppend_ord (.refl s)).at_ _ hx).1.sent, ?_, ?_⟩
  · rw [hq.entry, sessAt_setSess]
  · rw [hq.length, sessAt_setSess]

theorem ringAppend_waits (h : appendRow i a.layer (localPos s (sessAt s i).entry.partition a.position)
      (localPos s (sessAt s i).entry.partition a.position) a.kv (setSess i { sessAt s i with record.length := a.position } (takeMsg m s)) = none) :
    Does (.ringAppend m a) s s [] := by
  have hx := exec_ringAppend hs hn found ready layer mine
  rw [h] at hx
  exact ⟨_, hx, rfl, (List.append_nil _).symm⟩
end

/-- The work that a home's message brings a member (R460, R461). -/
def workOf (m : Msg) (q : RingQuery) (prefill : Bool) (i : Nat) (s : State) : RingWork :=
  { home := peerNodeOf m.qp - ringNodeBaseVal s (sessAt s i).entry.partition, mergeTag := q.mergeTag, innings := q.innings, layer := q.layer, prefill
    first := q.first, positions := q.positions, query := q.query }

/-- The member's part of a session as a query block comes (R461). -/
def blockCome (m : Msg) (q : RingQuery) (i : Nat) (s : State) : State :=
  let t := modSess i (fun y => { y with record.length := q.length, passNext := some q.next }) (takeMsg m s)
  if q.positions.isEmpty then t else addRingWork i m.qp true q t

section
variable {q : RingQuery} (hs : Serves .peer m s) (hn : m.ops.length ≤ 255) (found : ringResolve s m.qp q.home = some i)
  (ready : (sessAt s i).entry.state = .ready) (layer : q.layer < (sessShape s i).layers)
include hs hn found ready layer

/-- A query joins the member's work, once the row that came before it has been appended (R26, R460). -/
theorem ringQuery_joins (applied : ringAppendWaits s m.qp q.home = false) :
    Does (.ringQuery m q) s
      { s with sessions := Tab.put s.sessions i { sessAt s i with ringWork := (sessAt s i).ringWork ++ [workOf m q false i s] } } [] := by
  have applied' : ringAppendWaits (takeMsg m s) m.qp q.home = false := by
    unfold ringAppendWaits at *
    rw [List.any_eq_false] at *
    exact fun k hk => applied k (List.mem_of_mem_erase hk)
  have hx : exec (.ringQuery m q) s = .next (addRingWork i m.qp false q (takeMsg m s)) := by
    refine (next_peer (f := { opcode := 0xF102, on := .peer, most := 255 }) rfl hs (Nat.zero_le _) hn (fun h => nomatch h)).trans ?_
    rw [show ringResolve (takeMsg m s) m.qp q.home = some i from found]
    dsimp only
    rw [applied', if_neg Bool.false_ne_true, if_neg]
    rw [show (sessAt (takeMsg m s) i).entry.state = .ready from ready, takeMsg_at_sessShape]
    simp [layer]
  exact ⟨_, hx, rfl, (List.append_nil _).symm⟩

theorem exec_ringQblock : exec (.ringQblock m q) s = .next (startPass i q.layer (blockCome m q i s)) := by
  refine (next_peer (f := { opcode := 0xF105, on := .peer, most := 255 }) rfl hs (Nat.zero_le _) hn (fun h => nomatch h)).trans ?_
  dsimp only
  rw [show ringResolve (takeMsg m s) m.qp q.home = some i from found]
  dsimp only
  rw [if_neg (by
    rw [show (sessAt (takeMsg m s) i).entry.state = .ready from ready, takeMsg_at_sessShape]
    simp [layer])]
  rfl
end


section
variable (m : Msg) (q : RingQuery) (i : Nat) (s : State)

theorem blockCome_sess : sessAt (blockCome m q i s) i = { sessAt s i with
    record.length := q.length, passNext := some q.next
    ringWork := if q.positions = [] then (sessAt s i).ringWork else (sessAt s i).ringWork ++ [workOf m q true i s] } := by
  have come : sessAt (modSess i (fun y => { y with record.length := q.length, passNext := some q.next }) (takeMsg m s)) i =
      { sessAt s i with record.length := q.length, passNext := some q.next } := by
    rw [sessAt_modSess]
    rfl
  unfold blockCome
  dsimp only
  cases q.positions with
  | nil =>
    exact come
  | cons p ps =>
    rw [if_neg (by simp), if_neg (by simp)]
    unfold addRingWork
    rw [sessAt_modSess, come]
    rfl

theorem blockCome_beside : Beside i s (blockCome m q i s) := by
  refine ((quiet_takeMsg m s).beside i).trans ?_
  unfold blockCome addRingWork
  dsimp only
  split
  · exact beside_modSess ..
  · exact (beside_modSess ..).trans (beside_modSess ..)
end

/-- A query block brings a member its positions and starts its key blocks round (R189, R461). -/
theorem ringQblock_starts {q : RingQuery} (hs : Serves .peer m s) (hn : m.ops.length ≤ 255) (found : ringResolve s m.qp q.home = some i)
    (ready : (sessAt s i).entry.state = .ready) (layer : q.layer < (sessShape s i).layers) :
    ∃ t, exec (.ringQblock m q) s = .next t ∧ Only i s t ∧ (sessAt t i).entry = (sessAt s i).entry ∧ (sessAt t i).record.length = q.length ∧
      ((ringOf s (sessAt s i).entry.partition).isSome → (sessAt t i).passLayer = some q.layer) ∧
      (sessAt t i).ringWork = if q.positions = [] then (sessAt s i).ringWork else (sessAt s i).ringWork ++ [workOf m q true i s] := by
  have hx := exec_ringQblock hs hn found ready layer
  have hb := blockCome_beside m q i s
  have hc := blockCome_sess m q i s
  have hq := quiet_startPass i q.layer (blockCome m q i s)
  refine ⟨_, hx, (hb.trans (hq.beside i)).only ((execRingQblock_ord (.refl s)).at_ _ hx).1.sent, ?_, ?_, fun ring => ?_, ?_⟩
  · rw [hq.entry, hc]
  · rw [hq.length, hc]
  · exact startPass_passLayer (by rw [hc, hb.ringOf]; exact ring)
  · rw [startPass_ringWork, hc]

/-- What rows that have come make of a home's block: it is formed once every position has its rows (R203, R461). -/
def rowsCome (l : List (Nat × List Byte)) (b : QBlock) : QBlock :=
  let rows := l.foldl (fun t e => Tab.put t e.1 e.2) b.rows
  let ps := (List.range b.count).map (b.first + ·)
  if ps.all (fun p => (Tab.find rows p).isSome) then
    { b with rows, phase := .formed, output := (ps.map (fun p => Tab.get rows p [])).flatten }
  else { b with rows }

theorem addRows_rowsCome {b : QBlock} (h : (sessAt s i).qblock = some b) (l : List (Nat × List Byte)) :
    addRows i l s = { s with sessions := Tab.put s.sessions i { sessAt s i with qblock := some (rowsCome l b) } } := by
  unfold addRows modSess setSess
  dsimp only
  rw [h]
  dsimp only
  unfold rowsCome
  dsimp only
  split
  · rfl
  · rfl

/-- A member's rows return to the block that its home's session merges (R461). -/
theorem ringOutput_comes {o : RingOutput} {b : QBlock} (hs : Serves .peer m s) (hn : m.ops.length ≤ 255) (found : lookupEntry s o.home = .at_ i)
    (hb : (sessAt s i).qblock = some b) (layer : b.layer = o.layer) (merging : b.phase = .merging) :
    Does (.ringOutput m o) s
      (touchJobs { s with sessions := Tab.put s.sessions i { sessAt s i with qblock := some (rowsCome o.rows b) } }) [] := by
  have hx : exec (.ringOutput m o) s = .next (touchJobs (addRows i o.rows (takeMsg m s))) := by
    refine (next_peer (f := { opcode := 0xF106, on := .peer, most := 255 }) rfl hs (Nat.zero_le _) hn (fun h => nomatch h)).trans ?_
    rw [show lookupEntry (takeMsg m s) o.home = .at_ i from found]
    dsimp only
    rw [show (sessAt (takeMsg m s) i).qblock = some b from hb]
    dsimp only
    rw [layer, merging, if_pos (by simp)]
  rw [addRows_rowsCome (s := takeMsg m s) hb] at hx
  exact ⟨_, hx, rfl, (List.append_nil _).symm⟩

/-! Segment partials that come to a home (R200, R212, R225, R226). -/

/-- A merge that a segment partial joins. -/
def joinedBy (p : SegPartial) (g : Merge) : Merge := { g with segNodes := g.segNodes ++ [((p.head, p.segment, p.qoff), p.value)] }

/-- A home whose merge a segment partial has joined: it is counted, and the members asked learn of a frontier that it moved. -/
def afterJoin (p : SegPartial) (g : Merge) (s : State) : State :=
  let t := bump ctrPartialsMerged (bumpBy ctrNanMerges (nanCount s (joinedBy p g) p.head p.qoff - nanCount s g p.head p.qoff)
    (setMerge p.mergeTag (joinedBy p g) s))
  if segFrontierOf s g < segFrontierOf s (joinedBy p g) then
    (queryMembers t g.index (joinedBy p g)).foldl (fun u k => sendPeer k.2 (ringQp k.2) 0 (sessAt u g.index).record.handle none
      (.segFrontier p.mergeTag (g.innings % 65536) (segFrontierOf s (joinedBy p g))) u) t
  else t

theorem afterJoin_advances (p : SegPartial) (g : Merge) (s : State) : Advances p.mergeTag (joinedBy p g) s (afterJoin p g s) := by
  have joins := advances_setMerge p.mergeTag (joinedBy p g) s
  have counted (n : Nat) : Advances p.mergeTag (joinedBy p g) s
      (bump ctrPartialsMerged (bumpBy ctrNanMerges n (setMerge p.mergeTag (joinedBy p g) s))) :=
    joins.trans (advances_of_bare rfl (sameLinks_of_fields rfl rfl) joins.found)
  unfold afterJoin
  dsimp only
  split
  · have sent := quiet_foldl (f := fun u (k : Nat × Nat) => sendPeer k.2 (ringQp k.2) 0 (sessAt u g.index).record.handle none
      (.segFrontier p.mergeTag (g.innings % 65536) (segFrontierOf s (joinedBy p g))) u) (fun _ _ => quiet_sendPeer ..)
    exact (counted _).trans (advances_of_bare (bare_foldl (fun _ _ => bare_sendPeer ..) _ _) (sent _ _).toSameLinks (counted _).found)
  · exact counted _

section
variable {p : SegPartial} {g : Merge} (hs : Serves .peer m s) (hn : m.ops.length ≤ 3)
include hs hn

theorem exec_segPartial (found : Tab.find s.merges p.mergeTag = some g) : exec (.segPartial m p) s = .next (
    let t := takeMsg m s
    if g.closing || g.home.isSome || g.innings % 65536 ≠ p.innings then bump ctrStalePartials t
    else if now s > p.sentNs + segmentMaxAgeMsVal s * 1000000 then bump ctrAgedSegments t
    else if g.segNodes.any (fun e => e.1 == (p.head, p.segment, p.qoff)) then t
    else advanceMerge p.mergeTag (afterJoin p g t)) := by
  refine (next_peer (f := { opcode := 0xF103, on := .peer, most := 3 }) rfl hs (Nat.zero_le _) hn (fun h => nomatch h)).trans ?_
  rw [show Tab.find (takeMsg m s).merges p.mergeTag = some g from found]
  rfl

/-- A segment partial of no merge under way here is stale. -/
theorem segPartial_unknown (none_ : Tab.find s.merges p.mergeTag = none) : Does (.segPartial m p) s s [] := by
  have hx : exec (.segPartial m p) s = .next (bump ctrStalePartials (takeMsg m s)) := by
    refine (next_peer (f := { opcode := 0xF103, on := .peer, most := 3 }) rfl hs (Nat.zero_le _) hn (fun h => nomatch h)).trans ?_
    rw [show Tab.find (takeMsg m s).merges p.mergeTag = none from none_]
  exact ⟨_, hx, rfl, (List.append_nil _).symm⟩

theorem segPartial_stale (found : Tab.find s.merges p.mergeTag = some g)
    (stale : g.closing = true ∨ g.home.isSome ∨ g.innings % 65536 ≠ p.innings) : Does (.segPartial m p) s s [] := by
  have hx := exec_segPartial hs hn found
  dsimp only at hx
  rw [if_pos (by simpa [or_assoc] using stale)] at hx
  exact ⟨_, hx, rfl, (List.append_nil _).symm⟩

section
variable (found : Tab.find s.merges p.mergeTag = some g) (running : g.closing = false) (own : g.home = none) (innings : g.innings % 65536 = p.innings)
include found running own innings

/-- A segment partial of a home's own merge in its innings is not stale. -/
theorem exec_segPartial_fresh : exec (.segPartial m p) s = .next (
    let t := takeMsg m s
    if now s > p.sentNs + segmentMaxAgeMsVal s * 1000000 then bump ctrAgedSegments t
    else if g.segNodes.any (fun e => e.1 == (p.head, p.segment, p.qoff)) then t
    else advanceMerge p.mergeTag (afterJoin p g t)) := by
  rw [exec_segPartial hs hn found]
  dsimp only
  rw [if_neg (by simp [running, own, innings])]

theorem segPartial_aged (aged : p.sentNs + segmentMaxAgeMsVal s * 1000000 < now s) : Does (.segPartial m p) s s [] := by
  have hx := exec_segPartial_fresh hs hn found running own innings
  dsimp only at hx
  rw [if_pos aged] at hx
  exact ⟨_, hx, rfl, (List.append_nil _).symm⟩

theorem segPartial_repeated (inTime : now s ≤ p.sentNs + segmentMaxAgeMsVal s * 1000000)
    (known : g.segNodes.any (fun e => e.1 == (p.head, p.segment, p.qoff)) = true) : Does (.segPartial m p) s s [] := by
  have hx := exec_segPartial_fresh hs hn found running own innings
  dsimp only at hx
  rw [if_neg (Nat.not_lt.2 inTime), if_pos known] at hx
  exact ⟨_, hx, rfl, (List.append_nil _).symm⟩

theorem segPartial_joins (inTime : now s ≤ p.sentNs + segmentMaxAgeMsVal s * 1000000)
    (new : g.segNodes.any (fun e => e.1 == (p.head, p.segment, p.qoff)) = false) (open_ : mergeComplete s (joinedBy p g) = false) :
    ∃ t y, exec (.segPartial m p) s = .next t ∧ Only g.index s t ∧ (sessAt t g.index).entry = (sessAt s g.index).entry ∧
      Tab.find t.merges p.mergeTag = some y ∧ Underway (joinedBy p g) y := by
  have hx := exec_segPartial_fresh hs hn found running own innings
  dsimp only at hx
  rw [if_neg (Nat.not_lt.2 inTime), new, if_neg Bool.false_ne_true] at hx
  have ha := afterJoin_advances p g (takeMsg m s)
  have hq := (quiet_takeMsg m s).trans ha.quiet
  obtain ⟨y, hy, goes⟩ := advanceMerge_incomplete ha.found ((hq.mergeComplete _).trans open_)
  have hq := hq.trans goes.quiet
  exact ⟨_, y, hx, (hq.beside _).only ((execSegPartial_ord (.refl s)).at_ _ hx).1.sent, hq.entry _, goes.found, hy⟩
end
end

/-! The home's segment frontier at a member (R212). -/

/-- The merge at a member that `SEG_FRONTIER` names: the home by its queue pair, the home's tag, and the innings. -/
def namedByHome (m : Msg) (s : State) : Option (Nat × Merge) :=
  s.merges.find? (fun e => e.2.home == some (peerNodeOf m.qp - ringNodeBaseVal s (sessAt s e.2.index).entry.partition, bits (opWord m 0) 63 32) &&
    e.2.innings % 65536 == bits (opWord m 0) 31 16)

/-- A merge that has noted the frontier of its home. -/
def notedBy (m : Msg) (g : Merge) : Merge := { g with homeFrontier := bits (opWord m 1) 14 0 }

section
variable {k : Nat} {g : Merge} (hs : Serves .peer m s) (hn : m.ops.length = 2)
include hs hn

theorem exec_segFrontier : exec (.segFrontier m) s = .next (
    match namedByHome m s with
    | none => takeMsg m s
    | some (k, g) => advanceMerge k (setMerge k (notedBy m g) (takeMsg m s))) := by
  refine (next_peer (f := { opcode := 0xF104, on := .peer, need := 2, most := 2 }) rfl hs (Nat.le_of_eq hn.symm) (Nat.le_of_eq hn)
    (fun h => nomatch h)).trans ?_
  rfl

theorem segFrontier_unknown (none_ : namedByHome m s = none) : Does (.segFrontier m) s s [] := by
  have hx := exec_segFrontier hs hn
  rw [none_] at hx
  exact ⟨_, hx, rfl, (List.append_nil _).symm⟩

theorem segFrontier_noted (found : namedByHome m s = some (k, g)) (open_ : mergeComplete s g = false) :
    ∃ t y, exec (.segFrontier m) s = .next t ∧ Only g.index s t ∧ (sessAt t g.index).entry = (sessAt s g.index).entry ∧
      Tab.find t.merges k = some y ∧ Underway (notedBy m g) y := by
  have hx := exec_segFrontier hs hn
  rw [found] at hx
  dsimp only at hx
  have ha := advances_setMerge k (notedBy m g) (takeMsg m s)
  have hq := (quiet_takeMsg m s).trans ha.quiet
  obtain ⟨y, hy, goes⟩ := advanceMerge_incomplete ha.found ((hq.mergeComplete _).trans open_)
  have hq := hq.trans goes.quiet
  exact ⟨_, y, hx, (hq.beside _).only ((execSegFrontier_ord (.refl s)).at_ _ hx).1.sent, hq.entry _, goes.found, hy⟩
end

/-- Settles O26: each message from a home or a member by the lemma of its outcome; a merge that is not complete goes on by
`advanceMerge_incomplete`. -/
theorem ringsServeTheHome : Obligations.RingsServeTheHome := by
  unfold Obligations.RingsServeTheHome
  refine ⟨⟨fun m r s hs run hn => ⟨fun i found stands => ?_, ringCmd_stale hs run hn⟩, fun m r i s hs hn found ready layer mine => ?_,
    fun m r i s hs hn found ready layer => ?_, fun m r i b s hs hn found hb layer merging => ?_⟩, fun m p s hs hn => ?_, fun m s hs hn => ?_⟩
  · have hx := exec_ringCmd hs run hn found stands
    exact ⟨ringCmd_freezes hs hx, ringCmd_cancels hs hx, ringCmd_extends hs hx, ringCmd_admit hs hx⟩
  · exact ⟨fun u => ringAppend_appends hs hn found ready layer mine, ringAppend_waits hs hn found ready layer mine⟩
  · exact ⟨ringQuery_joins hs hn found ready layer, ringQblock_starts hs hn found ready layer⟩
  · exact ringOutput_comes hs hn found hb layer merging
  · refine ⟨fun g found running own innings => ⟨fun inTime new open_ => ?_, segPartial_repeated hs hn found running own innings,
      segPartial_aged hs hn found running own innings⟩, segPartial_unknown hs hn, fun g => segPartial_stale hs hn⟩
    obtain ⟨t, y, hx, only, entry, at_, hy⟩ := segPartial_joins hs hn found running own innings inTime new open_
    exact ⟨t, y, hx, only, entry, at_, hy.segNodes, hy.leaves, hy.todo⟩
  · refine ⟨fun k g found open_ => ?_, segFrontier_unknown hs hn⟩
    obtain ⟨t, y, hx, only, entry, at_, hy⟩ := segFrontier_noted hs hn found open_
    exact ⟨t, y, hx, only, entry, at_, hy.homeFrontier, hy.leaves, hy.todo⟩

end Sys2Proof.Machine
end

section
/-!
The token side: binds, text, flushes and escape sets (R273, R274, R277 to R285, R293), and the masks of steps (R294, R296).
-/
namespace Sys2Proof.Machine

variable {s t u e : State} {m : Msg} {i : Nat} {c : Instr}

/-! Counting beside a session's write. -/
theorem counts_bumpBy (k n : Nat) (s : State) : Counts s (bumpBy k n s) := ⟨sameLinks_of_fields rfl rfl, rfl, rfl⟩

/-- What counting leaves alone stays so when a session is written on both sides. -/
theorem counts_modSess (h : Counts s t) (i : Nat) (f : Session → Session) : Counts (modSess i f s) (modSess i f t) := by
  refine ⟨?_, ?_, h.out⟩
  · have before : SameLinks (modSess i f s) s := sameLinks_of_fields rfl rfl
    have after : SameLinks t (modSess i f t) := sameLinks_of_fields rfl rfl
    exact (before.trans h.toSameLinks).trans after
  · have bare_modSess : ∀ v, bare (modSess i f v) = modSess i f (bare v) := fun _ => rfl
    rw [bare_modSess, bare_modSess, h.bare]

theorem counts_taken (m : Msg) (s : State) : Counts s (taken m s) := ⟨(quiet_taken m s).toSameLinks, bare_taken m s, out_taken m s⟩

/-- `exec_reaches` for a command whose operands may be malformed, with those that are not. -/
theorem exec_reaches_sound {f : Form} {torn bad : Bool} {h : Nat → State → State} (hx : exec c s = .next (sessionCmd f torn m bad h s))
    (hr : Reaches torn m i s) (on : f.on = .bound) (need : f.need ≤ m.ops.length) (most : m.ops.length ≤ f.most) (sound : bad = false) :
    exec c s = .next (h i (taken m s)) := by
  subst sound
  exact exec_reaches hx hr on need most

/-! Answers of a session's command that a ring's members may be asked to carry out (R458). -/

/-- What a command answers at once does not depend on what telling others writes. -/
theorem ringDone_of_apart (h : apart t = apart s) : ringDone m i t = ringDone m i s := by
  have reads : ∀ v, ringDone m i v = ringDone m i (apart v) := fun _ => rfl
  rw [reads t, reads s, h]

/-- A granted command is answered at once, or once the ring's members have answered. -/
theorem answerRing_sends (hr : qpReady s m.qp = true) : ∃ r, (answerRing i m .ok s).out = s.out ++ r ++ ringDone m i s := by
  cases h : (ringMembers s (sessAt s i).entry.partition).isEmpty || (sessAt s i).ringHome.isSome with
  | true =>
    refine ⟨[], ?_⟩
    unfold answerRing ringDone
    simp [h, out_refuse hr]
  | false =>
    obtain ⟨r, sent⟩ := (answerRing_ord (i := i) (m := m) (a := .ok) (.refl s)).1.sent
    refine ⟨r, ?_⟩
    unfold ringDone
    simp [h, sent]

/-- A session's command that ends in a ring's answer completes with what it has written by then. -/
theorem apart_ringAnswered (hx : exec c s = .next (answerRing i m .ok u)) (hu : apart u = apart e) (hr : qpReady u m.qp = true)
    (ho : s.out <+: u.out) (same : ringDone m i e = ringDone m i s) : DoesApart c s e (ringDone m i s) := by
  obtain ⟨p, hp⟩ := ho
  obtain ⟨r, hs⟩ := answerRing_sends (i := i) hr
  refine ⟨_, p ++ r, hx, (apart_answerRing ..).trans hu, ?_⟩
  rw [hs, ringDone_of_apart hu, same, ← hp]
  simp only [List.append_assoc]

/-! `TOKEN_BIND`. -/
section
variable (h : bare t = bare s)
include h
theorem bindCheck_of_bare (m : Msg) : bindCheck t m = bindCheck s m := by
  obtain ⟨_, _, _, _, _, _, _, _, _, _, rfl⟩ := exists_of_bare h; rfl
theorem bindWords_of_bare (m : Msg) : bindWords t m = bindWords s m := by
  obtain ⟨_, _, _, _, _, _, _, _, _, _, rfl⟩ := exists_of_bare h; rfl
theorem vocabOf_of_bare (w : Word) : vocabOf t w = vocabOf s w := by
  obtain ⟨_, _, _, _, _, _, _, _, _, _, rfl⟩ := exists_of_bare h; rfl
theorem masks_of_bare : t.masks = s.masks := by
  have same := congrArg State.masks h
  exact same
end

/-- Session `i` bound with the words `w`: its stack segments are free. -/
def boundWith (i : Nat) (w : Word × Word × Word) (s : State) : State :=
  modSess i (fun y => { y with record.grammar := w.1, record.tokenCarry := w.2.1, record.seqLists := w.2.2 }) (releaseSegments i s)

theorem boundWith_eq (i : Nat) (w : Word × Word × Word) (s : State) : boundWith i w s =
    { s with
      segments := s.segments.filter (fun e => e.2.owner != i)
      sessions := Tab.put s.sessions i { sessAt s i with
        reservedSeg := none, record.grammar := w.1, record.tokenCarry := w.2.1, record.seqLists := w.2.2 } } := by
  unfold boundWith releaseSegments
  rw [modSess, sessAt_modSess]
  simp only [modSess, setSess, Tab.put_put]
  rfl

theorem sessAt_boundWith (i : Nat) (w : Word × Word × Word) (s : State) : sessAt (boundWith i w s) i = { sessAt s i with
    reservedSeg := none, record.grammar := w.1, record.tokenCarry := w.2.1, record.seqLists := w.2.2 } := by
  unfold boundWith releaseSegments
  rw [sessAt_modSess, sessAt_modSess]
  rfl

/-- Binding a session leaves the ring that its commands are asked of. -/
theorem ringDone_boundWith (i : Nat) (w : Word × Word × Word) (s : State) : ringDone m i (boundWith i w s) = ringDone m i s := by
  unfold ringDone
  rw [sessAt_boundWith]
  rfl

theorem bare_boundWith (h : bare t = bare s) (i : Nat) (w : Word × Word × Word) : bare (boundWith i w t) = bare (boundWith i w s) := by
  obtain ⟨_, _, _, _, _, _, _, _, _, _, rfl⟩ := exists_of_bare h; rfl

/-- A bind of a session in which R273 allows it, with images that agree (R274). -/
theorem applyBind_binds (hs : (sessAt s i).entry.state = .ready ∨ (sessAt s i).entry.state = .waiting ∨ (sessAt s i).entry.state = .parked)
    (hb : bindCheck s m = .ok) : applyBind i m s = (.ok, mirrorUpdate i (boundWith i (bindWords s m) s)) := by
  have allowed : (!((sessAt s i).entry.state == .ready || (sessAt s i).entry.state == .waiting || (sessAt s i).entry.state == .parked)) = false := by
    rcases hs with h | h | h <;> rw [h] <;> rfl
  unfold applyBind
  dsimp only
  rw [allowed, hb]
  rfl

theorem exec_tokenBind (hr : Reaches false m i s) (hn : m.ops.length = 6) (mode : opNat m 4 ≤ 2) (raw : opNat m 5 ≤ 1) :
    exec (.tokenBind m) s = .next (answerRing i m (applyBind i m (taken m s)).1 (applyBind i m (taken m s)).2) := by
  have fits : (decide (opNat m 4 > 2) || decide (opNat m 5 > 1)) = false := by simp; omega
  exact exec_reaches_sound (f := { opcode := 0x0304, on := .bound, need := 6, most := 6, setup := true })
    (h := fun i t => answerRing i m (applyBind i m t).1 (applyBind i m t).2) rfl hr rfl (Nat.le_of_eq hn.symm) (Nat.le_of_eq hn) fits

theorem tokenBind_binds (hr : Reaches false m i s) (hn : m.ops.length = 6) (mode : opNat m 4 ≤ 2) (raw : opNat m 5 ≤ 1)
    (hb : bindCheck s m = .ok)
    (hs : (sessAt s i).entry.state = .ready ∨ (sessAt s i).entry.state = .waiting ∨ (sessAt s i).entry.state = .parked) :
    DoesApart (.tokenBind m) s (boundWith i (bindWords s m) s) (ringDone m i s) := by
  have hx := exec_tokenBind hr hn mode raw
  have taken_same := bare_taken m s
  rw [applyBind_binds (by rw [sessAt_taken]; exact hs) ((bindCheck_of_bare taken_same m).trans hb), bindWords_of_bare taken_same] at hx
  generalize hv : boundWith i (bindWords s m) (taken m s) = v at hx
  have out : v.out = s.out := by rw [← hv]; exact out_taken m s
  have ready : qpReady v m.qp = true := by rw [← hv]; exact (ready_taken m s _).trans hr.serves.ready
  refine apart_ringAnswered hx ?_ ((ready_mirrorUpdate ..).trans ready) ?_ (ringDone_boundWith ..)
  · rw [apart_mirrorUpdate, ← hv]
    exact apart_of_bare (bare_boundWith taken_same ..)
  · rw [← out]
    exact (mirrorUpdate_ord (.refl v)).1.sent

/-! `TEXT_IN`. -/

/-- Text that reaches a session with tokens on: its whole pieces are cut into tokens, its unfinished end is held, and counting follows
(R277 to R282). -/
theorem exec_textIn {v : Vocab} (hr : Reaches false m i s) (hn : m.ops.length = 1) (some_ : m.body ≠ []) (fits : m.body.length ≤ 65536)
    (hs : textStatus (sessAt s i) = .ok) (hv : vocabOf s (sessAt s i).record.tokenCarry = some v) :
    let l := tkHeld (sessAt s i).record.tokenCarry ++ m.body
    let cut := judge (bit (opWord m 0) 0) l.length l
    let toks := (cutPieces v [] cut.1).1
    ∃ u, Counts (modSess i (fun y => { y with record.tokenCarry := setTk y.record.tokenCarry cut.2 }) s) u ∧
      exec (.textIn m) s = .next (respond m { body := wordsBytes (word toks.length :: toks.map word) } (mirrorUpdate i u)) := by
  intro l cut toks
  have sound : (m.body.isEmpty || decide (m.body.length > 65536)) = false := by simp; exact ⟨some_, fits⟩
  have hx := exec_reaches_sound (c := .textIn m) (f := { opcode := 0x0305, on := .bound, need := 1, most := 1, setup := true }) rfl hr rfl
    (Nat.le_of_eq hn.symm) (Nat.le_of_eq hn) sound
  dsimp only at hx
  rw [sessAt_taken, hs, vocabOf_of_bare (bare_taken m s), hv] at hx
  refine ⟨_, ?_, hx⟩
  exact ((((counts_modSess (counts_taken m s) i _).trans (counts_bumpBy ..)).trans (counts_bumpBy ..)).trans (counts_bumpBy ..)).trans (counts_pmu ..)

/-! `DETOK_FLUSH`. -/

theorem exec_detokFlush (hr : Reaches false m i s) (hn : m.ops.length = 0) (hs : textStatus (sessAt s i) = .ok) :
    exec (.detokFlush m) s = .next (match (sessAt s i).step with
      | none => mirrorUpdate i (flushDetok i m.qp m.tag (taken m s))
      | some st => modSess i (fun y => { y with step := some { st with flushes := st.flushes ++ [(m.qp, m.tag)] } }) (taken m s)) := by
  rw [exec_reaches (c := .detokFlush m) (f := { opcode := 0x0306, on := .bound, setup := true }) rfl hr rfl (Nat.zero_le _) (Nat.le_of_eq hn)]
  dsimp only
  rw [sessAt_taken, hs]
  cases (sessAt s i).step <;> rfl

/-- The message that a flush of session `x` sends: the replacement of each byte held (R283, R285). -/
def flushed (x : Session) (qp : Nat) (tag : BitVec 32) : Msg :=
  { qp, opcode := 0x8306, tag, handle := x.record.handle, body := ((dtHeld x.record.tokenCarry).map (fun _ => replacement)).flatten }

theorem bare_flushDetok (i qp : Nat) (tag : BitVec 32) (s : State) : bare (flushDetok i qp tag s) =
    bare (modSess i (fun y => { y with record.tokenCarry := setDt y.record.tokenCarry [] }) s) := bare_sendMsg ..

theorem out_flushDetok {qp : Nat} (hr : qpReady s qp = true) (i : Nat) (tag : BitVec 32) :
    (flushDetok i qp tag s).out = s.out ++ [.msg (flushed (sessAt s i) qp tag)] := out_sendMsg hr

theorem detokFlush_flushes (hr : Reaches false m i s) (hn : m.ops.length = 0) (hs : textStatus (sessAt s i) = .ok)
    (idle : (sessAt s i).step = none) :
    ∃ t r, exec (.detokFlush m) s = .next t ∧
      apart t = apart (modSess i (fun y => { y with record.tokenCarry := setDt y.record.tokenCarry [] }) s) ∧
      t.out = s.out ++ [.msg (flushed (sessAt s i) m.qp m.tag)] ++ r := by
  have hx := exec_detokFlush hr hn hs
  rw [idle] at hx
  have ready : qpReady (taken m s) m.qp = true := (ready_taken m s _).trans hr.serves.ready
  obtain ⟨r, sent⟩ := (mirrorUpdate_ord (i := i) (.refl (flushDetok i m.qp m.tag (taken m s)))).1.sent
  refine ⟨_, r, hx, ?_, ?_⟩
  · rw [apart_mirrorUpdate]
    exact apart_of_bare ((bare_flushDetok ..).trans (counts_modSess (counts_taken m s) i _).bare)
  · rw [← sent, out_flushDetok ready, sessAt_taken, out_taken]

theorem detokFlush_waits {st : Step} (hr : Reaches false m i s) (hn : m.ops.length = 0) (hs : textStatus (sessAt s i) = .ok)
    (busy : (sessAt s i).step = some st) :
    Does (.detokFlush m) s (modSess i (fun y => { y with step := some { st with flushes := st.flushes ++ [(m.qp, m.tag)] } }) s) [] := by
  have hx := exec_detokFlush hr hn hs
  rw [busy] at hx
  exact ⟨_, hx, (counts_modSess (counts_taken m s) i _).bare, (out_taken m s).trans (List.append_nil _).symm⟩

/-! `ESCAPE_SET`. -/

/-- A session of context `k` has tokens on, so that its escape set stays (R293). -/
def escapesUsed (s : State) (k : Nat) : Bool :=
  s.sessions.any (fun e => e.2.record.context == k && e.2.entry.state != .free && e.2.entry.state != .tombstone && tokOn e.2.record.tokenCarry)

theorem exec_escapeSet {ids : List Word} (hs : Serves .bound m s) (run : s.mode = .run) (hn : m.ops.length = 0)
    (hl : listWords m.body = some ids) (few : ids.length ≤ 16) (whole : (ctxAt s (qpAt s m.qp).context).tornDown = false) :
    exec (.escapeSet m) s = .next (
      let k := (qpAt s m.qp).context
      if escapesUsed s k then refuse m .escapeInUse (takeMsg m s)
      else refuse m .ok { takeMsg m s with contexts := Tab.put s.contexts k { ctxAt s k with escapes := ids.map BitVec.toNat } }) := by
  have hx := next_request (c := .escapeSet m) (f := { opcode := 0x0307, on := .bound, setup := true }) rfl hs (Nat.zero_le _) (Nat.le_of_eq hn)
    (fun _ => run) (by rw [hl]; exact decide_eq_false (Nat.not_lt.2 few))
  dsimp only at hx
  rw [hl] at hx
  refine hx.trans ?_
  have whole' : (ctxAt (takeMsg m s) (qpAt (takeMsg m s) m.qp).context).tornDown = false := whole
  rw [if_neg (Bool.eq_false_iff.1 whole')]
  rfl

/-! `MASK_FORM`. -/

theorem bare_sendMask (k : Nat) (m : Msg) (s : State) : bare (sendMask k m s) = bare s := by
  unfold sendMask
  split
  · rw [bare_sendPackets, bare_emit]
  · rfl

theorem out_sendMask (k : Nat) (hr : qpReady s m.qp = true) : (sendMask k m s).out = s.out ++ [.msg m] := by
  unfold sendMask
  rw [if_pos hr, out_sendPackets]
  rfl

/-- Reserving a segment writes the segments alone, and may count (R288). -/
theorem reserveSegment_counts (i : Nat) (k : Tok) (s : State) : ∃ g, Counts { s with segments := g } (reserveSegment i k s).2 := by
  unfold reserveSegment
  dsimp only
  split
  · exact ⟨s.segments, .refl s⟩
  · split
    · exact ⟨_, .refl _⟩
    · exact ⟨s.segments, counts_bump ..⟩

/-- A step with layers left does not end. -/
theorem tryEnd_underway {st : Step} (h : (sessAt s i).step = some st) (more : st.ending = false) : tryEnd i s = s := by
  unfold tryEnd
  rw [h]
  simp [more]

/-- A step whose mask has been formed from the token state `k` (R294 to R296). -/
def maskedStep (k : Tok) (f : MaskForm × Bool × Bool) (st : Step) : Step :=
  { withTok (afterMask k f.2.1 f.2.2) st with masked := true, deadEnd := f.1 == .deadEnd }

/-- The message that carries a mask to a request's queue pair and tag (R300). -/
def maskMsg (r : MaskReq) (st : Step) (v : Vocab) (f : MaskForm) (x : Session) : Msg :=
  { qp := r.qp, opcode := 0xF003, tag := r.tag, handle := x.record.handle, body := maskBytes r.index r.seq v.size (maskMode st.tokenCarry) f }

/-- The oldest request's mask is formed and sent; but for counting, the step's own change is all that is written. -/
theorem exec_maskForm {r : MaskReq} {rest : List MaskReq} {st : Step} {v : Vocab} (hg : Grants s) (oldest : s.masks = r :: rest)
    (hst : (sessAt s r.index).step = some st) (hv : vocabOf s st.tokenCarry = some v) :
    let u := (reserveSegment r.index (stepTok st) { s with masks := rest }).2
    let k := (reserveSegment r.index (stepTok st) { s with masks := rest }).1
    let f := formMask u r.index v k
    ∃ w, Counts (modSess r.index (fun x => { x with step := some (maskedStep k f st) }) u) w ∧
      exec .maskForm s = .next (tryEnd r.index (sendMask r.at_ (maskMsg r st v f.1 (sessAt u r.index)) w)) := by
  intro u k f
  have abandoned : Counts u (if f.2.1 then bump ctrForcedAbandoned u else u) := by
    split
    · exact counts_bump ..
    · exact .refl u
  refine ⟨_, ((counts_modSess abandoned r.index _).trans (counts_bump ctrMasksSent _)).trans
    (counts_pmu { code := 0x12, priv := .context (sessAt u r.index).record.context, requester := some 0x141 } _), ?_⟩
  refine (next_held rfl hg).trans ?_
  rw [oldest]
  dsimp only
  rw [show sessAt { s with masks := rest } r.index = sessAt s r.index from rfl, hst]
  dsimp only
  rw [show vocabOf { s with masks := rest } st.tokenCarry = vocabOf s st.tokenCarry from rfl, hv]
  rw [← sessAt_of_bare abandoned.bare r.index]
  rfl

/-- What the forming of the oldest request's mask leaves and sends, where the step has layers left. -/
theorem maskForm_forms {r : MaskReq} {rest : List MaskReq} {st : Step} {v : Vocab} (hg : Grants s) (oldest : s.masks = r :: rest)
    (hst : (sessAt s r.index).step = some st) (hv : vocabOf s st.tokenCarry = some v) (hr : qpReady s r.qp = true) (more : st.ending = false) :
    let u := (reserveSegment r.index (stepTok st) { s with masks := rest }).2
    let k := (reserveSegment r.index (stepTok st) { s with masks := rest }).1
    let f := formMask u r.index v k
    ∃ t, exec .maskForm s = .next t ∧ t.masks = rest ∧ (sessAt t r.index).step = some (maskedStep k f st) ∧
      t.out = s.out ++ [.msg (maskMsg r st v f.1 (sessAt u r.index))] := by
  intro u k f
  obtain ⟨w, formed, hx⟩ := exec_maskForm hg oldest hst hv
  obtain ⟨g, reserved⟩ := reserveSegment_counts r.index (stepTok st) { s with masks := rest }
  have step : (sessAt (sendMask r.at_ (maskMsg r st v f.1 (sessAt u r.index)) w) r.index).step = some (maskedStep k f st) := by
    rw [sessAt_of_bare (bare_sendMask ..), sessAt_of_bare formed.bare, sessAt_modSess]
  have ready : qpReady w r.qp = true := by
    rw [formed.ready]
    refine (reserved.ready r.qp).trans hr
  rw [tryEnd_underway step more] at hx
  refine ⟨_, hx, ?_, step, ?_⟩
  · calc (sendMask r.at_ _ w).masks
      _ = w.masks := masks_of_bare (bare_sendMask ..)
      _ = u.masks := (masks_of_bare formed.bare).trans rfl
      _ = rest := (masks_of_bare reserved.bare).trans rfl
  · calc (sendMask r.at_ _ w).out
      _ = w.out ++ [_] := out_sendMask r.at_ ready
      _ = u.out ++ [_] := by rw [formed.out]; rfl
      _ = s.out ++ [_] := by rw [show u.out = s.out from reserved.out]

/-- Settles O7: each command of the token side by the lemma of its outcome; the mask by `maskForm_forms`, which leaves a step that has layers
left in flight. -/
theorem tokenWordsAndMasksAreFormed : Obligations.TokenWordsAndMasksAreFormed := by
  unfold Obligations.TokenWordsAndMasksAreFormed
  refine ⟨⟨fun m i s hr hn mode raw hb => ?_, fun m i v s hr hn some_ fits hs hv => ?_, fun m i s hr hn hs => ?_,
    fun m s ids hs run hn hl few => ?_⟩, fun r rest st v s hg oldest hst hv hr more => ?_⟩
  · intro x state w y
    rw [← boundWith_eq]
    exact tokenBind_binds hr hn mode raw hb state
  · intro x l cut toks
    obtain ⟨u, cuts, hx⟩ := exec_textIn hr hn some_ fits hs hv
    refine apart_answered hx ((apart_mirrorUpdate ..).trans (apart_of_bare cuts.bare)) ?_ ?_
    · exact (ready_mirrorUpdate ..).trans ((cuts.ready _).trans hr.serves.ready)
    · rw [← show u.out = s.out from cuts.out]
      exact (mirrorUpdate_ord (.refl u)).1.sent
  · intro x text
    exact ⟨detokFlush_flushes hr hn hs, fun st => detokFlush_waits hr hn hs⟩
  · intro k whole used
    have hx := exec_escapeSet hs run hn hl few whole
    dsimp only at hx
    refine ⟨fun free => ?_, fun taken => ?_⟩
    · rw [show escapesUsed s (qpAt s m.qp).context = false from free, if_neg Bool.false_ne_true] at hx
      exact does_answers hx rfl hs.ready rfl
    · rw [show escapesUsed s (qpAt s m.qp).context = true from taken, if_pos rfl] at hx
      exact does_answers hx rfl hs.ready rfl
  · intro u k f bytes
    obtain ⟨t, hx, masks, step, out⟩ := maskForm_forms hg oldest hst hv hr more
    exact ⟨t, _, hx, masks, step, rfl, rfl, rfl, rfl, out⟩

end Sys2Proof.Machine
end

section
/-!
`COMPASS_INSERT` of a record whose centroid field is 0xFFFF_FFFF (R319): it goes to the nearest centroid, however many the index has.
-/
namespace Sys2Proof.Machine

variable {s t u : State} {m : Msg} {v w : VIndex} {x c r : Nat} {item code : List Byte} {st : Status}

/-! The command: it acts at once on the index of its own context, and its answer stands before all that follows it. -/

/-- A host's insert reaches the index `v` of its own context, which stands and is not faulted, and nothing on it comes first (R265, R311, R333,
R338). -/
structure Inserts (m : Msg) (v : VIndex) (s : State) : Prop where
  serves : Serves .bound m s
  run : s.mode = .run
  words : m.ops.length = 1
  free : compassBlocked s (indexOf m) false s.searchWaits = false
  found : Tab.find s.indexes (indexOf m) = some v
  own : v.context = (qpAt s m.qp).context
  sound : v.faulted = false
  whole : (ctxAt s (qpAt s m.qp).context).tornDown = false
  op : m.opcode = 0x0403
  count : badCount 256 m.body = false

theorem compassDenied_own (found : Tab.find s.indexes (indexOf m) = some v) (own : v.context = (qpAt s m.qp).context)
    (whole : (ctxAt s (qpAt s m.qp).context).tornDown = false) (always : Bool) : compassDenied s m always = none := by
  unfold compassDenied
  dsimp only
  rw [found]
  simp [own, whole]

theorem Inserts.notDenied (h : Inserts m v s) (always : Bool) : compassDenied (takeMsg m s) m always = none :=
  compassDenied_own (s := takeMsg m s) h.found h.own h.whole always

theorem Inserts.onIndex_eq (h : Inserts m v s) (f : VIndex → State → State) : onIndex m false f (takeMsg m s) = f v (takeMsg m s) := by
  have judged : compassJudge (takeMsg m s) m false = .ok := by
    unfold compassJudge
    rw [h.notDenied, show Tab.find (takeMsg m s).indexes (indexOf m) = some v from h.found]
    simp [h.sound]
  unfold onIndex
  rw [judged, show Tab.find (takeMsg m s).indexes (indexOf m) = some v from h.found]

theorem exec_compassInsert (h : Inserts m v s) : exec (.compassInsert m) s = .next (settleCompass (doInsert m (takeMsg m s))) := by
  have act : applyCompass m (now s) s.searchCount (takeMsg m s) = doInsert m (takeMsg m s) := by
    unfold applyCompass
    rw [h.op]
    rfl
  refine (next_request (f := { opcode := 0x0403, on := .bound, need := 1, most := 1, setup := true }) rfl h.serves
    (Nat.le_of_eq h.words.symm) (Nat.le_of_eq h.words) (fun _ => h.run) h.count).trans ?_
  dsimp only
  rw [h.notDenied, Option.filter_none]
  dsimp only
  rw [show compassBlocked (takeMsg m s) (indexOf m) false (takeMsg m s).searchWaits = false from h.free, if_neg Bool.false_ne_true]
  exact congrArg (fun t => Host.Outcome.next (settleCompass t)) act

/-- One record that fails is answered with its status and no record applied (R319). -/
theorem compassInsert_answers_failed (h : Inserts m v s) (one : listItems (codeBytes v + 16) m.body = some [item])
    (failed : insertRecord (indexOf m) v item (takeMsg m s) = (st, w, t)) (bad : st ≠ .ok) (ready : qpReady t m.qp = true) :
    ∃ u, exec (.compassInsert m) s = .next (settleCompass u) ∧
      u.out = t.out ++ [.msg (response m { status := st, ops := [word 0] })] := by
  have all : insertAll (indexOf m) v 0 (takeMsg m s) [item] = (st, 0, w, t) := by
    unfold insertAll
    rw [failed]
    split
    · next applied => exact absurd (congrArg Prod.fst applied) bad
    · next kept =>
      cases kept
      rfl
  refine ⟨respond m { status := st, ops := [word 0] } (setIndex (indexOf m) w t), ?_, out_respond ready⟩
  rw [exec_compassInsert h, doInsert, h.onIndex_eq]
  dsimp only
  rw [one]
  dsimp only
  rw [all]

/-- What settles after a Compass command takes nothing back that was sent: the command's own answer is the same however it is told. -/
theorem answer_before_settle {c : Instr} {l : List Sent} {a b : Sent} (ht : exec c s = .next (settleCompass t))
    (hu : exec c s = .next (settleCompass u)) (outT : t.out = l ++ [a]) (outU : u.out = l ++ [b]) : a = b := by
  have same : settleCompass t = settleCompass u := Host.Outcome.next.inj (ht.symm.trans hu)
  have sentT : t.out <+: (settleCompass t).out := (settleCompass_ord (.refl t)).1.sent
  have sentU : u.out <+: (settleCompass t).out := same ▸ (settleCompass_ord (.refl u)).1.sent
  have eq : t.out = u.out := by
    rw [List.prefix_iff_eq_take.1 sentT, List.prefix_iff_eq_take.1 sentU, outT, outU, List.length_append, List.length_append]
    rfl
  rw [outT, outU] at eq
  exact List.singleton_inj.1 (List.append_cancel_left eq)

/-! The record: the nearest centroid, and the room in its list. -/

/-- A code at distance 0 from centroid 0 is nearest to it: ties go to the lower number (R319). -/
theorem nearest_eq_zero (same : distance (centroidCode s v 0) code = 0) : nearest s v code = 0 := by
  unfold nearest foldRange
  refine congrArg Prod.snd (List.foldlRecOn (motive := (· = ((0, 0) : Nat × Nat))) _ _ rfl fun best kept c _ => ?_)
  dsimp only at kept ⊢
  rw [kept]
  by_cases first : c = 0
  · rw [first, same]
    rfl
  · have not_less : (decide (c = 0) || decide (distance (centroidCode s v c) code < 0)) = false := by
      rw [decide_eq_false first, decide_eq_false (Nat.not_lt_zero _)]
      rfl
    rw [not_less]
    rfl

/-- A record without a named centroid goes to the nearest, and fails where that centroid's list has no room (R313, R319). -/
theorem insertRecord_nearest_noFrame (range : numAt item 0 8 < v.maps * 262144) (unnamed : numAt item (8 + codeBytes v) 8 = 0xFFFFFFFF)
    (absent : recordState s v (numAt item 0 8) = 0) (unsealed : v.sealed = false)
    (full : appendEntry x v (nearest s v (slice item 8 (codeBytes v))) (numAt item 0 8) (slice item 8 (codeBytes v)) s = none) :
    insertRecord x v item s = (.indexNoFrame, v, s) := by
  have within : ¬v.maps * 262144 ≤ numAt item 0 8 := Nat.not_le.2 range
  unfold insertRecord
  dsimp only
  rw [absent, unnamed, unsealed, if_pos rfl, full]
  simp [within]

/-- A partition without fielders has no frame to give (R312). -/
theorem allocIndexFrame_noFielders {y p j : Nat} {f : FrameState} (poor : partFielders s p = []) : allocIndexFrame x y p j f s = none := by
  unfold allocIndexFrame
  rw [poor]
  rfl

/-- A list whose last frame is full, or that has none, takes a frame for its next record (R316). -/
theorem appendEntry_noFielders (full : (listAt v c).entries % entriesPerFrame v = 0) (poor : partFielders s v.partition = []) :
    appendEntry x v c r code s = none := by
  unfold appendEntry
  dsimp only
  rw [if_pos full, allocIndexFrame_noFielders poor]
  rfl

/-- A list whose last frame has room takes no frame (R316). -/
theorem appendEntry_room (room : (listAt v c).entries % entriesPerFrame v ≠ 0) : appendEntry x v c r code s ≠ none := by
  unfold appendEntry
  dsimp only
  rw [if_neg room]
  exact Option.some_ne_none _

/-! An index of 2 ^ 32 centroids, which R310 does not allow and the statement does not exclude: 0xFFFF_FFFF is one of their numbers. -/
namespace Unnamed

/-- Only the list of centroid 0xFFFF_FFFF has a frame. -/
def index : VIndex :=
  { context := 1, partition := 0, units := 1, centroids := 2 ^ 32, maps := 1, centroidFrames := [1], dirFrames := [2], mapFrames := [3]
    lists := [(0xFFFFFFFF, { entries := 1, frames := [4] })] }

/-- Record 0, all zero, without a named centroid. -/
def record : List Byte := List.replicate 24 0 ++ leBytes 8 0xFFFFFFFF

/-- `COMPASS_INSERT` of that record in index 3. -/
def message : Msg := { qp := 512, opcode := 0x0403, tag := 7, handle := 0, ops := [3], body := leBytes 8 1 ++ record }

/-- A module in Run whose partition 0 holds no granule, so that no further frame can be taken. -/
def state : State :=
  { mode := .run, dict.run := [(0x300001, 0)], contexts := [(1, { mode := .open_ })], indexes := [(3, index)], sec.state := .ready
    qps := [(512, { state := .ready, bound := true, context := 1, created := true })] }

theorem inserts : Inserts message index state where
  serves := ⟨rfl, rfl, by decide, by decide, by decide, rfl, rfl⟩
  run := rfl
  words := rfl
  free := by decide
  found := rfl
  own := rfl
  sound := rfl
  whole := rfl
  op := rfl
  count := by decide

theorem items : listItems (codeBytes index + 16) message.body = some [record] := by decide
theorem id_eq : numAt record 0 8 = 0 := by decide
theorem centroid_eq : numAt record (8 + codeBytes index) 8 = 0xFFFFFFFF := by decide
theorem absent : recordState state index 0 = 0 := by decide
theorem noFielders : partFielders (takeMsg message state) index.partition = [] := by decide

theorem nearest_eq : nearest (takeMsg message state) index (slice record 8 (codeBytes index)) = 0 := nearest_eq_zero (by decide)

/-- The list of centroid 0, the nearest, has no room. -/
theorem insert_noFrame : insertRecord 3 index record (takeMsg message state) = (.indexNoFrame, index, takeMsg message state) :=
  insertRecord_nearest_noFrame (by decide) centroid_eq (by decide) rfl
    (appendEntry_noFielders (by rw [nearest_eq]; decide) noFielders)

end Unnamed

/-- Refutes O19: the clause of `COMPASS_INSERT` lacks the premise that the centroid is named. In an index of 2 ^ 32 centroids the field
0xFFFF_FFFF, below their number and with room in the list of that number, still asks for the nearest centroid (R319): that is centroid 0, whose list
gets no frame, so the answer is `INDEX_NO_FRAME` where the clause has a record applied. -/
theorem not_indexesHoldRecords : ¬ Obligations.IndexesHoldRecords := by
  unfold Obligations.IndexesHoldRecords
  intro ⟨_, records⟩
  have h := Unnamed.inserts
  obtain ⟨insert, _⟩ := records _ _ _ h.serves h.run h.words h.free h.found h.own h.sound h.whole
  obtain ⟨applied, _⟩ := insert Unnamed.record h.op h.count Unnamed.items (by decide) (by decide)
  obtain ⟨t, _, exT, _, _, _, _, _, outT⟩ := applied (by decide) rfl (appendEntry_room (by decide))
  obtain ⟨u, exU, outU⟩ := compassInsert_answers_failed h Unnamed.items Unnamed.insert_noFrame (by decide) rfl
  have same := answer_before_settle exT exU outT outU
  exact absurd same (by decide)

end Sys2Proof.Machine
end
